-- ==== Sys2Proof/Syntax.lean ====
section
/-! DEFINITION. The commands of the block: one constructor of Instr per row of spec/opcode_table.json, with the row's
operands: what comes from outside the block with the command (an address, a value, a packet, a reading, the verdict of a
physical check) or which unit the event befalls. spec/95_what_each_step_holds.md says what each row holds. -/

namespace Sys2Proof

/-- Who writes a register (R57, R472). -/
inductive Writer where
  | host | sahsin | guest
  deriving DecidableEq, Repr

/-- Outcome of the error correction of one read (R172, R187). -/
inductive Ecc where
  | ok | correctable | uncorrectable
  deriving DecidableEq, Repr

/-- A parity error found while an Anvil works (R96, Table 3.14). -/
inductive AnvParity where
  | none | buf | acc | snap
  deriving DecidableEq, Repr

/-- A parity error found while a Swage works (R152, Table 5.11). -/
inductive SwgParity where
  | none | reg | sbuf | ibuf
  deriving DecidableEq, Repr

/-- A packet as it arrives: the header of Table 10.1 (R266) and its payload. The class is the command's. -/
structure Packet where
  verMajor : Nat
  verMinor : Nat
  slice : Nat
  att : Nat
  src : Nat
  dst : Nat
  flow : Nat
  tryNo : Nat
  epoch : Nat
  length : Nat
  stepTag : Bool
  seq : Nat
  addr : Nat
  injUs : Nat
  crc : Nat
  payload : List Byte
  deriving DecidableEq, Repr

/-- What training finds in one HBM stack (Table 7.2, R182, R183): whether the IEEE 1500 port answers with the geometry of
Table 7.1, the lane faults and redundant lanes of channel 0, whether channel 0 trains after its repair, the channels with
a lane fault in step 1 and the channels that fail step 3 (bit masks). -/
structure StackReport where
  portOk : Bool
  geometryOk : Bool
  ch0Faults : Nat
  ch0Spares : Nat
  ch0Trains : Bool
  laneFaults : Nat
  trainFails : Nat
  deriving DecidableEq, Repr

/-- A capability block (Table 9.9). -/
structure CapBlock where
  verMajor : Nat
  verMinor : Nat
  minMajor : Nat
  role : Nat
  plane : Nat
  port : Nat
  node : Nat
  lanes : Nat
  credit : Nat
  deriving DecidableEq, Repr

/-- What the wire shows a link in training or realignment (Table 9.8): signal present, the good physical lanes (mask),
whether alignment succeeds, the partner lane map and polarity, and the partner's capability block. -/
structure LinkReport where
  signal : Bool
  goodLanes : Nat
  aligned : Bool
  laneMap : Nat
  polarity : Nat
  cap : CapBlock
  deriving DecidableEq, Repr

/-- A received control slot (Table 9.5). -/
structure ControlSlot where
  credit : Nat
  cmd : Nat
  lanes : Nat
  arg : Nat
  txTime : Nat
  echoTime : Nat
  echoHold : Nat
  deriving DecidableEq, Repr

/-- Why a lane faults (R252). -/
inductive LaneCause where
  | signal | lock | symbols
  deriving DecidableEq, Repr

/-- Why a request to host memory fails (R435, Table 17.11). -/
inductive HostErr where
  | ur | ca | timeout | poison | linkDown
  deriving DecidableEq, Repr

/-- Whose request to host memory fails (R435): a record in flight, a transfer of the Tongs slot, the batch read of the HOLD
that a context executes. -/
inductive HostAsk where
  | flight (id : Nat) | tongs (slot : Nat) (fetch : Bool) | hold (ctx : Nat)
  deriving DecidableEq, Repr

/-- Direction of a guest message (R472). -/
inductive GuestDir where
  | fromGuest | toGuest
  deriving DecidableEq, Repr

/-- Why a guest die is withdrawn (R475). -/
inductive WithdrawCause where
  | host | guestLink | rail
  deriving DecidableEq, Repr

/-- Why a takeover load fails (R389). -/
inductive TkoCause where
  | flow | mirror | reset
  deriving DecidableEq, Repr

/-- A PCIe configuration write that the function serves (R434, R436, R438, R439). -/
inductive CfgWrite where
  | regBar (base : Nat)
  | cmdBar (base : Nat)
  | apertureBar (base : Nat)
  | apertureSize (log : Nat)
  | busMaster (on : Bool)
  | msixEnable (on : Bool)
  | functionMask (on : Bool)
  | read (off : Nat)
  deriving DecidableEq, Repr

/-- The commands, in the order of spec/opcode_table.json. -/
inductive Instr where
  /-- R48: a write of `width` bits at window offset `off` by `who`; `full` = all byte enables set. -/
  | regWrite (who : Writer) (off width : Nat) (full : Bool) (val : Nat)
  /-- R52: ARM_CTL.APPLY of the page in `slot`. -/
  | apply (slot : Nat)
  /-- R45: ARM_CTL.DISCARD of the page in `slot`. -/
  | armDiscard (slot : Nat)
  /-- R52: the work boundary of the page in `slot`, with an apply staged. -/
  | applyTaken (slot : Nat)
  /-- R45: PAGE_CTL.ERRLOG_CLEAR of the page in `slot`. -/
  | errlogClear (slot : Nat)
  /-- R47: 1 written to the EVT_STS bits of `mask`. -/
  | evtStsClear (slot mask : Nat)
  /-- R45: 1 written to the EVT_FORCE bits of `mask`. -/
  | evtForce (slot mask : Nat)
  /-- R47: EVT_MASK written with `mask`. -/
  | evtMaskWrite (slot mask : Nat)
  /-- R62: the shadow of the page in `slot` is refreshed. -/
  | telemetrySnapshot (slot : Nat)
  /-- R222: the HOLD record that context `ctx` issues. -/
  | hold (ctx : Nat)
  /-- R22: the buddy acknowledges the whole ward-hold write. -/
  | wardHoldAck
  /-- R223: the STEP record of `ctx`. -/
  | step (ctx : Nat)
  /-- R223: the TEMPER record of `ctx`. -/
  | temper (ctx : Nat)
  /-- R24: phase 6 starts. -/
  | checkStart
  /-- R25: the vote is sent. -/
  | voteSend
  /-- R312: a WELD KIND VOTE record arrives over plane `plane`. -/
  | vote (plane : Nat) (p : Packet)
  /-- R26: a WELD KIND RESULT record arrives. -/
  | result (plane : Nat) (p : Packet)
  /-- R27: T_flip is reached. -/
  | flip
  /-- R224: issue resumes after a discard. -/
  | replayStart
  /-- R29: VOTE_TIMEOUT ends. -/
  | voteTimeout
  /-- R30: TMP_CTL.RESOLVE = FORWARD. -/
  | resolveForward
  /-- R30: TMP_CTL.RESOLVE = DISCARD. -/
  | resolveDiscard
  /-- R31: TMP_CTL.REPLAY_RESUME. -/
  | replayResume
  /-- R69: the MMA record of `ctx`. -/
  | mma (ctx : Nat)
  /-- R73: the die's dispatcher issues its next ready tile to unit `unit`; `par` is a parity error met at its start. -/
  | anvTileIssue (die unit : Nat) (par : AnvParity)
  /-- R83: an attempt of the tile on `unit` ends; `faults` lists the elements of its result that a fault of the unit makes
  other bits (none: the unit is good). -/
  | anvTileEnd (die unit : Nat) (par : AnvParity) (faults : List (Nat × Nat))
  /-- R91: the issue-cap wait of `unit` ends. -/
  | anvIssueWaitEnd (die unit : Nat)
  /-- R93: the MMA command in flight under number `id` completes. -/
  | mmaComplete (id : Nat)
  /-- R92: `unit` has been idle for CLK_GATE_IDLE cycles. -/
  | anvClkGate (die unit : Nat)
  /-- R65: the rotating BIST claims an Anvil of the die. -/
  | bistClaimAnvil (die : Nat)
  /-- R65: the claimed Anvil enters TEST. -/
  | anvTestEnter (die : Nat)
  /-- R66: the claim is forced. -/
  | anvClaimForced (die : Nat)
  /-- R139: the VEC record of `ctx`. -/
  | vec (ctx : Nat)
  /-- R133: the next block goes to slot `slot` of Swage `unit`. -/
  | vecBlockStart (die unit slot : Nat)
  /-- R142: the block in that slot commits. -/
  | vecBlockCommit (die unit slot : Nat) (par : SwgParity)
  /-- R143: the VEC command in flight under number `id` completes. -/
  | vecComplete (id : Nat)
  /-- R154: Swage `unit` has been idle for CLK_GATE_IDLE cycles. -/
  | swgClkGate (die unit : Nat)
  /-- R149: the rotating BIST claims a Swage of the die. -/
  | bistClaimSwage (die : Nat)
  /-- R149: the claimed Swage enters TEST. -/
  | swgTestEnter (die : Nat)
  /-- R150: the claim is forced. -/
  | swgClaimForced (die : Nat)
  /-- R351: the test of the die's claimed Anvil or Swage ends with signature `sig`, and on a mismatch its repeat with
  `sig2`. -/
  | bistTestEnd (die : Nat) (swage : Bool) (sig sig2 : Nat)
  /-- R119: Spark's zero-vector check. `good` = the generator computed the words without fault. -/
  | sparkKat (good : Bool)
  /-- R173: scrub reads the next line of bank `bank`. -/
  | hearthScrubRead (die bank : Nat) (ecc : Ecc)
  /-- R176: the Hearth has zeroed every line. -/
  | hearthInitDone (die : Nat)
  /-- R171: HRT_CTL.HALT written. -/
  | halt (die : Nat) (on : Bool)
  /-- R181: HBM training, one report per stack. -/
  | hbmTrain (reports : List StackReport)
  /-- R187: a read of the sector at device address `addr` returns, for requester `ctx` (63 and above: not a context). -/
  | hbmRead (addr : Nat) (ecc : Ecc) (ctx : Nat)
  /-- R189: the heal of the row at `row` ends: `src` is the row read from the source, if the read succeeded, and
  `readBack` the read-back. -/
  | healDone (row : Nat) (src : Option (List Byte)) (readBack : Ecc)
  /-- R191: a command at `addr` met `errors` parity errors in a row. -/
  | hbmParityError (addr : Nat) (write : Bool) (errors ctx : Nat)
  /-- R192: a refresh or RFM deadline. -/
  | hbmRefresh (stack pc bank : Nat)
  /-- R192: the stack temperature is read. -/
  | hbmTempRead (stack temp : Nat)
  /-- R193: patrol scrub reads the next sector of a pseudo-channel. -/
  | hbmPatrolScrub (stack pc : Nat) (ecc : Ecc)
  /-- R195: the GATHER record of `ctx`. -/
  | gather (ctx : Nat)
  /-- R196: the GATHER in flight under number `id` completes. -/
  | gatherComplete (id : Nat)
  /-- R197: the stacks of a die leave self-refresh; `bad0` and `bad1` are the channels whose recalibration fails. -/
  | hbmSelfRefreshExit (die bad0 bad1 : Nat)
  /-- R208: a host write of `data` at offset `off` of the command window. -/
  | recordSubmit (off : Nat) (data : List Byte)
  /-- R207: CTX_CTL.CREATE. -/
  | create (ctx : Nat)
  /-- R229: CTX_CTL.DESTROY. -/
  | destroy (ctx : Nat)
  /-- R229: CTX_CTL.RESET. -/
  | ctxReset (ctx : Nat)
  /-- R229: the context's last tagged transfer has completed or timed out. -/
  | quarantineEnd (ctx : Nat)
  /-- R228: CTX_CTL.PREEMPT. -/
  | preempt (ctx : Nat)
  /-- R228: CTX_CTL.RESUME. -/
  | resume (ctx : Nat)
  /-- R214: CTX_CTL.SKIP. -/
  | skip (ctx : Nat)
  /-- R205: the dispatcher saves the context. -/
  | ctxSave (ctx : Nat)
  /-- R205: the dispatcher loads the context. -/
  | ctxLoad (ctx : Nat)
  /-- R206: the dispatcher of `die` gives an issue turn. -/
  | recordIssue (die : Nat)
  /-- R212. -/
  | nop (ctx : Nat)
  /-- R210. -/
  | call (ctx : Nat)
  /-- R210. -/
  | ret (ctx : Nat)
  /-- R210. -/
  | loop (ctx : Nat)
  /-- R212: the COPY record of `ctx`. -/
  | copy (ctx : Nat)
  /-- R177: the copy in flight under number `id` completes. -/
  | copyComplete (id : Nat)
  /-- R216: the SIGNAL record of `ctx`. -/
  | signal (ctx : Nat)
  /-- R217: the WAIT record of `ctx`. -/
  | wait (ctx : Nat)
  /-- R217: a WAITING context whose condition has come to hold becomes READY. -/
  | waitWake (ctx : Nat)
  /-- R219: the WAIT's timer fires. -/
  | waitTimeout (ctx : Nat)
  /-- R226: the HEAT record of `ctx`. -/
  | heat (ctx : Nat)
  /-- R212: the STAMP record of `ctx`. -/
  | stamp (ctx : Nat)
  /-- R212: the AFLAGS record of `ctx`. -/
  | aflags (ctx : Nat)
  /-- R220: a SIGNAL packet of KIND OP. -/
  | signalOp (plane : Nat) (p : Packet)
  /-- R221: KIND SUBSCRIBE. -/
  | subscribe (plane : Nat) (p : Packet)
  /-- R221: KIND NOTIFY. -/
  | notify (plane : Nat) (p : Packet)
  /-- R230: KIND BROKEN. -/
  | broken (plane : Nat) (p : Packet)
  /-- R221: KIND CANCEL. -/
  | cancel (plane : Nat) (p : Packet)
  /-- R221: KIND BUSY. -/
  | busy (plane : Nat) (p : Packet)
  /-- R221: the 10 µs of a waiter answered BUSY end. -/
  | subscribeRetry (ctx : Nat)
  /-- R236: the staged SYN apply with OP ALLOC is taken. -/
  | alloc
  /-- R236: OP FREE. -/
  | free
  /-- R236: OP BIND. -/
  | bind
  /-- R236: OP UNBIND. -/
  | unbind
  /-- R236: OP CLEAR_BROKEN. -/
  | clearBroken
  /-- R227: Periscope's evaluation. -/
  | periscopeEval
  /-- R257: PAGE_CTL.ENABLE of link `k` set. -/
  | linkEnable (k : Nat)
  /-- R257: PAGE_CTL.ENABLE of link `k` cleared. -/
  | linkDisable (k : Nat)
  /-- R248: the training in progress on link `k` ends with what `rep` shows. -/
  | linkTraining (k : Nat) (rep : LinkReport)
  /-- R250: LNK_CTL.RETRAIN. -/
  | retrain (k : Nat)
  /-- R251: RETRY_MS ends. -/
  | linkRetry (k : Nat)
  /-- R255: ten minutes of DEGRADED have passed. -/
  | autoRestore (k : Nat)
  /-- R245: a codeword with sequence `seq` is received: per-lane corrected symbols, whether it is uncorrectable, and how
  many packets it completes or holds slots of. -/
  | codewordRx (k seq : Nat) (symbols : List Nat) (uncorrectable : Bool) (packets slots : Nat)
  /-- R246: a control slot is received. -/
  | controlSlotRx (k : Nat) (cs : ControlSlot)
  /-- R246: link `k` sends the packet at the head of its egress queue. -/
  | packetTx (k : Nat)
  /-- R252: physical lane `lane` of link `k` faults. -/
  | laneFault (k lane : Nat) (cause : LaneCause)
  /-- R252: a 100 µs symbol window ends. -/
  | serWindowEnd (k : Nat)
  /-- R253: DEGRADE_REQ received, naming the lanes of `lanes`. -/
  | degradeReq (k lanes : Nat)
  /-- R252: DEGRADE_ACK received naming `lanes`; `rep` is the realignment and short negotiation on them. -/
  | degradeAck (k lanes : Nat) (rep : LinkReport)
  /-- R253: 100 µs without DEGRADE_ACK, or 350 µs without DEGRADED. -/
  | degradeTimeout (k : Nat)
  /-- R257: DOWN_NOTICE received. -/
  | downNotice (k : Nat)
  /-- R256: TXEQ_REQ received for a lane; `up` = one step up, else down. -/
  | txeqReq (k lane : Nat) (up : Bool)
  /-- R256: TXEQ_ACK received. -/
  | txeqAck (k lane : Nat)
  /-- R256: the 100 µs window after a step ends. -/
  | txeqWindowEnd (k lane : Nat)
  /-- R271: a DATA packet. -/
  | data (plane : Nat) (p : Packet)
  /-- R271: a READ packet; `ecc` is the outcome of reading the source range. -/
  | read (plane : Nat) (p : Packet) (ecc : Ecc)
  /-- R271: a WRITE packet. -/
  | write (plane : Nat) (p : Packet)
  /-- R272: an ACK packet. -/
  | ack (plane : Nat) (p : Packet)
  /-- R272: the ACK of flow `flow` falls due. -/
  | ackSend (flow : Nat)
  /-- R265: CTRL OPEN. -/
  | flowOpen (plane : Nat) (p : Packet)
  /-- R265: CTRL OPEN_ACK. -/
  | openAck (plane : Nat) (p : Packet)
  /-- R265: CTRL CLOSE. -/
  | close (plane : Nat) (p : Packet)
  /-- R275: the next waiting packet of flow `flow` is injected. -/
  | packetInject (flow : Nat)
  /-- R273: the resend timer of packet `seq` of `flow` expires; `ecc` is the outcome of reading its source again. -/
  | resendTimeout (flow seq : Nat) (ecc : Ecc)
  /-- R276: XPT_CTL.READMIT written on port die `d`. -/
  | readmit (d mask : Nat)
  /-- R278: SLC_EPOCH_AT is reached. -/
  | epochSwitch
  /-- R278: RETIRE_MS has passed. -/
  | epochRetire
  /-- R281: SLC_CTL.DRAIN = 1. -/
  | drainSet
  /-- R281: the drain's last condition is met. -/
  | drained
  /-- R281: SLC_CTL.DRAIN = 0. -/
  | drainClear
  /-- R287: SLC_CTL.SEND_CUT. -/
  | sendCut
  /-- R293: SLC_CTL.SEND_STOP. -/
  | sendStop
  /-- R292: RTE_COPY.COPY_CUR on port die `d`. -/
  | copyCur (d : Nat)
  /-- R292: RTE_DATA written on port die `d`. -/
  | rteDataWrite (d val : Nat)
  /-- R292: RTE_DATA read on port die `d`. -/
  | rteDataRead (d : Nat)
  /-- R286: a STOP packet. -/
  | stop (plane : Nat) (p : Packet)
  /-- R285: a burst falls due again. -/
  | stopRepeat
  /-- R288: a CUT packet. -/
  | cut (plane : Nat) (p : Packet)
  /-- R282: the master's period ends. -/
  | timeSend
  /-- R283: a TIME packet. -/
  | time (plane : Nat) (p : Packet)
  /-- R283: ten periods without a TIME packet. -/
  | holdover
  /-- R304: the WELD record of `ctx`, OP REDUCE_SCATTER. -/
  | reduceScatter (ctx : Nat)
  /-- R304: OP ALL_GATHER. -/
  | allGather (ctx : Nat)
  /-- R304: OP ALL_REDUCE. -/
  | allReduce (ctx : Nat)
  /-- R304: OP BROADCAST. -/
  | broadcast (ctx : Nat)
  /-- R310: OP MIRROR. -/
  | mirror (ctx : Nat)
  /-- R297: a waiting collective starts. -/
  | collStart (id : Nat)
  /-- R306: KIND READY. -/
  | ready (plane : Nat) (p : Packet)
  /-- R301: KIND PARTIAL; `par` = a combiner parity error (R321). -/
  | partialSum (plane : Nat) (p : Packet) (par : Bool)
  /-- R304: KIND GATHER. -/
  | weldGather (plane : Nat) (p : Packet)
  /-- R304: KIND SCATTER. -/
  | scatter (plane : Nat) (p : Packet)
  /-- R310: KIND MIRROR. -/
  | weldMirror (plane : Nat) (p : Packet)
  /-- R311: KIND HOLD. -/
  | weldHold (plane : Nat) (p : Packet)
  /-- R305: the collective in flight under number `id` completes. -/
  | collComplete (id : Nat)
  /-- R309: STALL_MS without data. -/
  | stall (id : Nat)
  /-- R349: no tally result within VOTE_TIMEOUT. -/
  | tallyTimeout
  /-- R327: the TONGS record of `ctx`, OP OPEN. -/
  | tongsOpen (ctx : Nat)
  /-- R327: OP PUT. -/
  | put (ctx : Nat)
  /-- R327: OP RELEASE. -/
  | release (ctx : Nat)
  /-- R327: OP FETCH. -/
  | fetch (ctx : Nat)
  /-- R327: OP CLOSE. -/
  | tongsClose (ctx : Nat)
  /-- R328: the next offload of slot `slot` starts. -/
  | offloadStart (slot : Nat)
  /-- R328: the last byte of the slot's offload is acknowledged. -/
  | offloadDone (slot : Nat)
  /-- R329: the highest eligible fetch of the slot starts. -/
  | fetchStart (slot : Nat)
  /-- R329: the fetch's data is visible. -/
  | fetchDone (slot : Nat)
  /-- R333: TNG_DEST_CTL.FORCE_DOWN. -/
  | forceDown (mask : Nat)
  /-- R333: TNG_DEST_CTL.CLEAR_DOWN. -/
  | clearDown (mask : Nat)
  /-- R340: Loupe's check ends; `slip` = a fault of Loupe's own makes an element fail. -/
  | loupeCheckDone (die : Nat) (slip : Bool)
  /-- R342: the rerun ends; `faults` lists the elements that a fault of the second unit makes other bits. -/
  | loupeRerunDone (die : Nat) (faults : List (Nat × Nat))
  /-- R342: the settlement ends; `agrees` = Loupe's repeat equals its first computation. -/
  | loupeSettle (die : Nat) (agrees : Bool)
  /-- R347: the block table is zeroed. -/
  | tchZeroDone
  /-- R353: BST_CTL.START. -/
  | bstStart
  /-- R353: the on-command run ends; `fails` is the mask of failing targets. -/
  | bstDone (fails : Nat)
  /-- R355: `unit` written to LDG_CLEAR. -/
  | ldgClear (unit : Nat)
  /-- R358: Sahsin writes the oldest pending ledger entry; `ok` = the flash write succeeds. -/
  | ledgerWrite (ok : Bool)
  /-- R356: the minute save. -/
  | pohSave
  /-- R359: the second's decay. -/
  | healthDecay
  /-- R361: the hour's SCORE entries. -/
  | score
  /-- R377: FLT_CTL.GO with DOMAIN CHIP. -/
  | chipResetRequest
  /-- R377: FLT_CTL.GO with DOMAIN DIE. -/
  | dieResetRequest
  /-- R377: FLT_CTL.GO with DOMAIN PORT. -/
  | portResetRequest
  /-- R377: the reset domain becomes ready. -/
  | resetDone
  /-- R381: FLT_CTL.FREC_ACK. -/
  | frecAck
  /-- R383: no heartbeat for WDOG_MS. -/
  | wdog
  /-- R387: the staged takeover apply with NO_LOAD = 0 is taken. -/
  | takeoverLoad
  /-- R388: the staged takeover apply with NO_LOAD = 1 is taken. -/
  | takeoverRealign
  /-- R388: every loaded byte is visible: the data read for each item (master share, mirror, working copy, hold,
  ward-hold; none: absent, R387). -/
  | tkoDone (ms mr wc : List Byte) (hold wardHold : Option (List Byte))
  /-- R389: the load fails. -/
  | tkoFail (cause : TkoCause)
  /-- R403: the pre-cut result arrives: minimum and maximum of CUT_STEP, and P. -/
  | preCutResult (plane : Nat) (p : Packet)
  /-- R406: the NVMe command in progress completes with `status` (0: success) and, for a read or identify, `data`. -/
  | nvmeCompletion (status : Nat) (data : List Byte)
  /-- R404: 2 s without a completion. -/
  | nvmeTimeout
  /-- R403: the post-cut result arrives. -/
  | postCutResult (plane : Nat) (p : Packet)
  /-- R403: CUT_TIMEOUT_S ends. -/
  | cutTimeout
  /-- R409: CKP_CTL.RESTORE; the image header and section headers as read from the selected source (two drive slots, or
  the host image). -/
  | restore (imgA imgB imgHost : List Byte)
  /-- R410: every byte of the restore is visible: the data of both sections (none: a data read failed). -/
  | restoreDone (ms wc : Option (List Byte))
  /-- R411: CKP_CTL.FILL. -/
  | fill
  /-- R411: the fill's data: the mirror, and under STRIPE the other ranks' stripes as (bank offset, bytes); none: a read
  was refused or failed. -/
  | fillDone (mr : Option (List Byte)) (stripes : List (Nat × List Byte))
  /-- R407: CKP_CTL.DRIVE_INIT, or the initialisation after a reset. -/
  | driveInit
  /-- R418: a power evaluation from the averages in W over 10 µs (`slow` = false) or 100 µs. -/
  | powerEval (slow : Bool) (pkg input : Nat)
  /-- R419: a ramp evaluation of die `die`: held back only by Q_n, and active unit-cycles in 1/64 of the ACTIVE units'
  cycles, rounded up. -/
  | rampEval (die : Nat) (heldBack : Bool) (level : Nat)
  /-- R420: t_h − 40 µs. -/
  | hintPrepare (die : Nat)
  /-- R420: t_h, or the end of the window. -/
  | hintWindow (die : Nat)
  /-- R424: sensor `id` (R431) reads `temp`; `good` = its self-check passes. -/
  | sensorRead (id temp : Nat) (good : Bool)
  /-- R422: the thermal evaluation, every 100 µs (`slow` = false) or 1 ms. -/
  | thermalEval (slow : Bool)
  /-- R425: a working junction sensor reads 110 °C or more. -/
  | thermalTrip (sensor temp : Nat)
  /-- R427: the loop of die slot `d` (0 to 7 CDn, 8 and 9 PDd) loses lock. -/
  | pllUnlock (d : Nat)
  /-- R428: a die has been idle for SLEEP_US. -/
  | dieSleep (die : Nat)
  /-- R428: work wakes a die after `ns`. -/
  | dieWake (die ns : Nat)
  /-- R479: PWR_EN rises with the input present, or the input is applied with PWR_EN high. -/
  | powerOn
  /-- R461: PWR_EN falls. -/
  | pwrEnFall
  /-- R434: PERST# is asserted. -/
  | perst
  /-- R434: hot reset or DL_Down without PERST#. -/
  | hotReset
  /-- R434: the host link goes down. -/
  | linkDown
  /-- R435: a device request to the host fails. -/
  | hostwRequestError (who : HostAsk) (err : HostErr)
  /-- R437: a host access through the memory aperture: a write of `data`, or a read of `len` bytes. -/
  | apertureAccess (off : Nat) (write : Bool) (len : Nat) (data : List Byte) (poisoned : Bool)
  /-- R438: the vector's GAP_US ends. -/
  | msixGapEnd (vector : Nat)
  /-- R438: the Mask bit of `vector` is cleared. -/
  | msixUnmask (vector : Nat)
  /-- R440: SMC_MB_CTL.DOORBELL. -/
  | doorbell
  /-- R441. -/
  | getInfo
  /-- R161. -/
  | mapSet
  /-- R184. -/
  | hbmClearMapout
  /-- R185; one training report per stack. -/
  | hbmRetrain (reports : List StackReport)
  /-- R450; `image` = the bytes read from host memory, or the error of a HOSTW read that failed, `flashOk` = the write and
  read-back succeed. -/
  | fwStage (image : HostErr ⊕ List Byte) (flashOk : Bool)
  /-- R450. -/
  | fwActivate
  /-- R448. -/
  | svnCommit
  /-- R449. -/
  | keyRevoke
  /-- R447: the SMC starts; at a bring-up, the die-to-die modules as (die slot, edge, module) that fail repair training and those
  whose repair differs from the fused one (R468). -/
  | smcBoot (failed diff : List (Nat × Nat × Nat))
  /-- R452. -/
  | getVersion
  /-- R452; the version selected by the request. -/
  | getCapabilities (version : Nat)
  /-- R452; whether the request offers ECDSA P-384 with SHA-384. -/
  | negotiateAlgorithms (offersEcdsaP384 offersSha384 : Bool)
  /-- R452. -/
  | getDigests
  /-- R452: slot, offset and length. -/
  | getCertificate (slot off len : Nat)
  /-- R452: slot and the requester's nonce. -/
  | challenge (slot : Nat) (nonce : List Byte)
  /-- R453: index (0xFF: all) and whether a signature is asked for, with its nonce. -/
  | getMeasurements (index : Nat) (signed : Bool) (nonce : List Byte)
  /-- R455: the dynamic address given. -/
  | entdaa (addr : Nat)
  /-- R455. -/
  | getEndpointId
  /-- R455. -/
  | tripStatus
  /-- R455: sensor number. -/
  | pldmSensorRead (sensor : Nat)
  /-- R467: a CRC error of edge `edge`, module `module` of die slot `d`, after `retries` retries of the flit; `ids` are
  the in-flight requests whose flits were on it. -/
  | flitCrcError (d edge module retries : Nat) (ids : List Nat)
  /-- R474: admission: modules that train (0 to 2; none: no partner) and the descriptor read (none: no reply). -/
  | guestAdmission (partner : Bool) (modules : Nat) (desc : Option (List Byte))
  /-- R475: GST_CTL.READMIT. -/
  | gstReadmit
  /-- R475. -/
  | withdraw (cause : WithdrawCause)
  /-- R472: block `seq` is unacknowledged after 1 µs. -/
  | guestBlockResend (seq : Nat)
  /-- R472. -/
  | rd (dir : GuestDir) (tag addr len : Nat)
  /-- R472. -/
  | wr (dir : GuestDir) (tag addr : Nat) (data : List Byte)
  /-- R472. -/
  | cpl (tag status : Nat) (data : List Byte)
  /-- R472. -/
  | recMsg (ctx : Nat) (data : List Byte)
  /-- R472: a register access of `width` bits in either direction; none: a read. -/
  | reg (dir : GuestDir) (off width : Nat) (val : Option Nat)
  /-- R461: the 48 V input is removed, for at least 1 s when `long`. -/
  | inputRemoved (long : Bool)
  /-- R434: the host link is up at generation `gen` and width `width`. -/
  | linkUp (gen width : Nat)
  /-- R434. -/
  | configurationRequest (req : CfgWrite)
  /-- R452: a DOE Discovery request for entry `index`. -/
  | doeDiscovery (index : Nat)
  /-- R405: a memory request from the ingot drive. -/
  | driveMemoryRequest (addr len : Nat) (write : Bool)
  deriving DecidableEq, Repr

end Sys2Proof
end

