-- ==== Sys2Proof/Machine/Crc.lean ====
section
/-! DEFINITION. The checksums of the spec, over byte lists: CRC-64/XZ of packets (R268), CRC-32C of fault records,
Ingots and ledger entries (R357, R379), and CRC-64/ECMA of the Touchmark (R346). -/

namespace Sys2Proof.Machine

open Sys2Proof

/-- One step of a reflected CRC of polynomial `poly` on the bit shifted out. -/
def crcBit (poly c : Nat) : Nat := if c % 2 = 1 then (c / 2) ^^^ poly else c / 2

/-- Eight steps of a reflected CRC. -/
def crcByte (poly c : Nat) (b : Byte) : Nat :=
  (List.range 8).foldl (fun c _ => crcBit poly c) (c ^^^ b.toNat)

/-- CRC-64/XZ (R268): reflected ECMA-182 polynomial, initial value and final XOR all ones. -/
def crc64xz (bs : List Byte) : Nat :=
  bs.foldl (crcByte 0xC96C5795D7870F42) (2 ^ 64 - 1) ^^^ (2 ^ 64 - 1)

/-- CRC-32C (Castagnoli): reflected polynomial, initial value and final XOR all ones. -/
def crc32c (bs : List Byte) : Nat :=
  bs.foldl (crcByte 0x82F63B78) (2 ^ 32 - 1) ^^^ (2 ^ 32 - 1)

/-- One byte of a CRC that is not reflected, of width 64. -/
def crcMsbByte (poly c : Nat) (b : Byte) : Nat :=
  (List.range 8).foldl (fun c _ => if bitOf c 63 then (c * 2 % 2 ^ 64) ^^^ poly else c * 2 % 2 ^ 64)
    (c ^^^ (b.toNat * 2 ^ 56))

end Sys2Proof.Machine
end

