-- ==== Sys2Proof/Config.lean ====
section
/-! DEFINITION. What the implementation fixes and the spec does not give: free values. Every constant here is opaque
and has no body, so no proof can see what it is and every statement holds for every value of it. -/

namespace Sys2Proof.Config

open Sys2Proof

/-- A byte of memory whose contents the spec calls undefined (R28, R162, R176, R389): a function of the event that made
it undefined and of its address. DESIGN CHOICE: log entry 3. -/
opaque freeByte : Nat → Nat → Byte

/-- A fresh value that the spec does not fix, by the counter State.free. Log entry 4. -/
opaque freeNat : Nat → Nat

/-- The result bits of RCP, RSQRT, EXP2, LOG2, EXP, LOG, TANH, SIGM and ERF for one FP32 operand: the spec gives only
error bounds (Table 4.7) and says that the result is a function of the operand (R120). Log entry 5. -/
opaque transcendental : Nat → BitVec 32 → BitVec 32

/-- The 32 result bits of a Swage instruction on operand bits where the spec states none: an integer sum outside INT32, a
shift by 32 or more, a right shift of a negative value, SEL, the reserved CMP condition; by opcode and operands VA, VB, VC.
Log entry 16. -/
opaque laneOpen : Nat → Nat → Nat → Nat → BitVec 32

/-- Whether a Weld conversion or addition that overflows, or takes an infinity, follows the INF columns of Table 4.3 (else
SAT): R301 names the rounding and not the overflow. Log entry 18. -/
opaque weldOvfInf : Bool

/-- Byte `o` of the identity fuse block of the die in slot `d` (Table 18.5). Log entry 6. -/
opaque identityFuse : Nat → Nat → Byte

/-- Byte `o` of root key hash `k` in the fuses (R446). Log entry 6. -/
opaque rootKeyHash : Nat → Nat → Byte

/-- Byte `o` of the 384-bit fused secret (R446). Log entry 6. -/
opaque fusedSecret : Nat → Byte

/-- The package serial fused in SEC_SERIAL (R457). Log entry 6. -/
opaque packageSerial : Nat

/-- The BIST signature fused at assembly for a unit, by its unit ID of Table 13.7 (R351). Log entry 6. -/
opaque bistSignature : Nat → Nat

/-- Byte `o` of SHA-384 over the boot ROM (Table 17.8 index 1). Log entry 6. -/
opaque bootRomHash : Nat → Byte

/-- The boot ROM version that GET_INFO returns (R441). Log entry 6. -/
opaque bootRomVersion : Nat

/-- The address in PD1 memory of the buffer of an NVMe command of Sahsin's own, which the spec does not place (R405, R406). Log
entry 21. -/
opaque driveBuffer : Nat

/-- The DER bytes of certificate `k` as stored in the boot partition: 0 root, 1 intermediate, 2 device (R451). Log entry 6. -/
opaque certificate : Nat → List Byte

/-- The public key (x then y) that the device certificate carries (R451). Log entry 6. -/
opaque certificateKey : List Byte

/-- The bytes of image slot A (0) or B (1) of the boot partition as delivered (R446). Log entry 9. -/
opaque bootSlot : Nat → List Byte

/-- Byte `o` of an ECDSA signature over a digest made with the identity key: the spec names the algorithm and not the
nonce (R451, R452). Log entry 7. -/
opaque signature : List Byte → Nat → List Byte

/-- The bytes in which the revocation bits and the SVN counter stand in the input of measurement 4, which the spec does not lay
out (Table 17.8 index 4). Log entry 6. -/
opaque fuseBytes : Nat → Nat → List Byte

end Sys2Proof.Config
end

