-- ==== Sys2Proof/Machine/Numbers.lean ====
section
/-! DEFINITION. Number formats, exact values, rounding and conversion (chapter 4), stochastic rounding and the Spark word
(R114, R116). An exact value is a sign, a magnitude `m * 2^e`, an infinity or a NaN. -/

namespace Sys2Proof.Machine

open Sys2Proof

/-- Which encodings of a format are not finite (Table 4.1): those of IEEE 754, those of FX40 (R105), the all-ones NaN of
FP8 E4M3, or none. -/
inductive Special where
  | ieee | fx | nanOnly | none
  deriving DecidableEq, Repr

/-- A floating-point layout of Table 4.1: exponent bits, fraction bits, bias and non-finite encodings. -/
structure Fmt where
  ebits : Nat
  fbits : Nat
  bias : Nat
  special : Special
  deriving DecidableEq, Repr

/-- FP32. -/
def Fmt.fp32 : Fmt := ⟨8, 23, 127, .ieee⟩
/-- FX40, as the 40-bit number {sign, exponent, fraction} (R105). -/
def Fmt.fx40 : Fmt := ⟨8, 31, 127, .fx⟩
/-- BF16. -/
def Fmt.bf16 : Fmt := ⟨8, 7, 127, .ieee⟩
/-- FP16. -/
def Fmt.fp16 : Fmt := ⟨5, 10, 15, .ieee⟩
/-- FP8 E5M2. -/
def Fmt.e5m2 : Fmt := ⟨5, 2, 15, .ieee⟩
/-- FP8 E4M3. -/
def Fmt.e4m3 : Fmt := ⟨4, 3, 7, .nanOnly⟩
/-- MXFP6 E3M2. -/
def Fmt.e3m2 : Fmt := ⟨3, 2, 3, .none⟩
/-- MXFP6 E2M3. -/
def Fmt.e2m3 : Fmt := ⟨2, 3, 1, .none⟩
/-- MXFP4 E2M1. -/
def Fmt.e2m1 : Fmt := ⟨2, 1, 1, .none⟩

/-- An exact value. -/
inductive Val where
  | nan
  | inf (neg : Bool)
  | fin (neg : Bool) (m : Nat) (e : Int)
  deriving DecidableEq, Repr

/-- +0. -/
def Val.zero : Val := .fin false 0 0

/-- The exponent of the last place of a subnormal. -/
def Fmt.minExp (f : Fmt) : Int := 1 - (f.bias : Int) - f.fbits

/-- The value of an encoding (Table 4.1, R105). -/
def Fmt.decode (f : Fmt) (b : Nat) : Val :=
  let neg := bitOf b (f.ebits + f.fbits)
  let x := bits b f.fbits f.ebits
  let fr := bits b 0 f.fbits
  let ones := x == 2 ^ f.ebits - 1
  let finite : Val := if x = 0 then .fin neg fr f.minExp else .fin neg (2 ^ f.fbits + fr) ((x : Int) - f.bias - f.fbits)
  match f.special with
  | .ieee => if ones then (if fr = 0 then .inf neg else .nan) else finite
  | .fx => if ones then (if fr / 256 = 0 then .inf neg else .nan) else finite
  | .nanOnly => if ones && fr == 2 ^ f.fbits - 1 then .nan else finite
  | .none => finite

/-- Rounding modes with a fixed direction (R106). -/
inductive Mode where
  | rne | rtz
  deriving DecidableEq, Repr

/-- The exponent of the last place of the magnitude `m * 2^e` in a format with unbounded exponent range above. -/
def Fmt.ulpExp (f : Fmt) (m : Nat) (e : Int) : Int := max ((Nat.log2 m : Int) + e - f.fbits) f.minExp

/-- A significand of fbits + 2 bits becomes one with the next exponent. -/
def Fmt.carry (f : Fmt) (m : Nat) (q : Int) : Nat × Int := if m = 2 ^ (f.fbits + 1) then (2 ^ f.fbits, q + 1) else (m, q)

/-- The magnitude `m * 2^e` rounded once to a format, with unbounded exponent range above (R106, R107). -/
def Fmt.roundMag (f : Fmt) (mode : Mode) (m : Nat) (e : Int) : Nat × Int :=
  if m = 0 then (0, f.minExp)
  else
    let q := f.ulpExp m e
    if q ≤ e then f.carry (m * 2 ^ (e - q).toNat) q
    else
      let p := 2 ^ (q - e).toNat
      let t := m / p
      let r := 2 * (m % p)
      let up := mode == .rne && (p < r || (r == p && t % 2 == 1))
      f.carry (t + b2n up) q

/-- The biased exponent of a rounded magnitude. -/
def Fmt.biased (f : Fmt) (m : Nat) (q : Int) : Int := if m < 2 ^ f.fbits then 0 else q + f.bias + f.fbits

/-- The largest finite encoding without its sign. -/
def Fmt.maxBits (f : Fmt) : Nat :=
  match f.special with
  | .ieee | .fx => (2 ^ f.ebits - 1) * 2 ^ f.fbits - 1
  | .nanOnly => 2 ^ (f.ebits + f.fbits) - 2
  | .none => 2 ^ (f.ebits + f.fbits) - 1

/-- Whether a rounded magnitude exceeds the largest finite value (R107). -/
def Fmt.overflows (f : Fmt) (m : Nat) (q : Int) : Bool :=
  decide ((f.maxBits : Int) < f.biased m q * 2 ^ f.fbits + (m % 2 ^ f.fbits : Nat))

/-- The sign bit of a format. -/
def Fmt.signBit (f : Fmt) (neg : Bool) : Nat := if neg then 2 ^ (f.ebits + f.fbits) else 0

/-- The encoding of a rounded finite magnitude. -/
def Fmt.encodeMag (f : Fmt) (neg : Bool) (m : Nat) (q : Int) : Nat :=
  f.signBit neg + (f.biased m q).toNat * 2 ^ f.fbits + m % 2 ^ f.fbits

/-- The canonical NaN (R108); a format without NaN has none, and its encoding of +0 stands in (MX: R111). -/
def Fmt.nanBits (f : Fmt) : Nat :=
  match f.special with
  | .ieee => (2 ^ f.ebits - 1) * 2 ^ f.fbits + 2 ^ (f.fbits - 1)
  | .fx => 0x7FC0000000
  | .nanOnly => 2 ^ (f.ebits + f.fbits) - 1
  | .none => 0

/-- An infinity of the format; FP8 E4M3 has the canonical NaN in its place, MX types the largest finite (Table 4.3). -/
def Fmt.infBits (f : Fmt) (neg : Bool) : Nat :=
  match f.special with
  | .ieee | .fx => f.signBit neg + (2 ^ f.ebits - 1) * 2 ^ f.fbits
  | .nanOnly => f.nanBits
  | .none => f.signBit neg + f.maxBits

/-- A value rounded once to a format under Table 4.3, and whether it saturated under OVF = SAT. -/
def Fmt.convert (f : Fmt) (mode : Mode) (ovfInf : Bool) (v : Val) : Nat × Bool :=
  match v with
  | .nan => (f.nanBits, false)
  | .inf neg => if ovfInf then (f.infBits neg, false) else (f.signBit neg + f.maxBits, true)
  | .fin neg m e =>
    let r := f.roundMag mode m e
    if f.overflows r.1 r.2 then
      if mode = .rtz ∨ !ovfInf then (f.signBit neg + f.maxBits, !ovfInf) else (f.infBits neg, false)
    else (f.encodeMag neg r.1 r.2, false)

/-! Exact arithmetic -/

/-- A signed magnitude as an integer. -/
def signed (neg : Bool) (m : Nat) : Int := if neg then -(m : Int) else m

/-- The exact sum; a zero sum is +0 unless both are −0 (R85, R87). -/
def Val.add : Val → Val → Val
  | .nan, _ | _, .nan => .nan
  | .inf a, .inf b => if a = b then .inf a else .nan
  | .inf a, .fin _ _ _ => .inf a
  | .fin _ _ _, .inf b => .inf b
  | .fin s1 m1 e1, .fin s2 m2 e2 =>
    let e := min e1 e2
    let t := signed s1 (m1 * 2 ^ (e1 - e).toNat) + signed s2 (m2 * 2 ^ (e2 - e).toNat)
    if t = 0 then .fin (m1 == 0 && m2 == 0 && s1 && s2) 0 0 else .fin (decide (t < 0)) t.natAbs e

/-- The exact product (R74, R85). -/
def Val.mul : Val → Val → Val
  | .nan, _ | _, .nan => .nan
  | .inf a, .inf b => .inf (a != b)
  | .inf a, .fin s m _ | .fin s m _, .inf a => if m = 0 then .nan else .inf (a != s)
  | .fin s1 m1 e1, .fin s2 m2 e2 => .fin (s1 != s2) (m1 * m2) (e1 + e2)

/-- A value times a power of two, exactly. -/
def Val.scale (v : Val) (k : Int) : Val :=
  match v with
  | .fin s m e => .fin s m (e + k)
  | w => w

/-- The value with its sign changed. -/
def Val.neg : Val → Val
  | .nan => .nan
  | .inf s => .inf (!s)
  | .fin s m e => .fin (!s) m e

/-- The magnitude of a value. -/
def Val.abs : Val → Val
  | .nan => .nan
  | .inf _ => .inf false
  | .fin _ m e => .fin false m e

/-- Whether `a < b`, with −0 below +0; false where one is a NaN. -/
def Val.lt : Val → Val → Bool
  | .nan, _ | _, .nan => false
  | .inf a, .inf b => a && !b
  | .inf a, .fin _ _ _ => a
  | .fin _ _ _, .inf b => !b
  | .fin s1 m1 e1, .fin s2 m2 e2 =>
    let e := min e1 e2
    let x := signed s1 (m1 * 2 ^ (e1 - e).toNat)
    let y := signed s2 (m2 * 2 ^ (e2 - e).toNat)
    decide (x < y) || (x == 0 && y == 0 && s1 && !s2)

/-- Whether two values compare equal; zeros of either sign are equal, a NaN equals nothing. -/
def Val.eq : Val → Val → Bool
  | .nan, _ | _, .nan => false
  | .inf a, .inf b => a == b
  | .fin s1 m1 e1, .fin s2 m2 e2 =>
    let e := min e1 e2
    signed s1 (m1 * 2 ^ (e1 - e).toNat) == signed s2 (m2 * 2 ^ (e2 - e).toNat)
  | _, _ => false

/-- The quotient with enough bits and a sticky last bit that any rounding to a format of this chapter is that of the exact
quotient. Division by zero and of infinities follows IEEE 754-2019, which R103 names for the formats (log entry 14). -/
def Val.div : Val → Val → Val
  | .nan, _ | _, .nan => .nan
  | .inf _, .inf _ => .nan
  | .inf a, .fin s _ _ => .inf (a != s)
  | .fin s _ _, .inf a => .fin (s != a) 0 0
  | .fin s1 m1 e1, .fin s2 m2 e2 =>
    if m2 = 0 then (if m1 = 0 then .nan else .inf (s1 != s2))
    else if m1 = 0 then .fin (s1 != s2) 0 0
    else
      let k := 80 + Nat.log2 m2
      let n := m1 * 2 ^ k
      .fin (s1 != s2) (2 * (n / m2) + b2n (n % m2 != 0)) (e1 - e2 - k - 1)

/-- The integer square root of `n` by bits, from bit `b` down. -/
def isqrtBits (n : Nat) : Nat → Nat → Nat
  | 0, r => r
  | b + 1, r => if (r + 2 ^ b) * (r + 2 ^ b) ≤ n then isqrtBits n b (r + 2 ^ b) else isqrtBits n b r

/-- The square root with a sticky last bit; of a negative value NaN, of −0 itself (log entry 14). -/
def Val.sqrt : Val → Val
  | .nan => .nan
  | .inf s => if s then .nan else .inf false
  | .fin s m e =>
    if m = 0 then .fin s 0 0
    else if s then .nan
    else
      let odd := e % 2 != 0
      let n := (if odd then 2 * m else m) * 2 ^ 160
      let r := isqrtBits n (Nat.log2 n / 2 + 1) 0
      .fin false (2 * r + b2n (r * r != n)) (((if odd then e - 1 else e) - 160) / 2 - 1)

/-! Integers (R110, Table 4.3) -/

/-- A two's complement value of `w` bits. -/
def toSigned (w v : Nat) : Int := if bitOf v (w - 1) then (v : Int) - 2 ^ w else v

/-- The bits of an integer in two's complement. -/
def fromSigned (w : Nat) (x : Int) : Nat := (x % (2 ^ w : Int)).toNat

/-- An integer limited to the range of `w` bits, and whether it was outside. -/
def satInt (w : Nat) (x : Int) : Int × Bool :=
  if x < -(2 ^ (w - 1) : Int) then (-(2 ^ (w - 1) : Int), true)
  else if (2 ^ (w - 1) : Int) ≤ x then (2 ^ (w - 1) - 1, true)
  else (x, false)

/-- A magnitude rounded to an integer. -/
def roundInt (mode : Mode) (m : Nat) (e : Int) : Nat :=
  if 0 ≤ e then m * 2 ^ e.toNat
  else
    let p := 2 ^ (-e).toNat
    let r := 2 * (m % p)
    m / p + b2n (mode == .rne && (p < r || (r == p && m / p % 2 == 1)))

/-- A value converted to an integer of `w` bits, and whether it saturated (R110, Table 4.3). -/
def toIntFmt (w : Nat) (mode : Mode) (v : Val) : Nat × Bool :=
  match v with
  | .nan => (0, false)
  | .inf neg => (fromSigned w (if neg then -(2 ^ (w - 1) : Int) else 2 ^ (w - 1) - 1), true)
  | .fin neg m e =>
    let r := satInt w (signed neg (roundInt mode m e))
    (fromSigned w r.1, r.2)

/-- The value of an integer. -/
def ofInt (x : Int) : Val := .fin (decide (x < 0)) x.natAbs 0

/-! Stochastic rounding (R114) and Spark (R116) -/

/-- R114: a value rounded stochastically to a format with the word `w`; NaN and infinities follow Table 4.3 with OVF = SAT. -/
def Fmt.stochastic (f : Fmt) (w : Nat) (v : Val) : Nat × Bool :=
  match v with
  | .fin neg m e =>
    if m = 0 then (f.encodeMag neg 0 f.minExp, false)
    else
      let q := f.ulpExp m e
      let r :=
        if q ≤ e then f.carry (m * 2 ^ (e - q).toNat) q
        else
          let p := 2 ^ (q - e).toNat
          f.carry (m / p + b2n (w < m % p * 2 ^ 32 / p)) q
      if f.overflows r.1 r.2 then (f.signBit neg + f.maxBits, true) else (f.encodeMag neg r.1 r.2, false)
  | x => f.convert .rne false x

/-- One round of the generator of R116 on counter and key. -/
def philoxRound (c : Nat × Nat × Nat × Nat) (k : Nat × Nat) : Nat × Nat × Nat × Nat :=
  let p0 := 0xD2511F53 * c.1
  let p1 := 0xCD9E8D57 * c.2.2.1
  ((p1 / 2 ^ 32) ^^^ c.2.1 ^^^ k.1, p1 % 2 ^ 32, (p0 / 2 ^ 32) ^^^ c.2.2.2 ^^^ k.2, p0 % 2 ^ 32)

/-- `n` rounds, the key raised before each but the first. -/
def philox : Nat → Nat × Nat × Nat × Nat → Nat × Nat → Nat × Nat × Nat × Nat
  | 0, c, _ => c
  | n + 1, c, k => philox n (philoxRound c k) ((k.1 + 0x9E3779B9) % 2 ^ 32, (k.2 + 0xBB67AE85) % 2 ^ 32)

/-- The Spark word (R116). -/
def sparkWord (seed step tag e : Nat) : Nat :=
  let b := e / 4
  let c := philox 10
    (b % 2 ^ 32, tag % 2 ^ 24 * 2 ^ 8 + b / 2 ^ 32 % 64, step % 2 ^ 32, step / 2 ^ 32 % 2 ^ 32)
    (seed % 2 ^ 32, seed / 2 ^ 32 % 2 ^ 32)
  match e % 4 with
  | 0 => c.1
  | 1 => c.2.1
  | 2 => c.2.2.1
  | _ => c.2.2.2

/-! MX blocks (R104, R111, R112) -/

/-- The format of an element under a format code of Table 5.4. -/
def fmtOf (code : Nat) : Option Fmt :=
  match code with
  | 0x0 => some .fp32 | 0x1 => some .bf16 | 0x2 => some .fp16 | 0x3 | 0x5 => some .e4m3 | 0x4 | 0x6 => some .e5m2
  | 0x7 => some .e3m2 | 0x8 => some .e2m3 | 0x9 => some .e2m1 | 0xA => some .fx40 | _ => none

/-- Whether a format code is an MX element type. -/
def isMx (code : Nat) : Bool := 5 ≤ code && code ≤ 9

/-- Bits of one MX element (Table 4.2). -/
def mxBits (code : Nat) : Nat := if code = 7 ∨ code = 8 then 6 else if code = 9 then 4 else 8

/-- emax of R111. -/
def mxEmax (code : Nat) : Int := if code = 5 then 8 else if code = 6 then 15 else if code = 7 then 4 else 2

/-- floor(log2 |v|) of a nonzero value. -/
def Val.log2 (v : Val) : Int :=
  match v with
  | .fin _ m e => (Nat.log2 m : Int) + e
  | _ => 0

/-- The scale byte of a block and its encoded elements (R111), and whether an element saturated. -/
def quantise (code : Nat) (mode : Mode) (vs : List Val) : Nat × List (Nat × Bool) :=
  let f := (fmtOf code).getD .e4m3
  if vs.any (fun v => match v with | .fin _ _ _ => false | _ => true) then (0xFF, vs.map (fun _ => (0, false)))
  else
    let m := vs.foldl (fun a v => if a.lt v.abs then v.abs else a) Val.zero
    let x : Int := match m with
      | .fin _ 0 _ => 0
      | v => max 0 (min 0xFE (v.log2 - mxEmax code + 127))
    (x.toNat, vs.map (fun v => f.convert mode false (v.scale (127 - x))))

end Sys2Proof.Machine
end

