-- ==== Sys2Proof/Machine/Regs.lean ====
section
/-! DEFINITION. The register window as tables: pages, slots, header values and every register field of the spec, each
with its offset, bits, access, class and reset value, as the field tables of the chapters give them. -/

namespace Sys2Proof.Machine

open Sys2Proof

/-- The page types of Table 2.5 (R59). -/
inductive Page where
  | DIR | TMP | SMC | HIF | SEC | GST | CKP | PWR | THM | CLK | TIME | FLT | LDG | HLT | TCH | SPK | SYN | PSC | ALG | TNG
  | BST | MSX | PBA | DIE | ANV | SWG | HRT | LPE | WLC | BLW | DSP | BSR | D2D | HBM | LNK | PDC | XPT | FLW | RTE | SLC
  | WLD | CTX
  deriving DecidableEq, Repr

/-- Access of a field (Table 2.2 column Access). -/
inductive Access where
  | RO | RW | WO | W1C
  deriving DecidableEq, Repr

/-- Field classes (R48 to R51). -/
inductive FClass where
  | LIVE | IDLE | ARMED
  deriving DecidableEq, Repr

/-- One register field: its page type, offset in the page, lowest bit, width, access, class and reset value. -/
structure Field where
  page : Page
  off : Nat
  lo : Nat
  width : Nat
  acc : Access
  cls : FClass
  reset : Nat
  deriving DecidableEq, Repr

/-- The slot of instance `i` of a page type (Table 2.5, R59). -/
def slotOf : Page → Nat → Nat
  | .DIR, _ => 0x000 | .TMP, _ => 0x001 | .SMC, _ => 0x002 | .HIF, _ => 0x003 | .SEC, _ => 0x004 | .GST, _ => 0x005
  | .CKP, _ => 0x006 | .PWR, _ => 0x007 | .THM, _ => 0x008 | .CLK, _ => 0x009 | .TIME, _ => 0x00A | .FLT, _ => 0x00B
  | .LDG, _ => 0x00C | .HLT, _ => 0x00D | .TCH, _ => 0x00E | .SPK, _ => 0x00F | .SYN, _ => 0x010 | .PSC, _ => 0x011
  | .ALG, _ => 0x012 | .TNG, _ => 0x013 | .BST, _ => 0x014 | .MSX, i => 0x018 + i | .PBA, _ => 0x020
  | .DIE, n => 0x040 + 16 * n
  | .ANV, i => 0x041 + 16 * (i / 2) + i % 2
  | .SWG, n => 0x043 + 16 * n | .HRT, n => 0x044 + 16 * n | .LPE, n => 0x045 + 16 * n | .WLC, n => 0x046 + 16 * n
  | .BLW, n => 0x047 + 16 * n | .DSP, n => 0x048 + 16 * n | .BSR, n => 0x049 + 16 * n
  | .D2D, i => if i < 8 then 0x04A + 16 * i else 0x106 + 16 * (i - 8)
  | .HBM, n => 0x0C0 + n | .LNK, k => 0x0E0 + k
  | .PDC, d => 0x100 + 16 * d | .XPT, d => 0x101 + 16 * d | .FLW, d => 0x102 + 16 * d | .RTE, d => 0x103 + 16 * d
  | .SLC, d => 0x104 + 16 * d | .WLD, d => 0x105 + 16 * d
  | .CTX, c => 0x140 + c

/-- The type code of a page (Table 2.5). -/
def typeCode : Page → Nat
  | .DIR => 0x01 | .TMP => 0x02 | .SMC => 0x03 | .HIF => 0x04 | .SEC => 0x05 | .GST => 0x06 | .CKP => 0x07 | .PWR => 0x08
  | .THM => 0x09 | .CLK => 0x0A | .TIME => 0x0B | .FLT => 0x0C | .LDG => 0x0D | .HLT => 0x0E | .TCH => 0x0F | .SPK => 0x10
  | .SYN => 0x11 | .PSC => 0x12 | .ALG => 0x13 | .TNG => 0x14 | .BST => 0x15 | .MSX => 0x16 | .PBA => 0x17 | .DIE => 0x20
  | .ANV => 0x21 | .SWG => 0x22 | .HRT => 0x23 | .LPE => 0x24 | .WLC => 0x25 | .BLW => 0x26 | .DSP => 0x27 | .BSR => 0x28
  | .D2D => 0x29 | .HBM => 0x30 | .LNK => 0x38 | .PDC => 0x40 | .XPT => 0x41 | .FLW => 0x42 | .RTE => 0x43 | .SLC => 0x44
  | .WLD => 0x45 | .CTX => 0x50

/-- The page and instance in a slot of the block region, if it is populated (Table 2.5, R59). -/
def pageAt (slot : Nat) : Option (Page × Nat) :=
  if slot < 0x015 then
    [Page.DIR, .TMP, .SMC, .HIF, .SEC, .GST, .CKP, .PWR, .THM, .CLK, .TIME, .FLT, .LDG, .HLT, .TCH, .SPK, .SYN, .PSC, .ALG,
      .TNG, .BST][slot]?.map (·, 0)
  else if slot < 0x018 then none
  else if slot < 0x020 then some (.MSX, slot - 0x018)
  else if slot = 0x020 then some (.PBA, 0)
  else if slot < 0x040 then none
  else if slot < 0x0C0 then
    let n := (slot - 0x040) / 16
    match (slot - 0x040) % 16 with
    | 0 => some (.DIE, n) | 1 => some (.ANV, 2 * n) | 2 => some (.ANV, 2 * n + 1) | 3 => some (.SWG, n)
    | 4 => some (.HRT, n) | 5 => some (.LPE, n) | 6 => some (.WLC, n) | 7 => some (.BLW, n) | 8 => some (.DSP, n)
    | 9 => some (.BSR, n) | 10 => some (.D2D, n)
    | _ => none
  else if slot < 0x0D0 then some (.HBM, slot - 0x0C0)
  else if slot < 0x0E0 then none
  else if slot < 0x100 then some (.LNK, slot - 0x0E0)
  else if slot < 0x120 then
    let d := (slot - 0x100) / 16
    match (slot - 0x100) % 16 with
    | 0 => some (.PDC, d) | 1 => some (.XPT, d) | 2 => some (.FLW, d) | 3 => some (.RTE, d) | 4 => some (.SLC, d)
    | 5 => some (.WLD, d) | 6 => some (.D2D, 8 + d)
    | _ => none
  else if slot < 0x140 then none
  else if slot < 0x180 then some (.CTX, slot - 0x140)
  else none

/-- The slot whose registers a slot shows: the two SLC instances are one register set (R289). -/
def canonSlot (slot : Nat) : Nat := if slot = 0x114 then 0x104 else slot

/-- Reset domains (R372, PAGE_CAPS.RESET_DOMAIN of Table 2.2). -/
inductive Domain where
  | cold | chip | die | port | ctx
  deriving DecidableEq, Repr

/-- Header values of a page type: HAS_BUSY, HAS_ARMED, HOST_WRITABLE, SHADOWED, RESET_DOMAIN and ERRLOG_DEPTH. -/
structure Caps where
  hasBusy : Bool
  hasArmed : Bool
  hostWritable : Bool
  shadowed : Bool
  domain : Domain
  depth : Nat
  deriving DecidableEq, Repr

/-- The header values of each page type, from the header table of its chapter (R39, R60, R98, R129, R153, R178, R200,
R233, R259, R289, R318, R335, R364, R394, R414, R429, R456, R476). The headerless MSX and PBA pages (R45) are reset with
the CHIP domain, as the HIF page beside them is (PRESUMED: log entry 8). -/
def capsOf : Page → Caps
  | .DIR => ⟨false, false, true, false, .chip, 0⟩
  | .TMP => ⟨true, true, true, true, .chip, 2⟩
  | .SMC => ⟨true, false, true, false, .chip, 2⟩
  | .HIF => ⟨false, false, true, true, .chip, 4⟩
  | .SEC => ⟨false, false, false, true, .chip, 2⟩
  | .GST => ⟨false, false, true, true, .chip, 2⟩
  | .CKP => ⟨true, true, true, true, .chip, 4⟩
  | .PWR => ⟨false, false, true, true, .cold, 0⟩
  | .THM => ⟨false, false, true, true, .cold, 2⟩
  | .CLK => ⟨false, false, true, true, .chip, 2⟩
  | .TIME => ⟨false, true, true, true, .cold, 0⟩
  | .FLT => ⟨true, true, true, true, .cold, 4⟩
  | .LDG => ⟨false, false, true, true, .chip, 0⟩
  | .HLT => ⟨false, false, true, true, .chip, 0⟩
  | .TCH => ⟨true, true, true, true, .chip, 2⟩
  | .SPK => ⟨true, true, true, true, .chip, 2⟩
  | .SYN => ⟨false, true, true, true, .chip, 2⟩
  | .PSC => ⟨false, false, true, true, .chip, 0⟩
  | .ALG => ⟨true, true, true, true, .chip, 2⟩
  | .TNG => ⟨true, true, true, true, .chip, 4⟩
  | .BST => ⟨true, false, true, true, .chip, 4⟩
  | .MSX => ⟨false, false, true, false, .chip, 0⟩
  | .PBA => ⟨false, false, true, false, .chip, 0⟩
  | .DIE => ⟨false, false, true, true, .chip, 0⟩
  | .ANV => ⟨true, true, true, true, .die, 4⟩
  | .SWG => ⟨true, true, true, true, .die, 4⟩
  | .HRT => ⟨false, false, true, true, .die, 4⟩
  | .LPE => ⟨true, false, true, true, .die, 4⟩
  | .WLC => ⟨true, false, true, true, .die, 2⟩
  | .BLW => ⟨false, false, true, true, .die, 0⟩
  | .DSP => ⟨true, false, true, true, .die, 0⟩
  | .BSR => ⟨true, false, true, true, .die, 2⟩
  | .D2D => ⟨false, false, true, true, .chip, 2⟩
  | .HBM => ⟨false, false, true, true, .die, 4⟩
  | .LNK => ⟨true, true, true, true, .port, 2⟩
  | .PDC => ⟨false, false, true, true, .chip, 0⟩
  | .XPT => ⟨false, false, true, true, .port, 4⟩
  | .FLW => ⟨false, false, true, true, .port, 0⟩
  | .RTE => ⟨false, false, true, true, .chip, 0⟩
  | .SLC => ⟨false, true, true, true, .chip, 0⟩
  | .WLD => ⟨true, true, true, true, .port, 4⟩
  | .CTX => ⟨false, true, true, true, .chip, 2⟩

/-- The compute die whose DIE domain holds a page, if one does (Table 2.5, R372; HBM stack s belongs to die s / 2). -/
def dieOfPage : Page → Nat → Option Nat
  | .DIE, n | .SWG, n | .HRT, n | .LPE, n | .WLC, n | .BLW, n | .DSP, n | .BSR, n => some n
  | .ANV, i => some (i / 2)
  | .HBM, s => some (s / 2)
  | .D2D, i => if i < 8 then some i else none
  | _, _ => none

/-- The port die that holds a page, if one does (Table 2.5). -/
def portOfPage : Page → Nat → Option Nat
  | .LNK, k => some (k / 16)
  | .PDC, d | .XPT, d | .FLW, d | .RTE, d | .WLD, d => some d
  | .D2D, i => if i < 8 then none else some (i - 8)
  | _, _ => none

namespace R

/-! The common page header, Table 2.2 (R45), spec/02_register_pages.md. The page named here is immaterial: a header field
is addressed by slot. -/
def PAGE_CTL_ENABLE : Field := ⟨.DIR, 0x8, 0, 1, .RW, .LIVE, 1⟩
def PAGE_CTL_LOG_FREEZE : Field := ⟨.DIR, 0x8, 1, 1, .RW, .LIVE, 0⟩
def PAGE_CTL_ERRLOG_CLEAR : Field := ⟨.DIR, 0x8, 2, 1, .WO, .LIVE, 0⟩
def PAGE_CTL_VIEW_SHADOW : Field := ⟨.DIR, 0x8, 3, 1, .RW, .LIVE, 0⟩
def PAGE_STS_ARM_PENDING : Field := ⟨.DIR, 0xC, 2, 1, .RO, .LIVE, 0⟩
def EVT_STS : Field := ⟨.DIR, 0x10, 0, 32, .W1C, .LIVE, 0⟩
def EVT_MASK : Field := ⟨.DIR, 0x14, 0, 32, .RW, .LIVE, 0xFFFFFFFF⟩
def EVT_FORCE : Field := ⟨.DIR, 0x18, 0, 32, .WO, .LIVE, 0⟩
def EVT_ROUTE_VECTOR : Field := ⟨.DIR, 0x1C, 0, 11, .RW, .LIVE, 0⟩
def EVT_ROUTE_TO_HOST : Field := ⟨.DIR, 0x1C, 12, 1, .RW, .LIVE, 0⟩
def EVT_ROUTE_TO_SMC : Field := ⟨.DIR, 0x1C, 13, 1, .RW, .LIVE, 1⟩
def ARM_CTL_APPLY : Field := ⟨.DIR, 0x20, 0, 1, .WO, .LIVE, 0⟩
def ARM_CTL_DISCARD : Field := ⟨.DIR, 0x20, 1, 1, .WO, .LIVE, 0⟩
def ARM_CTL_ARM_SEQ : Field := ⟨.DIR, 0x20, 8, 8, .RO, .LIVE, 0⟩
def ARM_TIME : Field := ⟨.DIR, 0x28, 0, 64, .RO, .LIVE, 0⟩

/-! Table 1.6 (R36), spec/01_step_and_temper.md. -/
def TMP_RANK_RANK : Field := ⟨.TMP, 0x100, 0, 16, .RW, .ARMED, 0⟩
def TMP_RANK_SIZE : Field := ⟨.TMP, 0x100, 16, 16, .RW, .ARMED, 0⟩
def TMP_BUDDY_BUDDY_NODE : Field := ⟨.TMP, 0x104, 0, 16, .RW, .ARMED, 0⟩
def TMP_BUDDY_WARD_NODE : Field := ⟨.TMP, 0x104, 16, 16, .RW, .ARMED, 0⟩
def TMP_CFG_VOTE_TIMEOUT : Field := ⟨.TMP, 0x108, 0, 8, .RW, .IDLE, 20⟩
def TMP_CFG_FLIP_DELAY : Field := ⟨.TMP, 0x108, 8, 8, .RW, .IDLE, 50⟩
def TMP_CFG_REPLAY_LIMIT : Field := ⟨.TMP, 0x108, 16, 4, .RW, .LIVE, 3⟩

/-! Table 1.7 (R37), spec/01_step_and_temper.md. -/
def TMP_STS_PHASE : Field := ⟨.TMP, 0x110, 0, 4, .RO, .LIVE, 0⟩
def TMP_STS_ACTIVE_BANK : Field := ⟨.TMP, 0x110, 4, 1, .RO, .LIVE, 0⟩
def TMP_STS_IN_DOUBT : Field := ⟨.TMP, 0x110, 5, 1, .RO, .LIVE, 0⟩
def TMP_STS_HOLD_VALID : Field := ⟨.TMP, 0x110, 6, 1, .RO, .LIVE, 0⟩
def TMP_STS_WARD_HOLD_VALID : Field := ⟨.TMP, 0x110, 7, 1, .RO, .LIVE, 0⟩
def TMP_STS_REPLAY_COUNT : Field := ⟨.TMP, 0x110, 8, 8, .RO, .LIVE, 0⟩
def TMP_STS_LAST_REASON : Field := ⟨.TMP, 0x110, 16, 8, .RO, .LIVE, 0⟩
def TMP_STS_LATE_FLIPS : Field := ⟨.TMP, 0x110, 24, 8, .RO, .LIVE, 0⟩
def TMP_STEP_STEP : Field := ⟨.TMP, 0x118, 0, 64, .RO, .LIVE, 1⟩
def TMP_TEMPERED_TEMPERED : Field := ⟨.TMP, 0x120, 0, 64, .RO, .LIVE, 0⟩
def TMP_FLIP_TIME_FLIP_TIME : Field := ⟨.TMP, 0x128, 0, 64, .RO, .LIVE, 0⟩
def TMP_CTL_RESOLVE : Field := ⟨.TMP, 0x130, 0, 2, .WO, .LIVE, 0⟩
def TMP_CTL_REPLAY_RESUME : Field := ⟨.TMP, 0x130, 8, 1, .WO, .LIVE, 0⟩

/-! Table 3.12 (R100), spec/03_anvil_matrix_engines.md. -/
def ANV_CTL_ISSUE_CAP : Field := ⟨.ANV, 0x100, 0, 7, .RW, .LIVE, 64⟩
def ANV_MAP_MAP_OUT : Field := ⟨.ANV, 0x104, 0, 20, .RW, .ARMED, 0⟩
def ANV_CFG_CLK_GATE_IDLE : Field := ⟨.ANV, 0x108, 0, 8, .RW, .IDLE, 64⟩
def ANV_SUM_ACTIVE : Field := ⟨.ANV, 0x10C, 0, 5, .RO, .LIVE, 0⟩
def ANV_SUM_SPARE : Field := ⟨.ANV, 0x10C, 8, 5, .RO, .LIVE, 0⟩
def ANV_SUM_MAPPED : Field := ⟨.ANV, 0x10C, 16, 5, .RO, .LIVE, 0⟩
def ANV_SUM_DIE_ACTIVE : Field := ⟨.ANV, 0x10C, 24, 6, .RO, .LIVE, 0⟩
def ANV_UNIT_STS_STATE : Field := ⟨.ANV, 0x110, 0, 60, .RO, .LIVE, 0⟩
def ANV_SUSPECT_SUSPECT : Field := ⟨.ANV, 0x118, 0, 20, .RO, .LIVE, 0⟩
def ANV_BUSY_UNITS_BUSY : Field := ⟨.ANV, 0x11C, 0, 20, .RO, .LIVE, 0⟩
def ANV_TILES_TILES : Field := ⟨.ANV, 0x120, 0, 64, .RO, .LIVE, 0⟩
def ANV_REPLAY_L1_REPLAY_L1 : Field := ⟨.ANV, 0x128, 0, 64, .RO, .LIVE, 0⟩
def ANV_REPLAY_L2_REPLAY_L2 : Field := ⟨.ANV, 0x130, 0, 64, .RO, .LIVE, 0⟩
def ANV_SAT_SAT : Field := ⟨.ANV, 0x138, 0, 64, .RO, .LIVE, 0⟩
def ANV_NAN_NAN : Field := ⟨.ANV, 0x140, 0, 64, .RO, .LIVE, 0⟩
def ANV_FORCED_FORCED : Field := ⟨.ANV, 0x148, 0, 64, .RO, .LIVE, 0⟩
def ANV_ARRAY_CYC_ARRAY_CYC : Field := ⟨.ANV, 0x150, 0, 64, .RO, .LIVE, 0⟩
def ANV_SAT_INFO_UNIT : Field := ⟨.ANV, 0x158, 0, 5, .RO, .LIVE, 0⟩
def ANV_SAT_INFO_CTX : Field := ⟨.ANV, 0x158, 8, 6, .RO, .LIVE, 0⟩
def ANV_SAT_INFO_LEVEL : Field := ⟨.ANV, 0x158, 16, 2, .RO, .LIVE, 0⟩
def ANV_SAT_ADDR_D_ADDR : Field := ⟨.ANV, 0x160, 0, 64, .RO, .LIVE, 0⟩

/-! Table 4.8 (R129), spec/04_number_formats.md. -/
def SPK_CTL_SRC : Field := ⟨.SPK, 0x100, 0, 1, .RW, .ARMED, 0⟩
def SPK_SEED_G_SEED_G : Field := ⟨.SPK, 0x108, 0, 64, .RW, .ARMED, 0⟩
def SPK_SEED_U_SEED_U : Field := ⟨.SPK, 0x110, 0, 64, .RW, .ARMED, 0⟩
def SPK_STEP_STEP : Field := ⟨.SPK, 0x118, 0, 64, .RW, .ARMED, 0⟩
def SPK_HOLD_G_HOLD_SEED_G : Field := ⟨.SPK, 0x120, 0, 64, .RO, .LIVE, 0⟩
def SPK_HOLD_U_HOLD_SEED_U : Field := ⟨.SPK, 0x128, 0, 64, .RO, .LIVE, 0⟩
def SPK_STS_KAT_DONE : Field := ⟨.SPK, 0x130, 0, 1, .RO, .LIVE, 0⟩
def SPK_STS_KAT_PASS : Field := ⟨.SPK, 0x130, 1, 1, .RO, .LIVE, 0⟩
def SPK_WORDS_WORDS : Field := ⟨.SPK, 0x138, 0, 64, .RO, .LIVE, 0⟩
def SPK_REFUSED_REFUSED : Field := ⟨.SPK, 0x140, 0, 32, .RO, .LIVE, 0⟩

/-! Table 5.9 (R154), spec/05_swage_vector_units.md. -/
def SWG_MAP_MAP_OUT : Field := ⟨.SWG, 0x100, 0, 8, .RW, .ARMED, 0⟩
def SWG_CFG_CLK_GATE_IDLE : Field := ⟨.SWG, 0x104, 0, 8, .RW, .IDLE, 64⟩
def SWG_UNIT_STS_STATE : Field := ⟨.SWG, 0x108, 0, 16, .RO, .LIVE, 0⟩
def SWG_UNIT_STS_SUSPECT : Field := ⟨.SWG, 0x108, 16, 8, .RO, .LIVE, 0⟩
def SWG_UNIT_STS_ACTIVE : Field := ⟨.SWG, 0x108, 24, 4, .RO, .LIVE, 8⟩
def SWG_BLOCKS_BLOCKS : Field := ⟨.SWG, 0x110, 0, 64, .RO, .LIVE, 0⟩
def SWG_BUNDLES_BUNDLES : Field := ⟨.SWG, 0x118, 0, 64, .RO, .LIVE, 0⟩
def SWG_SR_SR : Field := ⟨.SWG, 0x120, 0, 64, .RO, .LIVE, 0⟩
def SWG_SAT_SAT : Field := ⟨.SWG, 0x128, 0, 64, .RO, .LIVE, 0⟩
def SWG_NAN_NAN : Field := ⟨.SWG, 0x130, 0, 64, .RO, .LIVE, 0⟩
def SWG_FORCED_FORCED : Field := ⟨.SWG, 0x138, 0, 64, .RO, .LIVE, 0⟩
def SWG_ABANDONED_ABANDONED : Field := ⟨.SWG, 0x140, 0, 64, .RO, .LIVE, 0⟩
def SWG_REFUSE_LAST_CODE : Field := ⟨.SWG, 0x148, 0, 8, .RO, .LIVE, 0⟩
def SWG_REFUSE_LAST_CTX : Field := ⟨.SWG, 0x148, 8, 6, .RO, .LIVE, 0⟩
def SWG_REFUSE_COUNT : Field := ⟨.SWG, 0x148, 14, 18, .RO, .LIVE, 0⟩

/-! Table 6.10 (R178), spec/06_hearth_and_address_space.md. -/
def HRT_CTL_HALT : Field := ⟨.HRT, 0x100, 0, 1, .RW, .LIVE, 0⟩
def HRT_CTL_SCRUB_EN : Field := ⟨.HRT, 0x100, 1, 1, .RW, .LIVE, 1⟩
def HRT_STS_INIT_DONE : Field := ⟨.HRT, 0x104, 0, 1, .RO, .LIVE, 0⟩
def HRT_STS_HALTED : Field := ⟨.HRT, 0x104, 1, 1, .RO, .LIVE, 0⟩
def HRT_CE_CE : Field := ⟨.HRT, 0x108, 0, 64, .RO, .LIVE, 0⟩
def HRT_UE_UE : Field := ⟨.HRT, 0x110, 0, 64, .RO, .LIVE, 0⟩
def HRT_SCRUB_PASS_PASSES : Field := ⟨.HRT, 0x118, 0, 32, .RO, .LIVE, 0⟩
def HRT_RD_BYTES_RD_BYTES : Field := ⟨.HRT, 0x120, 0, 64, .RO, .LIVE, 0⟩
def HRT_WR_BYTES_WR_BYTES : Field := ⟨.HRT, 0x128, 0, 64, .RO, .LIVE, 0⟩
def HRT_CONFLICT_CONFLICT : Field := ⟨.HRT, 0x130, 0, 64, .RO, .LIVE, 0⟩
def HRT_REFUSED_REFUSED : Field := ⟨.HRT, 0x138, 0, 32, .RO, .LIVE, 0⟩

/-! Table 7.7 (R200), spec/07_hbm_memory.md. -/
def HBM_CTL_SCRUB_EN : Field := ⟨.HBM, 0x100, 0, 1, .RW, .LIVE, 1⟩
def HBM_CTL_SCRUB_MAX : Field := ⟨.HBM, 0x100, 1, 4, .RW, .LIVE, 4⟩
def HBM_CTL_RETRY_LIMIT : Field := ⟨.HBM, 0x100, 5, 3, .RW, .LIVE, 4⟩
def HBM_CTL_HEAL_EN : Field := ⟨.HBM, 0x100, 8, 1, .RW, .LIVE, 1⟩
def HBM_STS_TRAINED : Field := ⟨.HBM, 0x104, 0, 1, .RO, .LIVE, 0⟩
def HBM_STS_SELF_REFRESH : Field := ⟨.HBM, 0x104, 1, 1, .RO, .LIVE, 0⟩
def HBM_STS_STACK_FAILED : Field := ⟨.HBM, 0x104, 2, 1, .RO, .LIVE, 0⟩
def HBM_STS_HOT : Field := ⟨.HBM, 0x104, 3, 1, .RO, .LIVE, 0⟩
def HBM_STS_ANCHOR_SPARES : Field := ⟨.HBM, 0x104, 8, 4, .RO, .LIVE, 0⟩
def HBM_MAPOUT_CHANNELS : Field := ⟨.HBM, 0x108, 0, 16, .RO, .LIVE, 0⟩
def HBM_MAPOUT_PENDING : Field := ⟨.HBM, 0x108, 16, 16, .RO, .LIVE, 0⟩
def HBM_TEMP_TEMP : Field := ⟨.HBM, 0x10C, 0, 8, .RO, .LIVE, 0⟩
def HBM_CE_CE : Field := ⟨.HBM, 0x110, 0, 64, .RO, .LIVE, 0⟩
def HBM_ODECC_ODECC : Field := ⟨.HBM, 0x118, 0, 64, .RO, .LIVE, 0⟩
def HBM_UE_UE : Field := ⟨.HBM, 0x120, 0, 64, .RO, .LIVE, 0⟩
def HBM_PAR_RETRY_PAR_RETRY : Field := ⟨.HBM, 0x128, 0, 64, .RO, .LIVE, 0⟩
def HBM_PAR_FAIL_PAR_FAIL : Field := ⟨.HBM, 0x130, 0, 64, .RO, .LIVE, 0⟩
def HBM_SCRUB_PASS_PASSES : Field := ⟨.HBM, 0x138, 0, 32, .RO, .LIVE, 0⟩
def HBM_RD_BYTES_RD_BYTES : Field := ⟨.HBM, 0x140, 0, 64, .RO, .LIVE, 0⟩
def HBM_WR_BYTES_WR_BYTES : Field := ⟨.HBM, 0x148, 0, 64, .RO, .LIVE, 0⟩
def HBM_GATHER_GATHER : Field := ⟨.HBM, 0x150, 0, 64, .RO, .LIVE, 0⟩
def HBM_REF_WAIT_REF_WAIT : Field := ⟨.HBM, 0x158, 0, 64, .RO, .LIVE, 0⟩
def HBM_HEAL_HEALED : Field := ⟨.HBM, 0x160, 0, 32, .RO, .LIVE, 0⟩
def HBM_HEAL_HEAL_FAILED : Field := ⟨.HBM, 0x160, 32, 32, .RO, .LIVE, 0⟩
def HBM_UE_INFO_REGION : Field := ⟨.HBM, 0x168, 0, 4, .RO, .LIVE, 0⟩
def HBM_UE_INFO_BANK : Field := ⟨.HBM, 0x168, 4, 1, .RO, .LIVE, 0⟩
def HBM_UE_INFO_WAS_ACTIVE : Field := ⟨.HBM, 0x168, 5, 1, .RO, .LIVE, 0⟩
def HBM_UE_INFO_PC : Field := ⟨.HBM, 0x168, 6, 5, .RO, .LIVE, 0⟩
def HBM_UE_ADDR_ADDR : Field := ⟨.HBM, 0x170, 0, 64, .RO, .LIVE, 0⟩

/-! Table 8.12 (R234), spec/08_contexts_commands_sync.md. -/
def CTX_CFG_DIE : Field := ⟨.CTX, 0x100, 0, 3, .RW, .ARMED, 0⟩
def CTX_CFG_PRIORITY : Field := ⟨.CTX, 0x100, 4, 2, .RW, .ARMED, 0⟩
def CTX_CFG_STEP_ROLE : Field := ⟨.CTX, 0x100, 6, 2, .RW, .ARMED, 0⟩
def CTX_CTL_CREATE : Field := ⟨.CTX, 0x104, 0, 1, .WO, .LIVE, 0⟩
def CTX_CTL_DESTROY : Field := ⟨.CTX, 0x104, 1, 1, .WO, .LIVE, 0⟩
def CTX_CTL_RESET : Field := ⟨.CTX, 0x104, 2, 1, .WO, .LIVE, 0⟩
def CTX_CTL_PREEMPT : Field := ⟨.CTX, 0x104, 3, 1, .WO, .LIVE, 0⟩
def CTX_CTL_RESUME : Field := ⟨.CTX, 0x104, 4, 1, .WO, .LIVE, 0⟩
def CTX_CTL_SKIP : Field := ⟨.CTX, 0x104, 5, 1, .WO, .LIVE, 0⟩
def CTX_STS_STATE : Field := ⟨.CTX, 0x108, 0, 4, .RO, .LIVE, 0⟩
def CTX_STS_RESIDENT : Field := ⟨.CTX, 0x108, 4, 1, .RO, .LIVE, 0⟩
def CTX_STS_CALL_DEPTH : Field := ⟨.CTX, 0x108, 8, 4, .RO, .LIVE, 0⟩
def CTX_STS_LOOP_DEPTH : Field := ⟨.CTX, 0x108, 12, 3, .RO, .LIVE, 0⟩
def CTX_STS_QFREE : Field := ⟨.CTX, 0x108, 16, 11, .RO, .LIVE, 1024⟩
def CTX_PC_PC : Field := ⟨.CTX, 0x110, 0, 64, .RO, .LIVE, 0⟩
def CTX_RESTART_RESTART : Field := ⟨.CTX, 0x118, 0, 64, .RO, .LIVE, 0⟩
def CTX_RETIRED_RETIRED : Field := ⟨.CTX, 0x120, 0, 64, .RO, .LIVE, 0⟩
def CTX_AFLAGS_ACC_SAT : Field := ⟨.CTX, 0x128, 0, 1, .W1C, .LIVE, 0⟩
def CTX_AFLAGS_NAN_OUT : Field := ⟨.CTX, 0x128, 1, 1, .W1C, .LIVE, 0⟩
def CTX_AFLAGS_INF_OUT : Field := ⟨.CTX, 0x128, 2, 1, .W1C, .LIVE, 0⟩
def CTX_AFLAGS_SWG_SAT : Field := ⟨.CTX, 0x128, 3, 1, .W1C, .LIVE, 0⟩
def CTX_ERR_CODE : Field := ⟨.CTX, 0x130, 0, 8, .RO, .LIVE, 0⟩
def CTX_ERR_SOURCE : Field := ⟨.CTX, 0x130, 8, 4, .RO, .LIVE, 0⟩
def CTX_ERR_VALID : Field := ⟨.CTX, 0x130, 31, 1, .RO, .LIVE, 0⟩
def CTX_ERR_ADDR_ADDR : Field := ⟨.CTX, 0x138, 0, 64, .RO, .LIVE, 0⟩
def CTX_ERR_SYNC_VID : Field := ⟨.CTX, 0x140, 0, 20, .RO, .LIVE, 0⟩
def CTX_ERR_SYNC_PHYS : Field := ⟨.CTX, 0x140, 20, 16, .RO, .LIVE, 0⟩
def CTX_ERR_SYNC_NODE : Field := ⟨.CTX, 0x140, 36, 16, .RO, .LIVE, 0⟩
def CTX_ERR_SYNC_REMOTE : Field := ⟨.CTX, 0x140, 52, 1, .RO, .LIVE, 0⟩
def CTX_ERR_AWAIT_AWAITED : Field := ⟨.CTX, 0x148, 0, 64, .RO, .LIVE, 0⟩
def CTX_ERR_CUR_CURRENT : Field := ⟨.CTX, 0x150, 0, 64, .RO, .LIVE, 0⟩
def CTX_LATE_LATE : Field := ⟨.CTX, 0x158, 0, 32, .RO, .LIVE, 0⟩
def CTX_OVF_OVF : Field := ⟨.CTX, 0x15C, 0, 32, .RO, .LIVE, 0⟩

/-! Table 8.13 (R236), spec/08_contexts_commands_sync.md. -/
def SYN_OP_OP : Field := ⟨.SYN, 0x100, 0, 3, .RW, .ARMED, 0⟩
def SYN_PHYS_PHYS : Field := ⟨.SYN, 0x104, 0, 16, .RW, .ARMED, 0⟩
def SYN_BIND_VID : Field := ⟨.SYN, 0x108, 0, 20, .RW, .ARMED, 0⟩
def SYN_BIND_CTX : Field := ⟨.SYN, 0x108, 24, 6, .RW, .ARMED, 0⟩
def SYN_FLAGS_REMOTE_OK : Field := ⟨.SYN, 0x10C, 0, 1, .RW, .ARMED, 0⟩
def SYN_FLAGS_STEP : Field := ⟨.SYN, 0x10C, 1, 1, .RW, .ARMED, 0⟩
def SYN_FLAGS_OWNER : Field := ⟨.SYN, 0x10C, 8, 6, .RW, .ARMED, 0⟩
def SYN_INIT_INIT : Field := ⟨.SYN, 0x110, 0, 64, .RW, .ARMED, 0⟩
def SYN_RESULT_RESULT : Field := ⟨.SYN, 0x118, 0, 4, .RO, .LIVE, 0⟩
def SYN_PEEK_PHYS_PEEK_PHYS : Field := ⟨.SYN, 0x120, 0, 16, .RW, .LIVE, 0⟩
def SYN_PEEK_VALUE : Field := ⟨.SYN, 0x128, 0, 64, .RO, .LIVE, 0⟩
def SYN_PEEK_STS_STATE : Field := ⟨.SYN, 0x130, 0, 4, .RO, .LIVE, 0⟩
def SYN_PEEK_STS_OWNER : Field := ⟨.SYN, 0x130, 8, 6, .RO, .LIVE, 0⟩
def SYN_PEEK_STS_WAITERS : Field := ⟨.SYN, 0x130, 16, 7, .RO, .LIVE, 0⟩
def SYN_ATT_ATT : Field := ⟨.SYN, 0x138, 0, 8, .RO, .LIVE, 0⟩
def SYN_USED_USED : Field := ⟨.SYN, 0x13C, 0, 17, .RO, .LIVE, 0⟩
def SYN_BINDINGS_BINDINGS : Field := ⟨.SYN, 0x140, 0, 18, .RO, .LIVE, 0⟩
def SYN_SUBS_SUBS : Field := ⟨.SYN, 0x144, 0, 13, .RO, .LIVE, 0⟩
def SYN_DROP_STALE_DROP_STALE : Field := ⟨.SYN, 0x148, 0, 64, .RO, .LIVE, 0⟩
def SYN_DEFER_DEFER : Field := ⟨.SYN, 0x150, 0, 64, .RO, .LIVE, 0⟩
def SYN_DEFER_OVF_DEFER_OVF : Field := ⟨.SYN, 0x158, 0, 64, .RO, .LIVE, 0⟩
def SYN_DENIED_DENIED : Field := ⟨.SYN, 0x160, 0, 64, .RO, .LIVE, 0⟩

/-! Table 8.14 (R237), spec/08_contexts_commands_sync.md. -/
def PSC_CTL_EN : Field := ⟨.PSC, 0x100, 0, 1, .RW, .LIVE, 1⟩
def PSC_STS_DEADLOCK : Field := ⟨.PSC, 0x104, 0, 1, .RO, .LIVE, 0⟩
def PSC_STS_COUNT : Field := ⟨.PSC, 0x104, 16, 7, .RO, .LIVE, 0⟩
def PSC_TIME_TIME : Field := ⟨.PSC, 0x108, 0, 64, .RO, .LIVE, 0⟩
def PSC_DECLARED_DECLARED : Field := ⟨.PSC, 0x110, 0, 32, .RO, .LIVE, 0⟩
def PSC_EDGE_VALID (n : Nat) : Field := ⟨.PSC, 0x200 + 4 * n, 0, 1, .RO, .LIVE, 0⟩
def PSC_EDGE_OWNER (n : Nat) : Field := ⟨.PSC, 0x200 + 4 * n, 8, 6, .RO, .LIVE, 0⟩
def PSC_EDGE_PHYS (n : Nat) : Field := ⟨.PSC, 0x200 + 4 * n, 16, 16, .RO, .LIVE, 0⟩
def DSP_CFG_SAVE_AFTER : Field := ⟨.DSP, 0x100, 0, 16, .RW, .IDLE, 20⟩
def DSP_STS_RESIDENT : Field := ⟨.DSP, 0x104, 0, 5, .RO, .LIVE, 0⟩
def DSP_STS_HOMED : Field := ⟨.DSP, 0x104, 8, 7, .RO, .LIVE, 0⟩
def DSP_RECORDS_RECORDS : Field := ⟨.DSP, 0x108, 0, 64, .RO, .LIVE, 0⟩
def DSP_SAVES_SAVES : Field := ⟨.DSP, 0x110, 0, 64, .RO, .LIVE, 0⟩
def DSP_LOADS_LOADS : Field := ⟨.DSP, 0x118, 0, 64, .RO, .LIVE, 0⟩

/-! Table 9.12 (R260), spec/09_fabric_links.md. -/
def LNK_CTL_RETRAIN : Field := ⟨.LNK, 0x100, 0, 1, .WO, .LIVE, 0⟩
def LNK_CFG_DEGRADE_EN : Field := ⟨.LNK, 0x104, 0, 1, .RW, .LIVE, 1⟩
def LNK_CFG_AUTO_RESTORE : Field := ⟨.LNK, 0x104, 1, 1, .RW, .LIVE, 0⟩
def LNK_CFG_ADAPT_EN : Field := ⟨.LNK, 0x104, 2, 1, .RW, .LIVE, 1⟩
def LNK_CFG_SER_EXP : Field := ⟨.LNK, 0x104, 3, 5, .RW, .LIVE, 12⟩
def LNK_CFG_RETRY_MS : Field := ⟨.LNK, 0x104, 8, 8, .RW, .LIVE, 100⟩
def LNK_CFG_TX_PRESET : Field := ⟨.LNK, 0x104, 16, 4, .RW, .IDLE, 1⟩
def LNK_TRAIN_LANE_DISABLE : Field := ⟨.LNK, 0x108, 0, 4, .RW, .ARMED, 0⟩
def LNK_TRAIN_VER_CAP_MINOR : Field := ⟨.LNK, 0x108, 8, 8, .RW, .ARMED, 2⟩
def LNK_TRAIN_VER_CAP_MAJOR : Field := ⟨.LNK, 0x108, 16, 8, .RW, .ARMED, 1⟩
def LNK_STS_STATE : Field := ⟨.LNK, 0x10C, 0, 4, .RO, .LIVE, 0⟩
def LNK_STS_WIDTH : Field := ⟨.LNK, 0x10C, 4, 2, .RO, .LIVE, 0⟩
def LNK_STS_LANES_UP : Field := ⟨.LNK, 0x10C, 8, 4, .RO, .LIVE, 0⟩
def LNK_STS_LANE_MAP : Field := ⟨.LNK, 0x10C, 12, 8, .RO, .LIVE, 0⟩
def LNK_STS_POLARITY : Field := ⟨.LNK, 0x10C, 20, 4, .RO, .LIVE, 0⟩
def LNK_STS_FAIL_REASON : Field := ⟨.LNK, 0x10C, 24, 4, .RO, .LIVE, 0⟩
def LNK_PARTNER_VER_MINOR : Field := ⟨.LNK, 0x110, 0, 8, .RO, .LIVE, 0⟩
def LNK_PARTNER_VER_MAJOR : Field := ⟨.LNK, 0x110, 8, 8, .RO, .LIVE, 0⟩
def LNK_PARTNER_PLANE : Field := ⟨.LNK, 0x110, 16, 5, .RO, .LIVE, 0⟩
def LNK_PARTNER_PORT : Field := ⟨.LNK, 0x110, 24, 8, .RO, .LIVE, 0⟩
def LNK_DELAY_DELAY : Field := ⟨.LNK, 0x114, 0, 32, .RO, .LIVE, 0⟩
def LNK_UP_TIME_UP_TIME : Field := ⟨.LNK, 0x118, 0, 64, .RO, .LIVE, 0⟩
def LNK_FEC_CW_CW : Field := ⟨.LNK, 0x120, 0, 64, .RO, .LIVE, 0⟩
def LNK_FEC_CORR_CORR : Field := ⟨.LNK, 0x128, 0, 64, .RO, .LIVE, 0⟩
def LNK_FEC_UNCORR_UNCORR : Field := ⟨.LNK, 0x130, 0, 64, .RO, .LIVE, 0⟩
def LNK_PKT_DROP_PKT_DROP : Field := ⟨.LNK, 0x138, 0, 64, .RO, .LIVE, 0⟩
def LNK_LANE_SYM_LANE_SYM (n : Nat) : Field := ⟨.LNK, 0x140 + 8 * n, 0, 64, .RO, .LIVE, 0⟩
def LNK_TX_SLOTS_TX_SLOTS : Field := ⟨.LNK, 0x160, 0, 64, .RO, .LIVE, 0⟩
def LNK_RX_SLOTS_RX_SLOTS : Field := ⟨.LNK, 0x168, 0, 64, .RO, .LIVE, 0⟩
def LNK_CREDIT_STALL_CREDIT_STALL : Field := ⟨.LNK, 0x170, 0, 64, .RO, .LIVE, 0⟩
def LNK_RETRAINS_DEGRADES : Field := ⟨.LNK, 0x178, 0, 32, .RO, .LIVE, 0⟩
def LNK_RETRAINS_FAILS : Field := ⟨.LNK, 0x178, 32, 32, .RO, .LIVE, 0⟩

/-! Table 10.13 (R290), spec/10_fabric_transport.md. -/
def XPT_CFG_RESEND_US : Field := ⟨.XPT, 0x100, 0, 10, .RW, .LIVE, 50⟩
def XPT_CFG_TRIES : Field := ⟨.XPT, 0x100, 10, 4, .RW, .LIVE, 8⟩
def XPT_CFG_LIFETIME_US : Field := ⟨.XPT, 0x100, 14, 11, .RW, .LIVE, 1000⟩
def XPT_WIN_WINDOW : Field := ⟨.XPT, 0x104, 0, 13, .RW, .LIVE, 2048⟩
def XPT_WIN_ACK_COALESCE : Field := ⟨.XPT, 0x104, 16, 7, .RW, .LIVE, 16⟩
def XPT_THR_HI : Field := ⟨.XPT, 0x108, 0, 11, .RW, .LIVE, 1536⟩
def XPT_THR_LO : Field := ⟨.XPT, 0x108, 16, 11, .RW, .LIVE, 1024⟩
def XPT_SPRAY_MASK : Field := ⟨.XPT, 0x10C, 0, 16, .RW, .LIVE, 65535⟩
def XPT_PLANE_STS_READY : Field := ⟨.XPT, 0x110, 0, 16, .RO, .LIVE, 0⟩
def XPT_PLANE_STS_SUSPECT : Field := ⟨.XPT, 0x110, 16, 16, .RO, .LIVE, 0⟩
def XPT_CTL_READMIT : Field := ⟨.XPT, 0x114, 0, 16, .WO, .LIVE, 0⟩
def XPT_SUSPECT_N_N : Field := ⟨.XPT, 0x118, 0, 8, .RW, .LIVE, 8⟩
def XPT_TX_PKTS_TX_PKTS : Field := ⟨.XPT, 0x120, 0, 64, .RO, .LIVE, 0⟩
def XPT_RX_PKTS_RX_PKTS : Field := ⟨.XPT, 0x128, 0, 64, .RO, .LIVE, 0⟩
def XPT_RESENDS_RESENDS : Field := ⟨.XPT, 0x130, 0, 64, .RO, .LIVE, 0⟩
def XPT_TIMEOUTS_TIMEOUTS : Field := ⟨.XPT, 0x138, 0, 64, .RO, .LIVE, 0⟩
def XPT_NAK_RX_NAK_RX : Field := ⟨.XPT, 0x140, 0, 64, .RO, .LIVE, 0⟩
def XPT_CRC_DROP_CRC_DROP : Field := ⟨.XPT, 0x148, 0, 64, .RO, .LIVE, 0⟩
def XPT_STALE_DROP_STALE_DROP : Field := ⟨.XPT, 0x150, 0, 64, .RO, .LIVE, 0⟩
def XPT_DUP_DROP_DUP_DROP : Field := ⟨.XPT, 0x158, 0, 64, .RO, .LIVE, 0⟩
def XPT_EPOCH_DROP_EPOCH_DROP : Field := ⟨.XPT, 0x160, 0, 64, .RO, .LIVE, 0⟩
def XPT_SLICE_DROP_SLICE_DROP : Field := ⟨.XPT, 0x168, 0, 64, .RO, .LIVE, 0⟩
def XPT_DST_DROP_DST_DROP : Field := ⟨.XPT, 0x170, 0, 64, .RO, .LIVE, 0⟩
def XPT_BAD_VER_BAD_VER : Field := ⟨.XPT, 0x178, 0, 64, .RO, .LIVE, 0⟩
def XPT_THROTTLE_CYC_THROTTLE_CYC : Field := ⟨.XPT, 0x180, 0, 64, .RO, .LIVE, 0⟩
def XPT_FLOW_FAILS_FLOW_FAILS : Field := ⟨.XPT, 0x188, 0, 64, .RO, .LIVE, 0⟩

/-! Table 10.14 (R291), spec/10_fabric_transport.md. -/
def FLW_OPEN_OPEN : Field := ⟨.FLW, 0x100, 0, 12, .RO, .LIVE, 0⟩
def FLW_IDLE_IDLE_MS : Field := ⟨.FLW, 0x104, 0, 8, .RW, .LIVE, 10⟩
def FLW_SEL_INDEX : Field := ⟨.FLW, 0x108, 0, 11, .RW, .LIVE, 0⟩
def FLW_VIEW0_STATE : Field := ⟨.FLW, 0x110, 0, 3, .RO, .LIVE, 0⟩
def FLW_VIEW0_FAIL_CAUSE : Field := ⟨.FLW, 0x110, 4, 4, .RO, .LIVE, 0⟩
def FLW_VIEW0_PEER_FLOW : Field := ⟨.FLW, 0x110, 8, 12, .RO, .LIVE, 0⟩
def FLW_VIEW0_PEER_NODE : Field := ⟨.FLW, 0x110, 20, 16, .RO, .LIVE, 0⟩
def FLW_VIEW0_OUTSTANDING : Field := ⟨.FLW, 0x110, 36, 13, .RO, .LIVE, 0⟩
def FLW_VIEW1_TX_NEXT : Field := ⟨.FLW, 0x118, 0, 32, .RO, .LIVE, 0⟩
def FLW_VIEW1_RX_CUM : Field := ⟨.FLW, 0x118, 32, 32, .RO, .LIVE, 0⟩
def FLW_FAILS_FAILS : Field := ⟨.FLW, 0x120, 0, 64, .RO, .LIVE, 0⟩
def FLW_EVICT_EVICT : Field := ⟨.FLW, 0x128, 0, 64, .RO, .LIVE, 0⟩
def FLW_ALLOC_WAIT_ALLOC_WAIT : Field := ⟨.FLW, 0x130, 0, 64, .RO, .LIVE, 0⟩

/-! Table 10.15 (R292), spec/10_fabric_transport.md. -/
def RTE_IDX_NODE : Field := ⟨.RTE, 0x100, 0, 16, .RW, .LIVE, 0⟩
def RTE_IDX_AUTO_INC : Field := ⟨.RTE, 0x100, 16, 1, .RW, .LIVE, 1⟩
def RTE_IDX_VIEW : Field := ⟨.RTE, 0x100, 17, 1, .RW, .LIVE, 0⟩
def RTE_DATA_PLANES : Field := ⟨.RTE, 0x104, 0, 16, .RW, .LIVE, 0⟩
def RTE_DATA_VALID : Field := ⟨.RTE, 0x104, 16, 1, .RW, .LIVE, 0⟩
def RTE_COPY_COPY_CUR : Field := ⟨.RTE, 0x108, 0, 1, .WO, .LIVE, 0⟩
def RTE_CNT_VALID_CUR : Field := ⟨.RTE, 0x10C, 0, 17, .RO, .LIVE, 0⟩
def RTE_CNT_VALID_NEXT : Field := ⟨.RTE, 0x10C, 32, 17, .RO, .LIVE, 0⟩

/-! Table 10.16 (R293), spec/10_fabric_transport.md. -/
def SLC_NEXT_SLICE_ID : Field := ⟨.SLC, 0x100, 0, 12, .RW, .ARMED, 0⟩
def SLC_NEXT_OWN_NODE : Field := ⟨.SLC, 0x100, 16, 16, .RW, .ARMED, 65535⟩
def SLC_NEXT_MC_MCAST_NODE : Field := ⟨.SLC, 0x104, 0, 16, .RW, .ARMED, 65535⟩
def SLC_EPOCH_AT_AT : Field := ⟨.SLC, 0x108, 0, 64, .RW, .ARMED, 0⟩
def SLC_CFG_MODE : Field := ⟨.SLC, 0x110, 0, 1, .RW, .ARMED, 0⟩
def SLC_CFG_RETIRE_MS : Field := ⟨.SLC, 0x110, 8, 8, .RW, .ARMED, 2⟩
def SLC_CUR_SLICE_ID : Field := ⟨.SLC, 0x118, 0, 12, .RO, .LIVE, 0⟩
def SLC_CUR_OWN_NODE : Field := ⟨.SLC, 0x118, 16, 16, .RO, .LIVE, 65535⟩
def SLC_CUR_MC_MCAST_NODE : Field := ⟨.SLC, 0x11C, 0, 16, .RO, .LIVE, 65535⟩
def SLC_PREV_SLICE_ID : Field := ⟨.SLC, 0x120, 0, 12, .RO, .LIVE, 0⟩
def SLC_PREV_OWN_NODE : Field := ⟨.SLC, 0x120, 16, 16, .RO, .LIVE, 65535⟩
def SLC_STS_EPOCH : Field := ⟨.SLC, 0x128, 0, 1, .RO, .LIVE, 0⟩
def SLC_STS_STAGED : Field := ⟨.SLC, 0x128, 1, 1, .RO, .LIVE, 0⟩
def SLC_STS_RETIRING : Field := ⟨.SLC, 0x128, 2, 1, .RO, .LIVE, 0⟩
def SLC_STS_DRAINING : Field := ⟨.SLC, 0x128, 3, 1, .RO, .LIVE, 0⟩
def SLC_STS_DRAINED : Field := ⟨.SLC, 0x128, 4, 1, .RO, .LIVE, 0⟩
def SLC_STS_CUT_PENDING : Field := ⟨.SLC, 0x128, 5, 1, .RO, .LIVE, 0⟩
def SLC_CUT_STEP_CUT_STEP : Field := ⟨.SLC, 0x130, 0, 64, .RO, .LIVE, 0⟩
def SLC_CTL_DRAIN : Field := ⟨.SLC, 0x138, 0, 1, .RW, .LIVE, 0⟩
def SLC_CTL_SEND_CUT : Field := ⟨.SLC, 0x138, 1, 1, .WO, .LIVE, 0⟩
def SLC_CTL_SEND_STOP : Field := ⟨.SLC, 0x138, 2, 1, .WO, .LIVE, 0⟩
def SLC_SWITCH_TIME_SWITCH_TIME : Field := ⟨.SLC, 0x140, 0, 64, .RO, .LIVE, 0⟩
def SLC_STOP_TX : Field := ⟨.SLC, 0x148, 0, 32, .RO, .LIVE, 0⟩
def SLC_STOP_RX : Field := ⟨.SLC, 0x148, 32, 32, .RO, .LIVE, 0⟩
def SLC_CUT_TX : Field := ⟨.SLC, 0x150, 0, 32, .RO, .LIVE, 0⟩
def SLC_CUT_RX : Field := ⟨.SLC, 0x150, 32, 32, .RO, .LIVE, 0⟩
def SLC_STALE_STALE : Field := ⟨.SLC, 0x158, 0, 64, .RO, .LIVE, 0⟩

/-! Table 10.17 (R294), spec/10_fabric_transport.md. -/
def TIME_CTL_MASTER : Field := ⟨.TIME, 0x100, 0, 1, .RW, .ARMED, 0⟩
def TIME_CFG_PERIOD_US : Field := ⟨.TIME, 0x104, 0, 16, .RW, .ARMED, 100⟩
def TIME_SET_SET : Field := ⟨.TIME, 0x108, 0, 64, .RW, .ARMED, 0⟩
def TIME_NOW_NOW : Field := ⟨.TIME, 0x110, 0, 64, .RO, .LIVE, 0⟩
def TIME_STS_STATE : Field := ⟨.TIME, 0x118, 0, 2, .RO, .LIVE, 0⟩
def TIME_STS_SRC_PLANE : Field := ⟨.TIME, 0x118, 8, 5, .RO, .LIVE, 0⟩
def TIME_STS_MASTER_NODE : Field := ⟨.TIME, 0x118, 16, 16, .RO, .LIVE, 65535⟩
def TIME_OFFSET_OFFSET : Field := ⟨.TIME, 0x120, 0, 32, .RO, .LIVE, 0⟩
def TIME_RATE_RATE : Field := ⟨.TIME, 0x124, 0, 32, .RO, .LIVE, 0⟩
def TIME_RX_RX : Field := ⟨.TIME, 0x128, 0, 64, .RO, .LIVE, 0⟩

/-! Table 11.6 (R320), spec/11_weld_collectives.md. -/
def WLD_CFG_STALL_MS : Field := ⟨.WLD, 0x100, 0, 8, .RW, .IDLE, 10⟩
def WLD_RANKMAP_BASE : Field := ⟨.WLD, 0x108, 0, 48, .RW, .ARMED, 0⟩
def WLD_LEND_CTL_ENFORCE : Field := ⟨.WLD, 0x110, 0, 1, .RW, .ARMED, 0⟩
def WLD_STS_COLLS : Field := ⟨.WLD, 0x118, 0, 5, .RO, .LIVE, 0⟩
def WLD_STS_VOTE_SENT : Field := ⟨.WLD, 0x118, 5, 1, .RO, .LIVE, 0⟩
def WLD_STS_MIRROR_DONE : Field := ⟨.WLD, 0x118, 6, 1, .RO, .LIVE, 0⟩
def WLD_STS_READY_HELD : Field := ⟨.WLD, 0x118, 16, 11, .RO, .LIVE, 0⟩
def WLD_MIRROR_DONE : Field := ⟨.WLD, 0x120, 0, 18, .RO, .LIVE, 0⟩
def WLD_MIRROR_NEED : Field := ⟨.WLD, 0x120, 32, 18, .RO, .LIVE, 0⟩
def WLD_VOTE_OK : Field := ⟨.WLD, 0x128, 0, 1, .RO, .LIVE, 0⟩
def WLD_VOTE_REASON : Field := ⟨.WLD, 0x128, 8, 8, .RO, .LIVE, 0⟩
def WLD_VOTE_RANK : Field := ⟨.WLD, 0x128, 16, 16, .RO, .LIVE, 0⟩
def WLD_VOTE_TIME_TIME : Field := ⟨.WLD, 0x130, 0, 64, .RO, .LIVE, 0⟩
def WLD_TX_BYTES_TX_BYTES : Field := ⟨.WLD, 0x140, 0, 64, .RO, .LIVE, 0⟩
def WLD_RX_BYTES_RX_BYTES : Field := ⟨.WLD, 0x148, 0, 64, .RO, .LIVE, 0⟩
def WLD_DONE_DONE : Field := ⟨.WLD, 0x150, 0, 64, .RO, .LIVE, 0⟩
def WLD_FAILS_FAILS : Field := ⟨.WLD, 0x158, 0, 64, .RO, .LIVE, 0⟩
def WLD_STALE_STALE : Field := ⟨.WLD, 0x160, 0, 64, .RO, .LIVE, 0⟩
def WLD_READY_WAIT_READY_WAIT : Field := ⟨.WLD, 0x168, 0, 64, .RO, .LIVE, 0⟩
def WLD_LEND_REFUSED_LEND_REFUSED : Field := ⟨.WLD, 0x170, 0, 64, .RO, .LIVE, 0⟩
def WLD_LEND_BASE (n : Nat) : Field := ⟨.WLD, 0x200 + 16 * n, 0, 48, .RW, .ARMED, 0⟩
def WLD_LEND_BORROWER (n : Nat) : Field := ⟨.WLD, 0x200 + 16 * n, 48, 16, .RW, .ARMED, 65535⟩
def WLD_LEND_SIZE (n : Nat) : Field := ⟨.WLD, 0x208 + 16 * n, 0, 48, .RW, .ARMED, 0⟩
def WLD_LEND_VALID (n : Nat) : Field := ⟨.WLD, 0x208 + 16 * n, 63, 1, .RW, .ARMED, 0⟩

/-! Table 11.7 (R321), spec/11_weld_collectives.md. -/
def WLC_CFG_CLK_GATE_IDLE : Field := ⟨.WLC, 0x100, 0, 8, .RW, .IDLE, 64⟩
def WLC_ELEMS_ELEMS : Field := ⟨.WLC, 0x108, 0, 64, .RO, .LIVE, 0⟩
def WLC_IN_BYTES_IN_BYTES : Field := ⟨.WLC, 0x110, 0, 64, .RO, .LIVE, 0⟩
def WLC_OUT_BYTES_OUT_BYTES : Field := ⟨.WLC, 0x118, 0, 64, .RO, .LIVE, 0⟩
def WLC_PARITY_PARITY : Field := ⟨.WLC, 0x120, 0, 32, .RO, .LIVE, 0⟩

/-! Table 12.7 (R336), spec/12_activation_ledger.md. -/
def ALG_CFG_BASE : Field := ⟨.ALG, 0x100, 0, 48, .RW, .ARMED, 0⟩
def ALG_SLOTS_OPEN : Field := ⟨.ALG, 0x108, 0, 32, .RO, .LIVE, 0⟩
def ALG_SEL_SLOT : Field := ⟨.ALG, 0x110, 0, 5, .RW, .LIVE, 0⟩
def ALG_VIEW_RECORDS : Field := ⟨.ALG, 0x114, 0, 8, .RO, .LIVE, 0⟩
def ALG_VIEW_AWAY : Field := ⟨.ALG, 0x114, 8, 8, .RO, .LIVE, 0⟩
def ALG_VIEW_LOST : Field := ⟨.ALG, 0x114, 16, 8, .RO, .LIVE, 0⟩
def ALG_VIEW_OWNER : Field := ⟨.ALG, 0x114, 24, 6, .RO, .LIVE, 0⟩
def ALG_RESIDENT_RESIDENT : Field := ⟨.ALG, 0x118, 0, 64, .RO, .LIVE, 0⟩
def ALG_PEAK_PEAK : Field := ⟨.ALG, 0x120, 0, 64, .RO, .LIVE, 0⟩
def ALG_PEAK_LAST_PEAK_LAST : Field := ⟨.ALG, 0x128, 0, 64, .RO, .LIVE, 0⟩
def TNG_DEST_BASE (n : Nat) : Field := ⟨.TNG, 0x200 + 16 * n, 0, 48, .RW, .ARMED, 0⟩
def TNG_DEST_NODE (n : Nat) : Field := ⟨.TNG, 0x200 + 16 * n, 48, 16, .RW, .ARMED, 65535⟩
def TNG_DEST_SIZE (n : Nat) : Field := ⟨.TNG, 0x208 + 16 * n, 0, 40, .RW, .ARMED, 0⟩
def TNG_DEST_ALT (n : Nat) : Field := ⟨.TNG, 0x208 + 16 * n, 40, 3, .RW, .ARMED, 0⟩
def TNG_DEST_HAS_ALT (n : Nat) : Field := ⟨.TNG, 0x208 + 16 * n, 43, 1, .RW, .ARMED, 0⟩
def TNG_DEST_KIND (n : Nat) : Field := ⟨.TNG, 0x208 + 16 * n, 44, 1, .RW, .ARMED, 0⟩
def TNG_DEST_VALID (n : Nat) : Field := ⟨.TNG, 0x208 + 16 * n, 63, 1, .RW, .ARMED, 0⟩
def TNG_DEST_STS_DOWN : Field := ⟨.TNG, 0x100, 0, 8, .RO, .LIVE, 0⟩
def TNG_DEST_STS_HOLDING : Field := ⟨.TNG, 0x100, 8, 8, .RO, .LIVE, 0⟩
def TNG_DEST_CTL_CLEAR_DOWN : Field := ⟨.TNG, 0x104, 0, 8, .WO, .LIVE, 0⟩
def TNG_DEST_CTL_FORCE_DOWN : Field := ⟨.TNG, 0x104, 8, 8, .WO, .LIVE, 0⟩
def TNG_OUT_BYTES_OUT_BYTES : Field := ⟨.TNG, 0x110, 0, 64, .RO, .LIVE, 0⟩
def TNG_IN_BYTES_IN_BYTES : Field := ⟨.TNG, 0x118, 0, 64, .RO, .LIVE, 0⟩
def TNG_LOST_LOST : Field := ⟨.TNG, 0x120, 0, 64, .RO, .LIVE, 0⟩
def TNG_ALT_USED_ALT_USED : Field := ⟨.TNG, 0x128, 0, 64, .RO, .LIVE, 0⟩
def TNG_FETCH_BLOCKED_FETCH_BLOCKED : Field := ⟨.TNG, 0x130, 0, 64, .RO, .LIVE, 0⟩

/-! Table 13.13 (R365), spec/13_integrity_checking.md. -/
def LPE_CFG_K : Field := ⟨.LPE, 0x100, 0, 5, .RW, .LIVE, 10⟩
def LPE_CFG_EN : Field := ⟨.LPE, 0x100, 8, 1, .RW, .LIVE, 1⟩
def LPE_STS_CHECKING : Field := ⟨.LPE, 0x104, 0, 1, .RO, .LIVE, 0⟩
def LPE_STS_FLAGGED : Field := ⟨.LPE, 0x104, 1, 1, .RO, .LIVE, 0⟩
def LPE_STS_RETIRED : Field := ⟨.LPE, 0x104, 2, 1, .RO, .LIVE, 0⟩
def LPE_SAMPLED_SAMPLED : Field := ⟨.LPE, 0x108, 0, 64, .RO, .LIVE, 0⟩
def LPE_DEFERRED_DEFERRED : Field := ⟨.LPE, 0x110, 0, 64, .RO, .LIVE, 0⟩
def LPE_ABANDONED_ABANDONED : Field := ⟨.LPE, 0x118, 0, 64, .RO, .LIVE, 0⟩
def LPE_SKIP_SAT_SKIP_SAT : Field := ⟨.LPE, 0x120, 0, 64, .RO, .LIVE, 0⟩
def LPE_OUTCOMES_ANVIL_WRONG : Field := ⟨.LPE, 0x128, 0, 16, .RO, .LIVE, 0⟩
def LPE_OUTCOMES_LOUPE_WRONG : Field := ⟨.LPE, 0x128, 16, 16, .RO, .LIVE, 0⟩
def LPE_OUTCOMES_UNRESOLVED : Field := ⟨.LPE, 0x128, 32, 16, .RO, .LIVE, 0⟩
def LPE_LAST_OUTCOME : Field := ⟨.LPE, 0x130, 0, 2, .RO, .LIVE, 0⟩
def LPE_LAST_U1 : Field := ⟨.LPE, 0x130, 8, 6, .RO, .LIVE, 0⟩
def LPE_LAST_U2 : Field := ⟨.LPE, 0x130, 16, 6, .RO, .LIVE, 63⟩
def LPE_LAST_CTX : Field := ⟨.LPE, 0x130, 24, 6, .RO, .LIVE, 0⟩
def LPE_LAST_ADDR_D_ADDR : Field := ⟨.LPE, 0x138, 0, 64, .RO, .LIVE, 0⟩

/-! Table 13.14 (R365), spec/13_integrity_checking.md. -/
def TCH_CFG_EVERY : Field := ⟨.TCH, 0x100, 0, 16, .RW, .ARMED, 1⟩
def TCH_TABLE_BASE : Field := ⟨.TCH, 0x108, 0, 48, .RW, .ARMED, 0⟩
def TCH_LEN_LEN : Field := ⟨.TCH, 0x110, 0, 40, .RW, .ARMED, 0⟩
def TCH_STS_DUE : Field := ⟨.TCH, 0x118, 0, 1, .RO, .LIVE, 0⟩
def TCH_STS_VALID : Field := ⟨.TCH, 0x118, 1, 1, .RO, .LIVE, 0⟩
def TCH_STS_COVER_FAIL : Field := ⟨.TCH, 0x118, 2, 1, .RO, .LIVE, 0⟩
def TCH_STS_ODD_OUTCOME : Field := ⟨.TCH, 0x118, 4, 2, .RO, .LIVE, 0⟩
def TCH_STS_ODD_CLASS : Field := ⟨.TCH, 0x118, 6, 2, .RO, .LIVE, 0⟩
def TCH_STS_ODD_SELF : Field := ⟨.TCH, 0x118, 8, 1, .RO, .LIVE, 0⟩
def TCH_STS_ODD_RANK : Field := ⟨.TCH, 0x118, 16, 16, .RO, .LIVE, 0⟩
def TCH_LAST_LO_H1 : Field := ⟨.TCH, 0x120, 0, 64, .RO, .LIVE, 0⟩
def TCH_LAST_HI_H2 : Field := ⟨.TCH, 0x128, 0, 64, .RO, .LIVE, 0⟩
def TCH_BAD_BLOCK_BLOCK : Field := ⟨.TCH, 0x130, 0, 32, .RO, .LIVE, 0⟩
def TCH_COUNT_COMPUTED : Field := ⟨.TCH, 0x134, 0, 32, .RO, .LIVE, 0⟩
def TCH_MISMATCH_MISMATCH : Field := ⟨.TCH, 0x138, 0, 32, .RO, .LIVE, 0⟩

/-! Table 13.15 (R365), spec/13_integrity_checking.md. -/
def BSR_CFG_INTERVAL_S : Field := ⟨.BSR, 0x100, 0, 16, .RW, .LIVE, 600⟩
def BSR_CFG_ANV_EN : Field := ⟨.BSR, 0x100, 16, 1, .RW, .LIVE, 1⟩
def BSR_CFG_SWG_EN : Field := ⟨.BSR, 0x100, 17, 1, .RW, .LIVE, 1⟩
def BSR_STS_ANV_UNIT : Field := ⟨.BSR, 0x104, 0, 6, .RO, .LIVE, 63⟩
def BSR_STS_SWG_UNIT : Field := ⟨.BSR, 0x104, 8, 4, .RO, .LIVE, 15⟩
def BSR_STS_ANV_DUE : Field := ⟨.BSR, 0x104, 16, 6, .RO, .LIVE, 0⟩
def BSR_STS_SWG_DUE : Field := ⟨.BSR, 0x104, 24, 4, .RO, .LIVE, 0⟩
def BSR_TESTS_TESTS : Field := ⟨.BSR, 0x108, 0, 64, .RO, .LIVE, 0⟩
def BSR_FAILS_TRANSIENT : Field := ⟨.BSR, 0x110, 0, 32, .RO, .LIVE, 0⟩
def BSR_FAILS_PERSISTENT : Field := ⟨.BSR, 0x110, 32, 32, .RO, .LIVE, 0⟩
def BSR_SIG_SIG : Field := ⟨.BSR, 0x118, 0, 64, .RO, .LIVE, 0⟩
def BSR_LAST_UNIT : Field := ⟨.BSR, 0x120, 0, 6, .RO, .LIVE, 0⟩
def BSR_LAST_IS_SWAGE : Field := ⟨.BSR, 0x120, 8, 1, .RO, .LIVE, 0⟩
def BSR_LAST_PERSISTENT : Field := ⟨.BSR, 0x120, 9, 1, .RO, .LIVE, 0⟩

/-! Table 13.16 (R365), spec/13_integrity_checking.md. -/
def BST_TARGETS_TARGETS : Field := ⟨.BST, 0x100, 0, 19, .RW, .IDLE, 0⟩
def BST_CTL_START : Field := ⟨.BST, 0x104, 0, 1, .WO, .LIVE, 0⟩
def BST_STS_DONE : Field := ⟨.BST, 0x108, 0, 1, .RO, .LIVE, 0⟩
def BST_STS_REFUSED : Field := ⟨.BST, 0x108, 1, 1, .RO, .LIVE, 0⟩
def BST_STS_CURRENT : Field := ⟨.BST, 0x108, 8, 5, .RO, .LIVE, 31⟩
def BST_PASS_PASS : Field := ⟨.BST, 0x10C, 0, 19, .RO, .LIVE, 0⟩
def BST_FAIL_FAIL : Field := ⟨.BST, 0x110, 0, 19, .RO, .LIVE, 0⟩

/-! Table 13.17 (R365), spec/13_integrity_checking.md. -/
def HLT_CFG_HALF_LIFE_H : Field := ⟨.HLT, 0x100, 0, 8, .RW, .LIVE, 24⟩
def HLT_CFG_AUTO_CUT : Field := ⟨.HLT, 0x100, 8, 1, .RW, .LIVE, 1⟩
def HLT_CFG_CUT_HOLDOFF_MIN : Field := ⟨.HLT, 0x100, 16, 8, .RW, .LIVE, 60⟩
def HLT_THR_WATCH : Field := ⟨.HLT, 0x108, 0, 16, .RW, .LIVE, 32⟩
def HLT_THR_WARN : Field := ⟨.HLT, 0x108, 16, 16, .RW, .LIVE, 128⟩
def HLT_THR_RETIRE : Field := ⟨.HLT, 0x108, 32, 16, .RW, .LIVE, 512⟩
def HLT_SEL_UNIT : Field := ⟨.HLT, 0x110, 0, 16, .RW, .LIVE, 4096⟩
def HLT_SCORE_SCORE : Field := ⟨.HLT, 0x114, 0, 32, .RO, .LIVE, 0⟩
def HLT_LEVEL_LEVEL : Field := ⟨.HLT, 0x118, 0, 2, .RO, .LIVE, 0⟩
def HLT_SUM_WATCH_N : Field := ⟨.HLT, 0x11C, 0, 10, .RO, .LIVE, 0⟩
def HLT_SUM_WARN_N : Field := ⟨.HLT, 0x11C, 10, 10, .RO, .LIVE, 0⟩
def HLT_SUM_RETIRE_N : Field := ⟨.HLT, 0x11C, 20, 10, .RO, .LIVE, 0⟩
def HLT_WORST_UNIT : Field := ⟨.HLT, 0x120, 0, 16, .RO, .LIVE, 0⟩
def HLT_WORST_SCORE : Field := ⟨.HLT, 0x120, 32, 32, .RO, .LIVE, 0⟩
def HLT_CUTS_CUTS : Field := ⟨.HLT, 0x128, 0, 32, .RO, .LIVE, 0⟩
def HLT_W_WEIGHT (n : Nat) : Field := ⟨.HLT, 0x200 + 4 * n, 0, 16, .RW, .LIVE, ([1, 1, 0x10, 0x800, 0x1000, 8, 1, 0x400, 0x1000, 0x800, 0x2000, 0x2000, 0x1000, 0x2000, 0x4000].getD n 0)⟩

/-! Table 13.18 (R365), spec/13_integrity_checking.md. -/
def LDG_STS_READY : Field := ⟨.LDG, 0x100, 0, 1, .RO, .LIVE, 0⟩
def LDG_STS_WRITE_FAIL : Field := ⟨.LDG, 0x100, 1, 1, .RO, .LIVE, 0⟩
def LDG_POH_POH : Field := ⟨.LDG, 0x104, 0, 32, .RO, .LIVE, 0⟩
def LDG_SEQ_NEWEST : Field := ⟨.LDG, 0x108, 0, 32, .RO, .LIVE, 0⟩
def LDG_SEQ_OLDEST : Field := ⟨.LDG, 0x108, 32, 32, .RO, .LIVE, 0⟩
def LDG_RD_SEQ : Field := ⟨.LDG, 0x110, 0, 32, .RW, .LIVE, 0⟩
def LDG_PERM_SEL_UNIT : Field := ⟨.LDG, 0x114, 0, 16, .RW, .LIVE, 4096⟩
def LDG_PERM_IN_WINDOW : Field := ⟨.LDG, 0x118, 0, 2, .RO, .LIVE, 0⟩
def LDG_PERM_PERMANENT : Field := ⟨.LDG, 0x118, 2, 1, .RO, .LIVE, 0⟩
def LDG_CLEAR_UNIT : Field := ⟨.LDG, 0x11C, 0, 16, .WO, .LIVE, 0⟩
def LDG_COALESCED_COALESCED : Field := ⟨.LDG, 0x120, 0, 64, .RO, .LIVE, 0⟩

/-! Table 14.14 (R395), spec/14_faults_resets_spares.md. -/
def FLT_RST_DOMAIN : Field := ⟨.FLT, 0x100, 0, 3, .RW, .IDLE, 0⟩
def FLT_RST_TARGET : Field := ⟨.FLT, 0x100, 8, 3, .RW, .IDLE, 0⟩
def FLT_RST_NO_STOP : Field := ⟨.FLT, 0x100, 12, 1, .RW, .IDLE, 0⟩
def FLT_RST_NO_RECORD : Field := ⟨.FLT, 0x100, 13, 1, .RW, .IDLE, 0⟩
def FLT_CTL_GO : Field := ⟨.FLT, 0x104, 0, 1, .WO, .LIVE, 0⟩
def FLT_CTL_FREC_ACK : Field := ⟨.FLT, 0x104, 1, 1, .WO, .LIVE, 0⟩
def FLT_CFG_WDOG_MS : Field := ⟨.FLT, 0x108, 0, 16, .RW, .LIVE, 1000⟩
def FLT_STS_RESETTING : Field := ⟨.FLT, 0x10C, 0, 1, .RO, .LIVE, 0⟩
def FLT_STS_REC_WRITING : Field := ⟨.FLT, 0x10C, 1, 1, .RO, .LIVE, 0⟩
def FLT_STS_FREC_PENDING : Field := ⟨.FLT, 0x10C, 2, 1, .RO, .LIVE, 0⟩
def FLT_STS_FREC_FAIL : Field := ⟨.FLT, 0x10C, 3, 1, .RO, .LIVE, 0⟩
def FLT_STS_LAST_DOMAIN : Field := ⟨.FLT, 0x10C, 4, 3, .RO, .LIVE, 0⟩
def FLT_STS_LAST_TARGET : Field := ⟨.FLT, 0x10C, 8, 3, .RO, .LIVE, 0⟩
def FLT_STS_LAST_CAUSE : Field := ⟨.FLT, 0x10C, 12, 2, .RO, .LIVE, 0⟩
def FLT_LAST_TIME_TIME : Field := ⟨.FLT, 0x110, 0, 64, .RO, .LIVE, 0⟩
def FLT_RESET_CNT_CHIP : Field := ⟨.FLT, 0x118, 0, 16, .RO, .LIVE, 0⟩
def FLT_RESET_CNT_DIE : Field := ⟨.FLT, 0x118, 16, 16, .RO, .LIVE, 0⟩
def FLT_RESET_CNT_PORT : Field := ⟨.FLT, 0x118, 32, 16, .RO, .LIVE, 0⟩
def FLT_RESET_CNT_WDOG : Field := ⟨.FLT, 0x118, 48, 16, .RO, .LIVE, 0⟩
def FLT_REC_SEQ_SEQ : Field := ⟨.FLT, 0x120, 0, 32, .RO, .LIVE, 0⟩
def FLT_CLASS_CNT_COUNT (n : Nat) : Field := ⟨.FLT, 0x140 + 4 * n, 0, 32, .RO, .LIVE, 0⟩

/-! Table 14.15 (R395), spec/14_faults_resets_spares.md. -/
def FLT_TKO_CFG_BANK : Field := ⟨.FLT, 0x200, 0, 1, .RW, .ARMED, 0⟩
def FLT_TKO_CFG_HOLD : Field := ⟨.FLT, 0x200, 1, 1, .RW, .ARMED, 0⟩
def FLT_TKO_CFG_WARD_HOLD : Field := ⟨.FLT, 0x200, 2, 1, .RW, .ARMED, 0⟩
def FLT_TKO_CFG_MS_SRC : Field := ⟨.FLT, 0x200, 3, 1, .RW, .ARMED, 0⟩
def FLT_TKO_CFG_MR_SRC : Field := ⟨.FLT, 0x200, 4, 1, .RW, .ARMED, 0⟩
def FLT_TKO_CFG_NO_LOAD : Field := ⟨.FLT, 0x200, 5, 1, .RW, .ARMED, 0⟩
def FLT_TKO_CFG_N_SRC : Field := ⟨.FLT, 0x200, 8, 4, .RW, .ARMED, 0⟩
def FLT_TKO_STEP_STEP : Field := ⟨.FLT, 0x208, 0, 64, .RW, .ARMED, 0⟩
def FLT_TKO_TEMPERED_TEMPERED : Field := ⟨.FLT, 0x210, 0, 64, .RW, .ARMED, 0⟩
def FLT_TKO_ATT_ATT : Field := ⟨.FLT, 0x218, 0, 8, .RW, .ARMED, 0⟩
def FLT_TKO_SRC_NODE (n : Nat) : Field := ⟨.FLT, 0x220 + 4 * n, 0, 16, .RW, .ARMED, 65535⟩
def FLT_TKO_SRC_BANK (n : Nat) : Field := ⟨.FLT, 0x220 + 4 * n, 16, 1, .RW, .ARMED, 0⟩
def FLT_TKO_STS_STATE : Field := ⟨.FLT, 0x240, 0, 2, .RO, .LIVE, 0⟩
def FLT_TKO_STS_CAUSE : Field := ⟨.FLT, 0x240, 4, 4, .RO, .LIVE, 0⟩
def FLT_TKO_STS_HOLD_LOADED : Field := ⟨.FLT, 0x240, 8, 1, .RO, .LIVE, 0⟩
def FLT_TKO_STS_WARD_HOLD_LOADED : Field := ⟨.FLT, 0x240, 9, 1, .RO, .LIVE, 0⟩
def FLT_TKO_BYTES_BYTES : Field := ⟨.FLT, 0x248, 0, 64, .RO, .LIVE, 0⟩
def FLT_TKO_TIME_TIME : Field := ⟨.FLT, 0x250, 0, 64, .RO, .LIVE, 0⟩

/-! Table 14.16 (R396), spec/14_faults_resets_spares.md. -/
def DIE_STS_READY : Field := ⟨.DIE, 0x100, 0, 1, .RO, .LIVE, 0⟩
def PDC_STS_READY : Field := ⟨.PDC, 0x100, 0, 1, .RO, .LIVE, 0⟩
def DIE_STS_IN_RESET : Field := ⟨.DIE, 0x100, 1, 1, .RO, .LIVE, 0⟩
def PDC_STS_IN_RESET : Field := ⟨.PDC, 0x100, 1, 1, .RO, .LIVE, 0⟩
def DIE_RESETS_RESETS : Field := ⟨.DIE, 0x104, 0, 32, .RO, .LIVE, 0⟩
def PDC_RESETS_RESETS : Field := ⟨.PDC, 0x104, 0, 32, .RO, .LIVE, 0⟩
def DIE_LAST_RESET_TIME : Field := ⟨.DIE, 0x108, 0, 64, .RO, .LIVE, 0⟩
def PDC_LAST_RESET_TIME : Field := ⟨.PDC, 0x108, 0, 64, .RO, .LIVE, 0⟩
def DIE_READY_TIME_TIME : Field := ⟨.DIE, 0x110, 0, 64, .RO, .LIVE, 0⟩
def PDC_READY_TIME_TIME : Field := ⟨.PDC, 0x110, 0, 64, .RO, .LIVE, 0⟩
def DIE_CLASS_CNT_COUNT (n : Nat) : Field := ⟨.DIE, 0x120 + 4 * n, 0, 32, .RO, .LIVE, 0⟩
def PDC_CLASS_CNT_COUNT (n : Nat) : Field := ⟨.PDC, 0x120 + 4 * n, 0, 32, .RO, .LIVE, 0⟩

/-! Table 15.7 (R415), spec/15_ingot_checkpoints.md. -/
def CKP_CFG_WC_MODE : Field := ⟨.CKP, 0x100, 0, 2, .RW, .ARMED, 0⟩
def CKP_CFG_CUT_TIMEOUT_S : Field := ⟨.CKP, 0x100, 8, 8, .RW, .ARMED, 30⟩
def CKP_SLOT_SIZE : Field := ⟨.CKP, 0x108, 0, 48, .RW, .ARMED, 0⟩
def CKP_CTL_RESTORE : Field := ⟨.CKP, 0x110, 0, 1, .WO, .LIVE, 0⟩
def CKP_CTL_FILL : Field := ⟨.CKP, 0x110, 1, 1, .WO, .LIVE, 0⟩
def CKP_CTL_DRIVE_INIT : Field := ⟨.CKP, 0x110, 2, 1, .WO, .LIVE, 0⟩
def CKP_RESTORE_SOURCE : Field := ⟨.CKP, 0x114, 0, 1, .RW, .LIVE, 0⟩
def CKP_RESTORE_PICK : Field := ⟨.CKP, 0x114, 1, 1, .RW, .LIVE, 0⟩
def CKP_RESTORE_STEP_STEP : Field := ⟨.CKP, 0x118, 0, 64, .RW, .LIVE, 0⟩
def CKP_RESTORE_ADDR_ADDR : Field := ⟨.CKP, 0x120, 0, 64, .RW, .LIVE, 0⟩
def CKP_STS_STATE : Field := ⟨.CKP, 0x128, 0, 3, .RO, .LIVE, 0⟩
def CKP_STS_DRIVE_READY : Field := ⟨.CKP, 0x128, 4, 1, .RO, .LIVE, 0⟩
def CKP_STS_RESTORED : Field := ⟨.CKP, 0x128, 5, 1, .RO, .LIVE, 0⟩
def CKP_STS_FILLED : Field := ⟨.CKP, 0x128, 6, 1, .RO, .LIVE, 1⟩
def CKP_STS_LAST_CODE : Field := ⟨.CKP, 0x128, 8, 8, .RO, .LIVE, 0⟩
def CKP_STS_LINK_GEN : Field := ⟨.CKP, 0x128, 16, 3, .RO, .LIVE, 0⟩
def CKP_STS_LINK_WIDTH : Field := ⟨.CKP, 0x128, 20, 3, .RO, .LIVE, 0⟩
def CKP_SLOT_STS_A_SEALED : Field := ⟨.CKP, 0x12C, 0, 1, .RO, .LIVE, 0⟩
def CKP_SLOT_STS_B_SEALED : Field := ⟨.CKP, 0x12C, 1, 1, .RO, .LIVE, 0⟩
def CKP_STEP_A_STEP : Field := ⟨.CKP, 0x130, 0, 64, .RO, .LIVE, 0⟩
def CKP_STEP_B_STEP : Field := ⟨.CKP, 0x138, 0, 64, .RO, .LIVE, 0⟩
def CKP_NS_CAP_CAP : Field := ⟨.CKP, 0x140, 0, 64, .RO, .LIVE, 0⟩
def CKP_CUTS_DONE : Field := ⟨.CKP, 0x148, 0, 32, .RO, .LIVE, 0⟩
def CKP_CUTS_FAILED : Field := ⟨.CKP, 0x148, 32, 32, .RO, .LIVE, 0⟩
def CKP_LAST_US_US : Field := ⟨.CKP, 0x150, 0, 32, .RO, .LIVE, 0⟩
def CKP_WR_BYTES_BYTES : Field := ⟨.CKP, 0x158, 0, 64, .RO, .LIVE, 0⟩
def CKP_RD_BYTES_BYTES : Field := ⟨.CKP, 0x160, 0, 64, .RO, .LIVE, 0⟩
def CKP_CONFIRMED_STEP : Field := ⟨.CKP, 0x168, 0, 64, .RO, .LIVE, 0⟩

/-! Table 16.6 (R430), spec/16_power_thermal_clocks.md. -/
def PWR_LIMIT_PKG_LIMIT_W : Field := ⟨.PWR, 0x100, 0, 12, .RW, .LIVE, 2400⟩
def PWR_CFG_HYST_W : Field := ⟨.PWR, 0x104, 0, 8, .RW, .LIVE, 50⟩
def PWR_CFG_LOCK_EN : Field := ⟨.PWR, 0x104, 8, 1, .RW, .LIVE, 1⟩
def PWR_STS_P : Field := ⟨.PWR, 0x108, 0, 7, .RO, .LIVE, 64⟩
def PWR_STS_L : Field := ⟨.PWR, 0x108, 8, 7, .RO, .LIVE, 64⟩
def PWR_STS_FLOOR : Field := ⟨.PWR, 0x108, 16, 1, .RO, .LIVE, 0⟩
def PWR_PKG_PKG_W : Field := ⟨.PWR, 0x10C, 0, 16, .RO, .LIVE, 0⟩
def PWR_PKG_IN_W : Field := ⟨.PWR, 0x10C, 16, 16, .RO, .LIVE, 0⟩
def PWR_ENERGY_MJ : Field := ⟨.PWR, 0x110, 0, 64, .RO, .LIVE, 0⟩
def PWR_CAPPED_CAPPED : Field := ⟨.PWR, 0x118, 0, 64, .RO, .LIVE, 0⟩
def THM_CFG_THROTTLE_C : Field := ⟨.THM, 0x100, 0, 7, .RW, .LIVE, 95⟩
def THM_CFG_HBM_LIMIT_C : Field := ⟨.THM, 0x100, 8, 7, .RW, .LIVE, 95⟩
def THM_CFG_HYST_C : Field := ⟨.THM, 0x100, 16, 4, .RW, .LIVE, 2⟩
def THM_STS_THROTTLING : Field := ⟨.THM, 0x104, 0, 1, .RO, .LIVE, 0⟩
def THM_STS_HOTTEST : Field := ⟨.THM, 0x104, 8, 8, .RO, .LIVE, 0⟩
def THM_DIE_TEMP (n : Nat) : Field := ⟨.THM, 0x110 + 4 * n, 0, 8, .RO, .LIVE, 0⟩
def THM_DIE_MAX (n : Nat) : Field := ⟨.THM, 0x110 + 4 * n, 8, 8, .RO, .LIVE, 0⟩
def THM_DIE_SENSOR_OK (n : Nat) : Field := ⟨.THM, 0x110 + 4 * n, 16, 4, .RO, .LIVE, 15⟩
def THM_DIE_T (n : Nat) : Field := ⟨.THM, 0x110 + 4 * n, 24, 7, .RO, .LIVE, 64⟩
def THM_PD_TEMP (n : Nat) : Field := ⟨.THM, 0x130 + 4 * n, 0, 8, .RO, .LIVE, 0⟩
def THM_PD_MAX (n : Nat) : Field := ⟨.THM, 0x130 + 4 * n, 8, 8, .RO, .LIVE, 0⟩
def THM_PD_SENSOR_OK (n : Nat) : Field := ⟨.THM, 0x130 + 4 * n, 16, 2, .RO, .LIVE, 3⟩
def THM_THROTTLED_THROTTLED : Field := ⟨.THM, 0x140, 0, 64, .RO, .LIVE, 0⟩
def CLK_CFG_SLEEP_US : Field := ⟨.CLK, 0x100, 0, 16, .RW, .LIVE, 100⟩
def CLK_CFG_SLEEP_EN : Field := ⟨.CLK, 0x100, 16, 1, .RW, .LIVE, 1⟩
def CLK_STS_AWAKE : Field := ⟨.CLK, 0x104, 0, 8, .RO, .LIVE, 0⟩
def CLK_STS_PD_LOCK : Field := ⟨.CLK, 0x104, 8, 2, .RO, .LIVE, 0⟩
def CLK_STS_CD_LOCK : Field := ⟨.CLK, 0x104, 10, 8, .RO, .LIVE, 0⟩
def CLK_WAKES_WAKES : Field := ⟨.CLK, 0x108, 0, 64, .RO, .LIVE, 0⟩
def CLK_WAKE_MAX_NS : Field := ⟨.CLK, 0x110, 0, 16, .RO, .LIVE, 0⟩
def BLW_CTL_CAP_MAX : Field := ⟨.BLW, 0x100, 0, 7, .RW, .LIVE, 64⟩
def BLW_STS_CAP : Field := ⟨.BLW, 0x104, 0, 7, .RO, .LIVE, 1⟩
def BLW_STS_Q : Field := ⟨.BLW, 0x104, 8, 7, .RO, .LIVE, 0⟩
def BLW_STS_LEVEL : Field := ⟨.BLW, 0x104, 16, 7, .RO, .LIVE, 0⟩
def BLW_STS_LIMITER : Field := ⟨.BLW, 0x104, 24, 3, .RO, .LIVE, 0⟩
def BLW_HINT_TARGET : Field := ⟨.BLW, 0x108, 0, 7, .RO, .LIVE, 0⟩
def BLW_HINT_PENDING : Field := ⟨.BLW, 0x108, 7, 1, .RO, .LIVE, 0⟩
def BLW_HINT_WINDOW : Field := ⟨.BLW, 0x108, 8, 1, .RO, .LIVE, 0⟩
def BLW_HINT_TIME_T_H : Field := ⟨.BLW, 0x110, 0, 64, .RO, .LIVE, 0⟩
def BLW_CAPPED_CAPPED : Field := ⟨.BLW, 0x118, 0, 64, .RO, .LIVE, 0⟩
def BLW_RAMP_WAIT_RAMP_WAIT : Field := ⟨.BLW, 0x120, 0, 64, .RO, .LIVE, 0⟩
def BLW_HINTS_TAKEN : Field := ⟨.BLW, 0x128, 0, 32, .RO, .LIVE, 0⟩
def BLW_HINTS_IGNORED : Field := ⟨.BLW, 0x128, 32, 32, .RO, .LIVE, 0⟩

/-! Table 17.10 (R457), spec/17_host_and_security.md. -/
def HIF_LINK_GEN : Field := ⟨.HIF, 0x100, 0, 4, .RO, .LIVE, 0⟩
def HIF_LINK_WIDTH : Field := ⟨.HIF, 0x100, 4, 6, .RO, .LIVE, 0⟩
def HIF_LINK_UP : Field := ⟨.HIF, 0x100, 16, 1, .RO, .LIVE, 0⟩
def HIF_LINK_FLIT : Field := ⟨.HIF, 0x100, 17, 1, .RO, .LIVE, 0⟩
def HIF_APT_SIZE_LOG : Field := ⟨.HIF, 0x104, 0, 4, .RO, .LIVE, 0⟩
def HIF_IRQ_CFG_GAP_US : Field := ⟨.HIF, 0x108, 0, 8, .RW, .LIVE, 0⟩
def HIF_HOSTW_ATTR_RO_EN : Field := ⟨.HIF, 0x10C, 0, 1, .RW, .LIVE, 1⟩
def HIF_HOSTW_ATTR_NS_EN : Field := ⟨.HIF, 0x10C, 1, 1, .RW, .LIVE, 0⟩
def HIF_HOSTW_BASE_BASE : Field := ⟨.HIF, 0x110, 0, 64, .RW, .LIVE, 0⟩
def HIF_APT_BASE (n : Nat) : Field := ⟨.HIF, 0x120 + 8 * n, 0, 48, .RW, .LIVE, ([0, 0x018000000000, 0x020000000000, 0x010000000000].getD n 0)⟩
def HIF_BAD_ACCESS : Field := ⟨.HIF, 0x140, 0, 64, .RO, .LIVE, 0⟩
def HIF_MSIX_SENT_SENT : Field := ⟨.HIF, 0x148, 0, 64, .RO, .LIVE, 0⟩
def HIF_MSIX_MERGED_MERGED : Field := ⟨.HIF, 0x150, 0, 64, .RO, .LIVE, 0⟩
def HIF_HOST_ERR_HOST_ERR : Field := ⟨.HIF, 0x158, 0, 32, .RO, .LIVE, 0⟩
def HIF_LINK_DOWNS_DOWNS : Field := ⟨.HIF, 0x15C, 0, 32, .RO, .LIVE, 0⟩
def HIF_POISON_RX_POISON : Field := ⟨.HIF, 0x160, 0, 32, .RO, .LIVE, 0⟩
def HIF_RD_BYTES_BYTES : Field := ⟨.HIF, 0x168, 0, 64, .RO, .LIVE, 0⟩
def HIF_WR_BYTES_BYTES : Field := ⟨.HIF, 0x170, 0, 64, .RO, .LIVE, 0⟩
def SEC_BOOT_STATE : Field := ⟨.SEC, 0x100, 0, 2, .RO, .LIVE, 0⟩
def SEC_BOOT_ACTIVE_SLOT : Field := ⟨.SEC, 0x100, 2, 1, .RO, .LIVE, 0⟩
def SEC_BOOT_FALLBACK : Field := ⟨.SEC, 0x100, 3, 1, .RO, .LIVE, 0⟩
def SEC_BOOT_KEY_INDEX : Field := ⟨.SEC, 0x100, 4, 2, .RO, .LIVE, 0⟩
def SEC_BOOT_CERT_BAD : Field := ⟨.SEC, 0x100, 6, 1, .RO, .LIVE, 0⟩
def SEC_BOOT_A_VALID : Field := ⟨.SEC, 0x100, 7, 1, .RO, .LIVE, 0⟩
def SEC_BOOT_B_VALID : Field := ⟨.SEC, 0x100, 8, 1, .RO, .LIVE, 0⟩
def SEC_SVN_FUSE_SVN : Field := ⟨.SEC, 0x104, 0, 7, .RO, .LIVE, 0⟩
def SEC_SVN_IMAGE_SVN : Field := ⟨.SEC, 0x104, 8, 7, .RO, .LIVE, 0⟩
def SEC_SVN_REVOKED : Field := ⟨.SEC, 0x104, 16, 4, .RO, .LIVE, 0⟩
def SEC_FW_VER_VERSION : Field := ⟨.SEC, 0x108, 0, 32, .RO, .LIVE, 0⟩
def SEC_IF_VER_IF_VERSION : Field := ⟨.SEC, 0x10C, 0, 16, .RO, .LIVE, 0⟩
def SEC_SERIAL_SERIAL : Field := ⟨.SEC, 0x110, 0, 64, .RO, .LIVE, 0⟩
def SEC_MEAS_SEQ_SEQ : Field := ⟨.SEC, 0x118, 0, 32, .RO, .LIVE, 0⟩
def SMC_MB_CMD_OPCODE : Field := ⟨.SMC, 0x100, 0, 8, .RW, .IDLE, 0⟩
def SMC_MB_CMD_LEN : Field := ⟨.SMC, 0x100, 16, 11, .RW, .IDLE, 0⟩
def SMC_MB_CTL_DOORBELL : Field := ⟨.SMC, 0x104, 0, 1, .WO, .LIVE, 0⟩
def SMC_MB_STS_STATE : Field := ⟨.SMC, 0x108, 0, 2, .RO, .LIVE, 3⟩
def SMC_MB_STS_RESULT : Field := ⟨.SMC, 0x108, 8, 8, .RO, .LIVE, 0⟩
def SMC_MB_STS_RSP_LEN : Field := ⟨.SMC, 0x108, 16, 11, .RO, .LIVE, 0⟩
def SMC_MB_SEQ_DONE : Field := ⟨.SMC, 0x10C, 0, 32, .RO, .LIVE, 0⟩
def SMC_MB_DROPPED_DROPPED : Field := ⟨.SMC, 0x110, 0, 32, .RO, .LIVE, 0⟩

/-! Table 18.9 (R477), spec/18_package_and_dies.md. -/
def D2D_ID_SLOT : Field := ⟨.D2D, 0x100, 0, 4, .RO, .LIVE, 0⟩
def D2D_ID_BIN : Field := ⟨.D2D, 0x100, 4, 4, .RO, .LIVE, 0⟩
def D2D_ID_FUSE_FORMAT : Field := ⟨.D2D, 0x100, 8, 8, .RO, .LIVE, 0⟩
def D2D_ID_ID_OK : Field := ⟨.D2D, 0x100, 16, 1, .RO, .LIVE, 0⟩
def D2D_CFG_RETRY_LIMIT : Field := ⟨.D2D, 0x104, 0, 4, .RW, .LIVE, 8⟩
def D2D_SERIAL_SERIAL : Field := ⟨.D2D, 0x108, 0, 64, .RO, .LIVE, 0⟩
def D2D_EDGE_UP (n : Nat) : Field := ⟨.D2D, 0x110 + 8 * n, 0, 12, .RO, .LIVE, 0⟩
def D2D_EDGE_FAILED (n : Nat) : Field := ⟨.D2D, 0x110 + 8 * n, 12, 12, .RO, .LIVE, 0⟩
def D2D_EDGE_PEER (n : Nat) : Field := ⟨.D2D, 0x110 + 8 * n, 24, 4, .RO, .LIVE, 15⟩
def D2D_EDGE_STATE (n : Nat) : Field := ⟨.D2D, 0x110 + 8 * n, 28, 4, .RO, .LIVE, 0⟩
def D2D_EDGE_REPAIRED (n : Nat) : Field := ⟨.D2D, 0x110 + 8 * n, 32, 12, .RO, .LIVE, 0⟩
def D2D_EDGE_REPAIR_DIFF (n : Nat) : Field := ⟨.D2D, 0x110 + 8 * n, 44, 12, .RO, .LIVE, 0⟩
def D2D_RETRY_RETRY : Field := ⟨.D2D, 0x130, 0, 64, .RO, .LIVE, 0⟩
def D2D_LOST_LOST : Field := ⟨.D2D, 0x138, 0, 64, .RO, .LIVE, 0⟩
def D2D_FWD_BYTES_FWD : Field := ⟨.D2D, 0x140, 0, 64, .RO, .LIVE, 0⟩
def D2D_BYTES_BYTES : Field := ⟨.D2D, 0x148, 0, 64, .RO, .LIVE, 0⟩
def D2D_ROUTE_CHG_ROUTE_CHG : Field := ⟨.D2D, 0x150, 0, 32, .RO, .LIVE, 0⟩
def GST_CTL_READMIT : Field := ⟨.GST, 0x100, 0, 1, .WO, .LIVE, 0⟩
def GST_CTL_WITHDRAW : Field := ⟨.GST, 0x100, 1, 1, .WO, .LIVE, 0⟩
def GST_STS_STATE : Field := ⟨.GST, 0x104, 0, 3, .RO, .LIVE, 0⟩
def GST_STS_REASON : Field := ⟨.GST, 0x104, 4, 4, .RO, .LIVE, 0⟩
def GST_STS_MODULES_UP : Field := ⟨.GST, 0x104, 8, 2, .RO, .LIVE, 0⟩
def GST_STS_CONTEXTS : Field := ⟨.GST, 0x104, 10, 3, .RO, .LIVE, 0⟩
def GST_DESC_ID_ID : Field := ⟨.GST, 0x108, 0, 48, .RO, .LIVE, 0⟩
def GST_GX_SIZE_SIZE : Field := ⟨.GST, 0x110, 0, 48, .RO, .LIVE, 0⟩
def GST_HBM_REQ_SIZE : Field := ⟨.GST, 0x118, 0, 48, .RO, .LIVE, 0⟩
def GST_RESENDS_RESENDS : Field := ⟨.GST, 0x120, 0, 64, .RO, .LIVE, 0⟩
def GST_REFUSED_REFUSED : Field := ⟨.GST, 0x128, 0, 64, .RO, .LIVE, 0⟩
def GST_RX_BYTES_BYTES : Field := ⟨.GST, 0x130, 0, 64, .RO, .LIVE, 0⟩
def GST_TX_BYTES_BYTES : Field := ⟨.GST, 0x138, 0, 64, .RO, .LIVE, 0⟩
def GST_ADMIT_TIME_TIME : Field := ⟨.GST, 0x140, 0, 64, .RO, .LIVE, 0⟩

/-! Table 19.2 (R481), spec/19_startup_sequence.md. -/
def SMC_BRINGUP_STAGE : Field := ⟨.SMC, 0x114, 0, 4, .RO, .LIVE, 0⟩
def SMC_BRINGUP_HALT_CAUSE : Field := ⟨.SMC, 0x114, 4, 4, .RO, .LIVE, 0⟩
def SMC_BRINGUP_TIME_READY_TIME : Field := ⟨.SMC, 0x118, 0, 64, .RO, .LIVE, 0⟩

/-! Arrays that the tables give as ranges (R178, R457). -/
/-- HRT_OWN region i (R174, R178): 0b00, or 0b11 for regions 1,019 to 1,023. -/
def HRT_OWN_OWNER (i : Nat) : Field := ⟨.HRT, 0x200 + 4 * (i / 16), 2 * (i % 16), 2, .RW, .LIVE, if 1019 ≤ i then 3 else 0⟩
def SMC_MB_REQ_REQUEST (n : Nat) : Field := ⟨.SMC, 0x400 + 4 * n, 0, 32, .RW, .IDLE, 0⟩
def SMC_MB_RSP_RESPONSE (n : Nat) : Field := ⟨.SMC, 0x800 + 4 * n, 0, 32, .RO, .LIVE, 0⟩
end R

/-- The header fields that software may write or that hold state (Table 2.2); the rest of the header is derived. -/
def headerFields : List Field :=
  [R.PAGE_CTL_ENABLE, R.PAGE_CTL_LOG_FREEZE, R.PAGE_CTL_ERRLOG_CLEAR, R.PAGE_CTL_VIEW_SHADOW, R.PAGE_STS_ARM_PENDING,
    R.EVT_STS] ++
  [R.EVT_MASK, R.EVT_FORCE, R.EVT_ROUTE_VECTOR, R.EVT_ROUTE_TO_HOST, R.EVT_ROUTE_TO_SMC, R.ARM_CTL_APPLY,
    R.ARM_CTL_DISCARD, R.ARM_CTL_ARM_SEQ, R.ARM_TIME]

def fieldsTMP : List Field :=
  [R.TMP_RANK_RANK, R.TMP_RANK_SIZE, R.TMP_BUDDY_BUDDY_NODE, R.TMP_BUDDY_WARD_NODE, R.TMP_CFG_VOTE_TIMEOUT, R.TMP_CFG_FLIP_DELAY, R.TMP_CFG_REPLAY_LIMIT, R.TMP_STS_PHASE] ++
  [R.TMP_STS_ACTIVE_BANK, R.TMP_STS_IN_DOUBT, R.TMP_STS_HOLD_VALID, R.TMP_STS_WARD_HOLD_VALID, R.TMP_STS_REPLAY_COUNT, R.TMP_STS_LAST_REASON, R.TMP_STS_LATE_FLIPS, R.TMP_STEP_STEP] ++
  [R.TMP_TEMPERED_TEMPERED, R.TMP_FLIP_TIME_FLIP_TIME, R.TMP_CTL_RESOLVE, R.TMP_CTL_REPLAY_RESUME]

def fieldsANV : List Field :=
  [R.ANV_CTL_ISSUE_CAP, R.ANV_MAP_MAP_OUT, R.ANV_CFG_CLK_GATE_IDLE, R.ANV_SUM_ACTIVE, R.ANV_SUM_SPARE, R.ANV_SUM_MAPPED, R.ANV_SUM_DIE_ACTIVE, R.ANV_UNIT_STS_STATE] ++
  [R.ANV_SUSPECT_SUSPECT, R.ANV_BUSY_UNITS_BUSY, R.ANV_TILES_TILES, R.ANV_REPLAY_L1_REPLAY_L1, R.ANV_REPLAY_L2_REPLAY_L2, R.ANV_SAT_SAT, R.ANV_NAN_NAN, R.ANV_FORCED_FORCED] ++
  [R.ANV_ARRAY_CYC_ARRAY_CYC, R.ANV_SAT_INFO_UNIT, R.ANV_SAT_INFO_CTX, R.ANV_SAT_INFO_LEVEL, R.ANV_SAT_ADDR_D_ADDR]

def fieldsSPK : List Field :=
  [R.SPK_CTL_SRC, R.SPK_SEED_G_SEED_G, R.SPK_SEED_U_SEED_U, R.SPK_STEP_STEP, R.SPK_HOLD_G_HOLD_SEED_G, R.SPK_HOLD_U_HOLD_SEED_U, R.SPK_STS_KAT_DONE, R.SPK_STS_KAT_PASS] ++
  [R.SPK_WORDS_WORDS, R.SPK_REFUSED_REFUSED]

def fieldsSWG : List Field :=
  [R.SWG_MAP_MAP_OUT, R.SWG_CFG_CLK_GATE_IDLE, R.SWG_UNIT_STS_STATE, R.SWG_UNIT_STS_SUSPECT, R.SWG_UNIT_STS_ACTIVE, R.SWG_BLOCKS_BLOCKS, R.SWG_BUNDLES_BUNDLES, R.SWG_SR_SR] ++
  [R.SWG_SAT_SAT, R.SWG_NAN_NAN, R.SWG_FORCED_FORCED, R.SWG_ABANDONED_ABANDONED, R.SWG_REFUSE_LAST_CODE, R.SWG_REFUSE_LAST_CTX, R.SWG_REFUSE_COUNT]

def fieldsHRT : List Field :=
  [R.HRT_CTL_HALT, R.HRT_CTL_SCRUB_EN, R.HRT_STS_INIT_DONE, R.HRT_STS_HALTED, R.HRT_CE_CE, R.HRT_UE_UE, R.HRT_SCRUB_PASS_PASSES, R.HRT_RD_BYTES_RD_BYTES] ++
  [R.HRT_WR_BYTES_WR_BYTES, R.HRT_CONFLICT_CONFLICT, R.HRT_REFUSED_REFUSED] ++
  (List.range 1024).map R.HRT_OWN_OWNER

def fieldsHBM : List Field :=
  [R.HBM_CTL_SCRUB_EN, R.HBM_CTL_SCRUB_MAX, R.HBM_CTL_RETRY_LIMIT, R.HBM_CTL_HEAL_EN, R.HBM_STS_TRAINED, R.HBM_STS_SELF_REFRESH, R.HBM_STS_STACK_FAILED, R.HBM_STS_HOT] ++
  [R.HBM_STS_ANCHOR_SPARES, R.HBM_MAPOUT_CHANNELS, R.HBM_MAPOUT_PENDING, R.HBM_TEMP_TEMP, R.HBM_CE_CE, R.HBM_ODECC_ODECC, R.HBM_UE_UE, R.HBM_PAR_RETRY_PAR_RETRY] ++
  [R.HBM_PAR_FAIL_PAR_FAIL, R.HBM_SCRUB_PASS_PASSES, R.HBM_RD_BYTES_RD_BYTES, R.HBM_WR_BYTES_WR_BYTES, R.HBM_GATHER_GATHER, R.HBM_REF_WAIT_REF_WAIT, R.HBM_HEAL_HEALED, R.HBM_HEAL_HEAL_FAILED] ++
  [R.HBM_UE_INFO_REGION, R.HBM_UE_INFO_BANK, R.HBM_UE_INFO_WAS_ACTIVE, R.HBM_UE_INFO_PC, R.HBM_UE_ADDR_ADDR]

def fieldsCTX : List Field :=
  [R.CTX_CFG_DIE, R.CTX_CFG_PRIORITY, R.CTX_CFG_STEP_ROLE, R.CTX_CTL_CREATE, R.CTX_CTL_DESTROY, R.CTX_CTL_RESET, R.CTX_CTL_PREEMPT, R.CTX_CTL_RESUME] ++
  [R.CTX_CTL_SKIP, R.CTX_STS_STATE, R.CTX_STS_RESIDENT, R.CTX_STS_CALL_DEPTH, R.CTX_STS_LOOP_DEPTH, R.CTX_STS_QFREE, R.CTX_PC_PC, R.CTX_RESTART_RESTART] ++
  [R.CTX_RETIRED_RETIRED, R.CTX_AFLAGS_ACC_SAT, R.CTX_AFLAGS_NAN_OUT, R.CTX_AFLAGS_INF_OUT, R.CTX_AFLAGS_SWG_SAT, R.CTX_ERR_CODE, R.CTX_ERR_SOURCE, R.CTX_ERR_VALID] ++
  [R.CTX_ERR_ADDR_ADDR, R.CTX_ERR_SYNC_VID, R.CTX_ERR_SYNC_PHYS, R.CTX_ERR_SYNC_NODE, R.CTX_ERR_SYNC_REMOTE, R.CTX_ERR_AWAIT_AWAITED, R.CTX_ERR_CUR_CURRENT, R.CTX_LATE_LATE] ++
  [R.CTX_OVF_OVF]

def fieldsSYN : List Field :=
  [R.SYN_OP_OP, R.SYN_PHYS_PHYS, R.SYN_BIND_VID, R.SYN_BIND_CTX, R.SYN_FLAGS_REMOTE_OK, R.SYN_FLAGS_STEP, R.SYN_FLAGS_OWNER, R.SYN_INIT_INIT] ++
  [R.SYN_RESULT_RESULT, R.SYN_PEEK_PHYS_PEEK_PHYS, R.SYN_PEEK_VALUE, R.SYN_PEEK_STS_STATE, R.SYN_PEEK_STS_OWNER, R.SYN_PEEK_STS_WAITERS, R.SYN_ATT_ATT, R.SYN_USED_USED] ++
  [R.SYN_BINDINGS_BINDINGS, R.SYN_SUBS_SUBS, R.SYN_DROP_STALE_DROP_STALE, R.SYN_DEFER_DEFER, R.SYN_DEFER_OVF_DEFER_OVF, R.SYN_DENIED_DENIED]

def fieldsPSC : List Field :=
  [R.PSC_CTL_EN, R.PSC_STS_DEADLOCK, R.PSC_STS_COUNT, R.PSC_TIME_TIME, R.PSC_DECLARED_DECLARED] ++
  (List.range 64).map R.PSC_EDGE_VALID ++
  (List.range 64).map R.PSC_EDGE_OWNER ++
  (List.range 64).map R.PSC_EDGE_PHYS

def fieldsDSP : List Field :=
  [R.DSP_CFG_SAVE_AFTER, R.DSP_STS_RESIDENT, R.DSP_STS_HOMED, R.DSP_RECORDS_RECORDS, R.DSP_SAVES_SAVES, R.DSP_LOADS_LOADS]

def fieldsLNK : List Field :=
  [R.LNK_CTL_RETRAIN, R.LNK_CFG_DEGRADE_EN, R.LNK_CFG_AUTO_RESTORE, R.LNK_CFG_ADAPT_EN, R.LNK_CFG_SER_EXP, R.LNK_CFG_RETRY_MS, R.LNK_CFG_TX_PRESET, R.LNK_TRAIN_LANE_DISABLE] ++
  [R.LNK_TRAIN_VER_CAP_MINOR, R.LNK_TRAIN_VER_CAP_MAJOR, R.LNK_STS_STATE, R.LNK_STS_WIDTH, R.LNK_STS_LANES_UP, R.LNK_STS_LANE_MAP, R.LNK_STS_POLARITY, R.LNK_STS_FAIL_REASON] ++
  [R.LNK_PARTNER_VER_MINOR, R.LNK_PARTNER_VER_MAJOR, R.LNK_PARTNER_PLANE, R.LNK_PARTNER_PORT, R.LNK_DELAY_DELAY, R.LNK_UP_TIME_UP_TIME, R.LNK_FEC_CW_CW, R.LNK_FEC_CORR_CORR] ++
  [R.LNK_FEC_UNCORR_UNCORR, R.LNK_PKT_DROP_PKT_DROP] ++
  (List.range 4).map R.LNK_LANE_SYM_LANE_SYM ++
  [R.LNK_TX_SLOTS_TX_SLOTS, R.LNK_RX_SLOTS_RX_SLOTS, R.LNK_CREDIT_STALL_CREDIT_STALL, R.LNK_RETRAINS_DEGRADES, R.LNK_RETRAINS_FAILS]

def fieldsXPT : List Field :=
  [R.XPT_CFG_RESEND_US, R.XPT_CFG_TRIES, R.XPT_CFG_LIFETIME_US, R.XPT_WIN_WINDOW, R.XPT_WIN_ACK_COALESCE, R.XPT_THR_HI, R.XPT_THR_LO, R.XPT_SPRAY_MASK] ++
  [R.XPT_PLANE_STS_READY, R.XPT_PLANE_STS_SUSPECT, R.XPT_CTL_READMIT, R.XPT_SUSPECT_N_N, R.XPT_TX_PKTS_TX_PKTS, R.XPT_RX_PKTS_RX_PKTS, R.XPT_RESENDS_RESENDS, R.XPT_TIMEOUTS_TIMEOUTS] ++
  [R.XPT_NAK_RX_NAK_RX, R.XPT_CRC_DROP_CRC_DROP, R.XPT_STALE_DROP_STALE_DROP, R.XPT_DUP_DROP_DUP_DROP, R.XPT_EPOCH_DROP_EPOCH_DROP, R.XPT_SLICE_DROP_SLICE_DROP, R.XPT_DST_DROP_DST_DROP, R.XPT_BAD_VER_BAD_VER] ++
  [R.XPT_THROTTLE_CYC_THROTTLE_CYC, R.XPT_FLOW_FAILS_FLOW_FAILS]

def fieldsFLW : List Field :=
  [R.FLW_OPEN_OPEN, R.FLW_IDLE_IDLE_MS, R.FLW_SEL_INDEX, R.FLW_VIEW0_STATE, R.FLW_VIEW0_FAIL_CAUSE, R.FLW_VIEW0_PEER_FLOW, R.FLW_VIEW0_PEER_NODE, R.FLW_VIEW0_OUTSTANDING] ++
  [R.FLW_VIEW1_TX_NEXT, R.FLW_VIEW1_RX_CUM, R.FLW_FAILS_FAILS, R.FLW_EVICT_EVICT, R.FLW_ALLOC_WAIT_ALLOC_WAIT]

def fieldsRTE : List Field :=
  [R.RTE_IDX_NODE, R.RTE_IDX_AUTO_INC, R.RTE_IDX_VIEW, R.RTE_DATA_PLANES, R.RTE_DATA_VALID, R.RTE_COPY_COPY_CUR, R.RTE_CNT_VALID_CUR, R.RTE_CNT_VALID_NEXT]

def fieldsSLC : List Field :=
  [R.SLC_NEXT_SLICE_ID, R.SLC_NEXT_OWN_NODE, R.SLC_NEXT_MC_MCAST_NODE, R.SLC_EPOCH_AT_AT, R.SLC_CFG_MODE, R.SLC_CFG_RETIRE_MS, R.SLC_CUR_SLICE_ID, R.SLC_CUR_OWN_NODE] ++
  [R.SLC_CUR_MC_MCAST_NODE, R.SLC_PREV_SLICE_ID, R.SLC_PREV_OWN_NODE, R.SLC_STS_EPOCH, R.SLC_STS_STAGED, R.SLC_STS_RETIRING, R.SLC_STS_DRAINING, R.SLC_STS_DRAINED] ++
  [R.SLC_STS_CUT_PENDING, R.SLC_CUT_STEP_CUT_STEP, R.SLC_CTL_DRAIN, R.SLC_CTL_SEND_CUT, R.SLC_CTL_SEND_STOP, R.SLC_SWITCH_TIME_SWITCH_TIME, R.SLC_STOP_TX, R.SLC_STOP_RX] ++
  [R.SLC_CUT_TX, R.SLC_CUT_RX, R.SLC_STALE_STALE]

def fieldsTIME : List Field :=
  [R.TIME_CTL_MASTER, R.TIME_CFG_PERIOD_US, R.TIME_SET_SET, R.TIME_NOW_NOW, R.TIME_STS_STATE, R.TIME_STS_SRC_PLANE, R.TIME_STS_MASTER_NODE, R.TIME_OFFSET_OFFSET] ++
  [R.TIME_RATE_RATE, R.TIME_RX_RX]

def fieldsWLD : List Field :=
  [R.WLD_CFG_STALL_MS, R.WLD_RANKMAP_BASE, R.WLD_LEND_CTL_ENFORCE, R.WLD_STS_COLLS, R.WLD_STS_VOTE_SENT, R.WLD_STS_MIRROR_DONE, R.WLD_STS_READY_HELD, R.WLD_MIRROR_DONE] ++
  [R.WLD_MIRROR_NEED, R.WLD_VOTE_OK, R.WLD_VOTE_REASON, R.WLD_VOTE_RANK, R.WLD_VOTE_TIME_TIME, R.WLD_TX_BYTES_TX_BYTES, R.WLD_RX_BYTES_RX_BYTES, R.WLD_DONE_DONE] ++
  [R.WLD_FAILS_FAILS, R.WLD_STALE_STALE, R.WLD_READY_WAIT_READY_WAIT, R.WLD_LEND_REFUSED_LEND_REFUSED] ++
  (List.range 16).map R.WLD_LEND_BASE ++
  (List.range 16).map R.WLD_LEND_BORROWER ++
  (List.range 16).map R.WLD_LEND_SIZE ++
  (List.range 16).map R.WLD_LEND_VALID

def fieldsWLC : List Field :=
  [R.WLC_CFG_CLK_GATE_IDLE, R.WLC_ELEMS_ELEMS, R.WLC_IN_BYTES_IN_BYTES, R.WLC_OUT_BYTES_OUT_BYTES, R.WLC_PARITY_PARITY]

def fieldsALG : List Field :=
  [R.ALG_CFG_BASE, R.ALG_SLOTS_OPEN, R.ALG_SEL_SLOT, R.ALG_VIEW_RECORDS, R.ALG_VIEW_AWAY, R.ALG_VIEW_LOST, R.ALG_VIEW_OWNER, R.ALG_RESIDENT_RESIDENT] ++
  [R.ALG_PEAK_PEAK, R.ALG_PEAK_LAST_PEAK_LAST]

def fieldsTNG : List Field :=
  (List.range 8).map R.TNG_DEST_BASE ++
  (List.range 8).map R.TNG_DEST_NODE ++
  (List.range 8).map R.TNG_DEST_SIZE ++
  (List.range 8).map R.TNG_DEST_ALT ++
  (List.range 8).map R.TNG_DEST_HAS_ALT ++
  (List.range 8).map R.TNG_DEST_KIND ++
  (List.range 8).map R.TNG_DEST_VALID ++
  [R.TNG_DEST_STS_DOWN, R.TNG_DEST_STS_HOLDING, R.TNG_DEST_CTL_CLEAR_DOWN, R.TNG_DEST_CTL_FORCE_DOWN, R.TNG_OUT_BYTES_OUT_BYTES, R.TNG_IN_BYTES_IN_BYTES, R.TNG_LOST_LOST, R.TNG_ALT_USED_ALT_USED] ++
  [R.TNG_FETCH_BLOCKED_FETCH_BLOCKED]

def fieldsLPE : List Field :=
  [R.LPE_CFG_K, R.LPE_CFG_EN, R.LPE_STS_CHECKING, R.LPE_STS_FLAGGED, R.LPE_STS_RETIRED, R.LPE_SAMPLED_SAMPLED, R.LPE_DEFERRED_DEFERRED, R.LPE_ABANDONED_ABANDONED] ++
  [R.LPE_SKIP_SAT_SKIP_SAT, R.LPE_OUTCOMES_ANVIL_WRONG, R.LPE_OUTCOMES_LOUPE_WRONG, R.LPE_OUTCOMES_UNRESOLVED, R.LPE_LAST_OUTCOME, R.LPE_LAST_U1, R.LPE_LAST_U2, R.LPE_LAST_CTX] ++
  [R.LPE_LAST_ADDR_D_ADDR]

def fieldsTCH : List Field :=
  [R.TCH_CFG_EVERY, R.TCH_TABLE_BASE, R.TCH_LEN_LEN, R.TCH_STS_DUE, R.TCH_STS_VALID, R.TCH_STS_COVER_FAIL, R.TCH_STS_ODD_OUTCOME, R.TCH_STS_ODD_CLASS] ++
  [R.TCH_STS_ODD_SELF, R.TCH_STS_ODD_RANK, R.TCH_LAST_LO_H1, R.TCH_LAST_HI_H2, R.TCH_BAD_BLOCK_BLOCK, R.TCH_COUNT_COMPUTED, R.TCH_MISMATCH_MISMATCH]

def fieldsBSR : List Field :=
  [R.BSR_CFG_INTERVAL_S, R.BSR_CFG_ANV_EN, R.BSR_CFG_SWG_EN, R.BSR_STS_ANV_UNIT, R.BSR_STS_SWG_UNIT, R.BSR_STS_ANV_DUE, R.BSR_STS_SWG_DUE, R.BSR_TESTS_TESTS] ++
  [R.BSR_FAILS_TRANSIENT, R.BSR_FAILS_PERSISTENT, R.BSR_SIG_SIG, R.BSR_LAST_UNIT, R.BSR_LAST_IS_SWAGE, R.BSR_LAST_PERSISTENT]

def fieldsBST : List Field :=
  [R.BST_TARGETS_TARGETS, R.BST_CTL_START, R.BST_STS_DONE, R.BST_STS_REFUSED, R.BST_STS_CURRENT, R.BST_PASS_PASS, R.BST_FAIL_FAIL]

def fieldsHLT : List Field :=
  [R.HLT_CFG_HALF_LIFE_H, R.HLT_CFG_AUTO_CUT, R.HLT_CFG_CUT_HOLDOFF_MIN, R.HLT_THR_WATCH, R.HLT_THR_WARN, R.HLT_THR_RETIRE, R.HLT_SEL_UNIT, R.HLT_SCORE_SCORE] ++
  [R.HLT_LEVEL_LEVEL, R.HLT_SUM_WATCH_N, R.HLT_SUM_WARN_N, R.HLT_SUM_RETIRE_N, R.HLT_WORST_UNIT, R.HLT_WORST_SCORE, R.HLT_CUTS_CUTS] ++
  (List.range 15).map R.HLT_W_WEIGHT

def fieldsLDG : List Field :=
  [R.LDG_STS_READY, R.LDG_STS_WRITE_FAIL, R.LDG_POH_POH, R.LDG_SEQ_NEWEST, R.LDG_SEQ_OLDEST, R.LDG_RD_SEQ, R.LDG_PERM_SEL_UNIT, R.LDG_PERM_IN_WINDOW] ++
  [R.LDG_PERM_PERMANENT, R.LDG_CLEAR_UNIT, R.LDG_COALESCED_COALESCED]

def fieldsFLT : List Field :=
  [R.FLT_RST_DOMAIN, R.FLT_RST_TARGET, R.FLT_RST_NO_STOP, R.FLT_RST_NO_RECORD, R.FLT_CTL_GO, R.FLT_CTL_FREC_ACK, R.FLT_CFG_WDOG_MS, R.FLT_STS_RESETTING] ++
  [R.FLT_STS_REC_WRITING, R.FLT_STS_FREC_PENDING, R.FLT_STS_FREC_FAIL, R.FLT_STS_LAST_DOMAIN, R.FLT_STS_LAST_TARGET, R.FLT_STS_LAST_CAUSE, R.FLT_LAST_TIME_TIME, R.FLT_RESET_CNT_CHIP] ++
  [R.FLT_RESET_CNT_DIE, R.FLT_RESET_CNT_PORT, R.FLT_RESET_CNT_WDOG, R.FLT_REC_SEQ_SEQ] ++
  (List.range 7).map R.FLT_CLASS_CNT_COUNT ++
  [R.FLT_TKO_CFG_BANK, R.FLT_TKO_CFG_HOLD, R.FLT_TKO_CFG_WARD_HOLD, R.FLT_TKO_CFG_MS_SRC, R.FLT_TKO_CFG_MR_SRC, R.FLT_TKO_CFG_NO_LOAD, R.FLT_TKO_CFG_N_SRC, R.FLT_TKO_STEP_STEP] ++
  [R.FLT_TKO_TEMPERED_TEMPERED, R.FLT_TKO_ATT_ATT] ++
  (List.range 8).map R.FLT_TKO_SRC_NODE ++
  (List.range 8).map R.FLT_TKO_SRC_BANK ++
  [R.FLT_TKO_STS_STATE, R.FLT_TKO_STS_CAUSE, R.FLT_TKO_STS_HOLD_LOADED, R.FLT_TKO_STS_WARD_HOLD_LOADED, R.FLT_TKO_BYTES_BYTES, R.FLT_TKO_TIME_TIME]

def fieldsDIE : List Field :=
  [R.DIE_STS_READY, R.DIE_STS_IN_RESET, R.DIE_RESETS_RESETS, R.DIE_LAST_RESET_TIME, R.DIE_READY_TIME_TIME] ++
  (List.range 7).map R.DIE_CLASS_CNT_COUNT

def fieldsPDC : List Field :=
  [R.PDC_STS_READY, R.PDC_STS_IN_RESET, R.PDC_RESETS_RESETS, R.PDC_LAST_RESET_TIME, R.PDC_READY_TIME_TIME] ++
  (List.range 7).map R.PDC_CLASS_CNT_COUNT

def fieldsCKP : List Field :=
  [R.CKP_CFG_WC_MODE, R.CKP_CFG_CUT_TIMEOUT_S, R.CKP_SLOT_SIZE, R.CKP_CTL_RESTORE, R.CKP_CTL_FILL, R.CKP_CTL_DRIVE_INIT, R.CKP_RESTORE_SOURCE, R.CKP_RESTORE_PICK] ++
  [R.CKP_RESTORE_STEP_STEP, R.CKP_RESTORE_ADDR_ADDR, R.CKP_STS_STATE, R.CKP_STS_DRIVE_READY, R.CKP_STS_RESTORED, R.CKP_STS_FILLED, R.CKP_STS_LAST_CODE, R.CKP_STS_LINK_GEN] ++
  [R.CKP_STS_LINK_WIDTH, R.CKP_SLOT_STS_A_SEALED, R.CKP_SLOT_STS_B_SEALED, R.CKP_STEP_A_STEP, R.CKP_STEP_B_STEP, R.CKP_NS_CAP_CAP, R.CKP_CUTS_DONE, R.CKP_CUTS_FAILED] ++
  [R.CKP_LAST_US_US, R.CKP_WR_BYTES_BYTES, R.CKP_RD_BYTES_BYTES, R.CKP_CONFIRMED_STEP]

def fieldsPWR : List Field :=
  [R.PWR_LIMIT_PKG_LIMIT_W, R.PWR_CFG_HYST_W, R.PWR_CFG_LOCK_EN, R.PWR_STS_P, R.PWR_STS_L, R.PWR_STS_FLOOR, R.PWR_PKG_PKG_W, R.PWR_PKG_IN_W] ++
  [R.PWR_ENERGY_MJ, R.PWR_CAPPED_CAPPED]

def fieldsTHM : List Field :=
  [R.THM_CFG_THROTTLE_C, R.THM_CFG_HBM_LIMIT_C, R.THM_CFG_HYST_C, R.THM_STS_THROTTLING, R.THM_STS_HOTTEST] ++
  (List.range 8).map R.THM_DIE_TEMP ++
  (List.range 8).map R.THM_DIE_MAX ++
  (List.range 8).map R.THM_DIE_SENSOR_OK ++
  (List.range 8).map R.THM_DIE_T ++
  (List.range 2).map R.THM_PD_TEMP ++
  (List.range 2).map R.THM_PD_MAX ++
  (List.range 2).map R.THM_PD_SENSOR_OK ++
  [R.THM_THROTTLED_THROTTLED]

def fieldsCLK : List Field :=
  [R.CLK_CFG_SLEEP_US, R.CLK_CFG_SLEEP_EN, R.CLK_STS_AWAKE, R.CLK_STS_PD_LOCK, R.CLK_STS_CD_LOCK, R.CLK_WAKES_WAKES, R.CLK_WAKE_MAX_NS]

def fieldsBLW : List Field :=
  [R.BLW_CTL_CAP_MAX, R.BLW_STS_CAP, R.BLW_STS_Q, R.BLW_STS_LEVEL, R.BLW_STS_LIMITER, R.BLW_HINT_TARGET, R.BLW_HINT_PENDING, R.BLW_HINT_WINDOW] ++
  [R.BLW_HINT_TIME_T_H, R.BLW_CAPPED_CAPPED, R.BLW_RAMP_WAIT_RAMP_WAIT, R.BLW_HINTS_TAKEN, R.BLW_HINTS_IGNORED]

def fieldsHIF : List Field :=
  [R.HIF_LINK_GEN, R.HIF_LINK_WIDTH, R.HIF_LINK_UP, R.HIF_LINK_FLIT, R.HIF_APT_SIZE_LOG, R.HIF_IRQ_CFG_GAP_US, R.HIF_HOSTW_ATTR_RO_EN, R.HIF_HOSTW_ATTR_NS_EN] ++
  [R.HIF_HOSTW_BASE_BASE] ++
  (List.range 4).map R.HIF_APT_BASE ++
  [R.HIF_BAD_ACCESS, R.HIF_MSIX_SENT_SENT, R.HIF_MSIX_MERGED_MERGED, R.HIF_HOST_ERR_HOST_ERR, R.HIF_LINK_DOWNS_DOWNS, R.HIF_POISON_RX_POISON, R.HIF_RD_BYTES_BYTES, R.HIF_WR_BYTES_BYTES]

def fieldsSEC : List Field :=
  [R.SEC_BOOT_STATE, R.SEC_BOOT_ACTIVE_SLOT, R.SEC_BOOT_FALLBACK, R.SEC_BOOT_KEY_INDEX, R.SEC_BOOT_CERT_BAD, R.SEC_BOOT_A_VALID, R.SEC_BOOT_B_VALID, R.SEC_SVN_FUSE_SVN] ++
  [R.SEC_SVN_IMAGE_SVN, R.SEC_SVN_REVOKED, R.SEC_FW_VER_VERSION, R.SEC_IF_VER_IF_VERSION, R.SEC_SERIAL_SERIAL, R.SEC_MEAS_SEQ_SEQ]

def fieldsSMC : List Field :=
  [R.SMC_MB_CMD_OPCODE, R.SMC_MB_CMD_LEN, R.SMC_MB_CTL_DOORBELL, R.SMC_MB_STS_STATE, R.SMC_MB_STS_RESULT, R.SMC_MB_STS_RSP_LEN, R.SMC_MB_SEQ_DONE, R.SMC_MB_DROPPED_DROPPED] ++
  [R.SMC_BRINGUP_STAGE, R.SMC_BRINGUP_HALT_CAUSE, R.SMC_BRINGUP_TIME_READY_TIME] ++
  (List.range 256).map R.SMC_MB_REQ_REQUEST ++
  (List.range 256).map R.SMC_MB_RSP_RESPONSE

def fieldsD2D : List Field :=
  [R.D2D_ID_SLOT, R.D2D_ID_BIN, R.D2D_ID_FUSE_FORMAT, R.D2D_ID_ID_OK, R.D2D_CFG_RETRY_LIMIT, R.D2D_SERIAL_SERIAL] ++
  (List.range 4).map R.D2D_EDGE_UP ++
  (List.range 4).map R.D2D_EDGE_FAILED ++
  (List.range 4).map R.D2D_EDGE_PEER ++
  (List.range 4).map R.D2D_EDGE_STATE ++
  (List.range 4).map R.D2D_EDGE_REPAIRED ++
  (List.range 4).map R.D2D_EDGE_REPAIR_DIFF ++
  [R.D2D_RETRY_RETRY, R.D2D_LOST_LOST, R.D2D_FWD_BYTES_FWD, R.D2D_BYTES_BYTES, R.D2D_ROUTE_CHG_ROUTE_CHG]

def fieldsGST : List Field :=
  [R.GST_CTL_READMIT, R.GST_CTL_WITHDRAW, R.GST_STS_STATE, R.GST_STS_REASON, R.GST_STS_MODULES_UP, R.GST_STS_CONTEXTS, R.GST_DESC_ID_ID, R.GST_GX_SIZE_SIZE] ++
  [R.GST_HBM_REQ_SIZE, R.GST_RESENDS_RESENDS, R.GST_REFUSED_REFUSED, R.GST_RX_BYTES_BYTES, R.GST_TX_BYTES_BYTES, R.GST_ADMIT_TIME_TIME]
/-- Every block field of a page type. -/
def blockFields : Page → List Field
  | .TMP => fieldsTMP
  | .ANV => fieldsANV
  | .SPK => fieldsSPK
  | .SWG => fieldsSWG
  | .HRT => fieldsHRT
  | .HBM => fieldsHBM
  | .CTX => fieldsCTX
  | .SYN => fieldsSYN
  | .PSC => fieldsPSC
  | .DSP => fieldsDSP
  | .LNK => fieldsLNK
  | .XPT => fieldsXPT
  | .FLW => fieldsFLW
  | .RTE => fieldsRTE
  | .SLC => fieldsSLC
  | .TIME => fieldsTIME
  | .WLD => fieldsWLD
  | .WLC => fieldsWLC
  | .ALG => fieldsALG
  | .TNG => fieldsTNG
  | .LPE => fieldsLPE
  | .TCH => fieldsTCH
  | .BSR => fieldsBSR
  | .BST => fieldsBST
  | .HLT => fieldsHLT
  | .LDG => fieldsLDG
  | .FLT => fieldsFLT
  | .DIE => fieldsDIE
  | .PDC => fieldsPDC
  | .CKP => fieldsCKP
  | .PWR => fieldsPWR
  | .THM => fieldsTHM
  | .CLK => fieldsCLK
  | .BLW => fieldsBLW
  | .HIF => fieldsHIF
  | .SEC => fieldsSEC
  | .SMC => fieldsSMC
  | .D2D => fieldsD2D
  | .GST => fieldsGST
  | .DIR | .MSX | .PBA => []

/-- Where a field of a page instance is stored: its slot, offset and lowest bit. -/
structure Key where
  slot : Nat
  off : Nat
  lo : Nat
  deriving DecidableEq, Repr

/-- The key of field `f` of instance `i` of its page (R289: the two SLC pages are one register set). -/
def Field.key (f : Field) (i : Nat) : Key := ⟨canonSlot (slotOf f.page i), f.off, f.lo⟩

/-- Register values that differ from, or were once written over, their reset value. -/
abbrev Store := List (Key × Nat)

/-- The value stored under a key, or the default. -/
def Store.get (d : Nat) : Store → Key → Nat
  | [], _ => d
  | (i, a) :: t, k => if i = k then a else Store.get d t k

/-- The store with one key set. -/
def Store.set : Store → Key → Nat → Store
  | [], k, v => [(k, v)]
  | (i, a) :: t, k, v => if i = k then (k, v) :: t else (i, a) :: Store.set t k v

end Sys2Proof.Machine
end

