-- ==== Sys2Proof/Machine/State.lean ====
section
/-! DEFINITION. The state of the block as plain data: everything the spec gives the module, the queue of waiting
commands and the model's own counters; the reasons a command can stop; the state after reset. -/

namespace Sys2Proof.Machine

open Sys2Proof

/-- The reasons for which a command faults. -/
inductive Fault where
  /-- Raised by a meaning whose operand names a unit, page slot, link, context or bank that the module does not have
  (an ill-formed command, see WellFormed). Safe: the model stops where the hardware has no such command. -/
  | noSuchUnit
  deriving DecidableEq, Repr

/-- The reasons for which the model refuses a command. -/
inductive Refusal where
  /-- Raised by exec for a command whose meaning is not written yet. Safe: the model stops. -/
  | notModelled (mnemonic : String)
  deriving DecidableEq, Repr

/-- The step phases of Table 1.8 (R38). -/
inductive Phase where
  | idle | hold | run | check | vote | flipWait | stopped | inDoubt
  deriving DecidableEq, Repr

/-- The failure reasons of Table 1.9 (R38). -/
inductive Reason where
  | none | anvilFault | uncorrectable | touchmarkMismatch | stepMismatch | restoreMismatch | flowFail | waitTimeout
  | stopReceived | voteTimeout | mirrorFail | bankWrite | resolvedDiscard | replayExhausted | mirrorLost
  deriving DecidableEq, Repr

/-- Packet classes of Table 10.2 (R267). -/
inductive PClass where
  | DATA | READ | WRITE | SIGNAL | WELD | ACK | STOP | CUT | TIME | CTRL
  deriving DecidableEq, Repr

/-- What leaves the module: every effect the spec gives a command on the world outside. -/
inductive OutMsg where
  /-- an MSI-X message on a vector (R438) -/
  | msix (vector : Nat)
  /-- a notice to Sahsin for an event bit of a page slot (R47) -/
  | smcNotice (slot bit : Nat)
  /-- a memory write to the host (R435) -/
  | hostWrite (addr : Nat) (bytes : List Byte)
  /-- a packet put on the wire of a link (R246) -/
  | wire (link : Nat) (cls : PClass) (p : Packet)
  /-- a control slot or command put on the wire of a link (R247) -/
  | control (link cmd arg lanes : Nat)
  /-- data returned for a read through the memory aperture (R437) -/
  | apertureData (bytes : List Byte)
  /-- an answer on a DOE, SPDM, MCTP or PLDM channel (R444, R452, R455) -/
  | answer (kind : Nat) (bytes : List Byte)
  /-- a message to the guest die: kind (0 RD, 1 WR, 2 CPL, 3 REC, 4 REG), tag, address and data (R472) -/
  | guest (kind tag addr : Nat) (bytes : List Byte)
  /-- a value returned for a register read (R292) -/
  | regData (slot off val : Nat)
  /-- an NVMe command to the ingot drive: opcode, LBA, device address, length (R406) -/
  | nvme (op lba addr len : Nat)
  /-- the answer of the checkpoint root port to a memory request of the drive (R405) -/
  | driveData (ok : Bool) (bytes : List Byte)
  /-- a level on a pin: PWR_GOOD, THERMTRIP# (R461, R425) -/
  | pin (name : String) (level : Bool)
  deriving DecidableEq, Repr

/-- An error log entry (Table 2.3, R46). -/
structure ErrEntry where
  time : Nat
  code : Nat
  cls : Nat
  unit : Nat
  addr : Nat
  detail : List Nat
  deriving DecidableEq, Repr

/-- A telemetry shadow: the 32-bit words of a page by offset and SNAP_TIME (R62). -/
structure Snapshot where
  time : Nat
  words : List (Nat × Nat)
  deriving DecidableEq, Repr

/-- The memory of the module by device address: the written bytes, strictly rising, over ranges whose unwritten bytes
are undefined (`some tag`) or zero (`none`), the newest range first. -/
structure Memory where
  cells : List Host.Cell
  marks : List (Nat × Nat × Option Nat)
  deriving DecidableEq, Repr

/-- The address map descriptor (Table 6.2, R160); PKG_SIZE, DL_SIZE and PKG_PCS are derived. -/
structure AddrMap where
  split : Nat
  wcA : Nat
  wcB : Nat
  wcSize : Nat
  msA : Nat
  msB : Nat
  msSize : Nat
  mrA : Nat
  mrB : Nat
  mrSize : Nat
  hold : Nat
  wardHold : Nat
  holdSize : Nat
  guest : Nat
  guestSize : Nat
  seq : Nat
  valid : Bool
  deriving DecidableEq, Repr

/-- The COLD default map (R162) with a given MAP_SEQ. -/
def AddrMap.coldDefault (seq : Nat) : AddrMap :=
  ⟨0, 0, 0, 0, 0, 0, 0, 0, 0, 0, 0, 0, 0, 0, 0, seq, false⟩

/-- TMP_STS, TMP_STEP, TMP_TEMPERED, TMP_FLIP_TIME (Table 1.7) and SYN_ATT.ATT (R225). IN_DOUBT is 1 exactly while
PHASE = IN_DOUBT (R29, R30). -/
structure Tmp where
  phase : Phase
  activeBank : Bool
  holdValid : Bool
  wardHoldValid : Bool
  replayCount : Nat
  lastReason : Reason
  lateFlips : Nat
  step : Nat
  tempered : Nat
  flipTime : Nat
  att : Nat
  deriving DecidableEq, Repr

/-- A vote record or a reduced partial of one (Table 1.2, R25). The minima and maxima coincide in a module's own vote. -/
structure Vote where
  stepMin : Nat
  stepMax : Nat
  ok : Bool
  reason : Nat
  rank : Nat
  tvAnd : Bool
  tvOr : Bool
  touchMin : Nat
  touchMax : Nat
  cap : Nat
  flipT : Nat
  restored : Bool
  deriving DecidableEq, Repr

/-- What the module keeps of the running attempt beside TMP_STS: the reason of its first step fault (R492), whether its
STOP burst has been sent (R285), a STOP held for a successor tag (R286), whether the attempt is abandoned and its contexts
held (R286), whether the hold was lost (R188), whether a step context was reset (R232), the module's own vote and its
deadline (R25, R29), an OK result held and its T_flip and CAP (R27), the time at which issue resumes after a discard
(R224), the state of the hold write, the buddy acknowledgements of R24 and the Touchmark of the attempt. -/
structure Attempt where
  fault : Option Reason
  stopSent : Bool
  heldStop : Option (Nat × Nat × Nat)
  frozen : Bool
  holdGone : Bool
  ctxLost : Bool
  vote : Option Vote
  deadline : Nat
  result : Option (Nat × Nat)
  resumeAt : Option Nat
  holdWriteLeft : Nat
  holdWriting : Bool
  wardAcked : Bool
  mirrorAcked : List (Nat × Nat)
  checkStarted : Bool
  touchValid : Bool
  touch : Nat
  deriving DecidableEq, Repr

/-- Context states (Table 8.1, R204). -/
inductive CtxState where
  | free | idle | ready | running | waiting | preempted | faulted | quarantine | stepHeld
  deriving DecidableEq, Repr

/-- A position in a command stream: the command window's queue position, or a device address (R234). -/
inductive Pc where
  | ring (pos : Nat)
  | mem (addr : Nat)
  deriving DecidableEq, Repr

/-- One CALL level: the start of its buffer and its active LOOP records with their iteration index (R210). -/
structure Frame where
  start : Nat
  back : Pc
  loops : List (Nat × Nat)
  deriving DecidableEq, Repr

/-- A record as issued: its 64 bytes after IDX, and where it stood. -/
structure Rec where
  bytes : List Byte
  at' : Pc
  deriving DecidableEq, Repr

/-- A WAIT in progress (R217 to R221): its record, local counter or remote one with its subscription, the condition, the earliest
time its timer fires, when it began, and the last values notified. -/
structure WaitState where
  record : Rec
  remote : Option Nat
  phys : Nat
  vid : Nat
  eq : Bool
  value : Nat
  deadline : Nat
  since : Nat
  subId : Nat
  notified : Option Nat
  lastValue : Nat
  busyUntil : Option Nat
  timedOut : Bool
  deriving DecidableEq, Repr

/-- What a context that is WAITING waits for (Table 8.1). -/
inductive Block where
  | none | wait | hold | step | temper | fence | inflight | preempt
  deriving DecidableEq, Repr

/-- Where a rewind returns to: PC and the call and loop state at the restart point, with the step that the restart record
marked it for (R223, R224). -/
structure Restart where
  step : Nat
  pc : Pc
  frames : List Frame
  deriving DecidableEq, Repr

/-- A context (R203 to R210): beside its state and command stream, the record it executes or is blocked in (`cur`), the
failed record that RESUME reissues (R214), the records to be issued again before the stream goes on, an error that RESUME
shows (R228) and whether the reset under way is a DESTROY (R229). Its registers of Table 8.12 that hold plain values are in the register store. -/
structure Ctx where
  state : CtxState
  resident : Bool
  queue : List (List Byte)
  qpos : Nat
  pc : Option Nat
  frames : List Frame
  cur : Option Rec
  restart : Option Restart
  block : Block
  wait : Option WaitState
  since : Nat
  preempting : Bool
  deferredErr : Bool
  failed : Option Rec
  reissue : List Rec
  destroying : Bool
  deriving DecidableEq, Repr

/-- A context that does not exist (R204). -/
def Ctx.freed : Ctx :=
  { state := .free, resident := false, queue := [], qpos := 0, pc := none, frames := [], cur := none, restart := none,
    block := .none, wait := none, since := 0, preempting := false, deferredErr := false, failed := none,
    reissue := [], destroying := false }

/-- The engine that holds a record in flight. -/
inductive Work where
  | copyLocal | copyRemote | signal | mma | vec | gather | coll | tongs
  deriving DecidableEq, Repr

/-- A record in flight: its context, its place, what completion does (R209), the engine, the tag of its attempt (R225),
the packets of it not yet completed, whether it moves data over the host link, whether it was abandoned (R490), and whether
it was lost at the edge of a domain and completes no more (R375). -/
structure Flight where
  ctx : Nat
  record : Rec
  work : Work
  step : Nat
  att : Nat
  tagged : Bool
  left : Nat
  src : Nat
  dst : Nat
  len : Nat
  host : Bool
  abandoned : Bool
  lost : Bool
  deriving DecidableEq, Repr

/-- A sync counter (R215). -/
structure Counter where
  value : Nat
  init : Nat
  owner : Nat
  remoteOk : Bool
  stepFlag : Bool
  broken : Bool
  deriving DecidableEq, Repr

/-- A remote subscription (R221): the node and context that wait, and the condition. -/
structure Sub where
  phys : Nat
  node : Nat
  ctx : Nat
  subId : Nat
  eq : Bool
  value : Nat
  deriving DecidableEq, Repr

/-- A deferred STEP_TAGGED operation (R225). -/
structure Deferred where
  phys : Nat
  op : Nat
  value : Nat
  step : Nat
  att : Nat
  deriving DecidableEq, Repr

/-- The sync counters of the module (R215 to R225). -/
structure Syn where
  counters : Tbl Counter
  bindings : List ((Nat × Nat) × Nat)
  subs : List Sub
  deferred : List Deferred
  nextSub : Nat
  deriving DecidableEq, Repr

/-- Flow states of FLW_VIEW0.STATE (Table 10.14). -/
inductive FlowState where
  | free | opening | opened | failed | closing
  deriving DecidableEq, Repr

/-- Who a packet belongs to: a record in flight, a context's counter operation, the hold write, a Weld collective, the
vote tree, the takeover loader, the fill, a heal, or nobody (R274). -/
inductive Owner where
  | flight (id : Nat)
  | ctx (c : Nat)
  | holdWrite
  | weld (id : Nat)
  | tongs (slot ctx : Nat) (fetch : Bool)
  | vote
  | takeover
  | fill
  | heal (row : Nat)
  | reply
  | none
  deriving DecidableEq, Repr

/-- A packet to send: its class, its ADDR, a literal head of its payload, and the device address and length of the part
that is read from memory at every try (R273). -/
structure OutPkt where
  cls : PClass
  addr : Nat
  head : List Byte
  src : Option (Nat × Nat)
  owner : Owner
  stepTag : Bool
  abandoned : Bool
  deriving DecidableEq, Repr

/-- An injected packet not yet acknowledged (R273), with the ATT that it was injected under (Table 10.1). -/
structure Unacked where
  seq : Nat
  att : Nat
  pkt : OutPkt
  tries : Nat
  plane : Option Nat
  at' : Nat
  deriving DecidableEq, Repr

/-- A READ whose DATA has not arrived (R267). -/
structure ReadOut where
  dst : Nat
  len : Nat
  owner : Owner
  abandoned : Bool
  deriving DecidableEq, Repr

/-- A flow (R265, R291). -/
structure Flow where
  state : FlowState
  cause : Nat
  peer : Nat
  peerFlow : Nat
  opener : Bool
  openTries : Nat
  openAt : Nat
  openPlane : Option Nat
  txNext : Nat
  unacked : List Unacked
  waiting : List OutPkt
  reads : List ReadOut
  rxCum : Nat
  rxMarks : List Nat
  heldSignals : List (Nat × Packet)
  ackDue : Nat
  ackSince : Nat
  lastPlane : Nat
  lastUse : Nat
  throttled : Bool
  deriving DecidableEq, Repr

/-- A free flow entry. -/
def Flow.freed : Flow :=
  { state := .free, cause := 0, peer := 0, peerFlow := 0, opener := false, openTries := 0, openAt := 0, openPlane := none,
    txNext := 0, unacked := [], waiting := [], reads := [], rxCum := 0, rxMarks := [], heldSignals := [], ackDue := 0,
    ackSince := 0, lastPlane := 31, lastUse := 0, throttled := false }

/-- A STOP or CUT burst whose repeats are due (R285). -/
structure Burst where
  cls : PClass
  payload : List Byte
  dst : Nat
  idx : Nat
  due : Nat
  deriving DecidableEq, Repr

/-- Time states (Table 10.8, R283). -/
inductive TimeState where
  | unset | acquire | locked | holdover
  deriving DecidableEq, Repr

/-- A version of the slice table (R277). -/
structure SliceVer where
  slice : Nat
  own : Nat
  mcast : Nat
  deriving DecidableEq, Repr

/-- The slice table (SLC page, R277, R278, R281), the pending cut with its cause and a later one (step, cause) that waits for it
(R288) and a deferred CUT send (R287). -/
structure Slc where
  cur : SliceVer
  prev : Option SliceVer
  next : Option SliceVer
  epoch : Bool
  switchAt : Nat
  retireAt : Nat
  draining : Bool
  drainSince : Nat
  drained : Bool
  cutPending : Option Nat
  cutCause : Nat
  cutDeferred : Option Nat
  cutNext : Option (Nat × Nat)
  deriving DecidableEq, Repr

/-- One version of a port die's routing table: the VALID entries and their plane masks (R277). -/
abbrev RteVer := Tbl (Nat × Bool)

/-- Fabric time service (R282, R283). -/
structure TimeSvc where
  state : TimeState
  srcPlane : Nat
  master : Nat
  offset : Int
  rate : Int
  count : Nat
  lastRx : Nat
  period : Nat
  seq : Nat
  slew : Int
  hold : Nat
  deriving DecidableEq, Repr

/-- The transport (chapter 10): flows by ID, bursts in repetition, STOP and CUT payloads already handled, both versions
of both routing tables, the slice table, the time service, the recent try timeouts of each plane and the SUSPECT planes
(R276), and the planes skipped for their egress queues (R275). -/
structure Xport where
  flows : Tbl Flow
  needPeers : List (Nat × OutPkt)
  bursts : List Burst
  seen : List (PClass × List Byte × Nat)
  rteCur : Tbl RteVer
  rteNext : Tbl RteVer
  slc : Slc
  time : TimeSvc
  timeouts : Tbl (List Nat)
  suspect : Nat
  skip : Nat
  deriving DecidableEq, Repr

/-- Link states (Table 9.7, R248). -/
inductive LinkState where
  | down | detect | train | align | negotiate | up | degraded | retrainX2 | failed
  deriving DecidableEq, Repr

/-- A coefficient step asked of the partner for a lane (R256): its direction, whether it was answered, when it was asked, and
the lane's corrected symbols in the window before it. -/
structure TxAsk where
  up : Bool
  acked : Bool
  at' : Nat
  before : Nat
  deriving DecidableEq, Repr

/-- A link (chapter 9): its state, whether coefficients are stored (R250), the training in progress, its timers, the
lanes of a degrade, the credits and queues of its transmitter, the slots freed in its receive buffer, the receiver's codeword
sequence, the last control slot received, the corrected symbols of the running 100 µs window and of the one before, the
delay samples, and the coefficient steps of its own transmitter and those asked of the partner. The registers of Table 9.12
that hold plain values are in the register store. -/
structure Link where
  state : LinkState
  coeffs : Bool
  fast : Bool
  restoring : Bool
  t0 : Nat
  retryAt : Option Nat
  degradedAt : Nat
  goodLanes : Nat
  degradeAcked : Bool
  partnerDegrade : Bool
  credit0 : Nat
  creditTotal : Nat
  sent : Nat
  rxSeq : Option Nat
  rxFreed : Nat
  lastTx : Nat
  lastRxAt : Nat
  window : Tbl Nat
  windowPrev : Tbl Nat
  delays : List Int
  coefs : Tbl Int
  asks : Tbl TxAsk
  egress : List (PClass × Packet)
  prio : List (PClass × Packet)
  egressSlots : Nat
  deriving DecidableEq, Repr

/-- A link after COLD reset. -/
def Link.init : Link :=
  { state := .down, coeffs := false, fast := false, restoring := false, t0 := 0, retryAt := none, degradedAt := 0,
    goodLanes := 15, degradeAcked := false, partnerDegrade := false, credit0 := 0, creditTotal := 0, sent := 0, rxSeq := none,
    rxFreed := 0, lastTx := 0, lastRxAt := 0, window := [], windowPrev := [], delays := [], coefs := [], asks := [],
    egress := [], prio := [], egressSlots := 0 }

/-- A ledger entry (Table 13.9): UNIT, KIND, CLASS, the times of its event, COUNT, WEIGHT and DETAIL. -/
structure LedgerEntry where
  seq : Nat
  unit : Nat
  kind : Nat
  cls : Nat
  time : Nat
  step : Nat
  poh : Nat
  count : Nat
  weight : Nat
  detail : List Nat
  deriving DecidableEq, Repr

/-- The ledger on the flash and in Sahsin (R355 to R358): POH in seconds at the last COLD reset and as last saved, the POH of the last three counted events of each
unit, the PERMANENT units, the entries waiting to be written, the entries of the event log newest first, the newest SEQ,
and the hour of POH and number of entries written in it. -/
structure Ledger where
  poh : Nat
  pohSaved : Nat
  stamps : Tbl (List Nat)
  permanent : List Nat
  waiting : List LedgerEntry
  log : List LedgerEntry
  seq : Nat
  hour : Nat
  written : Nat
  mapout : Tbl Nat
  deriving DecidableEq, Repr

/-- Health scores H in 1/64 points by unit ID (R359), the units that may trigger a CUT again only after falling below
WATCH, and the time of the last autonomous CUT (R360). -/
structure Health where
  score : Tbl Nat
  level : Tbl Nat
  spent : List Nat
  lastCut : Option Nat
  deriving DecidableEq, Repr

/-- MSI-X and host link state (R434, R438): Bus Master Enable, MSI-X Enable, Function Mask, the BARs, the masked vectors
and their table entries, the pending bits, and the end of each vector's gap with a merged request. -/
structure HostLink where
  up : Bool
  ready : Bool
  busMaster : Bool
  msixEnable : Bool
  functionMask : Bool
  regBar : Nat
  cmdBar : Nat
  aptBar : Nat
  aptLog : Nat
  unmasked : List Nat
  pba : List Nat
  gapEnd : Tbl Nat
  merged : List Nat
  deriving DecidableEq, Repr

/-- An HBM stack (chapter 7): trained, in self-refresh, failed at training, the channels mapped out (held by the
controller, R200), the channels flagged for the next training (R185), those whose recalibration failed (R199), the spare
lanes that the repair of channel 0 uses (R182), HOT (R192) and the sectors that patrol scrub has read of each
pseudo-channel (R193). -/
structure Stack where
  trained : Bool
  selfRefresh : Bool
  failed : Bool
  mapped : Nat
  pending : Nat
  badChannels : Nat
  spares : Nat
  hot : Bool
  scrub : Tbl Nat
  deriving DecidableEq, Repr

/-- A stack before training. -/
def Stack.init : Stack :=
  { trained := false, selfRefresh := false, failed := false, mapped := 0, pending := 0, badChannels := 0, spares := 0, hot := false,
    scrub := [] }

/-- A heal under way (R189): the direct address of its 4 KiB row, and whether it waits for the step's outcome. -/
structure Heal where
  row : Nat
  held : Bool
  deriving DecidableEq, Repr

/-- States of an Anvil or Swage (Tables 3.1 and 5.9); a Swage is never SPARE. A claimed unit is in TEST from its claim on,
so that the counts of R64 hold when a SPARE is promoted (log entry 15). -/
inductive UnitState where
  | spare | active | test | mapped
  deriving DecidableEq, Repr

/-- The fields of an MMA parameter block (Table 8.4). -/
structure MmaParams where
  m : Nat
  n : Nat
  k : Nat
  aFmt : Nat
  bFmt : Nat
  outFmt : Nat
  shape : Nat
  load : Bool
  split : Nat
  aStrided : Bool
  bStrided : Bool
  aAddr : Nat
  bAddr : Nat
  cAddr : Nat
  dAddr : Nat
  pAddr : Nat
  aStride : Nat
  bStride : Nat
  cStride : Nat
  dStride : Nat
  aScale : Nat
  bScale : Nat
  aScaleStride : Nat
  bScaleStride : Nat
  deriving DecidableEq, Repr

/-- A chain between tiles (R73): its command, output tile, split, next group, and its accumulator in row-major order, or
the unit into whose spill area it was written (R65). -/
structure Chain where
  flight : Nat
  tile : Nat
  split : Nat
  next : Nat
  acc : List Nat
  spilled : Option Nat
  deriving DecidableEq, Repr

/-- A tile that runs (R73, R83): its chain at its start, the group after its last, whether it is a combine tile, its scale
level, the array cycles of its attempts so far and whether Loupe has selected it. -/
structure TileRun where
  chain : Chain
  hi : Nat
  combine : Bool
  level : Nat
  cycles : Nat
  sampled : Bool
  deriving DecidableEq, Repr

/-- An Anvil (chapter 3): its state, the tile it runs, the chain it holds between tiles, the end of its issue-cap wait
(R91), the time it went idle and whether its clock is stopped (R92), and a map-out applied during a test (R99). -/
structure Anvil where
  st : UnitState
  run : Option TileRun
  chain : Option Chain
  waitUntil : Nat
  idleSince : Nat
  gated : Bool
  mapNext : Bool
  deriving DecidableEq, Repr

/-- An Anvil at reset: SPARE, its clock stopped. -/
def Anvil.reset : Anvil :=
  { st := .spare, run := none, chain := none, waitUntil := 0, idleSince := 0, gated := true, mapNext := false }

/-- An MMA command that runs: its die and parameters, the next chain not yet started, chains that wait for a unit to go on
(R65, R66), the (tile, split) of ended non-lead chains, and the output tiles written. -/
structure Mma where
  die : Nat
  ctx : Nat
  p : MmaParams
  next : Nat
  moved : List Chain
  parts : List (Nat × Nat)
  written : Nat
  deriving DecidableEq, Repr

/-- What Loupe holds of one element (R340, R341): the exact value and the bound times `den`, or the bits it must equal. -/
structure LpElem where
  x : Val
  bound : Val
  den : Nat
  exact : Option Nat
  deriving DecidableEq, Repr

/-- A captured tile (R339, R342): whose it is, the unit that ran it, its first D element, its scale level and ACC_SAT, the
result without fault and as the Anvil gave it, what Loupe forms of each element, whether a fault of Loupe's own made an element fail, and the rerun's unit and findings. -/
structure Capture where
  flight : Nat
  ctx : Nat
  tagged : Bool
  step : Nat
  att : Nat
  u1 : Nat
  addr : Nat
  sat : Bool
  good : List Nat
  res : List Nat
  elems : List LpElem
  ended : Bool
  settling : Bool
  slip : Bool
  u2 : Option Nat
  rerun : Option (Bool × Bool)
  deriving DecidableEq, Repr

/-- The fields of a VEC parameter block (Table 5.2): streams as (base, stride, format), constants and tags as (tag, index
base). -/
structure VecParams where
  kernel : Nat
  len : Nat
  blocks : Nat
  tail : Nat
  streams : List (Nat × Nat × Nat)
  consts : List Nat
  tags : List (Nat × Nat)
  deriving DecidableEq, Repr

/-- A VEC command that runs: its die and parameters, its bundles as read at its start (four words each), the seeds and step
number sampled at issue (R115), the next block, blocks to run again (R150) and the blocks committed. -/
structure Vec where
  die : Nat
  ctx : Nat
  p : VecParams
  bundles : List (List Nat)
  sr : Bool
  seedG : Nat
  seedU : Nat
  step : Nat
  next : Nat
  again : List Nat
  committed : Nat
  deriving DecidableEq, Repr

/-- A Swage (chapter 5): its state, its block slots as (command, block), whether it leaves service when they commit (R153),
and a map-out applied during a test. -/
structure Swage where
  st : UnitState
  slots : Tbl (Nat × Nat)
  leaving : Bool
  idleSince : Nat
  gated : Bool
  mapNext : Bool
  deriving DecidableEq, Repr

/-- A Swage at reset. -/
def Swage.reset : Swage := { st := .active, slots := [], leaving := false, idleSince := 0, gated := false, mapNext := false }

/-- The engines of the compute dies: Anvils by 40 times the die plus m, Swages by 8 times the die plus m, the commands that
run by flight, Loupe's selections deferred and captures by die. -/
structure Engines where
  anvils : Tbl Anvil
  mmas : Tbl Mma
  swages : Tbl Swage
  vecs : Tbl Vec
  deferred : List Nat
  captures : Tbl Capture
  deriving DecidableEq, Repr

/-- The rotating BIST (R350 to R352): by unit ID, the end of the last test, the time since when a unit is due at once, the
passing tests in a row, and STEP and POH of the last passing test; by die, the claimed Anvil and Swage with the time of the
claim and whether they are in TEST. -/
structure Bist where
  lastEnd : Tbl Nat
  dueNow : Tbl Nat
  passes : Tbl Nat
  lastPass : Tbl (Nat × Nat)
  anvClaim : Tbl (Nat × Nat × Bool)
  swgClaim : Tbl (Nat × Nat × Bool)
  deriving DecidableEq, Repr

/-- The fields of a WELD parameter block (Table 11.1). -/
structure WeldParams where
  op : Nat
  inFmt : Nat
  accFmt : Nat
  outFmt : Nat
  coll : Nat
  root : Nat
  src : Nat
  dst : Nat
  base : Nat
  count : Nat
  total : Nat
  deriving DecidableEq, Repr

/-- A packet-sized chunk of a share that a collective works on (R301, R304, R307): whether it is reduced (else gathered), its
owner rank, its number in the segment, its first and end element, the (level, rank) of values still to be added, those that
arrived, the value so far, and whether this module has done its part. -/
structure Chunk where
  reduce : Bool
  share : Nat
  idx : Nat
  lo : Nat
  hi : Nat
  need : List (Nat × Nat)
  got : List (Nat × List Byte)
  val : List Byte
  done : Bool
  deriving DecidableEq, Repr

/-- A collective in flight (R297 to R309): its parameters, home die, the die of its
combiner, its context, N and the module's rank, the CRC of its block
and its step tag, its chunks, the nodes that sent READY, the packets that wait for a node's READY as (node, chunk number, packet), and when data last came. -/
structure Coll where
  p : WeldParams
  home : Nat
  die : Nat
  ctx : Nat
  n : Nat
  rank : Nat
  crc : Nat
  tag : Option (Nat × Nat)
  chunks : List Chunk
  ready : List Nat
  queued : List (Nat × Nat × OutPkt)
  last : Nat
  deriving DecidableEq, Repr

/-- A READY held for a collective that has not started (R306): its sender, COLL, step tag, CRC and the port die it counts
on. -/
structure ReadyMsg where
  node : Nat
  coll : Nat
  tag : Option (Nat × Nat)
  crc : Nat
  die : Nat
  deriving DecidableEq, Repr

/-- A reduction that this module hosts (R312): its TREE, step and attempt, the module's own 64-byte record, and those that
arrived by level. -/
structure VoteEntry where
  tree : Nat
  step : Nat
  att : Nat
  own : Option (List Byte)
  got : List (Nat × List Byte)
  deriving DecidableEq, Repr

/-- The Weld engines (chapter 11): collectives by flight, those that wait for one of 16 to complete (R297), the (COLL, tag)
of failed ones (R309), READYs held (R306), vote entries (R312), whether the rank map was applied since the last reset that
loses it, the step, delivered ranges and length of the ward-hold image (R311), and the tally awaited with its deadline
(R349) and the (STEP, ATT) last discarded. -/
structure Weld where
  colls : Tbl Coll
  waiting : List Nat
  failed : List (Nat × Option (Nat × Nat))
  held : List ReadyMsg
  votes : List VoteEntry
  mapOk : Bool
  wardStep : Nat
  ward : List (Nat × Nat)
  wardLen : Option Nat
  tally : Option (Nat × Nat × Nat)
  discarded : Option (Nat × Nat)
  deriving DecidableEq, Repr

/-- The Weld engines at reset. -/
def Weld.reset : Weld :=
  { colls := [], waiting := [], failed := [], held := [], votes := [], mapOk := false, wardStep := 0, ward := [],
    wardLen := none, tally := none, discarded := none }

/-- A transfer of Tongs in flight (R328, R329): its layer, destination and the packets not yet completed. -/
structure Move where
  layer : Nat
  dest : Nat
  left : Nat
  deriving DecidableEq, Repr

/-- States of a layer record (Table 12.2). -/
inductive RecState where
  | empty | resident | out | away | in' | back | lost
  deriving DecidableEq, Repr

/-- A layer record (Table 12.1). -/
structure LayerRec where
  st : RecState
  dest : Nat
  usedAlt : Bool
  home : Nat
  ret : Nat
  len : Nat
  off : Nat
  deriving DecidableEq, Repr

/-- An EMPTY record. -/
def LayerRec.none : LayerRec := { st := .empty, dest := 0, usedAlt := false, home := 0, ret := 0, len := 0, off := 0 }

/-- An open sequence slot (R323, R327): its context, OFFLOAD_BELOW, AHEAD, OUT_VID and IN_VID, the layers whose offload is
queued in PUT order, those whose fetch is eligible, the transfers in flight, and its records by layer, which Tongs also
writes into the record table in memory (R324). -/
structure SeqSlot where
  owner : Nat
  below : Nat
  ahead : Nat
  outVid : Nat
  inVid : Nat
  offloads : List Nat
  eligible : List Nat
  out' : Option Move
  in' : Option Move
  recs : Tbl LayerRec
  deriving DecidableEq, Repr

/-- What Sahsin does next with the ingot drive (Table 15.3, R406 to R408): an NVMe command (a write of bytes of its own buffer at
a byte of namespace 1, a write of `len` bytes of device memory zero-padded to 4 KiB, a flush, a read, an Identify, Set
Features, the creation of the queue pair), or what it does once those before have completed. -/
inductive DriveOp where
  | write (off : Nat) (bytes : List Byte)
  | copy (off addr len : Nat)
  | flush
  | read (off len : Nat)
  | identify (cns : Nat)
  | setFeatures
  | createCq
  | createSq
  | unsealed
  | sealed
  | confirmed (step seq copy : Nat)
  | cutDone
  | ready
  deriving DecidableEq, Repr

/-- Where a cut stands (Table 15.3): before the pre-cut result, at the drive, before the post-cut result, at the confirm
record. -/
inductive CutStage where
  | pre | drive | post | confirm
  deriving DecidableEq, Repr

/-- A cut under way: its step, CAUSE and flip time, when it began, the slot it writes, when the result awaited is
overdue. -/
structure Cut where
  step : Nat
  cause : Nat
  time : Nat
  began : Nat
  slot : Nat
  stage : CutStage
  deadline : Nat
  deriving DecidableEq, Repr

/-- A restore under way: its source (0 slot A, 1 slot B, 2 host image) and STEP (R410). -/
structure Restoring where
  source : Nat
  step : Nat
  deriving DecidableEq, Repr

/-- A range to be pulled from another node: node, its address, this module's, bytes (R411). -/
structure Load where
  node : Nat
  src : Nat
  dst : Nat
  len : Nat
  deriving DecidableEq, Repr

/-- The checkpoint block (chapter 15): the drive commands to come, the first in progress since `issued`, the cut and the
restore under way, the confirm record that stands as (copy, SEQ), the transfer size, and the sources of a fill not yet
begun. -/
structure Ckp where
  plan : List DriveOp
  issued : Nat
  cut : Option Cut
  restoring : Option Restoring
  confirm : Option (Nat × Nat)
  xfer : Nat
  loads : List Load
  deriving DecidableEq, Repr

/-- The checkpoint block at reset. -/
def Ckp.reset : Ckp :=
  { plan := [], issued := 0, cut := none, restoring := none, confirm := none, xfer := 0x100000, loads := [] }

/-- Power, thermal and clocks beside their registers (chapter 16): whether the module runs, the latched trip as (sensor,
temperature, fabric time) (R425), the energy in µJ, whether P fell in the running 100 µs (R418), the last reading of each
junction sensor by its number of R431. -/
structure Power where
  on : Bool
  trip : Option (Nat × Nat × Nat)
  uj : Nat
  fell : Bool
  temps : Tbl Nat
  deriving DecidableEq, Repr

/-- Power at reset. -/
def Power.reset : Power := { on := true, trip := none, uj := 0, fell := false, temps := [] }

/-- The reset sequencer (R372, R377): the requested reset whose RESET_DONE is still to come, as (1 CHIP, 2 DIE, 3 PORT; target). -/
structure Sequencer where
  requested : Option (Nat × Nat)
  deriving DecidableEq, Repr

/-- The SMC (chapters 17 and 19): the bytes of image slots A and B and of the running image, the slot that the boot record
names, whether FW_STAGE has filled the other slot since, the burnt fuses (SVN counter, revocation bits), whether Sahsin has released
the dies (t2 of R479), whether HBM is still to be trained in full (R483), the dies that lost lock (R427), whether a command was BUSY
when the SMC restarted (R440), how far SPDM is negotiated with which version (R452), and the board management address (R455)
with whether the standby rail is up. -/
structure Smc where
  slotA : List Byte
  slotB : List Byte
  image : List Byte
  bootB : Bool
  staged : Bool
  fuseSvn : Nat
  revoked : Nat
  released : Bool
  fullTrain : Bool
  unlocked : Nat
  cutShort : Bool
  spdm : Nat
  spdmVersion : Nat
  i3c : Option Nat
  standby : Bool
  deriving DecidableEq, Repr

/-- The SMC of a module as delivered (log entry 9): both slots as the boot partition holds them, no fuse burnt. -/
def Smc.reset : Smc :=
  { slotA := Config.bootSlot 0, slotB := Config.bootSlot 1, image := [], bootB := false, staged := false, fuseSvn := 0, revoked := 0,
    released := false, fullTrain := true, unlocked := 0, cutShort := false, spdm := 0, spdmVersion := 0, i3c := none,
    standby := true }

/-- The guest link (R472 to R474): whether admission runs, the descriptor admitted, the tags of the device's requests outstanding at the guest die,
and the resends of each block sequence. -/
structure Guest where
  admitting : Bool
  descriptor : List Byte
  open' : List Nat
  resends : Tbl Nat
  deriving DecidableEq, Repr

/-- The guest link at reset. -/
def Guest.reset : Guest := { admitting := false, descriptor := [], open' := [], resends := [] }

/-- The state of the block. -/
structure State where
  /-- the commands that wait, first in first out -/
  pending : List Instr
  /-- fabric time in ns (R282) -/
  now : Nat
  /-- ns counted by the always-on 100 MHz clock since COLD reset (R372); the timers of the blocks run on it -/
  clock : Nat
  /-- the model's own counter of free values drawn (log entry 4) -/
  free : Nat
  /-- what has left the module, newest first -/
  out : List OutMsg
  /-- effective register values (Table 2.2 and the chapters' field tables) -/
  regs : Store
  /-- shadows of ARMED fields (R51) -/
  shadow : Store
  /-- staged copies of ARMED sets (R52) -/
  staged : Store
  /-- error logs by page slot (R46) -/
  errlog : Tbl (List ErrEntry)
  /-- telemetry shadows by page slot (R62) -/
  snaps : Tbl Snapshot
  mem : Memory
  map : AddrMap
  tmp : Tmp
  attempt : Attempt
  ctxs : Tbl Ctx
  /-- the context each dispatcher served last (R206) -/
  served : Tbl Nat
  flights : Tbl Flight
  nextFlight : Nat
  syn : Syn
  xp : Xport
  links : Tbl Link
  ledger : Ledger
  health : Health
  host : HostLink
  hbmStacks : Tbl Stack
  eng : Engines
  bist : Bist
  /-- heals of HBM rows under way (R189) -/
  heals : List Heal
  /-- the lines that Hearth scrub has read of each bank, by 128 times the die plus the bank (R173) -/
  hscrub : Tbl Nat
  /-- the indices of the GATHERs in flight, by flight (R195) -/
  gathers : Tbl (List Nat)
  weld : Weld
  /-- the open sequence slots of Tongs (R323) -/
  slots : Tbl SeqSlot
  /-- whether ALG_CFG.BASE has been applied since the last CHIP reset (Table 12.8) -/
  algSet : Bool
  /-- whether the Touchmark block table is being zeroed (R347) -/
  tchZeroing : Bool
  ckp : Ckp
  power : Power
  seq : Sequencer
  smc : Smc
  guest : Guest
  deriving DecidableEq, Repr

/-- TMP at reset (Table 1.7, R37). -/
def Tmp.reset : Tmp :=
  { phase := .idle, activeBank := false, holdValid := false, wardHoldValid := false, replayCount := 0, lastReason := .none,
    lateFlips := 0, step := 1, tempered := 0, flipTime := 0, att := 0 }

/-- No attempt under way. -/
def Attempt.fresh : Attempt :=
  { fault := none, stopSent := false, heldStop := none, frozen := false, holdGone := false, ctxLost := false, vote := none,
    deadline := 0, result := none, resumeAt := none, holdWriteLeft := 0, holdWriting := false, wardAcked := false,
    mirrorAcked := [], checkStarted := false, touchValid := false, touch := 0 }

/-- The slice table at reset (Table 10.16): slice 0, no node. -/
def Slc.reset : Slc :=
  { cur := ⟨0, 0xFFFF, 0xFFFF⟩, prev := none, next := none, epoch := false, switchAt := 0, retireAt := 0, draining := false,
    drainSince := 0, drained := false, cutPending := none, cutCause := 0, cutDeferred := none, cutNext := none }

/-- The time service at reset (Table 10.17). -/
def TimeSvc.reset : TimeSvc :=
  { state := .unset, srcPlane := 0, master := 0xFFFF, offset := 0, rate := 0, count := 0, lastRx := 0, period := 0, seq := 0,
    slew := 0, hold := 0 }

/-- The transport at reset: no flow, both versions of both tables invalid (R292). -/
def Xport.reset : Xport :=
  { flows := [], needPeers := [], bursts := [], seen := [], rteCur := [], rteNext := [], slc := Slc.reset,
    time := TimeSvc.reset, timeouts := [], suspect := 0, skip := 0 }

/-- The ledger of a module whose flash holds no event yet (log entry 9). -/
def Ledger.empty : Ledger :=
  { poh := 0, pohSaved := 0, stamps := [], permanent := [], waiting := [], log := [], seq := 0, hour := 0, written := 0,
    mapout := [] }

/-- The host link at reset: not up, every vector masked (R434). -/
def HostLink.reset : HostLink :=
  { up := false, ready := false, busMaster := false, msixEnable := false, functionMask := false, regBar := 0, cmdBar := 0,
    aptBar := 0, aptLog := 30, unmasked := [], pba := [], gapEnd := [], merged := [] }

/-- The machine right after COLD reset (R372, R479): every register at its reset value; HBM and every Hearth undefined
until they are trained and initialised (R181, R176). Log entry 10 says how commands come to run from here. -/
def State.reset : State :=
  { pending := [], now := 0, clock := 0, free := 0, out := [], regs := [], shadow := [], staged := [], errlog := [], snaps := [],
    mem := ⟨[], [(0, 2 ^ 48, some 0)]⟩, map := AddrMap.coldDefault 0, tmp := Tmp.reset, attempt := Attempt.fresh, ctxs := [], served := [],
    flights := [], nextFlight := 0, syn := ⟨[], [], [], [], 0⟩, xp := Xport.reset, links := [], ledger := Ledger.empty,
    health := ⟨[], [], [], none⟩, host := HostLink.reset, hbmStacks := [],
    eng := ⟨[], [], [], [], [], []⟩, bist := ⟨[], [], [], [], [], []⟩,
    heals := [], hscrub := [], gathers := [], weld := Weld.reset, slots := [], algSet := false, tchZeroing := false, ckp := Ckp.reset,
    power := Power.reset, seq := ⟨none⟩, smc := Smc.reset, guest := Guest.reset }

end Sys2Proof.Machine
end

