-- ==== Sys2Proof/Machine/Ops.lean ====
section
/-! DEFINITION. The named operations that every family shares: registers, events and notices (R47, R438), error logs and
class counts (R46, R370), step faults (R492), ledger events and health inputs (R355 to R360), packets, links, flows and
the sending of STOP and CUT (R265, R275, R285). -/

namespace Sys2Proof.Machine

open Sys2Proof

/-- The outcome of a command that completes. -/
abbrev Outcome := Host.Outcome State Fault Refusal

/-- The effect `t` of a command on `s`: none while the module has no power, its clocks being stopped (R425, R461). -/
def live (s t : State) : Outcome := .next (if s.power.on then t else s)

/-- The answer of a command about unit `u` of `n`: the effect, or a fault for a unit the module does not have. -/
def onUnit (s : State) (u n : Nat) (t : State) : Outcome := if u < n then live s t else .fault .noSuchUnit

/-! Registers -/

/-- The effective value of field `f` of instance `i`. -/
def State.rd (s : State) (f : Field) (i : Nat) : Nat := Store.get f.reset s.regs (f.key i)

/-- Field `f` of instance `i` set by the block itself. -/
def State.wr (s : State) (f : Field) (i v : Nat) : State := { s with regs := Store.set s.regs (f.key i) (v % 2 ^ f.width) }

/-- A counter field raised by `n`, saturating at all ones. -/
def State.inc (s : State) (f : Field) (i n : Nat) : State :=
  { s with regs := Store.set s.regs (f.key i) (min (2 ^ f.width - 1) (s.rd f i + n)) }

/-- Whether a one-bit field is set. -/
def State.on (s : State) (f : Field) (i : Nat) : Bool := s.rd f i == 1

/-- The key of a header field of a page slot. -/
def hkey (f : Field) (slot : Nat) : Key := ⟨canonSlot slot, f.off, f.lo⟩

/-- The value of header field `f` of the page in `slot`. -/
def State.hrd (s : State) (f : Field) (slot : Nat) : Nat := Store.get f.reset s.regs (hkey f slot)

/-- Header field `f` of the page in `slot` set. -/
def State.hwr (s : State) (f : Field) (slot v : Nat) : State :=
  { s with regs := Store.set s.regs (hkey f slot) (v % 2 ^ f.width) }

/-- A message leaves the module. -/
def State.emit (s : State) (m : OutMsg) : State := { s with out := m :: s.out }

/-- A fresh free value is drawn (log entry 4). -/
def State.fresh (s : State) : Nat × State := (Config.freeNat s.free, { s with free := s.free + 1 })

/-- Whether a guest die is admitted (GST_STS.STATE = ADMITTED, Table 18.9). -/
def guestAdmitted (s : State) : Bool := s.rd R.GST_STS_STATE 0 == 3

/-! Interrupts and events -/

/-- Whether vector `v` is masked (R438). -/
def vectorMasked (s : State) (v : Nat) : Bool :=
  !s.host.msixEnable || s.host.functionMask || !s.host.unmasked.contains v

/-- A message on vector `v` leaves and starts its gap (R438). -/
def msixSend (s : State) (v : Nat) : State :=
  let gap := s.rd R.HIF_IRQ_CFG_GAP_US 0 * 1000
  (({ s with host := { s.host with gapEnd := Tbl.set s.host.gapEnd v (s.clock + gap),
                                   merged := s.host.merged.filter (· != v) } }).inc R.HIF_MSIX_SENT_SENT 0 1).emit (.msix v)

/-- A request for a message on vector `v`: held pending while masked, merged within the gap, else sent (R438). -/
def msixRequest (s : State) (v : Nat) : State :=
  if vectorMasked s v then
    { s with host := { s.host with pba := if s.host.pba.contains v then s.host.pba else v :: s.host.pba } }
  else if s.clock < Tbl.get 0 s.host.gapEnd v then
    ({ s with host := { s.host with merged := if s.host.merged.contains v then s.host.merged else v :: s.host.merged } }).inc
      R.HIF_MSIX_MERGED_MERGED 0 1
  else msixSend s v

/-- The notice of event bit `b` of the page in `slot`, as EVT_ROUTE directs (R47). -/
def notice (s : State) (slot b : Nat) : State :=
  let s := if s.hrd R.EVT_ROUTE_TO_HOST slot = 1 then msixRequest s (s.hrd R.EVT_ROUTE_VECTOR slot) else s
  if s.hrd R.EVT_ROUTE_TO_SMC slot = 1 then s.emit (.smcNotice slot b) else s

/-- Event bit `b` of the page in `slot` occurs: the bit is set whether or not it is masked; an unmasked bit that goes from
0 to 1 sends its notice (R47). -/
def raiseSlot (s : State) (slot b : Nat) : State :=
  let sts := s.hrd R.EVT_STS slot
  if bitOf sts b then s
  else
    let s' := s.hwr R.EVT_STS slot (sts + 2 ^ b)
    if bitOf (s.hrd R.EVT_MASK slot) b then s' else notice s' slot b

/-- Event bit `b` of instance `i` of a page type occurs. -/
def raise (s : State) (p : Page) (i b : Nat) : State := raiseSlot s (slotOf p i) b

/-- Event bit `b` occurs where `c` holds. -/
def raiseIf (c : Bool) (s : State) (p : Page) (i b : Nat) : State := if c then raise s p i b else s

/-! Error logs -/

/-- Error classes (Table 14.1). -/
inductive EClass where
  | INFO | CORRECTED | COMMAND | STEP | CAPACITY | DOMAIN | MODULE
  deriving DecidableEq, Repr

/-- The code of a class (Table 14.1). -/
def EClass.code : EClass → Nat
  | .INFO => 0 | .CORRECTED => 1 | .COMMAND => 2 | .STEP => 3 | .CAPACITY => 4 | .DOMAIN => 5 | .MODULE => 6

/-- An error of class `c` on instance `i` of a page is counted by class (R370). -/
def countClass (s : State) (p : Page) (i : Nat) (c : EClass) : State :=
  let s := s.inc (R.FLT_CLASS_CNT_COUNT c.code) 0 1
  let s := raise s .FLT 0 (4 + c.code)
  let s := match dieOfPage p i with | some n => s.inc (R.DIE_CLASS_CNT_COUNT c.code) n 1 | none => s
  match portOfPage p i with | some d => s.inc (R.PDC_CLASS_CNT_COUNT c.code) d 1 | none => s

/-- The error log of instance `i` of a page. -/
def logOf (s : State) (p : Page) (i : Nat) : List ErrEntry := Tbl.get [] s.errlog (canonSlot (slotOf p i))

/-- An error is counted (R370) and written into the next free entry of its page's log, or sets ERRLOG_OVF when the log is
full or frozen (R46). -/
def logErr (s : State) (p : Page) (i code : Nat) (c : EClass) (unit addr : Nat) (detail : List Nat) : State :=
  let s := countClass s p i c
  let l := logOf s p i
  if l.length < (capsOf p).depth ∧ s.hrd R.PAGE_CTL_LOG_FREEZE (slotOf p i) = 0 then
    { s with errlog := Tbl.set s.errlog (canonSlot (slotOf p i)) (l ++ [⟨s.now, code, c.code, unit, addr, detail⟩]) }
  else raise s p i 2

/-! The step -/

/-- Encoding of PHASE (Table 1.8). -/
def Phase.code : Phase → Nat
  | .idle => 0 | .hold => 1 | .run => 2 | .check => 3 | .vote => 4 | .flipWait => 5 | .stopped => 6 | .inDoubt => 7

/-- Encoding of the failure reasons (Table 1.9). -/
def Reason.code : Reason → Nat
  | .none => 0 | .anvilFault => 1 | .uncorrectable => 2 | .touchmarkMismatch => 3 | .stepMismatch => 4
  | .restoreMismatch => 5 | .flowFail => 6 | .waitTimeout => 7 | .stopReceived => 8 | .voteTimeout => 9 | .mirrorFail => 10
  | .bankWrite => 11 | .resolvedDiscard => 12 | .replayExhausted => 13 | .mirrorLost => 14

/-- The reason a REASON field of a received record names (Table 1.9; a value not listed is taken as NONE). -/
def reasonOf : Nat → Reason
  | 1 => .anvilFault | 2 => .uncorrectable | 3 => .touchmarkMismatch | 4 => .stepMismatch | 5 => .restoreMismatch
  | 6 => .flowFail | 7 => .waitTimeout | 8 => .stopReceived | 9 => .voteTimeout | 10 => .mirrorFail | 11 => .bankWrite
  | 12 => .resolvedDiscard | 13 => .replayExhausted | 14 => .mirrorLost | _ => .none

/-- Whether an attempt is running whose vote has not been sent: a step fault can be recorded (R24, R374; log entry 11). -/
def attemptLive (s : State) : Bool :=
  (s.tmp.phase == .hold || s.tmp.phase == .run || s.tmp.phase == .check) && s.attempt.vote.isNone

/-- Whether a step is under way: PHASE is neither IDLE nor STOPPED (R232). -/
def stepUnderWay (s : State) : Bool := s.tmp.phase != .idle && s.tmp.phase != .stopped

/-- The class of an error that is STEP when it records a step fault and `other` if not (R369). -/
def stepClass (s : State) (other : EClass) : EClass := if attemptLive s then .STEP else other

/-- DETAIL of a TMP log entry with a reason (R39). -/
def tmpDetail (s : State) (r : Nat) : List Nat := [s.tmp.step, r + 256 * s.tmp.att, 0]

/-- A step fault: the first of an attempt fixes its reason, logs STEP_FAULT and raises the event; a later one changes no
TMP field (R492). Outside a live attempt nothing is recorded. -/
def stepFault (s : State) (r : Reason) : State :=
  if attemptLive s && s.attempt.fault.isNone then
    let s := { s with attempt := { s.attempt with fault := some r } }
    let s := raise s .TMP 0 7
    logErr s .TMP 0 1 .STEP (s.rd R.TMP_RANK_RANK 0) 0 (tmpDetail s r.code)
  else s

/-! Packets and links -/

/-- The class code of Table 10.2. -/
def PClass.code : PClass → Nat
  | .DATA => 0 | .READ => 1 | .WRITE => 2 | .SIGNAL => 3 | .WELD => 4 | .ACK => 5 | .STOP => 6 | .CUT => 7 | .TIME => 8
  | .CTRL => 9

/-- Whether a class is sequenced (Table 10.2). -/
def PClass.sequenced : PClass → Bool
  | .DATA | .READ | .WRITE | .SIGNAL | .WELD => true
  | _ => false

/-- Header bytes 0x00 to 0x17 of a packet (Table 10.1). -/
def headerBytes (c : PClass) (p : Packet) : List Byte :=
  leBytes 4 (p.verMajor % 16 + p.verMinor % 16 * 2 ^ 4 + c.code * 2 ^ 8 + p.slice % 2 ^ 12 * 2 ^ 12 + p.att % 256 * 2 ^ 24)
    ++ leBytes 4 (p.src % 2 ^ 16 + p.dst % 2 ^ 16 * 2 ^ 16)
    ++ leBytes 4 (p.flow % 2 ^ 12 + p.tryNo % 8 * 2 ^ 12 + p.epoch % 2 * 2 ^ 15 + p.length % 2 ^ 13 * 2 ^ 16
        + b2n p.stepTag * 2 ^ 29)
    ++ leBytes 4 p.seq ++ leBytes 8 (p.addr % 2 ^ 48 + p.injUs % 2 ^ 16 * 2 ^ 48)

/-- The payload as the CRC sees it: CORRECTION of a TIME packet is taken as zero (R268). -/
def crcPayload (c : PClass) (bs : List Byte) : List Byte :=
  if c = .TIME then bs.take 8 ++ leBytes 8 0 ++ bs.drop 16 else bs

/-- The CRC of a packet (R268). -/
def packetCrc (c : PClass) (p : Packet) : Nat := crc64xz (headerBytes c p ++ crcPayload c p.payload)

/-- Whether the transport of port die `d` is accepting: the die is READY (R396). -/
def portReady (s : State) (d : Nat) : Bool := s.on R.PDC_STS_READY d

/-- The link of plane `k`. -/
def linkOf (s : State) (k : Nat) : Link := Tbl.get Link.init s.links k

/-- Link `k` replaced. -/
def State.setLink (s : State) (k : Nat) (l : Link) : State := { s with links := Tbl.set s.links k l }

/-- Whether link `k` reports READY to the transport: it is UP or DEGRADED (R254). -/
def linkReady (s : State) (k : Nat) : Bool := (linkOf s k).state == .up || (linkOf s k).state == .degraded

/-- The READY planes in ascending order. -/
def readyPlanes (s : State) : List Nat := (List.range 32).filter (linkReady s)

/-- The 64-byte slots of a packet (R243). -/
def slotsOf (p : Packet) : Nat := ceilDiv (32 + p.payload.length) 64

/-- A packet joins the priority queue of link `k` (R275). -/
def sendPrio (s : State) (k : Nat) (c : PClass) (p : Packet) : State :=
  let l := linkOf s k
  s.setLink k { l with prio := l.prio ++ [(c, p)] }

/-- A packet joins the egress queue of link `k` (R275). -/
def sendEgress (s : State) (k : Nat) (c : PClass) (p : Packet) : State :=
  let l := linkOf s k
  s.setLink k { l with egress := l.egress ++ [(c, p)], egressSlots := l.egressSlots + slotsOf p }

/-- A packet of the module with the header fields that every packet carries (Table 10.1) and its CRC. -/
def mkPacket (s : State) (c : PClass) (slice dst flow tryNo seq addr : Nat) (stepTag : Bool) (payload : List Byte) : Packet :=
  let p : Packet :=
    { verMajor := 1, verMinor := 0, slice := slice, att := s.tmp.att, src := s.xp.slc.cur.own, dst := dst, flow := flow,
      tryNo := min tryNo 7, epoch := b2n s.xp.slc.epoch, length := payload.length, stepTag := stepTag, seq := seq,
      addr := addr, injUs := s.now / 1000 % 2 ^ 16, crc := 0, payload := payload }
  { p with crc := packetCrc c p }

/-- One copy of a STOP or CUT on each READY plane, with SEQ the repeat index (R285). -/
def sendCopies (s : State) (b : Burst) : State :=
  (readyPlanes s).foldl (fun s k => sendPrio s k b.cls (mkPacket s b.cls s.xp.slc.cur.slice b.dst 0 0 b.idx 0 false b.payload)) s

/-- A burst starts: its first copies leave and the repeats fall due at 10 µs intervals (R285). A module in slice 0 sends
none (R264). The payload is noted as handled, so that the module's own copy is not handled again. -/
def startBurst (s : State) (c : PClass) (payload : List Byte) : State :=
  if s.xp.slc.cur.slice = 0 then s
  else
    let b : Burst := { cls := c, payload := payload, dst := s.xp.slc.cur.mcast, idx := 0, due := 0 }
    let s := sendCopies s b
    { s with xp := { s.xp with bursts := s.xp.bursts ++ [{ b with idx := 1, due := s.clock + 10000 }],
                               seen := (c, payload, s.clock) :: s.xp.seen } }

/-- STOP payload (Table 10.9). -/
def stopPayload (s : State) (r : Nat) : List Byte := leBytes 8 s.tmp.step ++ leBytes 8 (s.tmp.att + 256 * r)

/-- CUT payload (Table 10.9). -/
def cutPayload (step cause : Nat) : List Byte := leBytes 8 step ++ leBytes 8 cause

/-- SLC register fields are those of the one register set (R289). -/
def slcI : Nat := 0

/-- The attempt is abandoned on a STOP (R286, first row of Table 10.10): STOP_RX is raised, the step fault is recorded, the
contexts are held, the attempt's flights are abandoned at their next work boundary and the vote falls due. -/
def stopApply (s : State) : State :=
  if attemptLive s then
    let s := stepFault s .stopReceived
    let s := raise s .SLC slcI 7
    { s with tmp := { s.tmp with phase := .check },
             attempt := { s.attempt with frozen := true, checkStarted := true, holdWriting := false },
             flights := s.flights.map (fun e => if e.2.tagged then (e.1, { e.2 with abandoned := true }) else e) }
  else s

/-- The module sends STOP to its slice, at most once per (STEP, ATT) (R285), with the reason of its first step fault, and
its own copy is received like any other (R232, R293; log entry 12). -/
def sendStopBurst (s : State) (r : Reason) : State :=
  if s.attempt.stopSent || s.xp.slc.cur.slice == 0 then s
  else
    let s := { s with attempt := { s.attempt with stopSent := true } }
    let s := s.inc R.SLC_STOP_TX slcI 1
    let s := startBurst s .STOP (stopPayload s (s.attempt.fault.getD r).code)
    stopApply (s.inc R.SLC_STOP_RX slcI 1)

/-- A step fault together with the STOP it sends (R219, R274). -/
def stepFaultStop (s : State) (r : Reason) : State :=
  if stepUnderWay s then sendStopBurst (stepFault s r) r else s

/-- The module sends CUT naming a step (R285, R287). -/
def cutBurst (s : State) (step cause : Nat) : State :=
  if s.xp.slc.cur.slice = 0 then s
  else startBurst (s.inc R.SLC_CUT_TX slcI 1) .CUT (cutPayload step cause)

/-- The pending cut is set (R288). -/
def setCutPending (s : State) (step cause : Nat) : State :=
  let s := { s with xp := { s.xp with slc := { s.xp.slc with cutPending := some step, cutCause := cause } } }
  raise s .SLC slcI 8

/-- A CUT for `step` above TMP_TEMPERED is taken by this module (R288): it becomes the pending cut, merges into one at or
above it, or waits until an earlier one is written. -/
def takeCut (s : State) (step cause : Nat) : State :=
  match s.xp.slc.cutPending with
  | none => setCutPending s step cause
  | some p =>
    if step ≤ p then s
    else
      match s.xp.slc.cutNext with
      | some n => if step ≤ n.1 then s else { s with xp := { s.xp with slc := { s.xp.slc with cutNext := some (step, cause) } } }
      | none => { s with xp := { s.xp with slc := { s.xp.slc with cutNext := some (step, cause) } } }

/-- The module asks its slice for a cut with `cause` (R287): deferred in CHECK, VOTE, FLIP_WAIT and IN_DOUBT until the flip
or discard, else sent now and taken by the module itself. -/
def requestCut (s : State) (cause : Nat) : State :=
  match s.tmp.phase with
  | .check | .vote | .flipWait | .inDoubt =>
    { s with xp := { s.xp with slc := { s.xp.slc with cutDeferred := some cause } } }
  | _ => takeCut (cutBurst s s.tmp.step cause) s.tmp.step cause

/-! Ledger and health -/

/-- Whether a ledger event kind counts toward PERMANENT (Table 13.8; TOUCH_ODD only with outcome ODD). -/
def countedKind (kind : Nat) (odd : Bool) : Bool := (1 ≤ kind && kind ≤ 7) || (kind == 0x0C && odd)

/-- Power-on time in seconds (R356): the saved count and the seconds the always-on clock has run since COLD. -/
def pohNow (s : State) : Nat := s.ledger.poh + s.clock / 1000000000

/-- Entries written in the running hour of power-on time (R358). -/
def writtenThisHour (s : State) : Nat := if s.ledger.hour = pohNow s / 3600 then s.ledger.written else 0

/-- A pending ledger entry is added, or beyond the hour's 1,024 entries coalesced into the waiting entry of its UNIT and
KIND (R358). -/
def ledgerAdd (s : State) (unit kind cls weight : Nat) (detail : List Nat) : State :=
  let l := s.ledger
  let e : LedgerEntry := ⟨0, unit, kind, cls, s.now, s.tmp.step, pohNow s, 1, weight, detail⟩
  if 1024 ≤ writtenThisHour s + l.waiting.length ∧ l.waiting.any (fun x => x.unit == unit && x.kind == kind) then
    let s := raise s .LDG 0 6
    let s := s.inc R.LDG_COALESCED_COALESCED 0 1
    let bump := fun x : LedgerEntry =>
      if x.unit == unit && x.kind == kind then { x with count := min 0xFFFF (x.count + 1) } else x
    { s with ledger := { s.ledger with waiting := s.ledger.waiting.map bump } }
  else { s with ledger := { l with waiting := l.waiting ++ [e] } }

/-- The counted events of a unit within 720 hours of power-on time (R355). -/
def inWindow (s : State) (unit : Nat) : Nat :=
  ((Tbl.get [] s.ledger.stamps unit).filter (fun p => pohNow s ≤ p + 720 * 3600)).length

/-- A ledger event (R355 to R358): its entry, its POH stamp if it counts, and PERMANENT at the third within 720 hours. A
PERMANENT Loupe is retired. -/
def ledgerEvent (s : State) (unit kind cls weight : Nat) (odd : Bool) (detail : List Nat) : State :=
  let s := ledgerAdd s unit kind cls weight detail
  if countedKind kind odd then
    let s := { s with bist := { s.bist with passes := Tbl.set s.bist.passes unit 0 } }
    let st := (pohNow s :: Tbl.get [] s.ledger.stamps unit).take 3
    let s := { s with ledger := { s.ledger with stamps := Tbl.set s.ledger.stamps unit st } }
    if inWindow s unit = 3 ∧ !s.ledger.permanent.contains unit then
      let s := { s with ledger := { s.ledger with permanent := unit :: s.ledger.permanent } }
      let s := ledgerAdd s unit 0x0E 0 0 [3]
      let s := raise s .LDG 0 4
      if unit / 4096 = 3 then raise (s.wr R.LPE_STS_RETIRED (unit % 4096) 1) .LPE (unit % 4096) 7 else s
    else s
  else s

/-- Unit IDs (Table 13.7). -/
def anvilId (die m : Nat) : Nat := 0x1000 + 40 * die + m
/-- Unit ID of Swage CDn.Sm. -/
def swageId (die m : Nat) : Nat := 0x2000 + 8 * die + m
/-- Unit ID of the Loupe of a die. -/
def loupeId (die : Nat) : Nat := 0x3000 + die
/-- Unit ID of a compute die. -/
def dieId (die : Nat) : Nat := 0x4000 + die
/-- Unit ID of a stack. -/
def stackId (n : Nat) : Nat := 0x5000 + n
/-- Unit ID of a port die. -/
def portId (d : Nat) : Nat := 0x6000 + d
/-- Unit ID of a link. -/
def linkId (k : Nat) : Nat := 0x7000 + k
/-- Unit ID of the module. -/
def moduleId : Nat := 0x8000

/-- The level of a score (R360): 0 NORMAL, 1 WATCH, 2 WARN, 3 RETIRE; HLT_THR is in points, scores in 1/64 points. -/
def levelOf (s : State) (h : Nat) : Nat :=
  if s.rd R.HLT_THR_RETIRE 0 * 64 ≤ h then 3
  else if s.rd R.HLT_THR_WARN 0 * 64 ≤ h then 2
  else if s.rd R.HLT_THR_WATCH 0 * 64 ≤ h then 1 else 0

/-- The autonomous CUT of a unit that reaches WARN (R360). -/
def warnCut (s : State) (unit : Nat) : State :=
  let hold := (if s.rd R.HLT_CFG_CUT_HOLDOFF_MIN 0 = 0 then 1 else s.rd R.HLT_CFG_CUT_HOLDOFF_MIN 0) * 60000000000
  let free := match s.health.lastCut with | none => true | some t => decide (t + hold ≤ s.clock)
  if s.on R.HLT_CFG_AUTO_CUT 0 && free && !s.health.spent.contains unit && s.xp.slc.cur.slice != 0 then
    let s := { s with health := { s.health with lastCut := some s.clock, spent := unit :: s.health.spent } }
    let s := raise (s.inc R.HLT_CUTS_CUTS 0 1) .HLT 0 7
    requestCut s 1
  else s

/-- A unit's level rises to `lv` from `old`: the event and the LEVEL entry of each rise, the SUSPECT mark of an Anvil or
Swage at WATCH (R352), the CUT at WARN (R360). -/
def levelRise (s : State) (unit old lv : Nat) : State :=
  let s := ledgerAdd s unit 0x10 0 0 [lv]
  let s := raise s .HLT 0 (3 + lv)
  let s := if old = 0 ∧ unit / 4096 = 1 then
      let a := unit % 4096
      let f := R.ANV_SUSPECT_SUSPECT
      let i := 2 * (a / 40) + a % 40 / 20
      if bitOf (s.rd f i) (a % 20) then s else raise (s.wr f i (s.rd f i + 2 ^ (a % 20))) .BSR (a / 40) 5
    else if old = 0 ∧ unit / 4096 = 2 then
      let a := unit % 4096
      let f := R.SWG_UNIT_STS_SUSPECT
      if bitOf (s.rd f (a / 8)) (a % 8) then s
      else raise (s.wr f (a / 8) (s.rd f (a / 8) + 2 ^ (a % 8))) .BSR (a / 8) 5
    else s
  if old < 2 ∧ 2 ≤ lv then warnCut s unit else s

/-- The level of a unit is brought up to date with its score (R360). -/
def updateLevel (s : State) (unit : Nat) : State :=
  let old := Tbl.get 0 s.health.level unit
  let lv := levelOf s (Tbl.get 0 s.health.score unit)
  let spent := if lv = 0 then s.health.spent.filter (· != unit) else s.health.spent
  let s := { s with health := { s.health with level := Tbl.set s.health.level unit lv, spent := spent } }
  if old < lv then levelRise s unit old lv else s

/-- Health input `n` of Table 13.10 to a unit (R359). -/
def healthInput (s : State) (n unit : Nat) : State :=
  let h := min 0xFFFFFFFF (Tbl.get 0 s.health.score unit + s.rd (R.HLT_W_WEIGHT n) 0)
  updateLevel { s with health := { s.health with score := Tbl.set s.health.score unit h } } unit

/-- The ledger event and health input of a parity error of a unit (R96, R152, R321): KIND PARITY, input 9. -/
def parityEvent (s : State) (unit page code : Nat) : State :=
  healthInput (ledgerEvent s unit 6 0 (s.rd (R.HLT_W_WEIGHT 9) 0) false [page, code]) 9 unit

end Sys2Proof.Machine
end

