-- ==== Sys2Proof/Machine/Clock.lean ====
section
/-! DEFINITION. The idle tick of the always-on clock (R282, R283, R372; log entry 2). -/

namespace Sys2Proof.Machine

open Sys2Proof

/-- One 10 ns tick with nothing commanded: the clock and fabric time advance. Fabric time runs at the local rate with the
slew of TIME_RATE (parts per 10^9), or stands still while an ACQUIRE hold lasts (R283). -/
def tick (s : State) : State :=
  let tm := s.xp.time
  if 0 < tm.hold then
    { s with clock := s.clock + 10, xp := { s.xp with time := { tm with hold := tm.hold - 10 } } }
  else
    let acc := tm.slew + 10 * tm.rate
    let adv := (10 + acc / 1000000000).toNat
    { s with clock := s.clock + 10, now := s.now + adv, xp := { s.xp with time := { tm with slew := acc % 1000000000 } } }

end Sys2Proof.Machine
end

