-- ==== Sys2Proof/Machine/Views.lean ====
section
/-! DEFINITION. What a register read returns: a field that shows a typed part of the state is computed from it here, and
every other field is in the register store; BUSY of each page (R39, R98, R153, R233, ...); the words of a page with its
header, error log and directory (R42, R45, R46, R60). -/

namespace Sys2Proof.Machine

open Sys2Proof

/-- Context `c`. -/
def ctxOf (s : State) (c : Nat) : Ctx := Tbl.get Ctx.freed s.ctxs c

/-- Context `c` replaced. -/
def State.setCtx (s : State) (c : Nat) (x : Ctx) : State := { s with ctxs := Tbl.set s.ctxs c x }

/-- Encoding of the context states (Table 8.1). -/
def CtxState.code : CtxState → Nat
  | .free => 0 | .idle => 1 | .ready => 2 | .running => 3 | .waiting => 4 | .preempted => 5 | .faulted => 6
  | .quarantine => 7 | .stepHeld => 8

/-- The home die of a context (R203). -/
def homeDie (s : State) (c : Nat) : Nat := s.rd R.CTX_CFG_DIE c

/-- Whether a context exists (R204). -/
def ctxExists (s : State) (c : Nat) : Bool := (ctxOf s c).state != .free

/-- The contexts that exist. -/
def liveCtxs (s : State) : List Nat := (List.range 64).filter (ctxExists s)

/-- CTX_PC, CTX_RESTART and CTX_ERR_ADDR carry RING in [63] (R234). -/
def Pc.code : Pc → Nat
  | .ring p => 2 ^ 63 + p % 1024
  | .mem a => a

/-- The next record of a context: one to be issued again, else in its buffer, or the head of its queue (R234). -/
def Ctx.next (x : Ctx) : Pc :=
  match x.reissue, x.pc with
  | r :: _, _ => r.at'
  | [], some a => .mem a
  | [], none => .ring x.qpos

/-- LOOP_DEPTH: the LOOPs active over all CALL levels (Table 8.12). -/
def Ctx.loopDepth (x : Ctx) : Nat := (x.frames.map (fun f => f.loops.length)).sum

/-- Encoding of the link states (Table 9.7). -/
def LinkState.code : LinkState → Nat
  | .down => 0 | .detect => 1 | .train => 2 | .align => 3 | .negotiate => 4 | .up => 5 | .degraded => 6 | .retrainX2 => 7
  | .failed => 8

/-- Encoding of the flow states (Table 10.14). -/
def FlowState.code : FlowState → Nat
  | .free => 0 | .opening => 1 | .opened => 2 | .failed => 3 | .closing => 4

/-- Encoding of the time states (Table 10.8). -/
def TimeState.code : TimeState → Nat
  | .unset => 0 | .acquire => 1 | .locked => 2 | .holdover => 3

/-- Flow `f`. -/
def flowOf (s : State) (f : Nat) : Flow := Tbl.get Flow.freed s.xp.flows f

/-- A two's complement value of 32 bits. -/
def int32 (x : Int) : Nat := (x % (2 ^ 32 : Int)).toNat

/-- The units, by ID, that have a health score (Table 13.7). -/
def scoredUnits : List Nat :=
  (List.range 320).map (0x1000 + ·) ++ (List.range 64).map (0x2000 + ·) ++ (List.range 8).map (0x3000 + ·)
    ++ (List.range 8).map (0x4000 + ·) ++ (List.range 16).map (0x5000 + ·) ++ [0x6000, 0x6001, 0x8000]

/-- The unit with the highest score; the lowest ID among equals. -/
def worstUnit (s : State) : Nat :=
  scoredUnits.foldl (fun w u => if Tbl.get 0 s.health.score w < Tbl.get 0 s.health.score u then u else w) 0x1000

/-- Units at or above a level (Table 13.17). -/
def unitsAt (s : State) (lv : Nat) : Nat := (s.health.level.filter (fun e => lv ≤ e.2)).length

/-- Local waiters of counter `k` (SYN_PEEK_STS.WAITERS). -/
def waitersOf (s : State) (k : Nat) : List Nat :=
  (List.range 64).filter (fun c =>
    match (ctxOf s c).wait with
    | some w => w.remote.isNone && w.phys == k
    | none => false)

/-- Counter `k`, if it is allocated (R215). -/
def counterOf (s : State) (k : Nat) : Option Counter := (s.syn.counters.find? (fun e => e.1 == k)).map (·.2)

/-- The flows of port die `d` that are held (R265). -/
def openFlows (s : State) (d : Nat) : Nat :=
  (s.xp.flows.filter (fun e => e.1 / 2048 == d && (e.2.state == .opened || e.2.state == .opening))).length

/-- VALID entries of a routing table version. -/
def validCount (v : RteVer) : Nat := (v.filter (fun e => e.2.2)).length

/-- Anvil `m` (0 to 39) of a die. -/
def anvilOf (s : State) (die m : Nat) : Anvil := Tbl.get Anvil.reset s.eng.anvils (40 * die + m)

/-- Anvil `m` of a die replaced. -/
def State.setAnvil (s : State) (die m : Nat) (a : Anvil) : State :=
  { s with eng := { s.eng with anvils := Tbl.set s.eng.anvils (40 * die + m) a } }

/-- Swage `m` (0 to 7) of a die. -/
def swageOf (s : State) (die m : Nat) : Swage := Tbl.get Swage.reset s.eng.swages (8 * die + m)

/-- Swage `m` of a die replaced. -/
def State.setSwage (s : State) (die m : Nat) (x : Swage) : State :=
  { s with eng := { s.eng with swages := Tbl.set s.eng.swages (8 * die + m) x } }

/-- The Anvils of a die in a state. -/
def anvilsIn (s : State) (die : Nat) (st : UnitState) : List Nat :=
  (List.range 40).filter (fun m => (anvilOf s die m).st == st)

/-- The Swages of a die in a state. -/
def swagesIn (s : State) (die : Nat) (st : UnitState) : List Nat :=
  (List.range 8).filter (fun m => (swageOf s die m).st == st)

/-- Whether an Anvil holds a tile or a chain accumulator (R98). -/
def anvilBusy (a : Anvil) : Bool := a.run.isSome || a.chain.isSome

/-- The Anvils of ANV page `i`, as (die, m). -/
def pageAnvils (i : Nat) : List (Nat × Nat) := (List.range 20).map (fun u => (i / 2, 20 * (i % 2) + u))

/-- Encoding of an Anvil's state (Table 3.12). -/
def UnitState.code : UnitState → Nat
  | .spare => 0 | .active => 1 | .test => 2 | .mapped => 3

/-- Encoding of a Swage's state (Table 5.9). -/
def UnitState.swgCode : UnitState → Nat
  | .test => 1 | .mapped => 2 | _ => 0

/-- Fields of unit `u` packed at `w` bits each. -/
def packUnits (w : Nat) (xs : List Nat) : Nat := xs.foldr (fun x acc => x + 2 ^ w * acc) 0

/-- The units due for test of a class by unit IDs `ids` (R350): those whose interval has passed, as (ID, due since). -/
def dueUnits (s : State) (die : Nat) (ids : List (Nat × Bool × Bool)) : List (Nat × Nat) :=
  let int := max 60 (s.rd R.BSR_CFG_INTERVAL_S die) * 1000000000
  ids.filterMap (fun u =>
    -- u = (unit ID, SUSPECT, MAPPED_OUT)
    let normal := Tbl.get 0 s.bist.lastEnd u.1 + (if u.2.1 then int / 8 else int)
    let since := match s.bist.dueNow.find? (fun e => e.1 == u.1) with | some e => min e.2 normal | none => normal
    if !u.2.2 && since ≤ s.clock then some (u.1, since) else none)

/-- The Anvils of a die as (unit ID, SUSPECT, MAPPED_OUT). -/
def anvilIds (s : State) (die : Nat) : List (Nat × Bool × Bool) :=
  (List.range 40).map (fun m =>
    (anvilId die m, bitOf (s.rd R.ANV_SUSPECT_SUSPECT (2 * die + m / 20)) (m % 20), (anvilOf s die m).st == .mapped))

/-- The Swages of a die as (unit ID, SUSPECT, MAPPED_OUT). -/
def swageIds (s : State) (die : Nat) : List (Nat × Bool × Bool) :=
  (List.range 8).map (fun m =>
    (swageId die m, bitOf (s.rd R.SWG_UNIT_STS_SUSPECT die) m, (swageOf s die m).st == .mapped || (swageOf s die m).leaving))

/-- The claim of a die's class, if one is under way. -/
def claimOf (t : Tbl (Nat × Nat × Bool)) (die : Nat) : Option (Nat × Nat × Bool) := (t.find? (fun e => e.1 == die)).map (·.2)

/-- The Loupe capture of a die. -/
def captureOf (s : State) (die : Nat) : Option Capture := (s.eng.captures.find? (fun e => e.1 == die)).map (·.2)

/-- Whether a Loupe checks or settles a tile: CHECKING (R339). -/
def loupeBusy (s : State) (die : Nat) : Bool := match captureOf s die with | some c => c.ended | none => false

/-- The records of the open slots. -/
def openRecs (s : State) : List LayerRec := s.slots.flatMap (fun e => e.2.recs.map (·.2))

/-- Whether a record's data lies at its destination: OUT, AWAY or IN (R333). -/
def LayerRec.atDest (r : LayerRec) : Bool := r.st == .out || r.st == .away || r.st == .in'

/-- Whether a record's bytes count as resident: RESIDENT, OUT or BACK (Table 12.7). -/
def LayerRec.inHbm (r : LayerRec) : Bool := r.st == .resident || r.st == .out || r.st == .back

/-- Bytes in RESIDENT, OUT and BACK records (ALG_RESIDENT). -/
def residentBytes (s : State) : Nat := (((openRecs s).filter LayerRec.inHbm).map (·.len)).sum

/-- The granules of 2 MiB of the master share (WLD_MIRROR.NEED). -/
def mirrorNeed (s : State) : Nat := s.map.msSize / 2 ^ 21

/-- The granules every byte of which has been acknowledged in the current attempt (R310). -/
def mirrorMarked (s : State) : Nat :=
  ((List.range (mirrorNeed s)).filter (fun g =>
    s.attempt.mirrorAcked.any (fun r => r.1 ≤ g * 2 ^ 21 && (g + 1) * 2 ^ 21 ≤ r.2))).length

/-- Whether every granule is marked (WLD_STS.MIRROR_DONE). -/
def mirrorDone (s : State) : Bool := 0 < mirrorNeed s && mirrorMarked s == mirrorNeed s

/-- Whether the vote is sent and has no result yet (WLD_STS.VOTE_SENT). -/
def voteSent (s : State) : Bool := s.attempt.vote.isSome && s.attempt.result.isNone

/-- Whether a Touchmark is due at the temper of the step that runs (R346). -/
def touchDue (s : State) : Bool :=
  s.rd R.TCH_CFG_EVERY 0 != 0 && s.tmp.step % s.rd R.TCH_CFG_EVERY 0 == 0

/-- The value a read of field `f` of instance `i` finds in effect. -/
def viewField (s : State) (f : Field) (i : Nat) : Nat :=
  let t := s.tmp
  let slc := s.xp.slc
  let fl := flowOf s (2048 * i + s.rd R.FLW_SEL_INDEX i)
  let peek := s.rd R.SYN_PEEK_PHYS_PEEK_PHYS 0
  match f.page with
  | .TMP =>
    if f = R.TMP_STS_PHASE then t.phase.code
    else if f = R.TMP_STS_ACTIVE_BANK then b2n t.activeBank
    else if f = R.TMP_STS_IN_DOUBT then b2n (t.phase == .inDoubt)
    else if f = R.TMP_STS_HOLD_VALID then b2n t.holdValid
    else if f = R.TMP_STS_WARD_HOLD_VALID then b2n t.wardHoldValid
    else if f = R.TMP_STS_REPLAY_COUNT then t.replayCount
    else if f = R.TMP_STS_LAST_REASON then t.lastReason.code
    else if f = R.TMP_STS_LATE_FLIPS then t.lateFlips
    else if f = R.TMP_STEP_STEP then t.step
    else if f = R.TMP_TEMPERED_TEMPERED then t.tempered
    else if f = R.TMP_FLIP_TIME_FLIP_TIME then t.flipTime
    else s.rd f i
  | .CTX =>
    let x := ctxOf s i
    if f = R.CTX_STS_STATE then x.state.code
    else if f = R.CTX_STS_RESIDENT then b2n x.resident
    else if f = R.CTX_STS_CALL_DEPTH then x.frames.length
    else if f = R.CTX_STS_LOOP_DEPTH then x.loopDepth
    else if f = R.CTX_STS_QFREE then 1024 - x.queue.length
    else if f = R.CTX_PC_PC then x.next.code
    else if f = R.CTX_RESTART_RESTART then (match x.restart with | some r => r.pc.code | none => 0)
    else s.rd f i
  | .SYN =>
    if f = R.SYN_ATT_ATT then t.att
    else if f = R.SYN_USED_USED then s.syn.counters.length
    else if f = R.SYN_BINDINGS_BINDINGS then s.syn.bindings.length
    else if f = R.SYN_SUBS_SUBS then s.syn.subs.length
    else if f = R.SYN_PEEK_VALUE then (match counterOf s peek with | some k => k.value | none => 0)
    else if f = R.SYN_PEEK_STS_STATE then
      (match counterOf s peek with
       | some k => 1 + 2 * b2n k.broken + 4 * b2n k.stepFlag + 8 * b2n k.remoteOk
       | none => 0)
    else if f = R.SYN_PEEK_STS_OWNER then (match counterOf s peek with | some k => k.owner | none => 0)
    else if f = R.SYN_PEEK_STS_WAITERS then (waitersOf s peek).length
    else s.rd f i
  | .DSP =>
    if f = R.DSP_STS_RESIDENT then ((List.range 64).filter (fun c => (ctxOf s c).resident && homeDie s c == i)).length
    else if f = R.DSP_STS_HOMED then ((liveCtxs s).filter (fun c => homeDie s c == i)).length
    else s.rd f i
  | .LNK =>
    let l := linkOf s i
    if f = R.LNK_STS_STATE then l.state.code
    else if f = R.LNK_STS_WIDTH then (match l.state with | .up => 2 | .degraded => 1 | _ => 0)
    else s.rd f i
  | .XPT =>
    if f = R.XPT_PLANE_STS_READY then
      ((List.range 16).map (fun k => b2n (linkReady s (16 * i + k)) * 2 ^ k)).sum
    else if f = R.XPT_PLANE_STS_SUSPECT then bits s.xp.suspect (16 * i) 16
    else s.rd f i
  | .FLW =>
    if f = R.FLW_OPEN_OPEN then openFlows s i
    else if f = R.FLW_VIEW0_STATE then fl.state.code
    else if f = R.FLW_VIEW0_FAIL_CAUSE then fl.cause
    else if f = R.FLW_VIEW0_PEER_FLOW then fl.peerFlow
    else if f = R.FLW_VIEW0_PEER_NODE then fl.peer
    else if f = R.FLW_VIEW0_OUTSTANDING then fl.unacked.length
    else if f = R.FLW_VIEW1_TX_NEXT then fl.txNext % 2 ^ 32
    else if f = R.FLW_VIEW1_RX_CUM then fl.rxCum % 2 ^ 32
    else s.rd f i
  | .RTE =>
    let ver := if s.on R.RTE_IDX_VIEW i then Tbl.get [] s.xp.rteCur i else Tbl.get [] s.xp.rteNext i
    let e := Tbl.get (0, false) ver (s.rd R.RTE_IDX_NODE i)
    if f = R.RTE_DATA_PLANES then e.1
    else if f = R.RTE_DATA_VALID then b2n e.2
    else if f = R.RTE_CNT_VALID_CUR then validCount (Tbl.get [] s.xp.rteCur i)
    else if f = R.RTE_CNT_VALID_NEXT then validCount (Tbl.get [] s.xp.rteNext i)
    else s.rd f i
  | .SLC =>
    if f = R.SLC_CUR_SLICE_ID then slc.cur.slice
    else if f = R.SLC_CUR_OWN_NODE then slc.cur.own
    else if f = R.SLC_CUR_MC_MCAST_NODE then slc.cur.mcast
    else if f = R.SLC_PREV_SLICE_ID then (match slc.prev with | some v => v.slice | none => 0)
    else if f = R.SLC_PREV_OWN_NODE then (match slc.prev with | some v => v.own | none => 0xFFFF)
    else if f = R.SLC_STS_EPOCH then b2n slc.epoch
    else if f = R.SLC_STS_STAGED then b2n slc.next.isSome
    else if f = R.SLC_STS_RETIRING then b2n slc.prev.isSome
    else if f = R.SLC_STS_DRAINING then b2n slc.draining
    else if f = R.SLC_STS_DRAINED then b2n slc.drained
    else if f = R.SLC_STS_CUT_PENDING then b2n slc.cutPending.isSome
    else if f = R.SLC_CUT_STEP_CUT_STEP then slc.cutPending.getD 0
    else if f = R.SLC_CTL_DRAIN then b2n slc.draining
    else s.rd f i
  | .TIME =>
    let tm := s.xp.time
    if f = R.TIME_NOW_NOW then s.now
    else if f = R.TIME_STS_STATE then tm.state.code
    else if f = R.TIME_STS_SRC_PLANE then tm.srcPlane
    else if f = R.TIME_STS_MASTER_NODE then (if s.on R.TIME_CTL_MASTER 0 then slc.cur.own else tm.master)
    else if f = R.TIME_OFFSET_OFFSET then int32 tm.offset
    else if f = R.TIME_RATE_RATE then int32 tm.rate
    else s.rd f i
  | .HLT =>
    let sel := s.rd R.HLT_SEL_UNIT 0
    if f = R.HLT_SCORE_SCORE then Tbl.get 0 s.health.score sel
    else if f = R.HLT_LEVEL_LEVEL then Tbl.get 0 s.health.level sel
    else if f = R.HLT_SUM_WATCH_N then unitsAt s 1
    else if f = R.HLT_SUM_WARN_N then unitsAt s 2
    else if f = R.HLT_SUM_RETIRE_N then unitsAt s 3
    else if f = R.HLT_WORST_UNIT then worstUnit s
    else if f = R.HLT_WORST_SCORE then Tbl.get 0 s.health.score (worstUnit s)
    else s.rd f i
  | .LDG =>
    let sel := s.rd R.LDG_PERM_SEL_UNIT 0
    if f = R.LDG_POH_POH then pohNow s
    else if f = R.LDG_SEQ_NEWEST then s.ledger.seq
    else if f = R.LDG_SEQ_OLDEST then (match s.ledger.log.getLast? with | some e => e.seq | none => 0)
    else if f = R.LDG_PERM_IN_WINDOW then min 3 (inWindow s sel)
    else if f = R.LDG_PERM_PERMANENT then b2n (s.ledger.permanent.contains sel)
    else s.rd f i
  | .ANV =>
    let us := (pageAnvils i).map (fun u => anvilOf s u.1 u.2)
    if f = R.ANV_SUM_ACTIVE then (us.filter (·.st == .active)).length
    else if f = R.ANV_SUM_SPARE then (us.filter (·.st == .spare)).length
    else if f = R.ANV_SUM_MAPPED then (us.filter (·.st == .mapped)).length
    else if f = R.ANV_SUM_DIE_ACTIVE then (anvilsIn s (i / 2) .active).length
    else if f = R.ANV_UNIT_STS_STATE then packUnits 3 (us.map (·.st.code))
    else if f = R.ANV_BUSY_UNITS_BUSY then packUnits 1 (us.map (fun a => b2n (anvilBusy a)))
    else s.rd f i
  | .SWG =>
    if f = R.SWG_UNIT_STS_STATE then packUnits 2 ((List.range 8).map (fun m => (swageOf s i m).st.swgCode))
    else if f = R.SWG_UNIT_STS_ACTIVE then (swagesIn s i .active).length
    else s.rd f i
  | .LPE =>
    if f = R.LPE_STS_CHECKING then b2n (loupeBusy s i)
    else s.rd f i
  | .BSR =>
    if f = R.BSR_STS_ANV_UNIT then (match claimOf s.bist.anvClaim i with | some c => c.1 | none => 0x3F)
    else if f = R.BSR_STS_SWG_UNIT then (match claimOf s.bist.swgClaim i with | some c => c.1 | none => 0xF)
    else if f = R.BSR_STS_ANV_DUE then (dueUnits s i (anvilIds s i)).length
    else if f = R.BSR_STS_SWG_DUE then (dueUnits s i (swageIds s i)).length
    else s.rd f i
  | .HBM =>
    let st := Tbl.get Stack.init s.hbmStacks i
    let shown := st.trained && !st.selfRefresh
    if f = R.HBM_STS_TRAINED then b2n shown
    else if f = R.HBM_STS_SELF_REFRESH then b2n st.selfRefresh
    else if f = R.HBM_STS_STACK_FAILED then b2n (st.failed && !st.selfRefresh)
    else if f = R.HBM_STS_HOT then b2n st.hot
    else if f = R.HBM_STS_ANCHOR_SPARES then (if shown then st.spares else 0)
    else if f = R.HBM_MAPOUT_CHANNELS then (if st.selfRefresh then 0 else st.mapped)
    else if f = R.HBM_MAPOUT_PENDING then (if st.selfRefresh then 0 else st.pending)
    else s.rd f i
  | .SPK =>
    if f = R.SPK_HOLD_G_HOLD_SEED_G ∨ f = R.SPK_HOLD_U_HOLD_SEED_U then (if t.holdValid then s.rd f i else 0)
    else s.rd f i
  | .WLD =>
    if f = R.WLD_STS_COLLS then s.weld.colls.length
    else if f = R.WLD_STS_READY_HELD then (s.weld.held.filter (fun r => r.die == i)).length
    else if i ≠ 0 ∧ (f = R.WLD_STS_VOTE_SENT ∨ f = R.WLD_STS_MIRROR_DONE ∨ f = R.WLD_MIRROR_DONE ∨ f = R.WLD_MIRROR_NEED)
      then 0
    else if f = R.WLD_STS_VOTE_SENT then b2n (voteSent s)
    else if f = R.WLD_STS_MIRROR_DONE then b2n (mirrorDone s)
    else if f = R.WLD_MIRROR_DONE then mirrorMarked s
    else if f = R.WLD_MIRROR_NEED then mirrorNeed s
    else s.rd f i
  | .ALG =>
    let sl := s.slots.find? (fun e => e.1 == s.rd R.ALG_SEL_SLOT 0)
    let count := fun (p : LayerRec → Bool) =>
      match sl with | some e => (e.2.recs.filter (fun r => p r.2)).length | none => 0
    if f = R.ALG_SLOTS_OPEN then (s.slots.map (fun e => 2 ^ e.1)).sum
    else if f = R.ALG_VIEW_RECORDS then count (fun r => r.st != .empty)
    else if f = R.ALG_VIEW_AWAY then count LayerRec.atDest
    else if f = R.ALG_VIEW_LOST then count (fun r => r.st == .lost)
    else if f = R.ALG_VIEW_OWNER then (match sl with | some e => e.2.owner | none => 0)
    else if f = R.ALG_RESIDENT_RESIDENT then residentBytes s
    else s.rd f i
  | .TNG =>
    if f = R.TNG_DEST_STS_HOLDING then
      ((List.range 8).map (fun n => b2n ((openRecs s).any (fun r => r.atDest && r.dest == n)) * 2 ^ n)).sum
    else s.rd f i
  | .TCH =>
    if f = R.TCH_STS_DUE then b2n (touchDue s && t.phase != .idle) else s.rd f i
  | .SEC =>
    if f = R.SEC_SERIAL_SERIAL then Config.packageSerial % 2 ^ 64
    else if f = R.SEC_SVN_FUSE_SVN then s.smc.fuseSvn
    else if f = R.SEC_SVN_REVOKED then s.smc.revoked
    else s.rd f i
  | .D2D =>
    if f = R.D2D_ID_SLOT then (Config.identityFuse i 0).toNat % 16
    else if f = R.D2D_ID_BIN then (Config.identityFuse i 0).toNat / 16
    else if f = R.D2D_ID_FUSE_FORMAT then (Config.identityFuse i 1).toNat
    else if f = R.D2D_SERIAL_SERIAL then leNat ((List.range 8).map (fun k => Config.identityFuse i (8 + k)))
    else s.rd f i
  | .DIE | .PDC | .FLT | .HRT | .WLC | .BLW | .BST
  | .PSC | .CKP | .PWR | .THM | .CLK | .HIF | .SMC | .GST | .DIR | .MSX | .PBA => s.rd f i

/-- Whether some context homed on die `n` is READY, RUNNING or WAITING (R237). -/
def dspBusy (s : State) (n : Nat) : Bool :=
  (List.range 64).any (fun c => homeDie s c == n &&
    ((ctxOf s c).state == .ready || (ctxOf s c).state == .running || (ctxOf s c).state == .waiting))

/-- PAGE_STS.BUSY of instance `i` of a page: accepted work that is not complete (Table 2.2). -/
def busyOf (s : State) (p : Page) (i : Nat) : Bool :=
  match p with
  | .TMP => s.tmp.phase != .idle
  | .DSP => dspBusy s i
  | .LNK => (linkOf s i).state != .down && (linkOf s i).state != .failed
  | .FLT => s.on R.FLT_STS_RESETTING 0 || s.rd R.FLT_TKO_STS_STATE 0 == 1
  | .ANV => (pageAnvils i).any (fun u => anvilBusy (anvilOf s u.1 u.2))
  | .SWG => (List.range 8).any (fun m => !(swageOf s i m).slots.isEmpty)
  | .LPE => loupeBusy s i
  | .BSR => (claimOf s.bist.anvClaim i).isSome || (claimOf s.bist.swgClaim i).isSome
  | .SPK => s.eng.vecs.any (fun e => e.2.sr)
  | .WLD => !s.weld.colls.isEmpty || (i == 0 && voteSent s)
  | .WLC => s.weld.colls.any (fun e => e.2.chunks.any (fun c => c.reduce && !c.got.isEmpty && e.2.die == i))
  | .ALG => !s.slots.isEmpty
  | .TCH => s.tchZeroing
  | .TNG => s.slots.any (fun e => e.2.out'.isSome || e.2.in'.isSome)
  | .SMC => s.rd R.SMC_MB_STS_STATE 0 == 1
  | .CKP => s.rd R.CKP_STS_STATE 0 != 0
  | .BST => s.rd R.BST_STS_CURRENT 0 != 0x1F
  | .DIR | .HIF | .SEC | .GST | .PWR | .THM | .CLK | .TIME | .LDG | .HLT | .SYN | .PSC
  | .MSX | .PBA | .DIE | .HRT | .BLW | .D2D | .HBM | .PDC | .XPT | .FLW
  | .RTE | .SLC | .CTX => false

/-- The shadow value of an ARMED field (R51). -/
def State.shadowOf (s : State) (f : Field) (i : Nat) : Nat := Store.get f.reset s.shadow (f.key i)

/-- What a register read returns for a block field: nothing for a WO field, the shadow of an ARMED field under VIEW_SHADOW
(R51), 0 for the ARMED fields of WLD on PD1 (R318), else the value in effect. -/
def readField (s : State) (f : Field) (i : Nat) : Nat :=
  if f.acc = .WO then 0
  else if f.page = .WLD ∧ i ≠ 0 ∧ f.cls = .ARMED then 0
  else if f.cls = .ARMED ∧ s.hrd R.PAGE_CTL_VIEW_SHADOW (slotOf f.page i) = 1 then s.shadowOf f i
  else viewField s f i

/-- The part of a field that a 32-bit word at `off` shows. -/
def fieldInWord (f : Field) (v off : Nat) : Nat :=
  if f.off = off then v * 2 ^ f.lo % 2 ^ 32
  else if f.off + 4 = off then v * 2 ^ f.lo / 2 ^ 32
  else 0

/-- PAGE_ID of a page: its type, instance and version 1.0 (R61). -/
def pageId (p : Page) (i : Nat) : Nat := typeCode p + i * 2 ^ 8 + 2 ^ 24

/-- The number of a reset domain in PAGE_CAPS (Table 2.2). -/
def Domain.code : Domain → Nat
  | .cold => 0 | .chip => 1 | .die => 2 | .port => 3 | .ctx => 4

/-- PAGE_CAPS of a page (Table 2.2). -/
def pageCaps (p : Page) : Nat :=
  let c := capsOf p
  b2n c.hasBusy + 2 * b2n c.hasArmed + 4 * b2n c.hostWritable + 8 * b2n c.shadowed + 16 * c.domain.code + 256 * c.depth

/-- Whether a page's domain is held in reset, so that reads find reset values and writes are dropped (R375). -/
def pageInReset (s : State) (p : Page) (i : Nat) : Bool :=
  (match (capsOf p).domain with
   | .die => (match dieOfPage p i with | some n => s.on R.DIE_STS_IN_RESET n | none => false)
   | .port => (match portOfPage p i with | some d => s.on R.PDC_STS_IN_RESET d | none => false)
   | _ => false)

/-- PAGE_STS of a page (Table 2.2); ENABLED is 1 while ENABLE is 1 and the page is out of reset. -/
def pageSts (s : State) (p : Page) (i : Nat) : Nat :=
  b2n (busyOf s p i) + 2 * b2n (s.hrd R.PAGE_CTL_ENABLE (slotOf p i) == 1 && !pageInReset s p i)
    + 4 * s.hrd R.PAGE_STS_ARM_PENDING (slotOf p i) + 256 * (logOf s p i).length

/-- The bytes of an error log entry (Table 2.3). -/
def ErrEntry.bytes (e : ErrEntry) : List Byte :=
  leBytes 8 e.time ++ leBytes 4 (e.code % 2 ^ 16 + e.cls * 2 ^ 16 + 2 ^ 31) ++ leBytes 4 e.unit ++ leBytes 8 e.addr
    ++ ((e.detail ++ [0, 0, 0]).take 3).flatMap (leBytes 8)

/-- The bytes of a ledger entry (Table 13.9). -/
def LedgerEntry.bytes (e : LedgerEntry) : List Byte :=
  let b := leBytes 4 e.seq ++ leBytes 4 (e.unit + e.kind * 2 ^ 16 + e.cls * 2 ^ 24) ++ leBytes 8 e.time ++ leBytes 8 e.step
    ++ leBytes 4 e.poh ++ leBytes 2 e.count ++ leBytes 2 e.weight ++ ((e.detail ++ [0, 0, 0, 0]).flatMap (leBytes 8)).take 28
  b ++ leBytes 4 (crc32c b)

/-- The 32-bit word at offset `o` of a byte list. -/
def wordAt (bs : List Byte) (o : Nat) : Nat := leNat ((bs.drop o).take 4)

/-- A word of the common page header (Table 2.2). -/
def headerWord (s : State) (p : Page) (i off : Nat) : Nat :=
  if off = 0 then pageId p i
  else if off = 4 then pageCaps p
  else if off = 0xC then pageSts s p i
  else if 0x40 ≤ off then
    match (logOf s p i)[(off - 0x40) / 0x30]? with
    | some e => wordAt e.bytes ((off - 0x40) % 0x30)
    | none => 0
  else
    (headerFields.map (fun f =>
      if f.acc = .WO then 0 else fieldInWord f (s.hrd f (slotOf p i)) off)).sum

/-- The composed entry of a slot in DIR (R60). -/
def dirEntry (slot : Nat) : Nat :=
  match pageAt slot with
  | some (p, i) => pageId p i
  | none => 0

/-- The number of populated slots (R59, R60). -/
def dirCount : Nat := ((List.range 512).filter (fun p => (pageAt p).isSome)).length

/-- The address map words at HRT_AMAP (Table 6.2) are those of the descriptor with the derived fields `pkg`, `dl` and
`pcs`. -/
def amapWords (m : AddrMap) (pkg dl pcs : Nat) : List Byte :=
  leBytes 8 m.split ++ leBytes 8 m.wcA ++ leBytes 8 m.wcB ++ leBytes 8 m.wcSize ++ leBytes 8 m.msA ++ leBytes 8 m.msB
    ++ leBytes 8 m.msSize ++ leBytes 8 m.mrA ++ leBytes 8 m.mrB ++ leBytes 8 m.mrSize ++ leBytes 8 m.hold
    ++ leBytes 8 m.wardHold ++ leBytes 8 m.holdSize ++ leBytes 8 m.guest ++ leBytes 8 m.guestSize ++ leBytes 8 0
    ++ leBytes 8 pkg ++ leBytes 8 dl ++ leBytes 8 pcs ++ leBytes 4 m.seq ++ leBytes 4 (b2n m.valid)

end Sys2Proof.Machine
end

