-- ==== Sys2Proof/Machine/Operands.lean ====
section
/-! DEFINITION. Operand forms: memory bytes, the device address map and placement (R156 to R160), bank aliases (R164),
access rights (R167, R168, R174, R315, R386) and the outcome of an access to memory that cannot serve (R198, R375). -/

namespace Sys2Proof.Machine

open Sys2Proof

/-! Memory -/

/-- What an address that lists no byte reads as: zero, or an undefined byte under the tag of the newest range that holds it
(log entry 3). -/
def Memory.blank (m : Memory) (a : Nat) : Option Nat :=
  match m.marks.find? (fun r => r.1 ≤ a && a < r.1 + r.2.1) with
  | some r => r.2.2
  | none => none

/-- The byte listed at an address. -/
def lookupCell : List Host.Cell → Nat → Option Byte
  | [], _ => none
  | (b, v) :: t, a => if b = a then some v else lookupCell t a

/-- The byte at a device address. -/
def Memory.byte (m : Memory) (a : Nat) : Byte :=
  match lookupCell m.cells a with
  | some v => v
  | none => match m.blank a with
    | some tag => Config.freeByte tag a
    | none => 0

/-- `n` bytes from a device address. -/
def Memory.read (m : Memory) (a n : Nat) : List Byte := (List.range n).map (fun k => m.byte (a + k))

/-- The cells with address `a` listed as `v`. -/
def insertCell : List Host.Cell → Nat → Byte → List Host.Cell
  | [], a, v => [(a, v)]
  | (b, w) :: t, a, v => if a < b then (a, v) :: (b, w) :: t else if a = b then (a, v) :: t else (b, w) :: insertCell t a v

/-- The cells without address `a`. -/
def eraseCell (l : List Host.Cell) (a : Nat) : List Host.Cell := l.filter (fun c => c.1 != a)

/-- One byte written: a zero over zeroed memory is not listed. -/
def Memory.writeByte (m : Memory) (a : Nat) (v : Byte) : Memory :=
  if m.blank a = none ∧ v = 0 then { m with cells := eraseCell m.cells a }
  else { m with cells := insertCell m.cells a v }

/-- Bytes written from a device address up. -/
def Memory.write (m : Memory) (a : Nat) : List Byte → Memory
  | [] => m
  | v :: vs => Memory.write (m.writeByte a v) (a + 1) vs

/-- A range becomes zero (`none`) or undefined (`some tag`). -/
def Memory.blankRange (m : Memory) (lo len : Nat) (tag : Option Nat) : Memory :=
  { cells := m.cells.filter (fun c => !(lo ≤ c.1 && c.1 < lo + len)), marks := (lo, len, tag) :: m.marks }

/-- The canonical form: addresses strictly rising, and no listed byte that its address reads as unlisted. -/
def Memory.wf (m : Memory) : Bool :=
  decide (m.cells.Pairwise (fun a b => a.1 < b.1)) && m.cells.all (fun c => !(m.blank c.1 == none && c.2 == 0))

/-- Bytes of the module's memory read. -/
def State.load (s : State) (a n : Nat) : List Byte := s.mem.read a n

/-- A little-endian value of the module's memory. -/
def State.loadNat (s : State) (a n : Nat) : Nat := leNat (s.load a n)

/-! Touchmark taps (R347) -/

/-- The direct base of the INACTIVE working-copy bank, the range that Touchmark covers. -/
def touchBase (s : State) : Nat := if s.tmp.activeBank then s.map.wcA else s.map.wcB

/-- The polynomials of c1 and c2 (R347). -/
def touchPoly1 : Nat := 0x42F0E1EBA9EA3693
/-- The polynomial of c2. -/
def touchPoly2 : Nat := 0xAD93D23594C935A9

/-- A CRC of R347 continued over bytes. -/
def crcRun (poly c : Nat) (bs : List Byte) : Nat := bs.foldl (crcMsbByte poly) c

/-- The length of block `b` of a covered range of `len` bytes. -/
def touchBlockLen (len b : Nat) : Nat := min 65536 (len - 65536 * b)

/-- Bytes written at offset `o` of block `b` are folded into the block's entry at `t`: each CRC is linear, so their
contribution is that of the bytes followed by zeros to the block's end (R347). -/
def touchFold (m : Memory) (t len b o : Nat) (bs : List Byte) : Memory :=
  let e := t + 32 * b
  let old := m.read e 20
  let tail := bs ++ List.replicate (touchBlockLen len b - o - bs.length) 0
  m.write e (leBytes 8 (leNat (old.take 8) ^^^ crcRun touchPoly1 0 tail)
    ++ leBytes 8 (leNat ((old.drop 8).take 8) ^^^ crcRun touchPoly2 0 tail)
    ++ leBytes 4 (leNat (old.drop 16) + bs.length))

/-- What the taps of R347 do for bytes written at a direct address. -/
def touchTap (s : State) (m : Memory) (a : Nat) (bs : List Byte) : Memory :=
  let base := touchBase s
  let len := s.rd R.TCH_LEN_LEN 0
  let lo := max a base
  let hi := min (a + bs.length) (base + len)
  if hi ≤ lo then m
  else
    ((List.range ((hi - 1 - base) / 65536 + 1 - (lo - base) / 65536)).map ((lo - base) / 65536 + ·)).foldl (fun m b =>
      let l := max lo (base + 65536 * b)
      let h := min hi (base + 65536 * (b + 1))
      touchFold m (s.rd R.TCH_TABLE_BASE 0) len b (l - (base + 65536 * b)) ((bs.drop (l - a)).take (h - l))) m

/-- Bytes of the module's memory written at a direct address, with the Touchmark taps on their way (R347). -/
def State.store (s : State) (a : Nat) (bs : List Byte) : State := { s with mem := touchTap s (s.mem.write a bs) a bs }

/-- A range of memory becomes undefined; the tag is fresh. -/
def State.undefine (s : State) (lo len : Nat) : State :=
  { s with mem := s.mem.blankRange lo len (some (s.free + 1)), free := s.free + 1 }

/-- A range of memory becomes zero. -/
def State.zero (s : State) (lo len : Nat) : State := { s with mem := s.mem.blankRange lo len none }

/-! The device address map (Table 6.1) -/

/-- First address of DLn. -/
def dlBase (n : Nat) : Nat := 0x010000000000 + n * 0x001000000000
/-- First address of FREC. -/
def frecBase : Nat := 0x018000000000
/-- First address of HEARTHn. -/
def hearthBase (n : Nat) : Nat := 0x020000000000 + n * 0x80000000
/-- First address of HEARTH_LOCAL. -/
def hearthLocal : Nat := 0x020400000000
/-- Size of a Hearth. -/
def hearthSize : Nat := 0x80000000
/-- First address of bank alias `a` (0 WC_ACT, 1 WC_INACT, 2 MS_ACT, 3 MS_INACT, 4 MR_ACT, 5 MR_INACT). -/
def aliasBase (a : Nat) : Nat := 0x030000000000 + a * 0x004000000000
/-- First address of HOLD. -/
def holdBase : Nat := 0x048000000000
/-- First address of WARD_HOLD. -/
def wardHoldBase : Nat := 0x048100000000
/-- First address of REG. -/
def regBase : Nat := 0x07FFFC000000
/-- First address of GX. -/
def gxBase : Nat := 0x080000000000
/-- First address of HOSTW. -/
def hostwBase : Nat := 0x800000000000

/-- Stack `n`. -/
def stackOf (s : State) (n : Nat) : Stack := Tbl.get Stack.init s.hbmStacks n

/-- Stack `n` replaced. -/
def State.setStack (s : State) (n : Nat) (x : Stack) : State := { s with hbmStacks := Tbl.set s.hbmStacks n x }

/-- Whether pseudo-channel `pc` (0 to 31) of a stack is usable: its channel is not mapped out (R159, R184). -/
def pcUsable (s : State) (stack pc : Nat) : Bool := !(stackOf s stack).failed && !bitOf (stackOf s stack).mapped (pc / 2)

/-- The usable pseudo-channels of PKG in the order of R159, as (stack, pseudo-channel). -/
def pkgList (s : State) : List (Nat × Nat) :=
  (List.range 32).flatMap (fun pc => ((List.range 16).filter (fun st => pcUsable s st pc)).map (fun st => (st, pc)))

/-- The usable pseudo-channels of DLn in the order of R159. -/
def dlList (s : State) (n : Nat) : List (Nat × Nat) :=
  (List.range 32).flatMap (fun pc => ([2 * n, 2 * n + 1].filter (fun st => pcUsable s st pc)).map (fun st => (st, pc)))

/-- The rows of each pseudo-channel in PKG under LOCAL_SPLIT `k` (R158). -/
def pkgRows (k : Nat) : Nat := 12288 * (16 - k)

/-- PKG_SIZE under LOCAL_SPLIT `k` (R159). -/
def pkgSizeK (s : State) (k : Nat) : Nat :=
  (pkgRows k * (pkgList s).length - (if k = 0 then 4096 else 0)) * 4096

/-- DL_SIZE of die `n` under LOCAL_SPLIT `k` (R159). -/
def dlSizeK (s : State) (k n : Nat) : Nat :=
  (12288 * k * (dlList s n).length - (if n = 0 ∧ 0 < k then 4096 else 0)) * 4096

/-- PKG_SIZE in effect. -/
def pkgSize (s : State) : Nat := pkgSizeK s s.map.split
/-- DL_SIZE of die `n` in effect. -/
def dlSize (s : State) (n : Nat) : Nat := dlSizeK s s.map.split n

/-- R159: the pseudo-channel, row and byte of an offset in a window with list `l`, `r` rows and first row `first`; `tail` is
true for the tail window. -/
def locate (l : List (Nat × Nat)) (r first : Nat) (tail : Bool) (off : Nat) : (Nat × Nat) × Nat × Nat :=
  let g := off / 4096
  let byte := off % 4096
  let p := l.length
  let r0 := r - (if tail then 4096 else 0)
  if g < r0 * p then (l.getD (g % p) (0, 0), first + g / p, byte)
  else
    let g2 := g - r0 * p
    let l2 := l.filter (· != (0, 0))
    (l2.getD (g2 % (p - 1)) (0, 0), first + r0 + g2 / (p - 1), byte)

/-- Where an HBM device address lies: stack, pseudo-channel and row; FREC is the top of HS0.PC0 (R158, R159). -/
def hbmPlace (s : State) (a : Nat) : (Nat × Nat) × Nat × Nat :=
  let k := s.map.split
  if a < dlBase 0 then locate (pkgList s) (pkgRows k) 0 (k == 0) a
  else if a < frecBase then
    let n := (a - dlBase 0) / 0x001000000000
    locate (dlList s n) (12288 * k) (pkgRows k) (n == 0 && 0 < k) ((a - dlBase 0) % 0x001000000000)
  else ((0, 0), 196608 - 4096 + (a - frecBase) / 4096, (a - frecBase) % 4096)

/-- The windows of Table 6.1. -/
inductive Window where
  | hbm | frec | hearth (n : Nat) | act | inact | hold | wardHold | reg | gx | hostw | empty
  deriving DecidableEq, Repr

/-- Size of the bank pair of alias pair `p` (0 WC, 1 MS, 2 MR). -/
def pairSize (m : AddrMap) (p : Nat) : Nat := if p = 0 then m.wcSize else if p = 1 then m.msSize else m.mrSize

/-- Base of bank A or B of a pair. -/
def pairBase (m : AddrMap) (p : Nat) (bankB : Bool) : Nat :=
  if p = 0 then (if bankB then m.wcB else m.wcA)
  else if p = 1 then (if bankB then m.msB else m.msA)
  else (if bankB then m.mrB else m.mrA)

/-- The window that holds a device address, if it is populated (Table 6.1, R157). -/
def windowOf (s : State) (a : Nat) : Window :=
  if a < dlBase 0 then (if a < pkgSize s then .hbm else .empty)
  else if a < frecBase then
    (if (a - dlBase 0) % 0x001000000000 < dlSize s ((a - dlBase 0) / 0x001000000000) then .hbm else .empty)
  else if a < frecBase + 0x1000000 then .frec
  else if a < hearthBase 0 then .empty
  else if a < hearthLocal then .hearth ((a - hearthBase 0) / hearthSize)
  else if a < aliasBase 0 then .empty
  else if a < holdBase then
    let x := (a - aliasBase 0) / 0x004000000000
    if (a - aliasBase 0) % 0x004000000000 < pairSize s.map (x / 2) ∧ x < 6 then (if x % 2 = 0 then .act else .inact)
    else .empty
  else if a < wardHoldBase then (if a - holdBase < s.map.holdSize then .hold else .empty)
  else if a < wardHoldBase + 0x100000000 then (if a - wardHoldBase < s.map.holdSize then .wardHold else .empty)
  else if regBase ≤ a ∧ a < gxBase then .reg
  else if gxBase ≤ a ∧ a < 0x090000000000 then
    (if guestAdmitted s ∧ a - gxBase < s.rd R.GST_GX_SIZE_SIZE 0 then .gx else .empty)
  else if hostwBase ≤ a ∧ a < 2 ^ 48 then .hostw
  else .empty

/-- HEARTH_LOCAL is the Hearth of the die that issues the access (Table 6.1). -/
def localise (die a : Nat) : Nat :=
  if hearthLocal ≤ a ∧ a < hearthLocal + hearthSize then hearthBase die + (a - hearthLocal) else a

/-- The direct device address an alias or hold address reaches (R164, Table 6.4). -/
def direct (s : State) (a : Nat) : Nat :=
  if aliasBase 0 ≤ a ∧ a < holdBase then
    let x := (a - aliasBase 0) / 0x004000000000
    pairBase s.map (x / 2) (s.tmp.activeBank != (x % 2 == 1)) + (a - aliasBase 0) % 0x004000000000
  else if holdBase ≤ a ∧ a < wardHoldBase then s.map.hold + (a - holdBase)
  else if wardHoldBase ≤ a ∧ a < wardHoldBase + 0x100000000 then s.map.wardHold + (a - wardHoldBase)
  else a

/-- The regions of Table 6.2 that HBM holds at direct addresses. -/
inductive Region where
  | open | bank | hold | wardHold | guest
  deriving DecidableEq, Repr

/-- Whether `a` lies in a range. -/
def inRange (a base size : Nat) : Bool := base ≤ a && a < base + size

/-- The region of Table 6.2 that holds a direct HBM address. -/
def regionOf (m : AddrMap) (a : Nat) : Region :=
  if inRange a m.wcA m.wcSize || inRange a m.wcB m.wcSize || inRange a m.msA m.msSize || inRange a m.msB m.msSize
    || inRange a m.mrA m.mrSize || inRange a m.mrB m.mrSize then .bank
  else if inRange a m.hold m.holdSize then .hold
  else if inRange a m.wardHold m.holdSize then .wardHold
  else if inRange a m.guest m.guestSize then .guest
  else .open

/-- Who asks for an access (the columns of Table 6.5). -/
inductive Req where
  | host | guest | fabric (node : Nat) | aperture | sahsin
  deriving DecidableEq, Repr

/-- The owner class of a Hearth region (R174). -/
def ownerOf (s : State) (die region : Nat) : Nat := s.rd (R.HRT_OWN_OWNER region) die

/-- Whether the lend windows admit a fabric access to a byte outside the Table 6.2 regions (R315). -/
def lendAdmits (s : State) (node a : Nat) : Bool :=
  !s.on R.WLD_LEND_CTL_ENFORCE 0 || (List.range 16).any (fun w =>
    s.on (R.WLD_LEND_VALID w) 0 && inRange a (s.rd (R.WLD_LEND_BASE w) 0) (s.rd (R.WLD_LEND_SIZE w) 0) &&
      (s.rd (R.WLD_LEND_BORROWER w) 0 == node || s.rd (R.WLD_LEND_BORROWER w) 0 == 0xFFFF))

/-- Whether the aperture may write a bank region at a direct address: only in IDLE, and not while a cut writes (Table 6.5,
R402). -/
def apertureBankWrite (s : State) : Bool := s.tmp.phase == .idle && s.rd R.CKP_STS_STATE 0 != 1

/-- Rights to a hold region: R by all but the ward-hold's readers; a fabric peer only under R386. -/
def holdRight (s : State) (r : Req) (write : Bool) (ward : Bool) : Bool :=
  match r with
  | .host => !ward && !write
  | .guest => false
  | .fabric node =>
    !write && (if ward then s.tmp.wardHoldValid && s.rd R.TMP_BUDDY_WARD_NODE 0 == node
               else s.tmp.holdValid && s.rd R.TMP_BUDDY_BUDDY_NODE 0 == node)
  | .aperture => !write
  | .sahsin => true

/-- Rights of a requester to one byte (Table 6.5, R174, R315, R386, R410). HEARTH_LOCAL has been localised. -/
def allowed (s : State) (r : Req) (write : Bool) (a : Nat) : Bool :=
  match windowOf s a with
  | .hbm =>
    (match regionOf s.map a with
     | .open => (match r with | .guest => false | .fabric n => lendAdmits s n a | _ => true)
     | .guest => (match r with | .fabric _ => false | _ => true)
     | .bank => (match r with | .sahsin => true | .aperture => !write || apertureBankWrite s | _ => false)
     | .hold => holdRight s r write false
     | .wardHold => holdRight s r write true)
  | .frec => (match r with | .sahsin => true | .aperture => !write | _ => false)
  | .hearth n =>
    let own := ownerOf s n ((a - hearthBase n) / 0x200000)
    (match r with
     | .host => own == 1 || own == 2
     | .guest => own == 2
     | .fabric _ => own == 1
     | .aperture | .sahsin => true)
  | .act => (match r with
     | .guest => false
     | .fabric _ => !write && s.rd R.CKP_STS_STATE 0 != 3
     | _ => !write)
  | .inact => (match r with
     | .guest => false
     | .aperture => !write
     | .fabric _ => write || s.rd R.CKP_STS_STATE 0 != 3
     | _ => true)
  | .hold => holdRight s r write false
  | .wardHold => holdRight s r write true
  | .reg => (match r with | .sahsin => true | _ => false)
  | .gx => (match r with | .host | .guest | .sahsin => true | _ => false)
  | .hostw => (match r with | .host | .sahsin => true | _ => false)
  | .empty => false

/-- One address in each aligned 4 KiB that `n` bytes from `a` touch. Every window, region, bank, lend window and row begins and
ends at a multiple of 4 KiB (Table 6.1, R159, R160, R319), so what holds at these addresses holds at every byte. -/
def granules (a n : Nat) : List Nat :=
  if n = 0 then [] else (List.range ((a + n - 1) / 4096 + 1 - a / 4096)).map (fun k => max a ((a / 4096 + k) * 4096))

/-- R168: an access is allowed when every byte it touches is. -/
def accessOk (s : State) (r : Req) (write : Bool) (a n : Nat) : Bool := (granules a n).all (allowed s r write)

/-- Whether some byte of a write lies in an XX_ACT alias (R18). -/
def hitsActive (s : State) (a n : Nat) : Bool := (granules a n).any (fun b => windowOf s b == .act)

/-- The dies whose Hearth refuses some byte of an access by owner class (R174). -/
def ownerRefusals (s : State) (r : Req) (write : Bool) (a n : Nat) : List Nat :=
  (List.range 8).filter (fun d => (granules a n).any (fun b => windowOf s b == .hearth d && !allowed s r write b))

/-- The requester of a context's access: a guest context while a guest die is admitted, else a host context (R203). -/
def reqOf (s : State) (c : Nat) : Req := if 60 ≤ c ∧ guestAdmitted s then .guest else .host

/-- The side effects of a refusal (R168): the step fault of a write through an ACTIVE alias (R18), the count, event and log
of a Hearth owner refusal (R178, R179), the count of a lend refusal (R315). -/
def refuseEffects (s : State) (r : Req) (write : Bool) (ctx a n : Nat) : State :=
  let s := if write && hitsActive s a n then stepFault s .bankWrite else s
  let s := (ownerRefusals s r write a n).foldl (fun s d =>
    let s := s.inc R.HRT_REFUSED_REFUSED d 1
    let s := raise s .HRT d 7
    logErr s .HRT d 3 .COMMAND 0 a [ctx, 0, 0]) s
  match r with
  | .fabric node => if (granules a n).any (fun b => windowOf s b == .hbm && regionOf s.map b == .open
        && !lendAdmits s node b) then s.inc R.WLD_LEND_REFUSED_LEND_REFUSED 0 1 else s
  | _ => s

/-! Memory that cannot serve -/

/-- Whether HBM serves the byte at a direct address: its stack is trained, not in self-refresh, and its channel's
recalibration has not failed (R198, R199). -/
def hbmServes (s : State) (a : Nat) : Bool :=
  let p := (hbmPlace s a).1
  let st := stackOf s p.1
  st.trained && !st.selfRefresh && !bitOf st.badChannels (p.2 / 2)

/-- The compute die whose reset keeps a byte from being served, if one does (R375, R397). -/
def blockedBy (s : State) (a : Nat) : Option Nat :=
  let d := direct s a
  match windowOf s d with
  | .hbm | .frec => if hbmServes s d then none else some ((hbmPlace s d).1.1 / 2)
  | .hearth n => if s.on R.DIE_STS_IN_RESET n || !s.on R.HRT_STS_INIT_DONE n then some n else none
  | _ => none

/-- Whether a die's Hearth serves no port: it initialises after a reset or is halted (R171). -/
def hearthStalled (s : State) (n : Nat) : Bool := s.on R.HRT_STS_HALTED n || !s.on R.HRT_STS_INIT_DONE n

/-- Whether a range meets a Hearth that is halted: the access waits (R171). -/
def waitsHearth (s : State) (a n : Nat) : Bool :=
  (List.range 8).any (fun d => s.on R.HRT_STS_HALTED d && decide (a < hearthBase d + hearthSize ∧ hearthBase d < a + n))

/-- The first die that blocks an access of `n` bytes. -/
def accessBlocked (s : State) (a n : Nat) : Option Nat :=
  ((granules a n).filterMap (blockedBy s)).head?

/-- An access reached a domain in reset: one FLT DOMAIN_RESET entry, and the step fault it records during a step (R397,
R198, Table 14.4). -/
def domainBlocked (s : State) (die : Nat) (a : Nat) : State :=
  let s := logErr s .FLT 0 1 (stepClass s .COMMAND) (2 + 256 * die) a [0, 0, 0]
  stepFault s .uncorrectable

/-- Bytes counted as read and written by the Hearth and HBM that hold them (Tables 6.10, 7.7). -/
def countBytes (s : State) (write : Bool) (a n : Nat) : State :=
  match windowOf s (direct s a) with
  | .hearth d => s.inc (if write then R.HRT_WR_BYTES_WR_BYTES else R.HRT_RD_BYTES_RD_BYTES) d n
  | .hbm | .frec => s.inc (if write then R.HBM_WR_BYTES_WR_BYTES else R.HBM_RD_BYTES_RD_BYTES) (hbmPlace s (direct s a)).1.1 n
  | _ => s

/-- Bytes an engine or context reads: memory at its direct address; HOSTW and GX return what the host or guest die holds,
which the spec does not fix (fresh bytes, log entry 4). -/
def readAny (s : State) (a n : Nat) : List Byte × State :=
  match windowOf s a with
  | .hostw =>
    ((List.range n).map (fun k => Config.freeByte (s.free + 1) (a + k)),
      ({ s with free := s.free + 1 }).inc R.HIF_RD_BYTES_BYTES 0 n)
  | .gx =>
    ((List.range n).map (fun k => Config.freeByte (s.free + 1) (a + k)), { s with free := s.free + 1 })
  | _ => ((List.range n).map (fun k => s.mem.byte (direct s (a + k))), countBytes s false a n)

/-- Whether a write waits until the Touchmark block table is zeroed: it meets the INACTIVE working copy (R347). -/
def waitsTouch (s : State) (a n : Nat) : Bool :=
  s.tchZeroing && (let d := direct s a
    decide (d < touchBase s + s.map.wcSize ∧ touchBase s < d + n))

/-- The host address of an HOSTW device address (R435); bits [11:0] of the base act as 0 (Table 17.10). -/
def hostAddr (s : State) (a : Nat) : Nat := (s.rd R.HIF_HOSTW_BASE_BASE 0 / 4096 * 4096 + (a - hostwBase)) % 2 ^ 64

/-- Bytes an engine or context writes: memory at its direct address, or out of the module to the host or guest die. -/
def writeAny (s : State) (a : Nat) (bs : List Byte) : State :=
  match windowOf s a with
  | .hostw => (s.inc R.HIF_WR_BYTES_BYTES 0 bs.length).emit (.hostWrite (hostAddr s a) bs)
  | .gx => s.emit (.guest 1 0 (a - gxBase) bs)
  | _ => countBytes (s.store (direct s a) bs) true a bs.length

/-- Whether a range touches HOSTW. -/
def touchesHost (a n : Nat) : Bool := 0 < n && hostwBase < a + n

end Sys2Proof.Machine
end

