-- ==== Sys2Proof/Machine/Ready.lean ====
section
/-! DEFINITION. READY of the dies (R396) and the end of bring-up (R479 to R482, R361). -/

namespace Sys2Proof.Machine

open Sys2Proof

/-! Health scores at a start (R359, R361) -/

/-- `h` decayed by 2^(−`secs`/(3600 T)), rounded down (R359): the largest y with y^n · 2^secs ≤ h^n for n = 3600 T. -/
def decayed (half secs h : Nat) : Nat :=
  let n := 3600 * max 1 half
  if 32 * n ≤ secs then 0
  else (List.range 32).foldl (fun y k =>
    let z := y + 2 ^ (31 - k)
    if z ≤ h ∧ z ^ n * 2 ^ secs ≤ h ^ n then z else y) 0

/-- Whether a ledger entry is a counted event (Table 13.8). -/
def LedgerEntry.counted (e : LedgerEntry) : Bool := countedKind e.kind (e.detail.getD 2 0 == 1)

/-- The score of a unit rebuilt from the event log, newest entry first (R361): its last SCORE entry decayed by the power-on
time since, and the weights of the counted events written after it. -/
def rebuiltScore (half poh unit : Nat) : List LedgerEntry → Nat
  | [] => 0
  | e :: t =>
    if e.unit ≠ unit then rebuiltScore half poh unit t
    else if e.kind = 0x0D then decayed half (poh - e.poh) (e.detail.getD 0 0)
    else (if e.counted then e.count * e.weight else 0) + rebuiltScore half poh unit t

/-- Every score is rebuilt after a CHIP or COLD reset, the entries still to be written taken as written (R361). -/
def rebuildScores (s : State) : State :=
  let half := s.rd R.HLT_CFG_HALF_LIFE_H 0
  let log := s.ledger.waiting.reverse ++ s.ledger.log
  let us : List Nat := (log.map (·.unit)).eraseDups.filter (fun u => scoredUnits.contains u)
  let score : Tbl Nat := (us.map (fun u => (u, min 0xFFFFFFFF (rebuiltScore half (pohNow s) u log)))).filter (fun (e : Nat × Nat) => e.2 != 0)
  let s := { s with health := { s.health with score := score, level := [], spent := [] } }
  score.foldl (fun s e => updateLevel s e.1) s

/-! READY and bring-up -/

/-- Whether a stack is TRAINED or STACK_FAILED as its page shows it (R396, R200). -/
def stackSettled (s : State) (n : Nat) : Bool :=
  let x := stackOf s n
  !x.selfRefresh && (x.trained || x.failed)

/-- Whether die slot `d` (0 to 7 CDn, 8 and 9 PDd) has what READY means (R396, R470). -/
def dieReady (s : State) (d : Nat) : Bool :=
  s.on R.D2D_ID_ID_OK d && s.smc.released &&
    (if d < 8 then !s.on R.DIE_STS_IN_RESET d && s.on R.HRT_STS_INIT_DONE d && stackSettled s (2 * d) && stackSettled s (2 * d + 1)
     else !s.on R.PDC_STS_IN_RESET (d - 8))

/-- READY of a die slot as its page holds it. -/
def readyBit (s : State) (d : Nat) : Bool := if d < 8 then s.on R.DIE_STS_READY d else s.on R.PDC_STS_READY (d - 8)

/-- READY of one die slot is brought up to date; at 0 to 1 its time is written and READY is raised (R396, R397). -/
def refreshDie (s : State) (d : Nat) : State :=
  if dieReady s d then
    if readyBit s d then s
    else if d < 8 then raise ((s.wr R.DIE_STS_READY d 1).wr R.DIE_READY_TIME_TIME d s.now) .DIE d 4
    else raise ((s.wr R.PDC_STS_READY (d - 8) 1).wr R.PDC_READY_TIME_TIME (d - 8) s.now) .PDC (d - 8) 4
  else if d < 8 then s.wr R.DIE_STS_READY d 0 else s.wr R.PDC_STS_READY (d - 8) 0

/-- Table 19.1 step 10: the time, mailbox IDLE, MB_UP, and the host port answers (R479, R480). -/
def bringupEnd (s : State) : State :=
  let s := s.wr R.SMC_BRINGUP_TIME_READY_TIME 0 s.now
  let s := raise (s.wr R.SMC_MB_STS_STATE 0 0) .SMC 0 5
  { s with host := { s.host with ready := true } }

/-- Whether Sahsin runs (SEC_BOOT.STATE = RUNNING). -/
def sahsinRuns (s : State) : Bool := s.rd R.SEC_BOOT_STATE 0 == 1

/-- Step 8 after a CHIP reset: with every stack out of self-refresh STAGE = HBM (Table 19.4). -/
def chipTrained (s : State) : State :=
  if s.rd R.SMC_BRINGUP_STAGE 0 = 3 ∧ sahsinRuns s ∧ !s.smc.fullTrain ∧ (List.range 16).all (fun n => !(stackOf s n).selfRefresh) then
    s.wr R.SMC_BRINGUP_STAGE 0 4
  else s

/-- Steps 9 and 10: in STAGE = HBM with every DIE and PDC page READY, the scores are rebuilt and STAGE = READY. -/
def bringupDone (s : State) : State :=
  if s.rd R.SMC_BRINGUP_STAGE 0 = 4 ∧ sahsinRuns s ∧ (List.range 10).all (readyBit s) then
    let s := (rebuildScores s).wr R.SMC_BRINGUP_STAGE 0 5
    bringupEnd { s with smc := { s.smc with fullTrain := false } }
  else s

/-- READY of every die slot brought up to date, and the end of a bring-up that waited for it. -/
def refreshReady (s : State) : State := bringupDone (chipTrained ((List.range 10).foldl refreshDie s))

/-- Sahsin stops a bring-up in progress at a cause of Table 19.3 (R482). -/
def haltBringup (s : State) (cause : Nat) : State :=
  if s.rd R.SMC_BRINGUP_STAGE 0 = 0 ∨ 5 ≤ s.rd R.SMC_BRINGUP_STAGE 0 then s
  else
    let s := (s.wr R.SMC_BRINGUP_STAGE 0 6).wr R.SMC_BRINGUP_HALT_CAUSE 0 cause
    bringupEnd (raise s .SMC 0 6)

end Sys2Proof.Machine
end

