-- ==== Sys2Proof/Machine/Flags.lean ====
section
/-! DEFINITION. The sticky arithmetic flags of a context (CTX_AFLAGS, R97, R148): read, set and cleared; and what one result
adds to them. -/

namespace Sys2Proof.Machine

open Sys2Proof

/-- CTX_AFLAGS as a value. -/
def aflags (s : State) (c : Nat) : Nat :=
  s.rd R.CTX_AFLAGS_ACC_SAT c + 2 * s.rd R.CTX_AFLAGS_NAN_OUT c + 4 * s.rd R.CTX_AFLAGS_INF_OUT c
    + 8 * s.rd R.CTX_AFLAGS_SWG_SAT c

/-- The sticky flags of a context take the bits of `v` (R97, R148). -/
def orAflags (s : State) (c v : Nat) : State :=
  let s := if bitOf v 0 then s.wr R.CTX_AFLAGS_ACC_SAT c 1 else s
  let s := if bitOf v 1 then s.wr R.CTX_AFLAGS_NAN_OUT c 1 else s
  let s := if bitOf v 2 then s.wr R.CTX_AFLAGS_INF_OUT c 1 else s
  if bitOf v 3 then s.wr R.CTX_AFLAGS_SWG_SAT c 1 else s

/-- CTX_AFLAGS of a context cleared (R207, R212). -/
def clearAflags (s : State) (c : Nat) : State :=
  [R.CTX_AFLAGS_ACC_SAT, R.CTX_AFLAGS_NAN_OUT, R.CTX_AFLAGS_INF_OUT, R.CTX_AFLAGS_SWG_SAT].foldl (fun s f => s.wr f c 0) s

/-- What a piece of work adds to the flags: ACC_SAT, NAN_OUT, INF_OUT and SWG_SAT. -/
structure Arith where
  accSat : Bool
  nan : Bool
  inf : Bool
  swgSat : Bool
  deriving DecidableEq, Repr

/-- No flag. -/
def Arith.none : Arith := ⟨false, false, false, false⟩

/-- Flags of two pieces of work together. -/
def Arith.or (a b : Arith) : Arith := ⟨a.accSat || b.accSat, a.nan || b.nan, a.inf || b.inf, a.swgSat || b.swgSat⟩

/-- The flags as the bits of CTX_AFLAGS (Table 8.12). -/
def Arith.bits (a : Arith) : Nat := b2n a.accSat + 2 * b2n a.nan + 4 * b2n a.inf + 8 * b2n a.swgSat

/-- Whether FP32 bits are a NaN. -/
def isNaN32 (b : Nat) : Bool := bits b 23 8 == 255 && bits b 0 23 != 0

/-- Whether FP32 bits are an infinity. -/
def isInf32 (b : Nat) : Bool := bits b 23 8 == 255 && bits b 0 23 == 0

/-- Whether BF16 bits are a NaN. -/
def isNaN16 (b : Nat) : Bool := bits b 7 8 == 255 && bits b 0 7 != 0

/-- Whether BF16 bits are an infinity. -/
def isInf16 (b : Nat) : Bool := bits b 7 8 == 255 && bits b 0 7 == 0

end Sys2Proof.Machine
end

