-- ==== Sys2Proof/Machine/Pages.lean ====
section
/-! DEFINITION. The register page family (chapter 2): register writes, staged applies, error logs, events and telemetry
shadows. The meaning of APPLY_TAKEN is in Apply.lean, after the checks of every block. -/

namespace Sys2Proof.Machine

open Sys2Proof

/-- HIF.BAD_ACCESS is incremented (R41). -/
def badAccess (s : State) : State := s.inc R.HIF_BAD_ACCESS 0 1

/-- Fields whose write is the command of a row of its own, so that REG_WRITE leaves them alone (log entry 13). -/
def hasRow (f : Field) : Bool :=
  f.acc == .WO || f == R.EVT_STS || f == R.EVT_MASK || f == R.HRT_CTL_HALT || f == R.SLC_CTL_DRAIN
    || f == R.RTE_DATA_PLANES || f == R.RTE_DATA_VALID

/-- The same for a header field of a page: PAGE_CTL.ENABLE of a LNK page is LINK_ENABLE and LINK_DISABLE. -/
def headerHasRow (p : Page) (f : Field) : Bool := hasRow f || (p == .LNK && f == R.PAGE_CTL_ENABLE)

/-- The register base offset that a 32-bit offset belongs to, if the offset holds a register: itself, or the lower half of
a 64-bit register (R42, R43). -/
def regBaseOf (fs : List Field) (off : Nat) : Option Nat :=
  if fs.any (fun f => f.off == off) then some off
  else if 4 ≤ off ∧ fs.any (fun f => f.off + 4 == off && 32 < f.lo + f.width) then some (off - 4)
  else none

/-- Whether the register at `off` is 64 bits wide. -/
def is64 (fs : List Field) (off : Nat) : Bool := fs.any (fun f => f.off == off && 32 < f.lo + f.width)

/-- The bits of a register that its fields cover. -/
def coveredMask (fs : List Field) (base : Nat) : Nat :=
  ((fs.filter (fun f => f.off == base)).map (fun f => (2 ^ f.width - 1) * 2 ^ f.lo)).foldl (· ||| ·) 0

/-- One field of a block register written under its class and access (R48 to R51); `lo32` and `hi32` say which half of a
64-bit register the write covers. A half that is not covered keeps its bits. The ARMED fields of WLD exist on PD0 only (R318). -/
def writeField (s : State) (f : Field) (i : Nat) (mask val : Nat) : State :=
  let fm := (2 ^ f.width - 1) * 2 ^ f.lo
  if fm &&& mask = 0 ∨ f.acc = .RO ∨ hasRow f then s
  else if f.page = .WLD ∧ i ≠ 0 ∧ f.cls = .ARMED then s
  else if f.cls = .IDLE ∧ busyOf s f.page i then s
  else
    let old := if f.cls = .ARMED then s.shadowOf f i else s.rd f i
    let new := ((val &&& mask &&& fm) ||| ((old * 2 ^ f.lo) &&& fm &&& (fm - (fm &&& mask)))) / 2 ^ f.lo
    match f.acc, f.cls with
    | .W1C, _ => s.wr f i (old - (old &&& ((val &&& mask) / 2 ^ f.lo)))
    | _, .ARMED => { s with shadow := Store.set s.shadow (f.key i) new }
    | _, _ =>
      if f.off = R.SYN_PEEK_PHYS_PEEK_PHYS.off ∧ f.page = .SYN then s.wr f i new
      else if f.page = .HRT ∧ 0x200 ≤ f.off ∧ (new = 3 ∨ old = 3) then s
      else s.wr f i new

/-- Whether a write meets an IDLE field while its page is BUSY (R49). -/
def idleDropped (s : State) (fs : List Field) (p : Page) (i base mask : Nat) : Bool :=
  busyOf s p i && fs.any (fun f => f.off == base && f.cls == .IDLE && f.acc != .RO && (2 ^ f.width - 1) * 2 ^ f.lo &&& mask != 0)

/-- The bits of `mask` that no field covers and that `val` sets (R42, R44). -/
def strayBits (fs : List Field) (base mask val : Nat) : Bool :=
  let m := val &&& mask
  m - (m &&& coveredMask fs base) != 0

/-- A write of the bits `mask` of the block register at `base`: dropped for a page the host may not write (R58), else field
by field, with WR_BUSY where an IDLE field is dropped (R49) and BAD_ACCESS where a reserved bit is set (R42). -/
def writeBlockReg (s : State) (who : Writer) (p : Page) (i base mask val : Nat) : State :=
  let fs := blockFields p
  if who = .host ∧ !(capsOf p).hostWritable then raise s p i 3
  else if who = .host ∧ p = .CTX ∧ 60 ≤ i ∧ guestAdmitted s then raise s p i 3
  else
    let drop := idleDropped s fs p i base mask
    let s := if strayBits fs base mask val then badAccess s else s
    let s := (fs.filter (fun f => f.off == base)).foldl (fun s f => writeField s f i mask val) s
    if drop then raise s p i 0 else s

/-- A write of the bits `mask` of the header register at `base`; all header fields are LIVE (R48, R57). -/
def writeHeaderReg (s : State) (p : Page) (i base mask val : Nat) : State :=
  let s := if base < 0x40 ∧ 8 ≤ base ∧ base ≠ 0xC ∧ strayBits headerFields base mask val then badAccess s else s
  (headerFields.filter (fun f => f.off == base)).foldl (fun s f =>
    let fm := (2 ^ f.width - 1) * 2 ^ f.lo
    if fm &&& mask = fm ∧ f.acc = .RW ∧ !headerHasRow p f then s.hwr f (slotOf p i) ((val &&& fm) / 2 ^ f.lo) else s) s

/-- A 32-bit write within a page that is not one 64-bit register access (R42). -/
def writeHalf (s : State) (who : Writer) (p : Page) (i off val : Nat) : State :=
  if p = .MSX then
    -- the MSI-X table has no header (R439); setting a Mask bit masks its vector, clearing it is MSIX_UNMASK
    let s := { s with regs := Store.set s.regs ⟨slotOf p i, off, 0⟩ (val % 2 ^ 32) }
    if off % 16 = 12 ∧ val % 2 = 1 then
      { s with host := { s.host with unmasked := s.host.unmasked.filter (· != 256 * i + off / 16) } }
    else s
  else if p = .PBA then (if off < 256 then s else badAccess s)
  else if p = .DIR ∧ 0x100 ≤ off then
    (if off = 0x100 ∨ (0x200 ≤ off ∧ off < 0xA00) then s else badAccess s)
  else if off < 0x100 then
    (if off < 0x30 ∨ 0x40 ≤ off then
       (if off = 0x24 then badAccess s
        else if off = 0x2C then s else writeHeaderReg s p i off (2 ^ 32 - 1) val)
     else badAccess s)
  else if p = .HRT ∧ 0x400 ≤ off ∧ off < 0x4A0 then s
  else if p = .LDG ∧ 0x200 ≤ off ∧ off < 0x240 then s
  else
    match regBaseOf (blockFields p) off with
    | none => badAccess s
    | some base =>
      if base = off then writeBlockReg s who p i base (2 ^ 32 - 1) val
      else writeBlockReg s who p i base ((2 ^ 32 - 1) * 2 ^ 32) (val * 2 ^ 32)

/-- A register write inside the block region: an empty slot and a page in reset drop it (R42, R375); a 64-bit access to a
64-bit register is one write, any other is judged per 32-bit offset (R42, R43). -/
def writeSlot (s : State) (who : Writer) (slot off width val : Nat) : State :=
  match pageAt slot with
  | none => if width = 64 then badAccess (badAccess s) else badAccess s
  | some (p, i) =>
    if pageInReset s p i then badAccess s
    else if width = 64 ∧ 0x100 ≤ off ∧ is64 (blockFields p) off then
      writeBlockReg s who p i off (2 ^ 64 - 1) val
    else if width = 64 then writeHalf (writeHalf s who p i off (val % 2 ^ 32)) who p i (off + 4) (val / 2 ^ 32)
    else writeHalf s who p i off (val % 2 ^ 32)

/-- The slots of the guest register region that are populated: REG_SLOTS of the admitted descriptor (Table 18.6, R474). -/
def guestSlots (s : State) : Nat :=
  if guestAdmitted s then bits (leNat ((s.guest.descriptor.drop 0x20).take 4)) 8 9 else 0

/-- R40, R41: where a register write goes. Bad width, byte enables or alignment drop it and count it once. -/
def regWriteOp (s : State) (who : Writer) (off width : Nat) (full : Bool) (val : Nat) : State :=
  if (width ≠ 32 ∧ width ≠ 64) ∨ off % (width / 8) ≠ 0 ∨ !full then badAccess s
  else if off < 0x200000 then writeSlot s who (off / 0x1000) (off % 0x1000) width (val % 2 ^ width)
  else if 0x400000 ≤ off ∧ (off - 0x400000) / 0x1000 < guestSlots s then
    s.emit (.guest 4 0 (off - 0x400000) (leBytes (width / 8) val))
  else badAccess s

/-- REG_WRITE (R48). -/
def execRegWrite (who : Writer) (off width : Nat) (full : Bool) (val : Nat) (s : State) : Outcome :=
  live s (regWriteOp s who off width full val)

/-- The ARMED fields of a page type. -/
def armedFields (p : Page) : List Field := (blockFields p).filter (fun f => f.cls == .ARMED)

/-- The values of a page's ARMED fields under a reading of them, as store entries. -/
def armedValues (fs : List Field) (i : Nat) (read : Field → Nat) : Store := fs.map (fun f => (f.key i, read f))

/-- Several store entries set. -/
def Store.setAll (st : Store) (es : Store) : Store := es.foldl (fun st e => Store.set st e.1 e.2) st

/-- R52, R54: the shadow of the ARMED set is staged; while an apply is pending the write is dropped and raises WR_BUSY. A
page without an ARMED set has nothing to stage. -/
def applyOp (s : State) (p : Page) (i : Nat) : State :=
  let slot := slotOf p i
  if !(capsOf p).hasArmed then s
  else if s.hrd R.PAGE_STS_ARM_PENDING slot = 1 then raiseSlot s slot 0
  else
    let es := armedValues (armedFields p) i (fun f => s.shadowOf f i)
    ({ s with staged := Store.setAll s.staged es }).hwr R.PAGE_STS_ARM_PENDING slot 1

/-- APPLY (R52, R54). -/
def execApply (slot : Nat) (s : State) : Outcome :=
  match pageAt slot with
  | some (p, i) => live s (applyOp s p i)
  | none => .fault .noSuchUnit

/-- The staged value of an ARMED field (R52). -/
def State.stagedOf (s : State) (f : Field) (i : Nat) : Nat := Store.get f.reset s.staged (f.key i)

/-- Whether an apply is staged on a page (R52). -/
def armPending (s : State) (p : Page) (i : Nat) : Bool := s.hrd R.PAGE_STS_ARM_PENDING (slotOf p i) == 1

/-- A staged apply that passes its check takes effect whole (R52): ARM_SEQ wraps, ARM_TIME is recorded. -/
def commitApply (s : State) (p : Page) (i : Nat) : State :=
  let slot := slotOf p i
  let s := { s with regs := Store.setAll s.regs (armedValues (armedFields p) i (fun f => s.stagedOf f i)) }
  let s := s.hwr R.ARM_CTL_ARM_SEQ slot (s.hrd R.ARM_CTL_ARM_SEQ slot + 1)
  (s.hwr R.ARM_TIME slot s.now).hwr R.PAGE_STS_ARM_PENDING slot 0

/-- A staged apply that fails its check has no effect (R52): ARM_REFUSED and the cause bits are raised. -/
def refuseApply (s : State) (p : Page) (i : Nat) (causes : List Nat) : State :=
  let s := causes.foldl (fun s b => raise s p i b) (raise s p i 1)
  s.hwr R.PAGE_STS_ARM_PENDING (slotOf p i) 0

/-- DISCARD of ARM_CTL (Table 2.2): the effective values are copied back into the shadow; ignored while an apply is
pending. -/
def armDiscardOp (s : State) (p : Page) (i : Nat) : State :=
  if s.hrd R.PAGE_STS_ARM_PENDING (slotOf p i) = 1 then s
  else { s with shadow := Store.setAll s.shadow (armedValues (armedFields p) i (fun f => s.rd f i)) }

/-- ARM_DISCARD (R45). -/
def execArmDiscard (slot : Nat) (s : State) : Outcome :=
  match pageAt slot with
  | some (p, i) => live s (armDiscardOp s p i)
  | none => .fault .noSuchUnit

/-- The error log of a slot is emptied (R45). -/
def clearLog (s : State) (slot : Nat) : State := { s with errlog := Tbl.set s.errlog (canonSlot slot) [] }

/-- ERRLOG_CLEAR (R45): every entry's VALID bit and ERRLOG_COUNT are cleared. -/
def execErrlogClear (slot : Nat) (s : State) : Outcome :=
  match pageAt slot with
  | some _ => live s (clearLog s slot)
  | none => .fault .noSuchUnit

/-- Writing 1 to a bit of EVT_STS clears it (R47). -/
def clearEvents (s : State) (slot mask : Nat) : State :=
  s.hwr R.EVT_STS slot (s.hrd R.EVT_STS slot - (s.hrd R.EVT_STS slot &&& mask))

/-- EVT_STS_CLEAR (R47). -/
def execEvtStsClear (slot mask : Nat) (s : State) : Outcome :=
  match pageAt slot with
  | some _ => live s (clearEvents s slot mask)
  | none => .fault .noSuchUnit

/-- The EVT_STS bits of the mask are set as if the events had occurred (R45). -/
def forceEvents (s : State) (slot mask : Nat) : State :=
  (List.range 32).foldl (fun s b => if bitOf mask b then raiseSlot s slot b else s) s

/-- EVT_FORCE (R45). -/
def execEvtForce (slot mask : Nat) (s : State) : Outcome :=
  match pageAt slot with
  | some _ => live s (forceEvents s slot mask)
  | none => .fault .noSuchUnit

/-- EVT_MASK takes a value: a bit already set that is unmasked sends its notice (R47). -/
def maskEvents (s : State) (slot mask : Nat) : State :=
  let old := s.hrd R.EVT_MASK slot
  let sts := s.hrd R.EVT_STS slot
  (List.range 32).foldl
    (fun s b => if bitOf old b && !bitOf mask b && bitOf sts b then notice s slot b else s) (s.hwr R.EVT_MASK slot mask)

/-- EVT_MASK_WRITE (R47). -/
def execEvtMaskWrite (slot mask : Nat) (s : State) : Outcome :=
  match pageAt slot with
  | some _ => live s (maskEvents s slot mask)
  | none => .fault .noSuchUnit

/-- The 32-bit word a read of a page finds at `off` (R42, R43, R46, R60). -/
def pageWord (s : State) (p : Page) (i off : Nat) : Nat :=
  if p = .MSX then Store.get (if off % 16 = 12 then 1 else 0) s.regs ⟨slotOf p i, off, 0⟩
  else if p = .PBA then
    ((List.range 32).map (fun b => b2n (s.host.pba.contains (off * 8 + b)) * 2 ^ b)).sum
  else if off < 0x100 then headerWord s p i off
  else if p = .DIR then
    (if off = 0x100 then dirCount else if 0x200 ≤ off ∧ off < 0xA00 then dirEntry ((off - 0x200) / 4) else 0)
  else if p = .HRT ∧ 0x400 ≤ off ∧ off < 0x4A0 then
    wordAt (amapWords s.map (pkgSize s) (dlSize s i) (pkgList s).length) (off - 0x400)
  else if p = .LDG ∧ 0x200 ≤ off ∧ off < 0x240 then
    (match s.ledger.log.find? (fun e => e.seq == s.rd R.LDG_RD_SEQ 0) with
     | some e => wordAt e.bytes (off - 0x200)
     | none => 0)
  else ((blockFields p).map (fun f => fieldInWord f (readField s f i) off)).sum

/-- The 32-bit word of a slot, empty slots and pages in reset reading zeros or reset values (R42, R375). -/
def slotWord (s : State) (slot off : Nat) : Nat :=
  match pageAt slot with
  | some (p, i) =>
    if pageInReset s p i then pageWord { s with regs := [], shadow := [], errlog := [] } p i off else pageWord s p i off
  | none => 0

/-- The words of a whole page that differ from zero. -/
def pageImage (s : State) (slot : Nat) : List (Nat × Nat) :=
  ((List.range 1024).map (fun k => (4 * k, slotWord s slot (4 * k)))).filter (fun e => e.2 != 0)

/-- TELEMETRY_SNAPSHOT (R62): a copy of the whole page with SNAP_TIME; pages with SHADOWED = 0 have none. -/
def execTelemetrySnapshot (slot : Nat) (s : State) : Outcome :=
  match pageAt slot with
  | some (p, _) =>
    if (capsOf p).shadowed then live s { s with snaps := Tbl.set s.snaps slot ⟨s.now, pageImage s slot⟩ } else live s s
  | none => .fault .noSuchUnit

end Sys2Proof.Machine
end

