-- ==== Sys2Proof/Machine/Edges.lean ====
section
/-! DEFINITION. The die-to-die edges (R464, R469): which die slot lies at the far end of an edge, with how many modules, and the
dies left with no working edge (R467). -/

namespace Sys2Proof.Machine

open Sys2Proof

/-- The far end of edge `e` of die slot `d` (0 to 7 CDn, 8 and 9 PDd) as (slot, edge), if there is one (Table 18.3, R469). -/
def peerOf (d e : Nat) : Option (Nat × Nat) :=
  if d < 8 then
    (match e with
     | 0 => if 0 < d % 4 then some (d - 1, 1) else none
     | 1 => if d % 4 < 3 then some (d + 1, 0) else none
     | 2 => some ((d + 4) % 8, 2)
     | 3 => if d = 0 then some (8, 0) else if d = 4 then some (8, 1) else if d = 3 then some (9, 0)
            else if d = 7 then some (9, 1) else none
     | _ => none)
  else
    (match d, e with
     | 8, 0 => some (0, 3) | 8, 1 => some (4, 3) | 9, 0 => some (3, 3) | 9, 1 => some (7, 3)
     | _, _ => none)

/-- The modules of an edge (Table 18.3). -/
def modulesOf (d e : Nat) : Nat := if d < 8 ∧ e < 3 then 12 else 8

/-- The edges of a die slot to other dies of the package. -/
def edgesOf (d : Nat) : List Nat := (List.range 4).filter (fun e => (peerOf d e).isSome)

/-- Whether a die has no working edge left (R467). -/
def cutOff (s : State) (d : Nat) : Bool := (edgesOf d).all (fun e => s.rd (R.D2D_EDGE_STATE e) d == 3)

/-- The die slot that serves a direct address: the die of its stack or Hearth, PD0 for the host and the guest site. -/
def dieSlotOf (s : State) (a : Nat) : Option Nat :=
  match windowOf s a with
  | .hbm | .frec => some ((hbmPlace s a).1.1 / 2)
  | .hearth n => some n
  | .hostw | .gx => some 8
  | _ => none

/-- Whether some byte of an access from die `h` cannot be reached over the edges (R467). -/
def outOfReach (s : State) (h a n : Nat) : Bool :=
  (granules a n).any (fun b =>
    match dieSlotOf s (direct s b) with
    | some d => d != h && (cutOff s h || cutOff s d)
    | none => false)

end Sys2Proof.Machine
end

