-- ==== Sys2Proof/Machine/Flows.lean ====
section
/-! DEFINITION. Shared transport operations: effective masks and spraying (R275, R277), flows and their opening and closing
(R265), packets queued for a peer, acknowledgements and refusals (R272). -/

namespace Sys2Proof.Machine

open Sys2Proof

/-- Flow `f` replaced. -/
def State.setFlow (s : State) (f : Nat) (x : Flow) : State :=
  { s with xp := { s.xp with flows := Tbl.set s.xp.flows f x } }

/-- The port die that holds a flow (R265). -/
def flowDie (f : Nat) : Nat := f / 2048

/-- The routing entry of a node on a port die, current version (R277). -/
def rteEntry (s : State) (d node : Nat) : Nat × Bool := Tbl.get (0, false) (Tbl.get [] s.xp.rteCur d) node

/-- Whether a node may be addressed: VALID in the current version of some port die's table (R277). -/
def destValid (s : State) (node : Nat) : Bool := (rteEntry s 0 node).2 || (rteEntry s 1 node).2

/-- Whether plane `k` is in the effective mask toward a node (R275); a module in slice 0 sends nothing (R264). -/
def planeUsable (s : State) (node k : Nat) : Bool :=
  let d := k / 16
  s.xp.slc.cur.slice != 0 && bitOf (s.rd R.XPT_SPRAY_MASK d) (k % 16) && linkReady s k && !bitOf s.xp.suspect k
    && (rteEntry s d node).2 && bitOf (rteEntry s d node).1 (k % 16)

/-- The planes of the effective mask in ascending order. -/
def effPlanes (s : State) (node : Nat) : List Nat := (List.range 32).filter (planeUsable s node)

/-- The next plane of a list after `last`, in ascending number with wraparound (R275). -/
def nextPlane (ps : List Nat) (last : Nat) : Option Nat :=
  match ps.find? (last < ·) with
  | some k => some k
  | none => ps.head?

/-- The flow to a peer, if one is open or opening (R265). -/
def flowTo (s : State) (node : Nat) : Option Nat :=
  (s.xp.flows.find? (fun e => e.2.peer == node && (e.2.state == .opened || e.2.state == .opening))).map (·.1)

/-- The lowest free flow ID of the port die that holds fewer flows, PD0 when equal (R265). -/
def freeFlow (s : State) : Option Nat :=
  let d := if openFlows s 1 < openFlows s 0 then 1 else 0
  ((List.range 2048).map (2048 * d + ·)).find? (fun f => (flowOf s f).state == .free || (flowOf s f).state == .failed)

/-- A CTRL packet to a node on the next usable plane (R265); nothing is sent over an empty mask. -/
def sendCtrl (s : State) (node kind flowField flowId last : Nat) : State × Option Nat :=
  match nextPlane (effPlanes s node) last with
  | some k =>
    let p := mkPacket s .CTRL s.xp.slc.cur.slice node flowField 0 0 0 false (leBytes 8 (kind + flowId * 2 ^ 16))
    (sendPrio s k .CTRL p, some k)
  | none => (s, none)

/-- A flow to a node is opened with its first packets waiting: OPEN carries its own ID (R265). -/
def openFlow (s : State) (f node : Nat) (w : List OutPkt) : State :=
  let r := sendCtrl s node 0 f f 31
  r.1.setFlow f { Flow.freed with
    state := .opening, peer := node, opener := true, openTries := 1, openAt := s.clock, openPlane := r.2,
    lastPlane := r.2.getD 31, waiting := w, lastUse := s.clock }

/-- The flow that may be closed to free an entry: least recently used, nothing unacknowledged or waiting, idle for IDLE_MS
(R265). -/
def evictable (s : State) : Option Nat :=
  let ok := s.xp.flows.filter (fun e => e.2.state == .opened && e.2.unacked.isEmpty && e.2.waiting.isEmpty &&
    e.2.lastUse + (max 1 (s.rd R.FLW_IDLE_IDLE_MS (flowDie e.1))) * 1000000 ≤ s.clock)
  match ok with
  | [] => none
  | e :: es => some (es.foldl (fun (b : Nat × Flow) x => if x.2.lastUse < b.2.lastUse then x else b) e).1

/-- A flow is closed with CTRL CLOSE and its entry freed (R265). -/
def closeFlow (s : State) (f : Nat) : State :=
  let x := flowOf s f
  (sendCtrl s x.peer 2 x.peerFlow x.peerFlow x.lastPlane).1.setFlow f Flow.freed

/-- A packet is queued for a node: on its flow, on a new one, on one that takes an evicted entry, or it waits for an entry
(R265). -/
def queuePkt (s : State) (node : Nat) (p : OutPkt) : State :=
  match flowTo s node with
  | some f =>
    let x := flowOf s f
    s.setFlow f { x with waiting := x.waiting ++ [p] }
  | none =>
    match freeFlow s with
    | some f => openFlow s f node [p]
    | none =>
      match evictable s with
      | some f => openFlow ((closeFlow s f).inc R.FLW_EVICT_EVICT (flowDie f) 1) f node [p]
      | none =>
        let s := raise (s.inc R.FLW_ALLOC_WAIT_ALLOC_WAIT 0 1) .FLW 0 4
        { s with xp := { s.xp with needPeers := s.xp.needPeers ++ [(node, p)] } }

/-- Several packets queued for a node in order. -/
def queueAll (s : State) (node : Nat) (ps : List OutPkt) : State := ps.foldl (fun s p => queuePkt s node p) s

/-- The chunks of at most 4,096 bytes of a range, as (offset, length) (R267). -/
def chunks (len : Nat) : List (Nat × Nat) :=
  (List.range (ceilDiv len 4096)).map (fun i => (4096 * i, min 4096 (len - 4096 * i)))

/-- The READ packets that pull `len` bytes at a node's address `src` to this module's `dst` (R267). -/
def readPkts (src dst len : Nat) (o : Owner) (tag : Bool) : List OutPkt :=
  (chunks len).map (fun c =>
    { cls := .READ, addr := src + c.1, head := leBytes 8 (dst + c.1) ++ leBytes 8 c.2, src := none, owner := o,
      stepTag := tag, abandoned := false })

/-- The WRITE packets that push `len` bytes of this module's `src` to a node's address `dst` (R267). -/
def writePkts (src dst len : Nat) (o : Owner) (tag : Bool) : List OutPkt :=
  (chunks len).map (fun c =>
    { cls := .WRITE, addr := dst + c.1, head := [], src := some (src + c.1, c.2), owner := o, stepTag := tag,
      abandoned := false })

/-- A SIGNAL packet with the payload of Table 8.7. -/
def signalPkt (s : State) (kind op cond : Nat) (tagged : Bool) (phys value subId ctx : Nat) (o : Owner) : OutPkt :=
  { cls := .SIGNAL, addr := 0,
    head := leBytes 2 (kind + op * 8 + cond * 32 + b2n tagged * 256) ++ leBytes 2 phys ++ leBytes 4 s.tmp.att
      ++ leBytes 8 value ++ leBytes 8 s.tmp.step ++ leBytes 8 (subId + ctx * 2 ^ 16),
    src := none, owner := o, stepTag := tagged, abandoned := false }

/-- ACK payload (Table 10.3). -/
def ackPayload (cum sack nakSeq nak : Nat) : List Byte :=
  leBytes 8 cum ++ leBytes 8 sack ++ leBytes 4 nakSeq ++ leBytes 4 nak

/-- The SACK word of a flow: bit i for SEQ CUM + 1 + i delivered (Table 10.3). -/
def sackOf (x : Flow) : Nat :=
  ((List.range 64).map (fun i => b2n (x.rxMarks.contains (x.rxCum + 1 + i)) * 2 ^ i)).sum

/-- An ACK packet on the next usable plane of the peer; with no plane it is not sent. -/
def sendAckTo (s : State) (node flowField last : Nat) (payload : List Byte) : State :=
  match nextPlane (effPlanes s node) last with
  | some k => sendPrio s k .ACK (mkPacket s .ACK s.xp.slc.cur.slice node flowField 0 0 0 false payload)
  | none => s

/-- The ACK of a flow is sent with its CUM and SACK (R272). -/
def sendFlowAck (s : State) (f : Nat) : State :=
  let x := flowOf s f
  let s := sendAckTo s x.peer x.peerFlow x.lastPlane (ackPayload x.rxCum (sackOf x) 0 0)
  s.setFlow f { x with ackDue := 0 }

/-- A NAK of a flow refuses a SEQ with a reason (R272, Table 10.4). -/
def sendFlowNak (s : State) (f seq reason : Nat) : State :=
  let x := flowOf s f
  sendAckTo s x.peer x.peerFlow x.lastPlane (ackPayload x.rxCum (sackOf x) seq reason)

/-- A NAK from a module that holds no flow for the packet: FLOW, CUM and SACK are 0 (R272). -/
def sendNoFlowNak (s : State) (node seq reason : Nat) : State := sendAckTo s node 0 31 (ackPayload 0 0 seq reason)

/-- The waiting packets of an owner are taken out of every flow; the injected ones are marked abandoned and go on being
resent (R490). -/
def abandonPackets (s : State) (mine : Owner → Bool) : State :=
  let fix := fun (x : Flow) =>
    { x with
      waiting := x.waiting.filter (fun p => !mine p.owner)
      unacked := x.unacked.map (fun u => if mine u.pkt.owner then { u with pkt := { u.pkt with abandoned := true } } else u)
      reads := x.reads.map (fun r => if mine r.owner then { r with abandoned := true } else r) }
  { s with xp :=
    { s.xp with
      flows := s.xp.flows.map (fun e => (e.1, fix e.2))
      needPeers := s.xp.needPeers.filter (fun e => !mine e.2.owner) } }

/-- The nodes that owe this module data of a fill (R411). -/
def fillSources (s : State) : List Nat :=
  let mine := fun (o : Owner) => o == .fill
  ((s.xp.flows.filter (fun e => e.2.waiting.any (fun p => mine p.owner) || e.2.unacked.any (fun u => mine u.pkt.owner)
      || e.2.reads.any (fun r => mine r.owner))).map (fun e => e.2.peer)
    ++ (s.xp.needPeers.filter (fun e => mine e.2.owner)).map (·.1)).eraseDups

/-- Sources of a fill begin while fewer than 8 are under way (R411). -/
def fillBegin (s : State) : List Load → State
  | [] => s
  | l :: t =>
    if (fillSources s).length < 8 then
      fillBegin (queueAll { s with ckp := { s.ckp with loads := t } } l.node (readPkts l.src l.dst l.len .fill false)) t
    else s

/-- The fill goes on to its next sources. -/
def fillAdvance (s : State) : State := fillBegin s s.ckp.loads

/-- Whether an owner is flight `id`. -/
def ownedBy (id : Nat) : Owner → Bool
  | .flight j => j == id
  | .weld j => j == id
  | _ => false

end Sys2Proof.Machine
end

