-- ==== Sys2Proof/Machine/Sync.lean ====
section
/-! DEFINITION. Shared operations of contexts and sync counters: records and their fields (R211), command errors (R214),
completion (R209), counter operations, waiters and subscriptions (R216, R217, R221), BROKEN counters (R230) and abandoned
work (R94, R151, R224). -/

namespace Sys2Proof.Machine

open Sys2Proof

/-! Records -/

/-- The little-endian value of `n` bytes at offset `o` of a byte list. -/
def fieldAt (bs : List Byte) (o n : Nat) : Nat := leNat ((bs.drop o).take n)

/-- OPCODE of a record (Table 8.2). -/
def Rec.opcode (r : Rec) : Nat := fieldAt r.bytes 0 1
/-- FENCE. -/
def Rec.fence (r : Rec) : Bool := bitOf (fieldAt r.bytes 0 8) 8
/-- NOTIFY. -/
def Rec.notify (r : Rec) : Bool := bitOf (fieldAt r.bytes 0 8) 9
/-- SIG_DONE. -/
def Rec.sigDone (r : Rec) : Bool := bitOf (fieldAt r.bytes 0 8) 10
/-- SIG_VID. -/
def Rec.sigVid (r : Rec) : Nat := bits (fieldAt r.bytes 0 8) 16 20
/-- The 64-bit operand at offset `o`. -/
def Rec.op64 (r : Rec) (o : Nat) : Nat := fieldAt r.bytes o 8
/-- The 32-bit operand at offset `o`. -/
def Rec.op32 (r : Rec) (o : Nat) : Nat := fieldAt r.bytes o 4

/-- The parameter block address of MMA, VEC, WELD and TONGS (Table 8.3). -/
def Rec.pb (r : Rec) : Nat := r.op64 8

/-! Contexts -/

/-- STEP_ROLE of a context: 0 NONE, 1 LEAD, 2 MEMBER (Table 8.12). -/
def stepRole (s : State) (c : Nat) : Nat := s.rd R.CTX_CFG_STEP_ROLE c

/-- Whether a context is a step context. -/
def isStepCtx (s : State) (c : Nat) : Bool := stepRole s c == 1 || stepRole s c == 2

/-- The step contexts that exist. -/
def stepCtxs (s : State) : List Nat := (liveCtxs s).filter (isStepCtx s)

/-- Whether work of a context carries the step tag: a step context while PHASE is not IDLE (R220). -/
def tagged (s : State) (c : Nat) : Bool := isStepCtx s c && s.tmp.phase != .idle

/-- The flights of a context that are still to complete, by ID. -/
def flightsOf (s : State) (c : Nat) : List Nat := (s.flights.filter (fun e => e.2.ctx == c && !e.2.abandoned)).map (·.1)

/-- Flight `id`. -/
def flightOf (s : State) (id : Nat) : Option Flight := (s.flights.find? (fun e => e.1 == id)).map (·.2)

/-- Flight `id` replaced. -/
def State.setFlight (s : State) (id : Nat) (f : Flight) : State := { s with flights := Tbl.set s.flights id f }

/-- Flight `id` is over. -/
def State.dropFlight (s : State) (id : Nat) : State := { s with flights := s.flights.filter (fun e => e.1 != id) }

/-- A record goes into flight on an engine; the answer is its number. -/
def launch (s : State) (c : Nat) (r : Rec) (w : Work) (left src dst len : Nat) (host : Bool) : Nat × State :=
  let f : Flight :=
    { ctx := c, record := r, work := w, step := s.tmp.step, att := s.tmp.att, tagged := tagged s c, left := left, src := src,
      dst := dst, len := len, host := host, abandoned := false, lost := false }
  (s.nextFlight, { s with flights := s.flights ++ [(s.nextFlight, f)], nextFlight := s.nextFlight + 1 })

/-- Whether a context has a record to issue. -/
def hasNext (x : Ctx) : Bool := !x.reissue.isEmpty || x.pc.isSome || !x.queue.isEmpty

/-- The save area of a non-resident context in its die's Hearth (R205). -/
def saveArea (s : State) (c : Nat) : Nat := hearthBase (homeDie s c) + 0x7FB80000 + c * 0x12000

/-- A resident context is saved (R205): its slot is free, the save is counted, and the saved form, whose layout the spec
does not give, stands in its save area. -/
def saveCtx (s : State) (c : Nat) : State :=
  let x := ctxOf s c
  if x.resident then
    ((s.setCtx c { x with resident := false }).inc R.DSP_SAVES_SAVES (homeDie s c) 1).undefine (saveArea s c) 0x12000
  else s

/-- The state of a context between records (Table 8.1): PREEMPTED and saved once nothing is in flight under PREEMPT, a
pending WAIT being suspended (R228); READY with a record to issue; WAITING with records in flight and none to issue; else
IDLE. -/
def settle (s : State) (c : Nat) : State :=
  let x := ctxOf s c
  match x.state with
  | .ready | .running | .waiting | .idle =>
    if x.cur.isSome && (x.wait.isNone || x.state == .running) then s
    else if x.preempting then
      if (flightsOf s c).isEmpty then
        let s := saveCtx s c
        raise (s.setCtx c { ctxOf s c with state := .preempted, preempting := false, block := .none, since := s.clock }) .CTX c 8
      else s.setCtx c { x with state := .waiting, block := .preempt }
    else if x.cur.isSome then s
    else if hasNext x then
      -- a record held behind its FENCE waits until nothing is in flight (R209)
      if x.block = .fence ∧ !(flightsOf s c).isEmpty then s
      else s.setCtx c { x with state := .ready, block := .none }
    else if (flightsOf s c).isEmpty then s.setCtx c { x with state := .idle, block := .none, since := s.clock }
    else s.setCtx c { x with state := .waiting, block := .inflight, since := s.clock }
  | _ => s

/-- The counter a context's VID names (R215). -/
def boundTo (s : State) (c vid : Nat) : Option Nat := (s.syn.bindings.find? (fun b => b.1 == (c, vid))).map (·.2)

/-! Counters -/

/-- Counter `k` replaced. -/
def State.setCounter (s : State) (k : Nat) (x : Counter) : State :=
  { s with syn := { s.syn with counters := Tbl.set s.syn.counters k x } }

/-- R217: GE holds when (value − VALUE) mod 2^64 < 2^63; EQ on equality. -/
def condHolds (eq : Bool) (value want : Nat) : Bool :=
  if eq then value == want else decide ((value + 2 ^ 64 - want % 2 ^ 64) % 2 ^ 64 < 2 ^ 63)

/-- R216: ADD, SET and MAX. -/
def counterApply (op old v : Nat) : Nat :=
  if op = 0 then (old + v) % 2 ^ 64 else if op = 1 then v % 2 ^ 64 else max old (v % 2 ^ 64)

/-- Whether a context's WAIT is suspended by PREEMPT (R228). -/
def suspended (x : Ctx) : Bool := x.preempting || x.state == .preempted

/-- The local waiters of counter `k` whose condition holds now have seen it hold (R217); a suspended WAIT is evaluated at
RESUME instead (R228). -/
def wakeLocal (s : State) (k value : Nat) : State :=
  (waitersOf s k).foldl (fun s c =>
    let x := ctxOf s c
    match x.wait with
    | some w =>
      if condHolds w.eq value w.value && w.notified.isNone && !suspended x then
        s.setCtx c { x with wait := some { w with notified := some value } }
      else s
    | none => s) s

/-- Subscriptions on counter `k` whose condition holds are notified once and dropped (R221). -/
def notifySubs (s : State) (k value : Nat) (stepFlag : Bool) : State :=
  let hit := s.syn.subs.filter (fun b => b.phys == k && condHolds b.eq value b.value)
  let s := { s with syn := { s.syn with subs := s.syn.subs.filter (fun b => !(b.phys == k && condHolds b.eq value b.value)) } }
  hit.foldl (fun s b => queuePkt s b.node (signalPkt s 2 0 0 (stepFlag && s.tmp.phase != .idle) k value b.subId b.ctx .reply)) s

/-- The counter takes a value: its waiters and subscribers are served. -/
def counterSet (s : State) (k : Nat) (x : Counter) (v : Nat) : State :=
  notifySubs (wakeLocal (s.setCounter k { x with value := v }) k v) k v x.stepFlag

/-- One operation on counter `k` (R216); on a BROKEN counter it is dropped. -/
def counterOp (s : State) (k op v : Nat) : State :=
  match counterOf s k with
  | some x => if x.broken then s else counterSet s k x (counterApply op x.value v)
  | none => s

/-! Errors and completion -/

/-- What CTX_ERR_SYNC, CTX_ERR_AWAIT and CTX_ERR_CUR record of a failed WAIT (R219). -/
structure SyncErr where
  vid : Nat
  phys : Nat
  node : Nat
  remote : Bool
  awaited : Nat
  current : Nat
  deriving DecidableEq, Repr

/-- No WAIT: zeros (R219). -/
def SyncErr.none : SyncErr := ⟨0, 0, 0, false, 0, 0⟩

/-- The CTX event of a command error: WAIT_TIMEOUT, SYNC_BROKEN, else CMD_ERR (R235). -/
def errEvent (source code : Nat) : Nat := if source = 0 ∧ code = 0x0B then 5 else if source = 0 ∧ code = 0x0A then 6 else 4

/-- The CTX_ERR registers of context `c` filled (R214, R219). -/
def fillErr (s : State) (c source code : Nat) (at' : Pc) (e : SyncErr) : State :=
  let s := s.wr R.CTX_ERR_CODE c code
  let s := s.wr R.CTX_ERR_SOURCE c source
  let s := s.wr R.CTX_ERR_VALID c 1
  let s := s.wr R.CTX_ERR_ADDR_ADDR c at'.code
  let s := s.wr R.CTX_ERR_SYNC_VID c e.vid
  let s := s.wr R.CTX_ERR_SYNC_PHYS c e.phys
  let s := s.wr R.CTX_ERR_SYNC_NODE c e.node
  let s := s.wr R.CTX_ERR_SYNC_REMOTE c (b2n e.remote)
  let s := s.wr R.CTX_ERR_AWAIT_AWAITED c e.awaited
  s.wr R.CTX_ERR_CUR_CURRENT c e.current

/-- CTX_ERR is cleared by RESUME, SKIP, RESET or a rewind (Table 8.12). -/
def clearErr (s : State) (c : Nat) : State := s.wr R.CTX_ERR_VALID c 0

/-- The state an error leaves a context in: FAULTED without a step role or while PHASE = IDLE, else STEP_HELD (R214). -/
def errState (s : State) (c : Nat) : CtxState := if isStepCtx s c && s.tmp.phase != .idle then .stepHeld else .faulted

/-- A command error of record `r` of context `c` (R214): recorded in CTX_ERR, logged, its event raised. The context stops,
and a step context that enters STEP_HELD makes the module send STOP (R232). A record in which the context is blocked beside
`r` is issued again later; a WAIT among them keeps its timer. A PREEMPTED context stays so and shows the error at RESUME
(R228). A context in QUARANTINE drops it (R229). -/
def cmdErrorAt (s : State) (c source code : Nat) (r : Rec) (e : SyncErr) : State :=
  let x := ctxOf s c
  match x.state with
  | .free | .quarantine => s
  | _ =>
    let sync := e.vid + e.phys * 2 ^ 20 + e.node * 2 ^ 36 + b2n e.remote * 2 ^ 52
    let s := fillErr s c source code r.at' e
    let s := logErr s .CTX c (source * 256 + code) .COMMAND (homeDie s c) r.at'.code [sync, e.awaited, e.current]
    let s := raise s .CTX c (errEvent source code)
    let other := (match x.cur with | some b => if b = r then [] else [b] | none => []) ++ x.reissue
    let wait := match x.wait with | some w => if w.record = r then none else some w | none => none
    let y := { x with failed := some r, cur := none, reissue := other, wait := wait }
    match x.state with
    | .preempted => s.setCtx c { y with deferredErr := true }
    | .faulted | .stepHeld =>
      let old := match x.failed with | some q => if q.bytes.isEmpty then [] else [q] | none => []
      s.setCtx c { y with reissue := old ++ other }
    | _ =>
      let st := errState s c
      let s := s.setCtx c { y with state := st, block := .none, preempting := false, since := s.clock }
      if st = .stepHeld ∧ stepUnderWay s then sendStopBurst s .stopReceived else s

/-- A command error of the record a context is executing (R214). -/
def cmdError (s : State) (c : Nat) (r : Rec) (source code : Nat) : State := cmdErrorAt s c source code r SyncErr.none

/-- Completion of a record (R209): SIG_DONE adds 1 to its counter, NOTIFY raises the event, CTX_RETIRED counts it. -/
def completeRec (s : State) (c : Nat) (r : Rec) : State :=
  let s := s.inc R.CTX_RETIRED_RETIRED c 1
  let s := raiseIf r.notify s .CTX c 10
  if r.sigDone then
    match boundTo s c r.sigVid with
    | some k => counterOp s k 0 1
    | none => s
  else s

/-- The record a context is executing completes and the context goes on. -/
def finishCur (s : State) (c : Nat) (r : Rec) : State :=
  let s := completeRec s c r
  let x := ctxOf s c
  settle (s.setCtx c { x with cur := none, block := .none, wait := none }) c

/-- The record a context is executing has gone into flight and the context goes on. -/
def releaseCur (s : State) (c : Nat) : State :=
  let x := ctxOf s c
  settle (s.setCtx c { x with cur := none, block := .none }) c

/-- The record in flight under `id` completes (R209). -/
def completeFlight (s : State) (id : Nat) (f : Flight) : State :=
  settle (completeRec (s.dropFlight id) f.ctx f.record) f.ctx

/-- The record in flight under `id` ends as a command error of its context (R214). -/
def failFlight (s : State) (id : Nat) (f : Flight) (source code : Nat) : State :=
  cmdErrorAt (s.dropFlight id) f.ctx source code f.record SyncErr.none

/-- The record that context `c` executes, if it holds an issue turn with one of opcode `op`. -/
def curRec (s : State) (c op : Nat) : Option Rec :=
  match (ctxOf s c).state, (ctxOf s c).cur with
  | .running, some r => if r.opcode = op then some r else none
  | _, _ => none

/-! BROKEN counters -/

/-- A waiter's WAIT ends with SYNC_BROKEN and the counter's value (R219, R230). -/
def brokenWake (s : State) (c : Nat) (w : WaitState) (value : Nat) : State :=
  cmdErrorAt s c 0 0x0A w.record ⟨w.vid, w.phys, w.remote.getD 0, w.remote.isSome, w.value, value⟩

/-- Counter `k` is marked BROKEN (R230): local waiters wake with SYNC_BROKEN, remote subscribers are sent BROKEN notices. -/
def breakCounter (s : State) (k : Nat) : State :=
  match counterOf s k with
  | none => s
  | some x =>
    if x.broken then s
    else
      let s := raise (s.setCounter k { x with broken := true }) .SYN 0 6
      let s := (waitersOf s k).foldl (fun s c =>
        match (ctxOf s c).wait with
        | some w => brokenWake s c w x.value
        | none => s) s
      let hit := s.syn.subs.filter (fun b => b.phys == k)
      let s := { s with syn := { s.syn with subs := s.syn.subs.filter (fun b => b.phys != k) } }
      hit.foldl (fun s b => queuePkt s b.node (signalPkt s 3 0 0 false k x.value b.subId b.ctx .reply)) s

/-- The counters a context owns are marked BROKEN (Table 8.9 step 3). -/
def breakOwned (s : State) (c : Nat) : State :=
  (s.syn.counters.filter (fun e => e.2.owner == c)).foldl (fun s e => breakCounter s e.1) s

/-- The subscription a context holds at another module is cancelled (R221, Table 8.9). -/
def cancelSub (s : State) (c : Nat) : State :=
  match (ctxOf s c).wait with
  | some w =>
    (match w.remote with
     | some node => queuePkt s node (signalPkt s 4 0 0 (tagged s c) w.phys w.value w.subId c .reply)
     | none => s)
  | none => s

/-! Abandoned work -/

/-- Whether some packet of flight `id` is injected and unacknowledged, or a READ of it awaits its DATA. -/
def hasPackets (s : State) (id : Nat) : Bool :=
  s.xp.flows.any (fun e => e.2.unacked.any (fun u => ownedBy id u.pkt.owner) || e.2.reads.any (fun r => ownedBy id r.owner))

/-- Abandoned flights are forgotten once their last injected packet is acknowledged or its flow has failed (R490). -/
def prune (s : State) : State :=
  { s with flights := s.flights.filter (fun e => !e.2.abandoned || hasPackets s e.1) }

/-- The flights of `ids` are abandoned: no new packet of them is injected (R224, R490). -/
def abandonFlights (s : State) (ids : List Nat) : State :=
  let s := { s with flights := s.flights.map (fun e => if ids.contains e.1 then (e.1, { e.2 with abandoned := true }) else e) }
  prune (abandonPackets s (fun o => ids.any (fun id => ownedBy id o)))

/-! Requests that cannot be served -/

/-- Whether the host link serves requests of the device: it is up and Bus Master Enable is 1 (R435). -/
def hostUsable (s : State) : Bool := s.host.up && s.host.busMaster

/-- A request to host memory that fails (R435, R458): the HIF log entry, HOST_ERR, and the step fault FLOW_FAIL while PHASE
is not IDLE. -/
def hostFault (s : State) (unit addr code : Nat) : State :=
  let s := logErr (s.inc R.HIF_HOST_ERR_HOST_ERR 0 1) .HIF 0 code (stepClass s .COMMAND) unit addr [0, 0, 0]
  stepFault (raise s .HIF 0 4) .flowFail

/-- A request of the record `r` that no edge can carry (R467, R478): UNREACHABLE, with the step fault UNCORRECTABLE. -/
def unreachable (s : State) (c : Nat) (r : Rec) : State := cmdError (stepFault s .uncorrectable) c r 9 2

/-- What stops the record `r` of context `c` from reaching its memory, if anything does: a domain in reset (R375, R397), a die
without a working edge (R467) or a host link that does not serve (R435). -/
def unservable (s : State) (c : Nat) (r : Rec) (accs : List (Nat × Nat)) : Option State :=
  match accs.findSome? (fun a => (accessBlocked s a.1 a.2).map (fun d => (d, a.1))) with
  | some (d, a) => some (cmdError (domainBlocked s d a) c r 7 1)
  | none =>
    if accs.any (fun a => outOfReach s (homeDie s c) a.1 a.2) then some (unreachable s c r)
    else match accs.find? (fun a => touchesHost a.1 a.2) with
    | some a => if hostUsable s then none else some (cmdError (hostFault s (homeDie s c) a.1 5) c r 8 5)
    | none => none

end Sys2Proof.Machine
end

