-- ==== Sys2Proof/Machine/Contexts.lean ====
section
/-! DEFINITION. The context family (chapter 8): submission, residency, issue and its checks, control flow, copies, sync
counters and the SYN page, Periscope and pre-emption. Resets and teardown are in Abandon.lean, the step records in Temper.lean, the
packets in Transport.lean, HEAT in Power.lean. -/

namespace Sys2Proof.Machine

open Sys2Proof

/-! Submission -/

/-- A record arrives for context `c` (R208). -/
def submitTo (s : State) (c : Nat) (data : List Byte) : State :=
  let x := ctxOf s c
  if x.state = .free ∨ x.state = .quarantine ∨ 1024 ≤ x.queue.length then
    raise (s.inc R.CTX_OVF_OVF c 1) .CTX c 9
  else settle (s.setCtx c { x with queue := x.queue ++ [data] }) c

/-- Whether context `c` is a guest context: a guest die is admitted (R203). -/
def isGuestCtx (s : State) (c : Nat) : Bool := 60 ≤ c && guestAdmitted s

/-- RECORD_SUBMIT (R208): a host write at offset `off` of the command window; a guest context is fed only by the guest die
(R203), so a host write to its slot is dropped. -/
def execRecordSubmit (off : Nat) (data : List Byte) (s : State) : Outcome :=
  let c := off / 0x10000
  onUnit s c 64 (
    if data.length ≠ 64 ∨ off % 64 ≠ 0 then badAccess s
    else if isGuestCtx s c then s
    else submitTo s c data)

/-! Creation -/

/-- Context `c` is created (R207). -/
def createCtx (s : State) (c : Nat) : State :=
  if (ctxOf s c).state = .free ∧ s.map.valid then
    let s := s.setCtx c { Ctx.freed with state := .idle, since := s.clock }
    clearErr (clearAflags s c) c
  else s

/-- CREATE (R207). -/
def execCreate (ctx : Nat) (s : State) : Outcome := onUnit s ctx 64 (createCtx s ctx)

/-! Pre-emption and error recovery -/

/-- PREEMPT (R228): taken in IDLE, READY, RUNNING and WAITING. -/
def preemptCtx (s : State) (c : Nat) : State :=
  let x := ctxOf s c
  match x.state with
  | .idle | .ready | .running | .waiting => settle (s.setCtx c { x with preempting := true }) c
  | _ => s

/-- PREEMPT (R228). -/
def execPreempt (ctx : Nat) (s : State) : Outcome := onUnit s ctx 64 (preemptCtx s ctx)

/-- Whether the WAIT of a context may complete now (R217, R228): a NOTIFY or a local condition seen, or one that holds. -/
def waitHolds (s : State) (w : WaitState) : Bool :=
  w.notified.isSome || (w.remote.isNone &&
    (match counterOf s w.phys with | some k => condHolds w.eq k.value w.value | none => false))

/-- RESUME of a PREEMPTED context (R228): its deferred error shows, or its suspended WAIT is evaluated again. -/
def resumePreempted (s : State) (c : Nat) : State :=
  let x := ctxOf s c
  if x.deferredErr then
    let st := errState s c
    let s := s.setCtx c { x with state := st, deferredErr := false, since := s.clock }
    if st = .stepHeld ∧ stepUnderWay s then sendStopBurst s .stopReceived else s
  else
    match x.wait, x.cur with
    | some w, some r =>
      let s := s.setCtx c { x with state := .waiting, block := .wait, since := s.clock }
      if waitHolds s w then finishCur s c r else s
    | _, _ => settle (s.setCtx c { x with state := .waiting }) c

/-- A failed fetch is no record: RESUME fetches again, SKIP goes past it. -/
def Rec.fetched (r : Rec) : Bool := !r.bytes.isEmpty

/-- RESUME (R214, R228). -/
def resumeCtx (s : State) (c : Nat) : State :=
  let x := ctxOf s c
  match x.state with
  | .preempted => resumePreempted s c
  | .faulted =>
    let again := match x.failed with | some r => if r.fetched then [r] else [] | none => []
    settle ((clearErr s c).setCtx c { x with state := .waiting, block := .none, failed := none, reissue := again ++ x.reissue }) c
  | _ => s

/-- RESUME (R228). -/
def execResume (ctx : Nat) (s : State) : Outcome := onUnit s ctx 64 (resumeCtx s ctx)

/-- SKIP (R214): FAULTED only; the failed record is left behind. -/
def skipCtx (s : State) (c : Nat) : State :=
  let x := ctxOf s c
  if x.state = .faulted then
    let pc := match x.failed, x.pc with
      | some r, some a => if r.fetched then x.pc else some (a + 64)
      | _, p => p
    settle ((clearErr s c).setCtx c { x with state := .waiting, block := .none, failed := none, pc := pc }) c
  else s

/-- SKIP (R214). -/
def execSkip (ctx : Nat) (s : State) : Outcome := onUnit s ctx 64 (skipCtx s ctx)

/-! Residency -/

/-- The contexts that hold a residency slot. -/
def residents (s : State) : List Nat := (List.range 64).filter (fun c => (ctxOf s c).resident)

/-- Whether a READY context waits for a slot. -/
def slotWanted (s : State) : Bool := (List.range 64).any (fun c => (ctxOf s c).state == .ready && !(ctxOf s c).resident)

/-- Whether a resident context may be saved for another (R205): WAITING or FAULTED for SAVE_AFTER with nothing in flight. -/
def savable (s : State) (c : Nat) : Bool :=
  let x := ctxOf s c
  (x.state == .waiting || x.state == .faulted) && (flightsOf s c).isEmpty
    && x.since + max 1 (s.rd R.DSP_CFG_SAVE_AFTER (homeDie s c)) * 1000 ≤ s.clock

/-- CTX_SAVE (R205): an IDLE resident context at once; for a READY context without a slot, the resident context that has
been WAITING or FAULTED longest. -/
def saveOp (s : State) (c : Nat) : State :=
  let x := ctxOf s c
  if !x.resident ∨ !(flightsOf s c).isEmpty then s
  else if x.state = .idle then saveCtx s c
  else if 16 ≤ (residents s).length ∧ slotWanted s ∧ savable s c
      ∧ (residents s).all (fun d => !savable s d || x.since ≤ (ctxOf s d).since) then saveCtx s c
  else s

/-- CTX_SAVE (R205). -/
def execCtxSave (ctx : Nat) (s : State) : Outcome := onUnit s ctx 64 (saveOp s ctx)

/-- CTX_LOAD (R205): a READY context takes a free residency slot. -/
def loadOp (s : State) (c : Nat) : State :=
  let x := ctxOf s c
  if x.state = .ready ∧ !x.resident ∧ (residents s).length < 16 then
    (s.setCtx c { x with resident := true }).inc R.DSP_LOADS_LOADS (homeDie s c) 1
  else s

/-- CTX_LOAD (R205). -/
def execCtxLoad (ctx : Nat) (s : State) : Outcome := onUnit s ctx 64 (loadOp s ctx)

/-! Checks of a record (R211, R212, Table 8.5) -/

/-- The operand fields of an opcode as (byte offset, bit, width); none for a reserved opcode (Table 8.3). A local VID has 20
bits, a remote PHYS 16 (R220); device addresses have 48 (R156). -/
def operandFields (op : Nat) (remote : Bool) : Option (List (Nat × Nat × Nat)) :=
  let vid := (8, 0, if remote then 16 else 20)
  match op with
  | 0x00 | 0x09 | 0x51 | 0x52 => some []
  | 0x08 | 0x20 | 0x21 | 0x30 | 0x38 | 0x58 | 0x59 => some [(8, 0, 48)]
  | 0x0A => some [(8, 0, 13), (0xC, 0, 32), (0x10, 0, 32)]
  | 0x10 => some [(8, 0, 48), (0x10, 0, 48), (0x18, 0, 40), (0x20, 0, 18)]
  | 0x12 => some [(8, 0, 48), (0x10, 0, 32), (0x14, 0, 20), (0x18, 0, 48), (0x20, 0, 48)]
  | 0x40 => some [vid, (0xC, 0, 19), (0x10, 0, 64)]
  | 0x41 => some [vid, (0xC, 0, 20), (0xC, 24, 6), (0x10, 0, 64)]
  | 0x50 => some [(8, 0, 48), (0x10, 0, 32), (0x18, 0, 64), (0x20, 0, 64)]
  | 0x53 => some [(8, 0, 7), (8, 8, 8), (0xC, 0, 16)]
  | _ => none

/-- The mask of a field within the 512-bit record. -/
def fieldMask (f : Nat × Nat × Nat) : Nat := (2 ^ f.2.2 - 1) * 2 ^ (8 * f.1 + f.2.1)

/-- Word 0 outside SIG_VID and the flags is reserved (Table 8.2). -/
def word0Mask : Nat := (2 ^ 12 - 1) + (2 ^ 20 - 1) * 2 ^ 16

/-- REMOTE of COPY, SIGNAL and WAIT (Table 8.3). -/
def Rec.remote (r : Rec) : Bool := if r.opcode = 0x10 then bitOf (r.op32 0x20) 16 else bitOf (r.op32 0xC) 16
/-- NODE of COPY, SIGNAL and WAIT. -/
def Rec.node (r : Rec) : Nat := bits (if r.opcode = 0x10 then r.op32 0x20 else r.op32 0xC) 0 16
/-- PUSH of COPY. -/
def Rec.push (r : Rec) : Bool := bitOf (r.op32 0x20) 17
/-- LEN of COPY. -/
def Rec.len (r : Rec) : Nat := bits (r.op64 0x18) 0 40
/-- OP of SIGNAL. -/
def Rec.sigOp (r : Rec) : Nat := bits (r.op32 0xC) 17 2
/-- COND of WAIT. -/
def Rec.cond (r : Rec) : Nat := bits (r.op32 0xC) 17 3
/-- T of WAIT. -/
def Rec.timeCode (r : Rec) : Nat := bits (r.op32 0xC) 24 6
/-- VID, or PHYS when REMOTE, of SIGNAL and WAIT. -/
def Rec.vid (r : Rec) : Nat := if r.remote then bits (r.op32 8) 0 16 else bits (r.op32 8) 0 20
/-- BACK of LOOP. -/
def Rec.back (r : Rec) : Nat := bits (r.op32 8) 0 13
/-- COUNT of LOOP. -/
def Rec.count (r : Rec) : Nat := r.op32 0xC
/-- BATCH_LEN of HOLD. -/
def Rec.batchLen (r : Rec) : Nat := r.op32 0x10

/-- Whether a record has a reserved bit set, or a reserved OP or COND (R211, R216, R217). -/
def reservedSet (r : Rec) : Bool :=
  match operandFields r.opcode r.remote with
  | none => true
  | some fs =>
    let allowed := word0Mask ||| (fs.map fieldMask).foldl (· ||| ·) 0
    let v := leNat (r.bytes.take 64)
    v - (v &&& allowed) != 0 || (r.opcode == 0x40 && r.sigOp == 3) || (r.opcode == 0x41 && 2 ≤ r.cond)

/-- An address of a record as its context sees it. -/
def Rec.addr (s : State) (c : Nat) (r : Rec) (o : Nat) : Nat := localise (homeDie s c) (r.op64 o)

/-- The local accesses of a record that the dispatcher checks, as (write, address, length) (R168). -/
def recAccesses (s : State) (c : Nat) (r : Rec) : List (Bool × Nat × Nat) :=
  match r.opcode with
  | 0x10 =>
    if r.len = 0 then []
    else if r.remote then (if r.push then [(false, r.addr s c 8, r.len)] else [(true, r.addr s c 0x10, r.len)])
    else [(false, r.addr s c 8, r.len), (true, r.addr s c 0x10, r.len)]
  | 0x50 => if r.batchLen = 0 then [] else [(false, r.addr s c 8, r.batchLen)]
  | 0x58 | 0x59 => [(true, r.addr s c 8, 8)]
  | _ => []

/-- The refused access of a record, if one is (R168). -/
def recRefused (s : State) (c : Nat) (r : Rec) : Option (Bool × Nat × Nat) :=
  (recAccesses s c r).find? (fun a => !accessOk s (reqOf s c) a.1 a.2.1 a.2.2)

/-- Whether a record names a node that may not be addressed (R277). -/
def badNode (s : State) (r : Rec) : Bool :=
  r.remote && ((r.opcode == 0x10 && r.len != 0) || r.opcode == 0x40 || r.opcode == 0x41) && !destValid s r.node

/-- Whether the batch of a HOLD lies in HOSTW, PKG, DLn or a Hearth (R222). -/
def batchPlaced (s : State) (a : Nat) : Bool :=
  match windowOf s a with
  | .hostw | .hbm | .hearth _ => true
  | _ => false

/-- Whether the LOOP record `r` breaks a structural limit (R210): outside a buffer, a fifth level, COUNT or BACK out of
range. -/
def loopBad (x : Ctx) (r : Rec) : Bool :=
  match r.at', x.frames with
  | .mem a, f :: _ =>
    (4 ≤ x.loopDepth && !f.loops.any (fun l => l.1 == a)) || r.count == 0 || r.back == 0 || 4096 < r.back
      || a < f.start + 64 * r.back
  | _, _ => true

/-- Whether a record stands in the command window. -/
def Rec.inRing (r : Rec) : Bool := match r.at' with | .ring _ => true | .mem _ => false

/-- Whether an ALIGN rule of Table 8.3 is broken. -/
def misaligned (r : Rec) : Bool :=
  match r.opcode with
  | 0x08 => r.op64 8 % 64 != 0
  | 0x0A => r.op32 0x10 % 64 != 0
  | 0x10 => r.len % 64 != 0
  | 0x58 | 0x59 => r.op64 8 % 8 != 0
  | _ => false

/-- The counter of a local SIGNAL or WAIT. -/
def recCounter (s : State) (c : Nat) (r : Rec) : Option Nat := boundTo s c r.vid

/-- Whether a record is a local SIGNAL or WAIT. -/
def Rec.localSync (r : Rec) : Bool := (r.opcode == 0x40 || r.opcode == 0x41) && !r.remote

/-- Whether a local WAIT names a BROKEN counter (R230). -/
def waitsBroken (s : State) (c : Nat) (r : Rec) : Bool :=
  r.opcode == 0x41 && !r.remote &&
    (match recCounter s c r with
     | some k => (match counterOf s k with | some x => x.broken | none => false)
     | none => false)

/-- The first error of Table 8.5 in a record, in the table's order (R494); 0 for none. -/
def recCheck (s : State) (c : Nat) (r : Rec) : Nat :=
  let x := ctxOf s c
  let role := stepRole s c
  let errs : List (Bool × Nat) :=
    [ ((operandFields r.opcode r.remote).isNone, 0x01),
      (reservedSet r, 0x02),
      ((recRefused s c r).isSome || badNode s r || (r.opcode == 0x50 && r.batchLen != 0 && !batchPlaced s (r.addr s c 8)), 0x03),
      ((r.opcode == 0x08 && 8 ≤ x.frames.length) || (r.opcode == 0x09 && x.frames.isEmpty), 0x04),
      (r.opcode == 0x0A && loopBad x r, 0x05),
      ((r.opcode == 0x50 && role != 1) || (r.opcode == 0x51 && role != 2) || (r.opcode == 0x52 && !isStepCtx s c), 0x06),
      ((r.opcode == 0x50 || r.opcode == 0x51) && r.inRing, 0x07),
      (r.opcode == 0x50 && (r.batchLen == 0 || s.map.holdSize < r.batchLen + 256), 0x08),
      ((r.sigDone && (boundTo s c r.sigVid).isNone) || (r.localSync && (recCounter s c r).isNone), 0x09),
      (waitsBroken s c r, 0x0A),
      (r.opcode == 0x41 && 45 < r.timeCode, 0x0C),
      (misaligned r, 0x0D) ]
  match errs.find? (fun e => e.1) with
  | some e => e.2
  | none => 0

/-- The CTX_ERR fields of a WAIT that meets a BROKEN counter at issue (R219). -/
def brokenAtIssue (s : State) (c : Nat) (r : Rec) : SyncErr :=
  match recCounter s c r with
  | some k => ⟨r.vid, k, 0, false, r.op64 0x10, (match counterOf s k with | some x => x.value | none => 0)⟩
  | none => SyncErr.none

/-- A record takes its issue turn: checked in the order of Table 8.5, refused as a command error or left for its command
to execute (R206, R494). -/
def acceptRec (s : State) (c : Nat) (r : Rec) : State :=
  let s := s.inc R.DSP_RECORDS_RECORDS (homeDie s c) 1
  let s := s.setCtx c { ctxOf s c with state := .running, block := .none, cur := some r }
  let code := recCheck s c r
  if code = 0 then s
  else if code = 0x0A then cmdErrorAt s c 0 code r (brokenAtIssue s c r)
  else
    let s := match (if code = 3 then recRefused s c r else none) with
      | some a => refuseEffects s (reqOf s c) a.1 c a.2.1 a.2.2
      | none => s
    cmdError s c r 0 code

/-! Fetch and issue -/

/-- The LOOP that governs the record at `a`: the nearest LOOP record after it in the buffer, before a RET, whose range
covers it; `k` records ahead at first, at most `n` of them (R210). -/
def governing (s : State) (a : Nat) : Nat → Nat → Option (Nat × Nat)
  | 0, _ => none
  | n + 1, k =>
    let p := a + 64 * k
    let op := leNat (s.load (direct s p) 1)
    if op = 0x09 then none
    else if op = 0x0A ∧ k ≤ leNat (s.load (direct s (p + 8)) 2) % 8192 then some (p, leNat (s.load (direct s (p + 16)) 4))
    else governing s a n (k + 1)

/-- The bytes of a record of a buffer at `a` after IDX (R210). -/
def withIdx (s : State) (x : Ctx) (a : Nat) (bs : List Byte) : List Byte :=
  if bitOf (fieldAt bs 0 8) 11 then
    match governing s a 4096 1, x.frames with
    | some (p, step), f :: _ =>
      let it := Tbl.get 0 f.loops p
      bs.take 8 ++ leBytes 8 ((fieldAt bs 8 8 + it * step) % 2 ^ 64) ++ bs.drop 16
    | _, _ => bs
  else bs

/-- Whether a command buffer may lie at `a`: in PKG, in DLn or in the home die's Hearth (R210). -/
def bufferPlaced (s : State) (c a : Nat) : Bool :=
  (match windowOf s a with
   | .hbm => true
   | .hearth n => n == homeDie s c
   | _ => false) && accessOk s (reqOf s c) false a 64

/-- The record waits behind its FENCE (R209). -/
def fenced (s : State) (c : Nat) (bs : List Byte) : Bool := bitOf (fieldAt bs 0 8) 8 && !(flightsOf s c).isEmpty

/-- The context is WAITING behind a FENCE. -/
def blockFence (s : State) (c : Nat) : State :=
  s.setCtx c { ctxOf s c with state := .waiting, block := .fence, since := s.clock }

/-- One record of context `c` is issued (R206, R209, R210). -/
def issueFrom (s : State) (c : Nat) : State :=
  let x := ctxOf s c
  match x.reissue, x.pc, x.queue with
  | r :: rest, _, _ =>
    if fenced s c r.bytes then blockFence s c else acceptRec (s.setCtx c { x with reissue := rest }) c r
  | [], some a0, _ =>
    let a := localise (homeDie s c) a0
    let r : Rec := ⟨[], .mem a0⟩
    if !bufferPlaced s c a then cmdError (refuseEffects s (reqOf s c) false c a 64) c r 0 3
    else match accessBlocked s a 64 with
      | some d => cmdError (domainBlocked s d a) c r 7 1
      | none =>
        let bs := withIdx s x a (s.load a 64)
        if fenced s c bs then blockFence s c
        else acceptRec ((countBytes s false a 64).setCtx c { x with pc := some (a0 + 64) }) c ⟨bs, .mem a0⟩
  | [], none, bs :: rest =>
    if fenced s c bs then blockFence s c
    else acceptRec (s.setCtx c { x with queue := rest, qpos := (x.qpos + 1) % 1024 }) c ⟨bs, .ring x.qpos⟩
  | [], none, [] => s

/-- Whether issue of a context is held until the attempt's result or the resume time of a discard (R224, R286). -/
def issueHeld (s : State) (c : Nat) : Bool := isStepCtx s c && (s.attempt.frozen || s.attempt.resumeAt.isSome)

/-- The context that a dispatcher serves next (R206): the highest PRIORITY, round robin among equals. -/
def nextCtx (s : State) (die : Nat) : Option Nat :=
  let cands := (List.range 64).filter (fun c =>
    (ctxOf s c).state == .ready && (ctxOf s c).resident && homeDie s c == die && !issueHeld s c)
  let top := (cands.map (fun c => s.rd R.CTX_CFG_PRIORITY c)).foldl max 0
  let best := cands.filter (fun c => s.rd R.CTX_CFG_PRIORITY c == top)
  match best.find? (fun c => Tbl.get 64 s.served die < c) with
  | some c => some c
  | none => best.head?

/-- RECORD_ISSUE (R206). -/
def issueTurn (s : State) (die : Nat) : State :=
  if s.on R.DIE_STS_IN_RESET die then s
  else match nextCtx s die with
    | some c => issueFrom { s with served := Tbl.set s.served die c } c
    | none => s

/-- RECORD_ISSUE (R206). -/
def execRecordIssue (die : Nat) (s : State) : Outcome := onUnit s die 8 (issueTurn s die)

/-! Control flow -/

/-- A meaning of the record that context `c` executes, if it is one of opcode `op`; else nothing happens. -/
def onRec (s : State) (c op : Nat) (f : Rec → State) : Outcome :=
  onUnit s c 64 (match curRec s c op with | some r => f r | none => s)

/-- NOP (R212). -/
def execNop (ctx : Nat) (s : State) : Outcome := onRec s ctx 0x00 (fun r => finishCur s ctx r)

/-- CALL (R210): the buffer at ADDR runs, the next record is kept as the return point. -/
def callRec (s : State) (c : Nat) (r : Rec) : State :=
  let x := ctxOf s c
  let back := match x.pc with | some a => Pc.mem a | none => Pc.ring x.qpos
  finishCur (s.setCtx c { x with pc := some (r.op64 8), frames := ⟨r.op64 8, back, []⟩ :: x.frames }) c r

/-- CALL (R210). -/
def execCall (ctx : Nat) (s : State) : Outcome := onRec s ctx 0x08 (callRec s ctx)

/-- RET (R210): issue goes on after the CALL. -/
def retRec (s : State) (c : Nat) (r : Rec) : State :=
  let x := ctxOf s c
  match x.frames with
  | f :: fs =>
    let pc := match f.back with | .mem a => some a | .ring _ => none
    finishCur (s.setCtx c { x with pc := pc, frames := fs }) c r
  | [] => s

/-- RET (R210). -/
def execRet (ctx : Nat) (s : State) : Outcome := onRec s ctx 0x09 (retRec s ctx)

/-- LOOP (R210): while fewer than COUNT executions of its range are done it starts again BACK records before, with its
index one higher and the LOOPs inside its range forgotten; else its index is discarded. -/
def loopRec (s : State) (c : Nat) (r : Rec) : State :=
  let x := ctxOf s c
  match r.at', x.frames with
  | .mem a, f :: fs =>
    let lo := a - 64 * r.back
    let it := Tbl.get 0 f.loops a + 1
    let outer := f.loops.filter (fun l => l.1 != a && !(lo ≤ l.1 && l.1 < a))
    if it < r.count then
      finishCur (s.setCtx c { x with pc := some lo, frames := { f with loops := (a, it) :: outer } :: fs }) c r
    else finishCur (s.setCtx c { x with frames := { f with loops := f.loops.filter (fun l => l.1 != a) } :: fs }) c r
  | _, _ => s

/-- LOOP (R210). -/
def execLoop (ctx : Nat) (s : State) : Outcome := onRec s ctx 0x0A (loopRec s ctx)

/-! Copies -/

/-- COPY (R212, R165, R267): LEN = 0 completes at issue; a local copy goes into flight between the addresses that its
aliases name now; a remote one becomes READ or WRITE packets. -/
def copyRec (s : State) (c : Nat) (r : Rec) : State :=
  let src := r.addr s c 8
  let dst := r.addr s c 0x10
  let n := r.len
  if n = 0 then finishCur s c r
  else if r.remote then
    let mine := if r.push then src else dst
    match unservable s c r [(mine, n)] with
    | some t => t
    | none =>
      if cutOff s (homeDie s c) then unreachable s c r else
      let l := launch s c r .copyRemote (chunks n).length (if r.push then direct s src else r.op64 8)
        (if r.push then r.op64 0x10 else direct s dst) n (touchesHost mine n)
      let tag := tagged s c
      let ps := if r.push then writePkts (direct s src) (r.op64 0x10) n (.flight l.1) tag
        else readPkts (r.op64 8) (direct s dst) n (.flight l.1) tag
      releaseCur (queueAll l.2 r.node ps) c
  else
    match unservable s c r [(src, n), (dst, n)] with
    | some t => t
    | none =>
      releaseCur (launch s c r .copyLocal 1 (direct s src) (direct s dst) n (touchesHost src n || touchesHost dst n)).2 c

/-- COPY (R212). -/
def execCopy (ctx : Nat) (s : State) : Outcome := onRec s ctx 0x10 (copyRec s ctx)

/-- The end of a copy in flight (R177, R209): a local one moves its bytes, unless a domain it reaches is in reset (R397); a
remote one has had its last packet. -/
def endCopy (s : State) (id : Nat) (f : Flight) : State :=
  match f.work with
  | .copyLocal =>
    match (accessBlocked s f.src f.len).map (·, f.src), (accessBlocked s f.dst f.len).map (·, f.dst) with
    | some (d, a), _ | none, some (d, a) => failFlight (domainBlocked s d a) id f 7 1
    | none, none =>
      if f.host && !hostUsable s then s
      else if waitsTouch s f.dst f.len then s
      else if waitsHearth s f.src f.len || waitsHearth s f.dst f.len then s
      else
        let rd := readAny s f.src f.len
        completeFlight (writeAny rd.2 f.dst rd.1) id f
  | .copyRemote => if f.left = 0 then completeFlight s id f else s
  | _ => s

/-- COPY_COMPLETE (R177). -/
def execCopyComplete (id : Nat) (s : State) : Outcome :=
  live s (match flightOf s id with
    | some f => if f.abandoned || f.lost then s else endCopy s id f
    | none => s)

/-! SIGNAL and WAIT -/

/-- SIGNAL (R216, R220): a local operation at once, or one OP packet to the node. -/
def signalRec (s : State) (c : Nat) (r : Rec) : State :=
  if r.remote then
    let l := launch s c r .signal 1 0 0 0 false
    let p := signalPkt s 0 r.sigOp 0 (tagged s c) r.vid (r.op64 0x10) 0 0 (.flight l.1)
    releaseCur (queuePkt l.2 r.node p) c
  else
    match recCounter s c r with
    | some k => finishCur (counterOp s k r.sigOp (r.op64 0x10)) c r
    | none => s

/-- SIGNAL (R216). -/
def execSignal (ctx : Nat) (s : State) : Outcome := onRec s ctx 0x40 (signalRec s ctx)

/-- The timeout of code T in ns (Table 8.6): 10 µs × 2^(T/2), rounded to the nearest µs, and 60 s for 45. -/
def waitTime (t : Nat) : Nat :=
  if t = 45 then 60000000000
  else if t % 2 = 0 then 10000 * 2 ^ (t / 2)
  else (14142135623730951 * 2 ^ (t / 2) + 500000000000000) / 1000000000000000 * 1000

/-- The SUBSCRIBE of a remote WAIT is sent (R221). -/
def sendSubscribe (s : State) (c : Nat) (w : WaitState) : State :=
  queuePkt s (w.remote.getD 0)
    (signalPkt s 1 0 (b2n w.eq) (tagged s c) w.phys w.value w.subId c (.ctx c))

/-- WAIT (R217, R218, R221): done at once where a local condition holds; else the context is WAITING with its timer running
from issue. A WAIT issued again after an error beside it keeps its timer, its subscription and what it was notified. -/
def waitRec (s : State) (c : Nat) (r : Rec) : State :=
  let x := ctxOf s c
  let kept := match x.wait with | some w => if w.record = r then some w else none | none => none
  match kept with
  | some w =>
    if waitHolds s w then finishCur s c r
    else s.setCtx c { x with state := .waiting, block := .wait, since := s.clock }
  | none =>
    let phys := if r.remote then r.vid else (recCounter s c r).getD 0
    let w : WaitState :=
      { record := r, remote := if r.remote then some r.node else none, phys := phys, vid := if r.remote then 0 else r.vid,
        eq := r.cond == 1, value := r.op64 0x10, deadline := s.clock + waitTime r.timeCode, since := s.clock,
        subId := s.syn.nextSub, notified := none, lastValue := 0, busyUntil := none,
        timedOut := false }
    if waitHolds s w then finishCur s c r
    else
      let s := s.setCtx c { x with state := .waiting, block := .wait, since := s.clock, wait := some w }
      let s := settle s c
      if r.remote then
        sendSubscribe { s with syn := { s.syn with nextSub := (s.syn.nextSub + 1) % 65536 } } c w
      else s

/-- WAIT (R217). -/
def execWait (ctx : Nat) (s : State) : Outcome := onRec s ctx 0x41 (waitRec s ctx)

/-- WAIT_WAKE (R217): a WAITING context whose condition was seen to hold goes on. -/
def wakeCtx (s : State) (c : Nat) : State :=
  let x := ctxOf s c
  match x.state, x.wait, x.cur with
  | .waiting, some w, some r => if w.notified.isSome ∧ !x.preempting then finishCur s c r else s
  | _, _, _ => s

/-- WAIT_WAKE (R217). -/
def execWaitWake (ctx : Nat) (s : State) : Outcome := onUnit s ctx 64 (wakeCtx s ctx)

/-- The value CTX_ERR_CUR records of a WAIT (R219). -/
def waitValue (s : State) (w : WaitState) : Nat :=
  match w.remote with
  | some _ => w.lastValue
  | none => (match counterOf s w.phys with | some k => k.value | none => 0)

/-- The timer of a WAIT fires (R219): the step fault of a step context comes first, then the command error, then the STOP;
a remote waiter sends CANCEL (R221). -/
def timeoutCtx (s : State) (c : Nat) : State :=
  let x := ctxOf s c
  match x.wait with
  | some w =>
    if w.deadline ≤ s.clock ∧ (w.notified.isNone ∨ suspended x) then
      let during := isStepCtx s c && s.tmp.phase != .idle
      let s := cancelSub (if during then stepFault s .waitTimeout else s) c
      let s := s.setCtx c { ctxOf s c with reissue := x.reissue.filter (· != w.record) }
      let s := cmdErrorAt s c 0 0x0B w.record
        ⟨w.vid, w.phys, w.remote.getD 0, w.remote.isSome, w.value, waitValue s w⟩
      if during then sendStopBurst s .waitTimeout else s
    else s
  | none => s

/-- WAIT_TIMEOUT (R219). -/
def execWaitTimeout (ctx : Nat) (s : State) : Outcome := onUnit s ctx 64 (timeoutCtx s ctx)

/-- SUBSCRIBE_RETRY (R221): 10 µs after a BUSY the waiter subscribes again. -/
def retrySub (s : State) (c : Nat) : State :=
  let x := ctxOf s c
  match x.wait with
  | some w =>
    (match w.busyUntil with
     | some t =>
       if t ≤ s.clock then sendSubscribe (s.setCtx c { x with wait := some { w with busyUntil := none } }) c w else s
     | none => s)
  | none => s

/-- SUBSCRIBE_RETRY (R221). -/
def execSubscribeRetry (ctx : Nat) (s : State) : Outcome := onUnit s ctx 64 (retrySub s ctx)

/-! STAMP and AFLAGS -/

/-- A record that writes 8 bytes at its ADDR and completes on issue. -/
def write8 (s : State) (c : Nat) (r : Rec) (v : Nat) : Option State :=
  let a := r.addr s c 8
  match unservable s c r [(a, 8)] with
  | some _ => none
  | none => some (writeAny s a (leBytes 8 v))

/-- STAMP (R212): the fabric time at issue. -/
def stampRec (s : State) (c : Nat) (r : Rec) : State :=
  if waitsTouch s (r.addr s c 8) 8 then s
  else match write8 s c r s.now with
  | some t => finishCur t c r
  | none => (unservable s c r [(r.addr s c 8, 8)]).getD s

/-- STAMP (R212). -/
def execStamp (ctx : Nat) (s : State) : Outcome := onRec s ctx 0x58 (stampRec s ctx)

/-- AFLAGS (R212): CTX_AFLAGS as 8 bytes, then cleared. -/
def aflagsRec (s : State) (c : Nat) (r : Rec) : State :=
  if waitsTouch s (r.addr s c 8) 8 then s
  else match write8 s c r (aflags s c) with
  | some t =>
    finishCur (clearAflags t c) c r
  | none => (unservable s c r [(r.addr s c 8, 8)]).getD s

/-- AFLAGS (R212). -/
def execAflags (ctx : Nat) (s : State) : Outcome := onRec s ctx 0x59 (aflagsRec s ctx)

/-! The SYN page -/

/-- The counters of SYN_OP 1 to 5: the answer is SYN_RESULT and the state after it (R215, R236). -/
def synOp (s : State) (op : Nat) : Nat × State :=
  let phys := s.stagedOf R.SYN_PHYS_PHYS 0
  let key := (s.stagedOf R.SYN_BIND_CTX 0, s.stagedOf R.SYN_BIND_VID 0)
  let owner := s.stagedOf R.SYN_FLAGS_OWNER 0
  let init := s.stagedOf R.SYN_INIT_INIT 0
  let syn := s.syn
  let bound := syn.bindings.any (fun b => b.1 == key)
  match op, counterOf s phys with
  | 1, some _ => (1, s)
  | 1, none =>
    if (ctxOf s owner).state = .free then (6, s)
    else (0, s.setCounter phys
      { value := init, init := init, owner := owner, remoteOk := s.stagedOf R.SYN_FLAGS_REMOTE_OK 0 == 1,
        stepFlag := s.stagedOf R.SYN_FLAGS_STEP 0 == 1, broken := false })
  | 2, some _ =>
    if syn.bindings.any (fun b => b.2 == phys) || !(waitersOf s phys).isEmpty || syn.subs.any (fun b => b.phys == phys) then (7, s)
    else (0, { s with syn := { syn with counters := syn.counters.filter (fun e => e.1 != phys) } })
  | 3, some _ =>
    if bound then (3, s)
    else if 131072 ≤ syn.bindings.length then (5, s)
    else (0, { s with syn := { syn with bindings := syn.bindings ++ [(key, phys)] } })
  | 4, _ =>
    if bound then (0, { s with syn := { syn with bindings := syn.bindings.filter (fun b => b.1 != key) } }) else (4, s)
  | 5, some x => (0, s.setCounter phys { x with broken := false })
  | 2, none | 3, none | 5, none => (2, s)
  | _, _ => (8, s)

/-- The staged SYN apply is taken (R236): it performs OP and writes SYN_RESULT, and a nonzero result refuses it (R52). -/
def takeSyn (s : State) : State :=
  let r := synOp s (s.stagedOf R.SYN_OP_OP 0)
  let t := r.2.wr R.SYN_RESULT_RESULT 0 r.1
  if r.1 = 0 then commitApply t .SYN 0 else refuseApply t .SYN 0 []

/-- The staged SYN apply is taken if it is one of operation `op`. -/
def takeSynOp (s : State) (op : Nat) : State :=
  if armPending s .SYN 0 && s.stagedOf R.SYN_OP_OP 0 == op then takeSyn s else s

/-- ALLOC (R236). -/
def execAlloc (s : State) : Outcome := live s (takeSynOp s 1)
/-- FREE (R236). -/
def execFree (s : State) : Outcome := live s (takeSynOp s 2)
/-- BIND (R236). -/
def execBind (s : State) : Outcome := live s (takeSynOp s 3)
/-- UNBIND (R236). -/
def execUnbind (s : State) : Outcome := live s (takeSynOp s 4)
/-- CLEAR_BROKEN (R236). -/
def execClearBroken (s : State) : Outcome := live s (takeSynOp s 5)

/-! Periscope (R227) -/

/-- busy(c) of R227. -/
def pscBusy (s : State) (c : Nat) : Bool :=
  (ctxOf s c).state == .ready || (ctxOf s c).state == .running || (ctxOf s c).state == .waiting

/-- The counter that holds context `c`, if held(c) of R227. -/
def pscHeld (s : State) (c : Nat) : Option (Nat × Counter) :=
  let x := ctxOf s c
  match x.wait with
  | some w =>
    (match counterOf s w.phys with
     | some k =>
       if x.state = .waiting ∧ x.block = .wait ∧ w.remote.isNone ∧ x.since + 1000000 ≤ s.clock ∧ !k.remoteOk ∧ !k.broken
           ∧ (flightsOf s c).isEmpty then some (w.phys, k) else none
     | none => none)
  | none => none

/-- dead of R227. -/
def pscDead (s : State) : Bool :=
  (List.range 64).any (pscBusy s) && (List.range 64).all (fun c =>
    !pscBusy s c || (match pscHeld s c with
      | some (_, k) => pscBusy s k.owner && (pscHeld s k.owner).isSome
      | none => false))

/-- The PSC_EDGE entry of context `c` (Table 8.14). -/
def writeEdge (s : State) (c : Nat) : State :=
  match pscHeld s c with
  | some (p, k) => ((s.wr (R.PSC_EDGE_VALID c) 0 1).wr (R.PSC_EDGE_OWNER c) 0 k.owner).wr (R.PSC_EDGE_PHYS c) 0 p
  | none => ((s.wr (R.PSC_EDGE_VALID c) 0 0).wr (R.PSC_EDGE_OWNER c) 0 0).wr (R.PSC_EDGE_PHYS c) 0 0

/-- One evaluation of the wait graph (R227). -/
def evalWaits (s : State) : State :=
  if s.on R.PSC_CTL_EN 0 then
    let held := (List.range 64).filter (fun c => (pscHeld s c).isSome)
    let s' := s.wr R.PSC_STS_COUNT 0 held.length
    if pscDead s then
      if s.on R.PSC_STS_DEADLOCK 0 then s'
      else
        let s' := (List.range 64).foldl writeEdge (s'.wr R.PSC_STS_DEADLOCK 0 1)
        raise ((s'.wr R.PSC_TIME_TIME 0 s.now).inc R.PSC_DECLARED_DECLARED 0 1) .PSC 0 4
    else s'.wr R.PSC_STS_DEADLOCK 0 0
  else s

/-- PERISCOPE_EVAL (R227). -/
def execPeriscopeEval (s : State) : Outcome := live s (evalWaits s)

end Sys2Proof.Machine
end

