-- ==== Sys2Proof/Machine/Anvil.lean ====
section
/-! DEFINITION. The Anvil family (chapter 3): MMA records and their checks, the decomposition into chains and tiles, the
summation order with overflow replay, unit states, test claims and clock gating; and Loupe's selection and capture of a
tile (R338, R339). -/

namespace Sys2Proof.Machine

open Sys2Proof

/-! Parameters (R69, R213) -/

/-- The 128 bytes of a parameter block as MMA parameters (Table 8.4); HEARTH_LOCAL addresses are those of the home die. -/
def mmaParams (die : Nat) (pb : List Byte) : MmaParams :=
  let w := fieldAt pb 8 4
  let a := fun o => localise die (fieldAt pb o 8)
  { m := fieldAt pb 0 2 + 1, n := fieldAt pb 2 2 + 1, k := bits (fieldAt pb 4 4) 0 20 + 1, aFmt := bits w 0 4,
    bFmt := bits w 4 4, outFmt := bits w 8 4, shape := bits w 12 3, load := bitOf w 15, split := bits w 16 3 + 1,
    aStrided := bitOf w 19, bStrided := bitOf w 20, aAddr := a 0x10, bAddr := a 0x18, cAddr := a 0x20, dAddr := a 0x28,
    pAddr := a 0x30, aStride := fieldAt pb 0x38 4, bStride := fieldAt pb 0x3C 4, cStride := fieldAt pb 0x40 4,
    dStride := fieldAt pb 0x44 4, aScale := a 0x48, bScale := a 0x50, aScaleStride := fieldAt pb 0x58 4,
    bScaleStride := fieldAt pb 0x5C 4 }

/-- The bits of an MMA parameter block that Table 8.4 gives a meaning, as (byte offset, bit, width). -/
def mmaPbFields : List (Nat × Nat × Nat) :=
  [(0, 0, 32), (4, 0, 20), (8, 0, 21), (0x10, 0, 48), (0x18, 0, 48), (0x20, 0, 48), (0x28, 0, 48), (0x30, 0, 48), (0x38, 0, 32),
    (0x3C, 0, 32), (0x40, 0, 32), (0x44, 0, 32), (0x48, 0, 48), (0x50, 0, 48), (0x58, 0, 32), (0x5C, 0, 32)]

/-- Whether a parameter block has a reserved bit set (R494 step 3). -/
def pbReserved (fs : List (Nat × Nat × Nat)) (pb : List Byte) : Bool :=
  let v := leNat pb
  v - (v &&& (fs.map fieldMask).foldl (· ||| ·) 0) != 0

/-- Rows and columns of a tile of a shape (Table 3.7). -/
def tileDims (shape : Nat) : Nat × Nat :=
  match shape with
  | 0 => (128, 128) | 1 => (64, 256) | 2 => (256, 64) | 3 => (32, 512) | _ => (512, 32)

/-- Mt. -/
def MmaParams.mt (p : MmaParams) : Nat := (tileDims p.shape).1
/-- Nt. -/
def MmaParams.nt (p : MmaParams) : Nat := (tileDims p.shape).2
/-- Output tiles per row of tiles. -/
def MmaParams.tileCols (p : MmaParams) : Nat := ceilDiv p.n p.nt
/-- Output tiles T (R493). -/
def MmaParams.tiles (p : MmaParams) : Nat := ceilDiv p.m p.mt * p.tileCols
/-- K groups G (R73). -/
def MmaParams.groups (p : MmaParams) : Nat := ceilDiv p.k 32
/-- Whether both operands are MXFP4. -/
def MmaParams.fp4 (p : MmaParams) : Bool := p.aFmt == 9 && p.bFmt == 9
/-- Whether the operands are BF16 or FP16. -/
def MmaParams.half (p : MmaParams) : Bool := p.aFmt == 1 || p.aFmt == 2
/-- Whether the operands are INT8. -/
def MmaParams.int8 (p : MmaParams) : Bool := p.aFmt == 0xB
/-- Whether the operands are MX types. -/
def MmaParams.mx (p : MmaParams) : Bool := isMx p.aFmt
/-- Gmax (R73). -/
def MmaParams.gmax (p : MmaParams) : Nat := if p.fp4 then 128 else if p.half then 32 else 64
/-- First group of split `i` (R73). -/
def MmaParams.lo (p : MmaParams) (i : Nat) : Nat := i * p.groups / p.split
/-- Array cycles per K group (Tables 3.3 and 3.15). -/
def MmaParams.groupCycles (p : MmaParams) : Nat :=
  let base := if p.shape = 0 then 32 else if p.shape ≤ 2 then 40 else 68
  if p.fp4 then base / 2 else if p.half then base * 2 else base

/-- Bytes of one element (R491). -/
def elemSize (code : Nat) : Nat := if code = 1 ∨ code = 2 then 2 else 1

/-- Bytes of one MX block (Table 4.2). -/
def mxBytes (code : Nat) : Nat := 4 * mxBits code

/-- Bytes that one row of A or column of B spans along K, K-contiguous (R491). -/
def kBytes (code k : Nat) : Nat := if isMx code then ceilDiv k 32 * mxBytes code else k * elemSize code

/-- Bytes of one output element (R491). -/
def MmaParams.outSize (p : MmaParams) : Nat := if p.outFmt = 1 then 2 else 4

/-- The rows an operand touches, as (base, count, stride, bytes each) (R491): A or B with `r` rows or columns. -/
def operandRows (addr stride code r k : Nat) (strided : Bool) : Nat × Nat × Nat × Nat :=
  if strided then (addr, k, stride, r * elemSize code) else (addr, r, stride, kBytes code k)

/-- The regions of a command as (write, rows): A, B, the scale arrays, C, D and P where used (R491, R493). -/
def mmaRegions (p : MmaParams) : List (Bool × Nat × Nat × Nat × Nat) :=
  [(false, operandRows p.aAddr p.aStride p.aFmt p.m p.k p.aStrided),
    (false, operandRows p.bAddr p.bStride p.bFmt p.n p.k p.bStrided)]
  ++ (if p.mx then [(false, p.aScale, p.m, p.aScaleStride, p.groups), (false, p.bScale, p.n, p.bScaleStride, p.groups)] else [])
  ++ (if p.load then [(false, p.cAddr, p.m, p.cStride, p.n * 4)] else [])
  ++ [(true, p.dAddr, p.m, p.dStride, p.n * p.outSize)]
  ++ (if 1 < p.split then [(true, p.pAddr, 1, 0, p.tiles * (p.split - 1) * 0x10000)] else [])

/-- The span of a region: first byte and length (R71). -/
def spanOf (r : Nat × Nat × Nat × Nat) : Nat × Nat := (r.1, (r.2.1 - 1) * r.2.2.1 + r.2.2.2)

/-- Whether a range lies in the Hearth of a die (R70). -/
def inHearth (die a n : Nat) : Bool := hearthBase die ≤ a && a + n ≤ hearthBase die + hearthSize

/-- Whether two ranges share a byte. -/
def overlap (a b : Nat × Nat) : Bool := decide (a.1 < b.1 + b.2 ∧ b.1 < a.1 + a.2)

/-- R71: D meets nothing but a C that equals it exactly; P meets nothing. -/
def mmaOverlap (p : MmaParams) : Bool :=
  let ab := (mmaRegions { p with load := false, split := 1 }).dropLast.map (fun r => spanOf r.2)
  let d := (p.dAddr, (p.m - 1) * p.dStride + p.n * p.outSize)
  let c := (p.cAddr, (p.m - 1) * p.cStride + p.n * 4)
  let pp := (p.pAddr, p.tiles * (p.split - 1) * 0x10000)
  ab.any (overlap d) || (p.load && overlap c d && !(p.cAddr == p.dAddr && p.cStride == p.dStride && c == d))
    || (1 < p.split && (ab.any (overlap pp) || overlap pp d || (p.load && overlap pp c)))

/-- Whether an operand pair and output format stand in Table 3.3. -/
def pairAllowed (p : MmaParams) : Bool :=
  let fp8 := fun c => c == 3 || c == 4
  let float := (fp8 p.aFmt && fp8 p.bFmt) || (isMx p.aFmt && isMx p.bFmt) || (p.aFmt == 1 && p.bFmt == 1)
    || (p.aFmt == 2 && p.bFmt == 2)
  (float && (p.outFmt == 0 || p.outFmt == 1)) || (p.aFmt == 0xB && p.bFmt == 0xB && p.outFmt == 0xC)

/-- The first refusal code of Table 3.6 that applies; 0 for none (R69). -/
def mmaCheck (die : Nat) (p : MmaParams) : Nat :=
  let addrs := (mmaRegions p).map (fun r => r.2.1)
  let strides := [p.aStride, p.bStride, p.dStride] ++ (if p.load then [p.cStride] else [])
    ++ (if p.mx then [p.aScaleStride, p.bScaleStride] else [])
  if !pairAllowed p then 1
  else if 4 < p.shape then 2
  else if 65536 < p.m ∨ 65536 < p.n ∨ 1048576 < p.k then 3
  else if p.groups < p.split ∨ (1 < p.split ∧ 64 < p.tiles) then 4
  else if (mmaRegions p).any (fun r => !inHearth die (spanOf r.2).1 (spanOf r.2).2) || addrs.any (· % 64 != 0)
      || strides.any (· % 64 != 0) then 5
  else if mmaOverlap p then 6
  else if p.mx ∧ (p.aStrided ∨ p.bStrided) then 7
  else 0

/-- The accesses of a region row by row. -/
def regionRows (r : Nat × Nat × Nat × Nat) : List (Nat × Nat) := (List.range r.2.1).map (fun i => (r.1 + i * r.2.2.1, r.2.2.2))

/-- A region of a command that the Hearth owner classes refuse to its context (R174). -/
def refusedRegion (s : State) (c : Nat) (rs : List (Bool × Nat × Nat × Nat × Nat)) : Option (Bool × Nat × Nat) :=
  (rs.flatMap (fun r => (regionRows r.2).map (fun a => (r.1, a)))).find? (fun a => !accessOk s (reqOf s c) a.1 a.2.1 a.2.2)

/-- A record whose parameter block or operands a context may not touch: the refusal of R168. -/
def refuseAccess (s : State) (c : Nat) (r : Rec) (a : Bool × Nat × Nat) : State :=
  cmdError (refuseEffects s (reqOf s c) a.1 c a.2.1 a.2.2) c r 0 3

/-- Whether a range meets the ACTIVE alias of a bank pair (R18). -/
def meetsActive (s : State) (a : Nat × Nat) : Bool :=
  (List.range 3).any (fun p => overlap a (aliasBase (2 * p), pairSize s.map p))

/-- The step fault of a refused command that would write through an ACTIVE alias (R18). -/
def bankWriteFault (s : State) (rs : List (Bool × Nat × Nat × Nat × Nat)) : State :=
  if rs.any (fun r => r.1 && meetsActive s (spanOf r.2)) then stepFault s .bankWrite else s

/-- MMA (R69, R93, R494): the block is read, the checks run in their order, and the command joins the die's work. -/
def mmaRec (s : State) (c : Nat) (r : Rec) : State :=
  let die := homeDie s c
  let pb := localise die r.pb
  if pb % 64 ≠ 0 ∨ !inHearth die pb 128 then cmdError s c r 1 5
  else if !accessOk s (reqOf s c) false pb 128 then refuseAccess s c r (false, pb, 128)
  else match unservable s c r [(pb, 128)] with
  | some t => t
  | none =>
    let bs := s.load pb 128
    let p := mmaParams die bs
    if pbReserved mmaPbFields bs then cmdError s c r 0 2
    else if mmaCheck die p ≠ 0 then
      cmdError (if mmaCheck die p = 5 then bankWriteFault s (mmaRegions p) else s) c r 1 (mmaCheck die p)
    else match refusedRegion s c (mmaRegions p) with
    | some a => refuseAccess s c r a
    | none =>
      let l := launch s c r .mma 1 0 0 0 false
      let m : Mma := { die := die, ctx := c, p := p, next := 0, moved := [], parts := [], written := 0 }
      releaseCur { l.2 with eng := { l.2.eng with mmas := l.2.eng.mmas ++ [(l.1, m)] } } c

/-- MMA (R69). -/
def execMma (ctx : Nat) (s : State) : Outcome := onRec s ctx 0x20 (mmaRec s ctx)

/-! Reading operands (R491) -/

/-- Element `(r, k)` of an operand of `code`: row `r` of A or column `r` of B; padding is +0. -/
def operandElem (m : Memory) (addr stride code : Nat) (strided : Bool) (rows kmax r k : Nat) : Val :=
  if rows ≤ r ∨ kmax ≤ k then Val.zero
  else if code = 0xB then
    ofInt (toSigned 8 (leNat (m.read (if strided then addr + k * stride + r else addr + r * stride + k) 1)))
  else
    let f := (fmtOf code).getD .fp32
    if isMx code then
      let w := mxBits code
      let bit := k % 32 * w
      let v := leNat (m.read (addr + r * stride + k / 32 * mxBytes code + bit / 8) 2)
      f.decode (bits v (bit % 8) w)
    else
      let z := elemSize code
      f.decode (leNat (m.read (if strided then addr + k * stride + r * z else addr + r * stride + k * z) z))

/-- Row `r` of A at `k`. -/
def elemA (m : Memory) (p : MmaParams) (r k : Nat) : Val := operandElem m p.aAddr p.aStride p.aFmt p.aStrided p.m p.k r k
/-- Column `c` of B at `k`. -/
def elemB (m : Memory) (p : MmaParams) (c k : Nat) : Val := operandElem m p.bAddr p.bStride p.bFmt p.bStrided p.n p.k c k

/-- The E8M0 scale bytes of row `r` of A and column `c` of B for group `g`; padding has 2^0. -/
def scalePair (m : Memory) (p : MmaParams) (r c g : Nat) : Nat × Nat :=
  (if r < p.m then leNat (m.read (p.aScale + r * p.aScaleStride + g) 1) else 127,
   if c < p.n then leNat (m.read (p.bScale + c * p.bScaleStride + g) 1) else 127)

/-! Arithmetic of a tile (R74 to R87) -/

/-- A node's value and whether an intermediate overflow or, at level 2, a saturation occurred (R82, R84). -/
structure Node where
  v : Val
  ovf : Bool
  deriving DecidableEq, Repr

/-- fl of an exact result at level `lv` (R82 to R84). -/
def flNode (lv : Nat) (v : Val) : Node :=
  match v with
  | .fin neg m e =>
    let r := Fmt.fp32.roundMag .rne m e
    if Fmt.fp32.overflows r.1 r.2 then
      ⟨if lv = 2 then Fmt.fp32.decode (Fmt.fp32.signBit neg + Fmt.fp32.maxBits) else .inf neg, true⟩
    else ⟨.fin neg r.1 r.2, false⟩
  | w => ⟨w, false⟩

/-- fl of a sum of two nodes. -/
def addNode (lv : Nat) (a b : Node) : Node :=
  let n := flNode lv (a.v.add b.v)
  ⟨n.v, n.ovf || a.ovf || b.ovf⟩

/-- One level of a pairwise tree; an unpaired last element passes up unchanged (R75, R79). -/
def pairUp {α : Type} (f : α → α → α) : List α → List α
  | a :: b :: t => f a b :: pairUp f t
  | l => l

/-- A pairwise tree of at most `n` levels. -/
def tree {α : Type} (f : α → α → α) (d : α) : Nat → List α → α
  | 0, l => l.headD d
  | n + 1, l => if l.length ≤ 1 then l.headD d else tree f d n (pairUp f l)

/-- The 32 products of group `g` for element `(r, c)`; for non-MX operands scaled by the level (R74, R83). -/
def products (m : Memory) (p : MmaParams) (lv r c g : Nat) : List Val :=
  (List.range 32).map (fun j =>
    let v := (elemA m p r (32 * g + j)).mul (elemB m p c (32 * g + j))
    if p.mx then v else v.scale (-(64 * (lv : Int))))

/-- The group sum as it enters the accumulator (R75, R81, R83). -/
def groupSum (m : Memory) (p : MmaParams) (lv r c g : Nat) : Node :=
  let t := tree (addNode lv) ⟨Val.zero, false⟩ 5 ((products m p lv r c g).map (fun v => ⟨v, false⟩))
  if p.mx then
    let sc := scalePair m p r c g
    if sc.1 = 0xFF ∨ sc.2 = 0xFF then ⟨.nan, t.ovf⟩
    else
      let n := flNode lv (t.v.scale ((sc.1 : Int) + sc.2 - 254 - 64 * lv))
      ⟨n.v, n.ovf || t.ovf⟩
  else t

/-- The starting accumulator at a level (R83 step 1). -/
def scaledStart (lv : Nat) (a : Nat) : Node := flNode lv ((Fmt.fp32.decode a).scale (-(64 * (lv : Int))))

/-- The accumulator of element `(r, c)` after `n` groups from `g` up, in ascending K (R76). -/
def accumulate (m : Memory) (p : MmaParams) (lv r c : Nat) : Nat → Nat → Node → Node
  | 0, _, acc => acc
  | n + 1, g, acc => accumulate m p lv r c n (g + 1) (addNode lv acc (groupSum m p lv r c g))

/-- The final rescale of an element, its FP32 bits and whether it saturated (R83 step 5). -/
def rescale (lv : Nat) (v : Val) : Nat × Bool :=
  match v with
  | .fin neg m e => Fmt.fp32.convert .rne false (.fin neg m (e + 64 * lv))
  | w => (Fmt.fp32.convert .rne true w)

/-- An INT32 addition that saturates (R80). -/
def addInt (a b : Int × Bool) : Int × Bool :=
  let r := satInt 32 (a.1 + b.1)
  (r.1, r.2 || a.2 || b.2)

/-- The exact INT8 group sum (R80). -/
def groupInt (m : Memory) (p : MmaParams) (r c g : Nat) : Int :=
  ((List.range 32).map (fun j =>
    let a := if r < p.m ∧ 32 * g + j < p.k then
        toSigned 8 (leNat (m.read (if p.aStrided then p.aAddr + (32 * g + j) * p.aStride + r
          else p.aAddr + r * p.aStride + 32 * g + j) 1)) else 0
    let b := if c < p.n ∧ 32 * g + j < p.k then
        toSigned 8 (leNat (m.read (if p.bStrided then p.bAddr + (32 * g + j) * p.bStride + c
          else p.bAddr + c * p.bStride + 32 * g + j) 1)) else 0
    a * b)).foldl (· + ·) 0

/-- INT8 accumulation (R80). -/
def accumulateInt (m : Memory) (p : MmaParams) (r c : Nat) : Nat → Nat → Int × Bool → Int × Bool
  | 0, _, acc => acc
  | n + 1, g, acc => accumulateInt m p r c n (g + 1) (addInt acc (groupInt m p r c g, false))

/-- One element of an attempt: its bits, whether it overflowed below level 2, and whether it set ACC_SAT. -/
structure Elem where
  out : Nat
  ovf : Bool
  sat : Bool
  deriving DecidableEq, Repr

/-- The result of one element of a run of groups `lo` to `hi - 1` from start `a` at level `lv`. -/
def runElem (m : Memory) (p : MmaParams) (lv lo hi r c a : Nat) : Elem :=
  if p.int8 then
    let x := accumulateInt m p r c (hi - lo) lo (toSigned 32 a, false)
    ⟨fromSigned 32 x.1, false, x.2⟩
  else
    let n := accumulate m p lv r c (hi - lo) lo (scaledStart lv a)
    let o := rescale lv n.v
    ⟨o.1, n.ovf && lv != 2, o.2 || (n.ovf && lv == 2)⟩

/-- The result of one element of a combine tile over its partials (R79, R80, R83). -/
def combineElem (p : MmaParams) (lv : Nat) (parts : List Nat) : Elem :=
  if p.int8 then
    let x := tree addInt (0, false) 3 (parts.map (fun a => (toSigned 32 a, false)))
    ⟨fromSigned 32 x.1, false, x.2⟩
  else
    let n := tree (addNode lv) ⟨Val.zero, false⟩ 3 (parts.map (scaledStart lv))
    let o := rescale lv n.v
    ⟨o.1, n.ovf && lv != 2, o.2 || (n.ovf && lv == 2)⟩

/-! Tiles -/

/-- The row and column of element `i` of output tile `t`. -/
def MmaParams.elemAt (p : MmaParams) (t i : Nat) : Nat × Nat :=
  (t / p.tileCols * p.mt + i / p.nt, t % p.tileCols * p.nt + i % p.nt)

/-- The address of an output element (R491). -/
def MmaParams.dElem (p : MmaParams) (r c : Nat) : Nat := p.dAddr + r * p.dStride + c * p.outSize

/-- The device address of the first D element of a tile. -/
def MmaParams.tileAddr (p : MmaParams) (t : Nat) : Nat := let e := p.elemAt t 0; p.dElem e.1 e.2

/-- The place of a split's partial in P (R493). -/
def MmaParams.partAddr (p : MmaParams) (t i : Nat) : Nat := p.pAddr + (t * (p.split - 1) + i - 1) * 0x10000

/-- The spill area of a unit (R65, Table 6.8). -/
def spillAddr (die m : Nat) : Nat := hearthBase die + 0x7F800000 + m * 0x10000

/-- 32-bit words at an address. -/
def readWords (m : Memory) (a n : Nat) : List Nat := (List.range n).map (fun i => leNat (m.read (a + 4 * i) 4))

/-- The accumulator that a chain starts from (R78): C for split 0 under LOAD, else +0. -/
def startAcc (m : Memory) (p : MmaParams) (t split : Nat) : List Nat :=
  (List.range (p.mt * p.nt)).map (fun i =>
    let e := p.elemAt t i
    if split = 0 ∧ p.load ∧ e.1 < p.m ∧ e.2 < p.n then leNat (m.read (p.cAddr + e.1 * p.cStride + e.2 * 4) 4) else 0)

/-- The elements of one attempt of a run. -/
def runTile (m : Memory) (p : MmaParams) (lv : Nat) (t lo hi : Nat) (acc : List Nat) : List Elem :=
  acc.zipIdx.map (fun x => let e := p.elemAt t x.2; runElem m p lv lo hi e.1 e.2 x.1)

/-- The partials of element `i` of a tile: the lead's accumulator and those in P. -/
def partsOf (m : Memory) (p : MmaParams) (t i a : Nat) : List Nat :=
  a :: (List.range (p.split - 1)).map (fun j => leNat (m.read (p.partAddr t (j + 1) + 4 * i) 4))

/-- The elements of one attempt of a combine tile. -/
def combineTile (m : Memory) (p : MmaParams) (lv t : Nat) (acc : List Nat) : List Elem :=
  acc.zipIdx.map (fun x => combineElem p lv (partsOf m p t x.2 x.1))

/-- An output element under OUT_FMT: its bytes, and what it adds to the flags (R86, R97). -/
def outElem (p : MmaParams) (v : Nat) : List Byte × Arith :=
  if p.outFmt = 1 then
    let x := Fmt.fp32.decode v
    let o := match x with | .fin _ _ _ => Fmt.bf16.convert .rne false x | w => Fmt.bf16.convert .rne true w
    (leBytes 2 o.1, ⟨o.2, isNaN16 o.1, isInf16 o.1, false⟩)
  else if p.int8 then (leBytes 4 v, Arith.none)
  else (leBytes 4 v, ⟨false, isNaN32 v, isInf32 v, false⟩)

/-- D is written from a tile's result: the elements within M and N (R72, R93), and the flags of what was written. -/
def writeTile (s : State) (p : MmaParams) (t : Nat) (res : List Nat) : State × Arith :=
  res.zipIdx.foldl (fun (acc : State × Arith) x =>
    let e := p.elemAt t x.2
    if e.1 < p.m ∧ e.2 < p.n then
      let o := outElem p x.1
      (acc.1.store (p.dElem e.1 e.2) o.1, acc.2.or o.2)
    else acc) (s, Arith.none)

/-! Units -/

/-- Command `id` of the Anvils. -/
def mmaOf (s : State) (id : Nat) : Option Mma := (s.eng.mmas.find? (fun e => e.1 == id)).map (·.2)

/-- Command `id` replaced. -/
def State.setMma (s : State) (id : Nat) (m : Mma) : State := { s with eng := { s.eng with mmas := Tbl.set s.eng.mmas id m } }

/-- The die's ANV page that holds Anvil `m`. -/
def anvPage (die m : Nat) : Nat := 2 * die + m / 20

/-- CAPACITY_LOW where the ACTIVE count of a die fell below 36 since `old` (R101). -/
def capacityCheck (old s : State) (die : Nat) : State :=
  if 36 ≤ (anvilsIn old die .active).length ∧ (anvilsIn s die .active).length < 36 then
    raise (raise s .ANV (2 * die) 8) .ANV (2 * die + 1) 8
  else s

/-- The lowest-numbered SPAREs of a die are promoted while fewer than 36 units are ACTIVE (R64), their clocks waking. -/
def promote (s : State) (die : Nat) : State :=
  (List.range 40).foldl (fun s m =>
    let a := anvilOf s die m
    if a.st = .spare ∧ (anvilsIn s die .active).length < 36 then
      s.setAnvil die m { a with st := .active, gated := false, idleSince := s.clock, waitUntil := s.clock }
    else s) s

/-- Whether a staged apply of a unit's page stops new tiles (R98). -/
def anvStaged (s : State) (die m : Nat) : Bool := armPending s .ANV (anvPage die m)

/-- The chain that command `x` gives to a unit next, with the command after it (R73): one that moves first, then output
tiles in ascending order, in each the splits from 1 up and the lead's split 0 last. -/
def nextChain (id : Nat) (x : Mma) : Option (Chain × Mma) :=
  let ready := fun (c : Chain) => c.next < x.p.lo (c.split + 1) || (List.range (x.p.split - 1)).all (fun j =>
    x.parts.contains (c.tile, j + 1))
  match x.moved.find? ready with
  | some c => some (c, { x with moved := x.moved.filter (· != c) })
  | none =>
    if x.next < x.p.tiles * x.p.split then
      let t := x.next / x.p.split
      let i := (x.next % x.p.split + 1) % x.p.split
      some (⟨id, t, i, x.p.lo i, [], none⟩, { x with next := x.next + 1 })
    else none

/-- Whether the record in flight under `id` is still to be worked on: it has not been abandoned (R286). -/
def flightLive (s : State) (id : Nat) : Bool := match flightOf s id with | some f => !f.abandoned | none => false

/-- The first ready chain of a die's commands, oldest command first. -/
def takeChain (s : State) (die : Nat) : Option (Chain × Nat × Mma) :=
  s.eng.mmas.findSome? (fun e => if e.2.die = die ∧ flightLive s e.1 then (nextChain e.1 e.2).map (fun r => (r.1, e.1, r.2)) else none)

/-- The tile that a chain runs next (R73): its next groups, or the combine tile of a finished split 0. -/
def tileOf (x : Mma) (c : Chain) : Option TileRun :=
  let hi := x.p.lo (c.split + 1)
  if c.next < hi then some ⟨c, min hi (c.next + x.p.gmax), false, 0, 0, false⟩
  else if 1 < x.p.split ∧ c.split = 0 ∧ (List.range (x.p.split - 1)).all (fun j => x.parts.contains (c.tile, j + 1)) then
    some ⟨c, hi, true, 0, 0, false⟩
  else none

/-- A parity error of a unit (R96): PARITY, its log entry, the step fault and the unit's ledger event. -/
def anvParity (s : State) (die m : Nat) (par : AnvParity) (r : TileRun) (x : Mma) : State :=
  let code := match par with | .none => 0 | .buf => 1 | .acc => 2 | .snap => 3
  if code = 0 then s
  else
    let i := anvPage die m
    let s := raise s .ANV i 9
    let cols := x.p.tileCols
    let s := logErr s .ANV i code (stepClass s .INFO) m 0 [x.ctx, r.chain.tile / cols + r.chain.tile % cols * 2 ^ 32, 0]
    parityEvent (stepFault s .anvilFault) (anvilId die m) (typeCode .ANV) code

/-! Loupe's selection (R338, R339) -/

/-- Whether Loupe of a die selects tiles: EN and not RETIRED (R355). -/
def loupeOn (s : State) (die : Nat) : Bool := s.on R.LPE_CFG_EN die && !s.on R.LPE_STS_RETIRED die

/-- A tile starts: Loupe selects it with a fresh draw, or takes it for a deferred selection; a selection made while Loupe is
occupied is deferred and counted (R338, R339). The answer says whether the tile is captured. -/
def loupeSelect (s : State) (die : Nat) : Bool × State :=
  if !loupeOn s die then (false, s)
  else
    let r := s.fresh
    let hit := r.1 % 2 ^ clampNat 6 16 (s.rd R.LPE_CFG_K die) == 0
    let s := r.2
    if (captureOf s die).isSome then
      if hit then
        (false, ({ s with eng := { s.eng with deferred := die :: s.eng.deferred.filter (· != die) } }).inc
          R.LPE_DEFERRED_DEFERRED die 1)
      else (false, s)
    else if hit || s.eng.deferred.contains die then
      (true, { s with eng := { s.eng with deferred := s.eng.deferred.filter (· != die) } })
    else (false, s)

/-- The capture area of Loupe (Table 6.8): its layout is not given, so its bytes are undefined after a capture. -/
def captureArea (s : State) (die : Nat) : State := s.undefine (hearthBase die + 0x7F600000) 0x200000

/-- A capture begins with the tile (R339). -/
def beginCapture (s : State) (die u : Nat) (x : Mma) (r : TileRun) : State :=
  let f := flightOf s r.chain.flight
  let c : Capture :=
    { flight := r.chain.flight, ctx := x.ctx, tagged := (match f with | some y => y.tagged | none => false),
      step := s.tmp.step, att := s.tmp.att, u1 := u, addr := x.p.tileAddr r.chain.tile, sat := false, good := [], res := [],
      elems := [], ended := false, settling := false, slip := false, u2 := none, rerun := none }
  captureArea { s with eng := { s.eng with captures := s.eng.captures ++ [(die, c)] } } die

/-! Issue and end of a tile -/

/-- The starting accumulator is loaded (R65, R78): from the spill area, from C, or +0. -/
def loadChain (s : State) (die : Nat) (x : Mma) (c : Chain) : Chain :=
  match c.spilled with
  | some m => { c with acc := readWords s.mem (spillAddr die m) (x.p.mt * x.p.nt), spilled := none }
  | none => if c.acc.isEmpty then { c with acc := startAcc s.mem x.p c.tile c.split } else c

/-- Unit `u` starts the next tile of chain `c` of command `x`, if one is ready (R73, R92, R338). -/
def startTile (s : State) (die u : Nat) (par : AnvParity) (x : Mma) (c : Chain) : State :=
  match tileOf x (loadChain s die x c) with
  | none => s
  | some r =>
    let sel := loupeSelect s die
    let s := sel.2
    let r := { r with sampled := sel.1 }
    let s := s.setAnvil die u { anvilOf s die u with run := some r, chain := none, gated := false }
    let s := if sel.1 then beginCapture s die u x r else s
    anvParity s die u par r x

/-- ANV_TILE_ISSUE (R63, R73, R91, R98): an ACTIVE unit between tiles, its wait over and no apply staged, goes on with the
chain it holds or takes the die's next ready one. A ramp term of 0 holds the tile (R419). -/
def issueTile (s : State) (die u : Nat) (par : AnvParity) : State :=
  let a := anvilOf s die u
  if a.st ≠ .active ∨ a.run.isSome ∨ s.clock < a.waitUntil ∨ anvStaged s die u ∨ s.on R.DIE_STS_IN_RESET die ∨ hearthStalled s die ∨ s.rd R.BLW_STS_Q die = 0 then s
  else match a.chain with
    | some c =>
      if flightLive s c.flight then (match mmaOf s c.flight with | some x => startTile s die u par x c | none => s) else s
    | none =>
      match takeChain s die with
      | some (c, id, x) => startTile (s.setMma id x) die u par x c
      | none => s

/-- ANV_TILE_ISSUE (R73). -/
def execAnvTileIssue (die unit : Nat) (par : AnvParity) (s : State) : Outcome :=
  if die < 8 ∧ unit < 40 then live s (issueTile s die unit par) else .fault .noSuchUnit

/-- The effective issue cap of a unit (R91). -/
def issueCap (s : State) (die m : Nat) : Nat :=
  max 1 (min (clampNat 1 64 (s.rd R.ANV_CTL_ISSUE_CAP (anvPage die m))) (s.rd R.BLW_STS_CAP die))

/-- A number of 600 MHz cycles in ns, rounded up. -/
def cyclesNs (c : Nat) : Nat := ceilDiv (c * 5) 3

/-- The wait after a tile of `c` array cycles (R91). -/
def issueWait (s : State) (die m c : Nat) : Nat := let e := issueCap s die m; cyclesNs (ceilDiv (c * (64 - e)) e)

/-- What Loupe forms of each element of a run (R340, R341): the exact sum, and the bound of Table 13.1 brought to the
denominator (2^24 − g)(2^24 − 5 − g). An element with a non-finite part must have the bits that R85 gives. -/
def loupeElem (m : Memory) (p : MmaParams) (lv : Nat) (lo hi r c a : Nat) (good : Nat) : LpElem :=
  if p.int8 then ⟨Val.zero, Val.zero, 1, some good⟩
  else
    let g := hi - lo
    let pis := (List.range g).flatMap (fun i =>
      let sc := if p.mx then scalePair m p r c (lo + i) else (127, 127)
      let bad := p.mx && (sc.1 == 0xFF || sc.2 == 0xFF)
      (products m p 0 r c (lo + i)).map (fun v => if bad then .nan else v.scale ((sc.1 : Int) + sc.2 - 254)))
    let x := pis.foldl Val.add (Fmt.fp32.decode a)
    let mag := pis.foldl (fun t v => t.add v.abs) Val.zero
    let d1 := 2 ^ 24 - (5 + g)
    let d2 := 2 ^ 24 - g
    let b := ((mag.mul (.fin false ((5 + g) * d2) 0)).add ((Fmt.fp32.decode a).abs.mul (.fin false (g * d1) 0))).add
      (.fin false (32 * g * d1 * d2) (64 * lv - 150))
    match x with
    | .fin _ _ _ => ⟨x, b, d1 * d2, none⟩
    | _ => ⟨x, b, d1 * d2, some good⟩

/-- The same for a combine tile (Table 13.1, second row). -/
def loupeCombine (p : MmaParams) (lv : Nat) (parts : List Nat) (good : Nat) : LpElem :=
  if p.int8 then ⟨Val.zero, Val.zero, 1, some good⟩
  else
    let vs := parts.map Fmt.fp32.decode
    let x := vs.foldl Val.add (.fin true 0 0)
    let mag := vs.foldl (fun t v => t.add v.abs) Val.zero
    let n := if p.split ≤ 2 then 1 else if p.split ≤ 4 then 2 else 3
    let d := 2 ^ 24 - n
    let b := (mag.mul (.fin false n 0)).add (.fin false ((p.split - 1) * d) (64 * lv - 150))
    match x with
    | .fin _ _ _ => ⟨x, b, d, none⟩
    | _ => ⟨x, b, d, some good⟩

/-- A result with the bits that a fault of the unit makes other. -/
def withFaults (res : List Nat) (faults : List (Nat × Nat)) : List Nat := faults.foldl (fun r f => r.set f.1 (f.2 % 2 ^ 32)) res

/-- The capture of a tile is complete (R339). -/
def endCapture (s : State) (die : Nat) (x : Mma) (r : TileRun) (good res : List Nat) (sat : Bool) : State :=
  match captureOf s die with
  | some c =>
    let t := r.chain.tile
    let elems := (r.chain.acc.zip good).zipIdx.map (fun y =>
      let e := x.p.elemAt t y.2
      if r.combine then loupeCombine x.p r.level (partsOf s.mem x.p t y.2 y.1.1) y.1.2
      else loupeElem s.mem x.p r.level r.chain.next r.hi e.1 e.2 y.1.1 y.1.2)
    let c' : Capture := { c with sat := sat, good := good, res := res, elems := elems, ended := true }
    { s with eng := { s.eng with captures := Tbl.set s.eng.captures die c' } }
  | none => s

/-- ACC_SAT of a tile (R84, R97): the event, SAT counter and the registers that name it. -/
def satTile (s : State) (i u : Nat) (x : Mma) (r : TileRun) : State :=
  let s := raise (s.inc R.ANV_SAT_SAT i 1) .ANV i 4
  let s := s.wr R.ANV_SAT_INFO_UNIT i (u % 20)
  let s := s.wr R.ANV_SAT_INFO_CTX i x.ctx
  let s := s.wr R.ANV_SAT_INFO_LEVEL i r.level
  s.wr R.ANV_SAT_ADDR_D_ADDR i (x.p.tileAddr r.chain.tile)

/-- A tile that ends its chain hands its result on (R73, R93): D is written after the last tile or the combine tile, a
non-lead partial goes to P, the lead keeps split 0's partial. The answer is the chain the unit still holds, the command and
the flags of what D received. -/
def handOn (s : State) (id : Nat) (x : Mma) (r : TileRun) (res : List Nat) : State × Option Chain × Mma × Arith :=
  let c := { r.chain with next := r.hi, acc := res }
  let last := r.hi == x.p.lo (c.split + 1)
  if r.combine ∨ (last ∧ x.p.split = 1) then
    let w := writeTile s x.p c.tile res
    (w.1, none, { x with written := x.written + 1, parts := x.parts.filter (fun q => q.1 != c.tile) }, w.2)
  else if last ∧ c.split ≠ 0 then
    (s.store (x.p.partAddr c.tile c.split) (res.flatMap (leBytes 4)), none, { x with parts := (c.tile, c.split) :: x.parts },
      Arith.none)
  else (s, some { c with flight := id }, x, Arith.none)

/-- The counters of a completed tile (R97, Table 3.12). -/
def tileCounters (s : State) (i cycles level : Nat) (nan : Bool) : State :=
  let s := s.inc R.ANV_TILES_TILES i 1
  let s := s.inc R.ANV_ARRAY_CYC_ARRAY_CYC i cycles
  let s := if level = 1 then s.inc R.ANV_REPLAY_L1_REPLAY_L1 i 1 else if level = 2 then s.inc R.ANV_REPLAY_L2_REPLAY_L2 i 1 else s
  if nan then raise (s.inc R.ANV_NAN_NAN i 1) .ANV i 6 else s

/-- An attempt of unit `u` ends (R83): on an overflow below level 2 it is replayed at the next level; else its result is
handed on, flags and counters are updated and the issue-cap wait starts (R91, R97). -/
def endTile (s : State) (die u : Nat) (par : AnvParity) (faults : List (Nat × Nat)) (r : TileRun) (x : Mma) : State :=
  let i := anvPage die u
  let s := anvParity s die u par r x
  let es := if r.combine then combineTile s.mem x.p r.level r.chain.tile r.chain.acc
    else runTile s.mem x.p r.level r.chain.tile r.chain.next r.hi r.chain.acc
  let cyc := r.cycles + (if r.combine then 0 else (r.hi - r.chain.next) * x.p.groupCycles)
  if es.any (·.ovf) then
    raise (s.setAnvil die u { anvilOf s die u with run := some { r with level := r.level + 1, cycles := cyc } }) .ANV i 5
  else
    let good := es.map (·.out)
    let res := withFaults good faults
    let s := if r.sampled then endCapture s die x r good res (es.any (·.sat)) else s
    let h := handOn s r.chain.flight x r res
    let s := (h.1).setMma r.chain.flight h.2.2.1
    let fl := (Arith.mk (es.any (·.sat)) false false false).or h.2.2.2
    let s := orAflags s x.ctx fl.bits
    let s := tileCounters s i cyc r.level fl.nan
    let s := if fl.accSat then satTile s i u x r else s
    let e := issueCap s die u
    let s := s.inc R.BLW_CAPPED_CAPPED die (ceilDiv (cyc * (64 - e)) e)
    s.setAnvil die u { anvilOf s die u with
      run := none, chain := h.2.1, waitUntil := s.clock + issueWait s die u cyc, idleSince := s.clock }

/-- ANV_TILE_END (R83). -/
def execAnvTileEnd (die unit : Nat) (par : AnvParity) (faults : List (Nat × Nat)) (s : State) : Outcome :=
  if die < 8 ∧ unit < 40 then
    live s (match (if hearthStalled s die then none else (anvilOf s die unit).run) with
      | some r => (match mmaOf s r.chain.flight with | some x => endTile s die unit par faults r x | none => s)
      | none => s)
  else .fault .noSuchUnit

/-- ANV_ISSUE_WAIT_END (R91): the wait of a unit is over once its time has passed. -/
def endWait (s : State) (die u : Nat) : State :=
  let a := anvilOf s die u
  if a.waitUntil ≤ s.clock then s.setAnvil die u { a with waitUntil := 0 } else s

/-- ANV_ISSUE_WAIT_END (R91). -/
def execAnvIssueWaitEnd (die unit : Nat) (s : State) : Outcome :=
  if die < 8 ∧ unit < 40 then live s (endWait s die unit) else .fault .noSuchUnit

/-- MMA_COMPLETE (R93): every output tile is written. -/
def completeMma (s : State) (id : Nat) : State :=
  match flightOf s id, mmaOf s id with
  | some f, some x =>
    if x.written = x.p.tiles ∧ !f.abandoned then
      completeFlight { s with eng := { s.eng with mmas := s.eng.mmas.filter (fun e => e.1 != id) } } id f
    else s
  | _, _ => s

/-- MMA_COMPLETE (R93). -/
def execMmaComplete (id : Nat) (s : State) : Outcome := live s (completeMma s id)

/-- ANV_CLK_GATE (R92): a unit without a tile for CLK_GATE_IDLE cycles stops its clock. -/
def gateAnvil (s : State) (die u : Nat) : State :=
  let a := anvilOf s die u
  if a.run.isNone ∧ a.idleSince + cyclesNs (max 16 (s.rd R.ANV_CFG_CLK_GATE_IDLE (anvPage die u))) ≤ s.clock then
    s.setAnvil die u { a with gated := true }
  else s

/-- ANV_CLK_GATE (R92). -/
def execAnvClkGate (die unit : Nat) (s : State) : Outcome :=
  if die < 8 ∧ unit < 40 then live s (gateAnvil s die unit) else .fault .noSuchUnit

/-! Test claims (R65, R66, R350) -/

/-- The unit that has been due longest, the lowest-numbered among equals (R350). -/
def longestDue (us : List (Nat × Nat)) : Option Nat :=
  match us with
  | [] => none
  | u :: t => some (t.foldl (fun (b : Nat × Nat) x => if x.2 < b.2 then x else b) u).1

/-- BIST_CLAIM_ANVIL (R65, R350): the due unit is claimed, a SPARE takes the place of an ACTIVE one. -/
def claimAnvil (s : State) (die : Nat) : State :=
  if (claimOf s.bist.anvClaim die).isSome ∨ !s.on R.BSR_CFG_ANV_EN die ∨ s.on R.DIE_STS_IN_RESET die then s
  else match longestDue (dueUnits s die (anvilIds s die)) with
    | none => s
    | some id =>
      let m := id - anvilId die 0
      let t := { s with bist := { s.bist with anvClaim := s.bist.anvClaim ++ [(die, m, s.clock, false)],
                                              dueNow := s.bist.dueNow.filter (fun e => e.1 != id) } }
      let t := promote (t.setAnvil die m { anvilOf t die m with st := .test }) die
      capacityCheck s t die

/-- BIST_CLAIM_ANVIL (R65). -/
def execBistClaimAnvil (die : Nat) (s : State) : Outcome := onUnit s die 8 (claimAnvil s die)

/-- The claimed Anvil of a die enters TEST. -/
def enterTest (s : State) (die m t0 : Nat) : State :=
  { s with bist := { s.bist with anvClaim := Tbl.set s.bist.anvClaim die (m, t0, true) } }

/-- A chain is to be continued on another unit of its die (R65, R66). -/
def moveChain (s : State) (c : Chain) : State :=
  match mmaOf s c.flight with
  | some x => s.setMma c.flight { x with moved := x.moved ++ [c] }
  | none => s

/-- ANV_TEST_ENTER (R65 steps 3 to 5): between tiles, the claimed unit's accumulator is spilled and its chain moves. -/
def testEnter (s : State) (die : Nat) : State :=
  match claimOf s.bist.anvClaim die with
  | some (m, t0, false) =>
    let a := anvilOf s die m
    if a.run.isSome then s
    else
      let s := match a.chain with
        | some c => moveChain (s.store (spillAddr die m) (c.acc.flatMap (leBytes 4))) { c with acc := [], spilled := some m }
        | none => s
      enterTest (s.setAnvil die m { anvilOf s die m with chain := none }) die m t0
  | _ => s

/-- ANV_TEST_ENTER (R65). -/
def execAnvTestEnter (die : Nat) (s : State) : Outcome := onUnit s die 8 (testEnter s die)

/-- The capture of an abandoned tile is not checked (R339). -/
def abandonCapture (s : State) (die u : Nat) : State :=
  match captureOf s die with
  | some c =>
    if c.u1 = u ∧ !c.ended then
      ({ s with eng := { s.eng with captures := s.eng.captures.filter (fun e => e.1 != die) } }).inc R.LPE_ABANDONED_ABANDONED die 1
    else s
  | none => s

/-- ANV_CLAIM_FORCED (R66): 50 ms after the claim the tile in progress is abandoned and its chain starts again from its
first tile on another unit. -/
def claimForced (s : State) (die : Nat) : State :=
  match claimOf s.bist.anvClaim die with
  | some (m, t0, false) =>
    let a := anvilOf s die m
    if s.clock < t0 + 50000000 then s
    else match a.run with
      | none => s
      | some r =>
        let x := mmaOf s r.chain.flight
        let lo := match x with | some y => y.p.lo r.chain.split | none => 0
        let s := moveChain (abandonCapture s die m) { r.chain with next := lo, acc := [], spilled := none }
        let i := anvPage die m
        let s := raise (s.inc R.ANV_FORCED_FORCED i 1) .ANV i 7
        let det := match x with
          | some y => [y.ctx, r.chain.tile / y.p.tileCols + r.chain.tile % y.p.tileCols * 2 ^ 32, 0]
          | none => [0, 0, 0]
        let s := logErr s .ANV i 4 .INFO m 0 det
        enterTest (s.setAnvil die m { anvilOf s die m with run := none, chain := none }) die m t0
  | _ => s

/-- ANV_CLAIM_FORCED (R66). -/
def execAnvClaimForced (die : Nat) (s : State) : Outcome := onUnit s die 8 (claimForced s die)

/-! Abandonment and map-outs -/

/-- The tiles of commands `ids` are abandoned on every unit (R94): accumulators discarded, TILE_ABANDONED logged once per
affected page. `log` is false for a discard of the step, of which R94's log entry is not the subject. -/
def abandonAnvils (s : State) (ids : List Nat) (log : Bool) : State :=
  let hit := fun (a : Anvil) => (match a.run with | some r => ids.contains r.chain.flight | none => false)
    || (match a.chain with | some c => ids.contains c.flight | none => false)
  let pages := (List.range 16).filter (fun i => (pageAnvils i).any (fun u => hit (anvilOf s u.1 u.2)))
  let ctxOfMma := fun id => match mmaOf s id with | some x => x.ctx | none => 0
  let s1 := if log then
      pages.foldl (fun t i =>
        let u := (pageAnvils i).find? (fun u => hit (anvilOf s u.1 u.2))
        let m := match u with | some v => v.2 | none => 0
        let a := match u with | some v => anvilOf s v.1 v.2 | none => Anvil.reset
        let c := match a.run, a.chain with | some r, _ => some r.chain | none, some c => some c | none, none => none
        let det := match c with
          | some c => (match mmaOf s c.flight with
            | some x => [ctxOfMma c.flight, c.tile / x.p.tileCols + c.tile % x.p.tileCols * 2 ^ 32, 0]
            | none => [0, 0, 0])
          | none => [0, 0, 0]
        raise (logErr t .ANV i 5 .INFO m 0 det) .ANV i 10) s
    else s
  let s2 := (List.range 320).foldl (fun t k =>
    let a := anvilOf t (k / 40) (k % 40)
    if hit a then
      (abandonCapture t (k / 40) (k % 40)).setAnvil (k / 40) (k % 40) { a with run := none, chain := none, idleSince := t.clock }
    else t) s1
  { s2 with eng := { s2.eng with mmas := s2.eng.mmas.filter (fun e => !ids.contains e.1) } }

/-- A staged ANV_MAP takes effect (R99, Table 3.1): at once for ACTIVE and SPARE units, at the end of the test for one in
TEST; an unmapped unit is SPARE and due for test at once. -/
def applyAnvMap (s : State) (i : Nat) : State :=
  let die := i / 2
  let mask := s.rd R.ANV_MAP_MAP_OUT i
  let t := (pageAnvils i).foldl (fun t u =>
    let a := anvilOf t u.1 u.2
    let out := bitOf mask (u.2 % 20)
    let chainMoved := match a.chain with
      | some c => if out && (a.st == UnitState.active) then
          moveChain (t.store (spillAddr u.1 u.2) (c.acc.flatMap (leBytes 4))) { c with acc := [], spilled := some u.2 } else t
      | none => t
    match a.st, out with
    | .active, true => chainMoved.setAnvil u.1 u.2 { a with st := .mapped, gated := true, chain := none }
    | .spare, true => t.setAnvil u.1 u.2 { a with st := .mapped, gated := true }
    | .test, b => t.setAnvil u.1 u.2 { a with mapNext := b }
    | .mapped, false =>
      { t.setAnvil u.1 u.2 { a with st := .spare } with
        bist := { t.bist with dueNow := Tbl.set t.bist.dueNow (anvilId u.1 u.2) t.clock } }
    | _, _ => t) s
  capacityCheck s (promote t die) die

end Sys2Proof.Machine
end

