-- ==== Sys2Proof/Machine/Kernel.lean ====
section
/-! DEFINITION. Swage kernels (chapter 5): instruction words (R137), the static checks of Table 5.6 (R139), lane layouts
(R136), predication and tails (R140), memory access (R141, R142) and the arithmetic of every instruction class (R138, R145 to
R147). -/

namespace Sys2Proof.Machine

open Sys2Proof

/-! Instruction words -/

/-- An instruction word (Table 5.4). -/
structure Insn where
  op : Nat
  dfmt : Nat
  sfmt : Nat
  vd : Nat
  va : Nat
  vb : Nat
  vc : Nat
  mask : Nat
  pz : Bool
  rnd : Nat
  ovf : Bool
  imm : Nat
  deriving DecidableEq, Repr

/-- The fields of an instruction word (Table 5.4). -/
def Insn.ofWord (w : Nat) : Insn :=
  { op := bits w 56 8, dfmt := bits w 52 4, sfmt := bits w 48 4, vd := bits w 42 6, va := bits w 36 6, vb := bits w 30 6,
    vc := bits w 24 6, mask := bits w 21 3, pz := bitOf w 20, rnd := bits w 18 2, ovf := bitOf w 17, imm := bits w 0 16 }

/-- The slot of an opcode (Table 5.5): 0 LS, 1 FMA, 2 XF, 3 MK, 4 any, 5 reserved. -/
def opSlot (op : Nat) : Nat :=
  if op = 0 then 4
  else if op ≤ 2 then 0
  else if 0x10 ≤ op ∧ op ≤ 0x18 then 1
  else if 0x20 ≤ op ∧ op ≤ 0x2A then 2
  else if 0x30 ≤ op ∧ op ≤ 0x34 then 2
  else if 0x40 ≤ op ∧ op ≤ 0x4B then 3
  else 5

/-- Whether a format is packed, two elements a lane (Table 5.3). -/
def isPacked (f : Nat) : Bool := f == 1 || f == 2

/-- Bits of one element of a format (Table 5.4). -/
def fmtWidth (f : Nat) : Nat :=
  if f = 0 ∨ f = 0xC then 32 else if f = 1 ∨ f = 2 then 16 else if f = 0xA then 40 else if isMx f then mxBits f else 8

/-- The elements a register holds in a format (Table 5.3). -/
def elemCount (f : Nat) : Nat := if isPacked f then 512 else 256

/-- Whether an instruction reads its source VA as a pair: FX40 or an MX operand. -/
def Insn.srcPair (i : Insn) : Bool := i.op == 0x32 || (i.op == 0x30 && (i.sfmt == 0xA || isMx i.sfmt))

/-- Whether an instruction writes its destination as a pair. -/
def Insn.dstPair (i : Insn) : Bool := i.op == 0x32 || i.op == 0x31 || (i.op == 0x30 && i.dfmt == 0xA)

/-- The registers an instruction reads. -/
def Insn.reads (i : Insn) : List Nat :=
  let a := if i.srcPair then [i.va, i.va + 1] else [i.va]
  if i.op = 2 then [i.va]
  else if i.op ≤ 1 ∨ 0x49 ≤ i.op then []
  else if i.op = 0x13 ∨ i.op = 0x47 then [i.va, i.vb, i.vc]
  else if [0x10, 0x11, 0x12, 0x14, 0x15, 0x18, 0x20, 0x32, 0x40, 0x41, 0x42, 0x43, 0x44, 0x45, 0x46, 0x48].contains i.op then
    a ++ [i.vb]
  else a

/-- The registers an instruction writes. -/
def Insn.writes (i : Insn) : List Nat :=
  if i.op = 0 ∨ i.op = 2 ∨ 0x48 ≤ i.op then [] else if i.dstPair then [i.vd, i.vd + 1] else [i.vd]

/-- The masks an instruction reads: its predicate and the sources of MAND, MOR and MNOT (log entry 17). -/
def Insn.readMasks (i : Insn) : List Nat :=
  (if i.op = 0 then [] else [i.mask])
    ++ (if i.op = 0x49 ∨ i.op = 0x4A then [bits i.imm 3 3, bits i.imm 6 3] else if i.op = 0x4B then [bits i.imm 3 3] else [])

/-- The masks an instruction writes: CMP's [5:3], and [2:0] of MAND, MOR and MNOT (log entry 17). -/
def Insn.writeMasks (i : Insn) : List Nat :=
  if i.op = 0x48 then [bits i.imm 3 3] else if 0x49 ≤ i.op ∧ i.op ≤ 0x4B then [bits i.imm 0 3] else []

/-- The format of the stream that a VLD or VST names. -/
def streamFmt (p : VecParams) (i : Insn) : Nat := (p.streams.getD (bits i.imm 0 4) (0, 0, 0)).2.2

/-- Whether the formats of an instruction are allowed for its opcode (R138, R145, R147; log entry 17). -/
def fmtAllowed (p : VecParams) (i : Insn) : Bool :=
  let fl := fun f => f == 0 || f == 1 || f == 2
  let cv := fun f => f ≤ 4 || f == 0xA || f == 0xB || f == 0xC
  if i.op = 0 then true
  else if i.op ≤ 2 then streamFmt p i != 0xA && streamFmt p i != 0xF
  else if i.op ≤ 0x17 ∨ (0x20 ≤ i.op ∧ i.op ≤ 0x2A) then i.dfmt == i.sfmt && fl i.dfmt
  else if i.op = 0x18 then i.dfmt == i.sfmt && (i.dfmt == 0 || i.dfmt == 1)
  else if i.op = 0x30 then (cv i.dfmt && cv i.sfmt) || (fl i.dfmt && isMx i.sfmt)
  else if i.op = 0x31 then isMx i.dfmt && fl i.sfmt
  else if i.op = 0x32 then i.dfmt == 0xA && (i.sfmt == 0xA || i.sfmt == 0)
  else if i.op ≤ 0x34 then i.dfmt == 0 && i.sfmt == 0
  else if i.op = 0x40 ∨ i.op = 0x41 ∨ i.op = 0x45 ∨ i.op = 0x46 then i.dfmt == 0xC && i.sfmt == 0xC
  else if i.op ≤ 0x47 then i.dfmt == i.sfmt && (fl i.dfmt || i.dfmt == 0xC)
  else if i.op = 0x48 then fl i.sfmt || i.sfmt == 0xC
  else true

/-- FORMAT of Table 5.6. -/
def fmtBad (p : VecParams) (i : Insn) : Bool :=
  opSlot i.op == 5 || i.dfmt == 0xF || i.sfmt == 0xF || i.rnd == 3 || !fmtAllowed p i
    || (i.srcPair && i.va % 2 == 1) || (i.dstPair && i.vd % 2 == 1)

/-- Whether an instruction rounds stochastically. -/
def Insn.isSr (i : Insn) : Bool := i.rnd == 2 && i.op != 0

/-! Static checks (Table 5.6) -/

/-- Whether a list has an entry twice. -/
def hasTwice : List Nat → Bool
  | [] => false
  | x :: t => t.contains x || hasTwice t

/-- SLOT: an opcode in the wrong slot, or two slots that write one register or mask. -/
def slotBad (b : List Insn) : Bool :=
  (b.zipIdx.any (fun x => opSlot x.1.op != 4 && opSlot x.1.op != 5 && opSlot x.1.op != x.2))
    || hasTwice (b.flatMap Insn.writes) || hasTwice (b.flatMap Insn.writeMasks)

/-- UNDEF_READ: a register or mask read before an earlier bundle has written it (R135). -/
def undefRead : List (List Insn) → List Nat → List Nat → Bool
  | [], _, _ => false
  | b :: t, rs, ms =>
    b.any (fun i => i.reads.any (fun r => r < 48 && !rs.contains r) || i.readMasks.any (fun m => m != 0 && !ms.contains m))
      || undefRead t (b.flatMap Insn.writes ++ rs) (b.flatMap Insn.writeMasks ++ ms)

/-- The lanes of block `b` that are not tail (R140). -/
def activeLanes (p : VecParams) (b : Nat) : Nat :=
  if b + 1 = p.blocks then (if p.tail = 0 then 256 else min 256 p.tail) else 256

/-- Bytes that an access of `lanes` lanes spans in a format (R141). -/
def spanBytes (f lanes : Nat) : Nat :=
  if f = 0xD then ceilDiv lanes 32 else ceilDiv (lanes * (if isPacked f then 2 else 1) * fmtWidth f) 8

/-- The regions that a VLD or VST touches over all blocks, as (write, (base, blocks, stride, bytes)): the whole blocks and the
last one (R141). -/
def accessRegions (p : VecParams) (i : Insn) : List (Bool × Nat × Nat × Nat × Nat) :=
  if i.op = 1 ∨ i.op = 2 then
    let st := p.streams.getD (bits i.imm 0 4) (0, 0, 0)
    let a := st.1 + 64 * bits i.imm 4 12
    [(i.op == 2, a, p.blocks - 1, st.2.1, spanBytes st.2.2 256),
      (i.op == 2, a + (p.blocks - 1) * st.2.1, 1, 0, spanBytes st.2.2 (activeLanes p (p.blocks - 1)))]
  else []

/-- A VLD or VST whose stream is misaligned or leaves the Hearth in some block (R132). -/
def accessBad (die : Nat) (p : VecParams) (i : Insn) : Bool :=
  if i.op = 1 ∨ i.op = 2 then
    let st := p.streams.getD (bits i.imm 0 4) (0, 0, 0)
    st.1 % 8 != 0 || st.2.1 % 8 != 0
      || (accessRegions p i).any (fun r => r.2.2.1 != 0 && !inHearth die (spanOf r.2).1 (spanOf r.2).2)
  else false

/-- Whether an SR element index of an instruction would reach 2^40 (R147). -/
def indexBad (p : VecParams) (i : Insn) : Bool :=
  if i.isSr then
    let base := (p.tags.getD (bits i.imm 0 4) (0, 0)).2
    let last := fun (b : Nat) => if isPacked i.dfmt then base + 512 * b + 2 * activeLanes p b else base + 256 * b + activeLanes p b
    2 ^ 40 < last (p.blocks - 1) || (1 < p.blocks && 2 ^ 40 < last (p.blocks - 2))
  else false

/-- The first refusal code of Table 5.6 that applies; 0 for none (R139). `bs` is the kernel. -/
def vecCheck (die : Nat) (p : VecParams) (bs : List (List Insn)) : Nat :=
  let all := bs.flatten
  if p.len = 0 ∨ 1024 < p.len then 1
  -- a kernel outside the Hearth is not read: its place is judged before its words
  else if !inHearth die p.kernel (32 * p.len) then 8
  else if bs.any slotBad then 2
  else if undefRead bs [] [] then 3
  else if all.any (fun i => i.writes.any (48 ≤ ·) || i.writeMasks.any (· == 0)) then 4
  else if all.any (fmtBad p) then 5
  else if all.any (fun i => i.isSr && i.op != 0x18 && i.op != 0x32) then 6
  else if 0x8000 < ((all.filter (fun i => i.op == 2)).map (fun i => spanBytes (streamFmt p i) 256)).sum then 7
  else if p.kernel % 32 ≠ 0 ∨ all.any (accessBad die p) then 8
  else if all.any (indexBad p) then 9
  else 0

/-! A block slot at work -/

/-- The registers, masks and memory of a block as it runs, what it adds to the flags and the lane halves rounded under SR.
Memory holds the store buffer's bytes over the Hearth's (R142). -/
structure Blk where
  regs : Tbl (List Nat)
  masks : Tbl (List Bool)
  mem : Memory
  sat : Bool
  nan : Bool
  inf : Bool
  sr : Nat
  deriving DecidableEq, Repr

/-- What a block works from: its parameters, block index, lanes not in the tail, seeds, step, and the tag of its undefined
registers (R135). -/
structure BlkEnv where
  p : VecParams
  b : Nat
  act : Nat
  seedG : Nat
  seedU : Nat
  step : Nat
  tag : Nat
  deriving DecidableEq, Repr

/-- The lanes of a register: a constant, what was written, or undefined bits (R135). -/
def Blk.reg (e : BlkEnv) (k : Blk) (r : Nat) : List Nat :=
  if 48 ≤ r then List.replicate 256 (e.p.consts.getD (r - 48) 0)
  else match k.regs.find? (fun x => x.1 == r) with
    | some x => x.2
    | none => (List.range 256).map (fun l => leNat ((List.range 4).map (fun j => Config.freeByte e.tag (r * 1024 + 4 * l + j))))

/-- The 512 bits of a mask; M0 is all ones (R135). -/
def Blk.maskBits (e : BlkEnv) (k : Blk) (m : Nat) : List Bool :=
  if m = 0 then List.replicate 512 true
  else match k.masks.find? (fun x => x.1 == m) with
    | some x => x.2
    | none => (List.range 512).map (fun j => bitOf (Config.freeByte e.tag (0x10000 + 512 * m + j)).toNat 0)

/-- The mask bit that governs element `i` of a format (R136). -/
def halfOf (f i : Nat) : Nat := if isPacked f then i else 2 * i

/-- The lane of element `i` of a format. -/
def laneOf (f i : Nat) : Nat := if isPacked f then i / 2 else i

/-- Whether element `i` of a format is active: its lane is not in the tail and its mask bit is 1 (R140). -/
def isActive (e : BlkEnv) (mb : List Bool) (f i : Nat) : Bool := laneOf f i < e.act && mb.getD (halfOf f i) false

/-- The bits of element `i` of registers `lanes` (and `lanes2`, the pair) in a format (Table 5.3). -/
def elemBits (f : Nat) (lanes lanes2 : List Nat) (i : Nat) : Nat :=
  if isPacked f then bits (lanes.getD (i / 2) 0) (16 * (i % 2)) 16
  else if f = 0xA then lanes.getD i 0 * 256 + lanes2.getD i 0 % 256
  else lanes.getD i 0 % 2 ^ fmtWidth f

/-- The value of element `i`; an MX element with the scale of its 32 lanes (R112). -/
def elemVal (f : Nat) (lanes lanes2 : List Nat) (i : Nat) : Val :=
  let b := elemBits f lanes lanes2 i
  if f = 0xB ∨ f = 0xC then ofInt (toSigned (fmtWidth f) b)
  else
    let v := ((fmtOf f).getD .fp32).decode b
    if isMx f then
      let x := lanes2.getD (32 * (i / 32)) 0 % 256
      if x = 0xFF then .nan else v.scale ((x : Int) - 127)
    else v

/-- What an instruction does to one element of its destination. -/
inductive Elt where
  | wr (v : Nat) (sat nan inf sr : Bool)
  | zero
  | keep
  deriving DecidableEq, Repr

/-- An element written with bits of a format: a NaN or infinity among them raises its flag (R148). -/
def eltOf (f : Nat) (r : Nat × Bool) (sr : Bool) : Elt :=
  match fmtOf f with
  | some g => match g.decode r.1 with
    | .nan => .wr r.1 r.2 true false sr
    | .inf _ => .wr r.1 r.2 false true sr
    | .fin _ _ _ => .wr r.1 r.2 false false sr
  | none => .wr r.1 r.2 false false sr

/-- A raw element: no flag. -/
def eltRaw (v : Nat) : Elt := .wr v false false false false

/-- The elements of a destination: the active ones computed, the others as R140 says. -/
def elts (e : BlkEnv) (k : Blk) (i : Insn) (f n : Nat) (g : Nat → Elt) : List Elt :=
  let mb := k.maskBits e i.mask
  (List.range n).map (fun j => if isActive e mb f j then g j else if i.pz then .zero else .keep)

/-- An element over the old bits. -/
def Elt.merge (old : Nat) : Elt → Nat
  | .wr v _ _ _ _ => v
  | .zero => 0
  | .keep => old

/-- The lanes of a register after its elements are written; a short list leaves the lanes beyond it. -/
def mergeLanes (f : Nat) (old : List Nat) (es : List Elt) : List Nat :=
  old.zipIdx.map (fun x =>
    if isPacked f then
      (es.getD (2 * x.2) .keep).merge (x.1 % 2 ^ 16) + 2 ^ 16 * (es.getD (2 * x.2 + 1) .keep).merge (x.1 / 2 ^ 16)
    else (es.getD x.2 .keep).merge x.1)

/-- Flags and SR count of written elements (R148). -/
def Blk.flag (k : Blk) (es : List Elt) : Blk :=
  es.foldl (fun k x => match x with
    | .wr _ a b c d => { k with sat := k.sat || a, nan := k.nan || b, inf := k.inf || c, sr := k.sr + b2n d }
    | _ => k) k

/-- A register takes lanes. -/
def Blk.setReg (k : Blk) (r : Nat) (lanes : List Nat) : Blk := { k with regs := Tbl.set k.regs r lanes }

/-- Destination `r` takes elements of a format; FX40 goes to the pair (Table 5.3). -/
def Blk.put (e : BlkEnv) (k : Blk) (f r : Nat) (es : List Elt) : Blk :=
  let k := k.flag es
  if f = 0xA then
    let part := fun (g : Nat → Nat) (x : Elt) => match x with | .wr v _ _ _ _ => eltRaw (g v) | y => y
    let lo := mergeLanes 0 (k.reg e r) (es.map (part (· / 256)))
    let hi := mergeLanes 0 (k.reg e (r + 1)) (es.map (part (· % 256)))
    (k.setReg r lo).setReg (r + 1) hi
  else k.setReg r (mergeLanes f (k.reg e r) es)

/-! Rounding -/

/-- RND of an instruction as a mode; SR has its own path. -/
def Insn.mode (i : Insn) : Mode := if i.rnd = 1 then .rtz else .rne

/-- One rounding to a format code (R106, R107, R110). -/
def roundTo (f : Nat) (mode : Mode) (ovf : Bool) (v : Val) : Nat × Bool :=
  if f = 0xB ∨ f = 0xC then toIntFmt (fmtWidth f) mode v else ((fmtOf f).getD .fp32).convert mode ovf v

/-- The result of an arithmetic instruction: packed BF16 is the FP32 result rounded once more under RNE (R126), every other
format one rounding (R106). -/
def roundArith (i : Insn) (v : Val) : Nat × Bool :=
  if i.dfmt = 1 then
    let x := Fmt.fp32.convert i.mode i.ovf v
    let y := Fmt.bf16.convert .rne i.ovf (Fmt.fp32.decode x.1)
    (y.1, x.2 || y.2)
  else roundTo i.dfmt i.mode i.ovf v

/-! Instruction classes -/

/-- MIN or MAX: −0 below +0, a NaN if either operand is one (R138). -/
def minMax (mx : Bool) (a b : Val) : Val :=
  match a, b with
  | .nan, _ | _, .nan => .nan
  | _, _ => if (if mx then a.lt b else b.lt a) then b else a

/-- The exact value of an FMA-slot instruction 0x10 to 0x17 or of DIV and SQRT. -/
def arith (op : Nat) (a b c : Val) : Val :=
  match op with
  | 0x10 => a.add b
  | 0x11 => a.add b.neg
  | 0x12 => a.mul b
  | 0x13 => (a.mul b).add c
  | 0x14 => minMax false a b
  | 0x15 => minMax true a b
  | 0x16 => a.abs
  | 0x17 => a.neg
  | 0x20 => a.div b
  | _ => a.sqrt

/-- The value of a transcendental instruction on an operand (R120, Table 4.7): bits that the spec bounds and does not give
(log entry 5). -/
def transVal (op : Nat) (v : Val) : Val :=
  Fmt.fp32.decode (Config.transcendental op (BitVec.ofNat 32 (Fmt.fp32.convert .rne true v).1)).toNat

/-- Instructions 0x10 to 0x17 and 0x20 to 0x2A. -/
def execArith (e : BlkEnv) (k0 : Blk) (i : Insn) (k : Blk) : Blk :=
  let a := k0.reg e i.va
  let b := k0.reg e i.vb
  let c := k0.reg e i.vc
  let v := fun (r : List Nat) j => elemVal i.sfmt r [] j
  k.put e i.dfmt i.vd (elts e k0 i i.dfmt (elemCount i.dfmt) (fun j =>
    let x := if 0x22 ≤ i.op then transVal i.op (v a j) else arith i.op (v a j) (v b j) (v c j)
    eltOf i.dfmt (roundArith i x) false))

/-- The Spark word for element `j` of an SR instruction (R147). -/
def srWord (e : BlkEnv) (i : Insn) (j : Nat) : Nat :=
  let t := e.p.tags.getD (bits i.imm 0 4) (0, 0)
  let idx := t.2 + (if isPacked i.dfmt then 512 * e.b + j else 256 * e.b + j)
  sparkWord (if i.op = 0x18 then e.seedG else e.seedU) e.step t.1 idx

/-- GACC and UPDX (R147): one rounding of the exact sum. -/
def execStoch (e : BlkEnv) (k0 : Blk) (i : Insn) (k : Blk) : Blk :=
  let sf := if i.op = 0x32 then 0xA else i.sfmt
  let bf := if i.op = 0x32 then 0 else i.sfmt
  let a := k0.reg e i.va
  let a2 := k0.reg e (i.va + 1)
  let b := k0.reg e i.vb
  k.put e i.dfmt i.vd (elts e k0 i i.dfmt (elemCount i.dfmt) (fun j =>
    let x := (elemVal sf a a2 j).add (elemVal bf b [] j)
    if i.isSr then eltOf i.dfmt (((fmtOf i.dfmt).getD .fp32).stochastic (srWord e i j) x) true
    else eltOf i.dfmt (roundTo i.dfmt i.mode i.ovf x) false))

/-- CVT (R145): element j of the source becomes element j of the destination (log entry 17). -/
def execCvt (e : BlkEnv) (k0 : Blk) (i : Insn) (k : Blk) : Blk :=
  let a := k0.reg e i.va
  let a2 := k0.reg e (i.va + 1)
  k.put e i.dfmt i.vd (elts e k0 i i.dfmt (min (elemCount i.dfmt) (elemCount i.sfmt)) (fun j =>
    eltOf i.dfmt (roundTo i.dfmt i.mode i.ovf (elemVal i.sfmt a a2 j)) false))

/-- QMX (R111, R145): each 32 elements become one MX block, the scale in the paired register. -/
def execQmx (e : BlkEnv) (k0 : Blk) (i : Insn) (k : Blk) : Blk :=
  let a := k0.reg e i.va
  let blocks := (List.range 8).map (fun g =>
    quantise i.dfmt i.mode ((List.range 32).map (fun j => elemVal i.sfmt a [] (32 * g + j))))
  let k := k.put e i.dfmt i.vd (elts e k0 i i.dfmt 256 (fun j =>
    eltOf i.dfmt ((blocks.getD (j / 32) (0, [])).2.getD (j % 32) (0, false)) false))
  let sc := (elts e k0 i 0xD 256 (fun j => eltRaw (blocks.getD (j / 32) (0, [])).1)).zipIdx.map (fun x =>
    if x.2 % 32 = 0 then x.1 else .keep)
  k.setReg (i.vd + 1) (mergeLanes 0 (k0.reg e (i.vd + 1)) sc)

/-- A tree node of RSUM and RMAX: one rounding of the sum, or the maximum. -/
def redNode (i : Insn) (a b : Val × Bool) : Val × Bool :=
  if i.op = 0x33 then
    let r := Fmt.fp32.convert .rne i.ovf (a.1.add b.1)
    (Fmt.fp32.decode r.1, r.2 || a.2 || b.2)
  else (minMax true a.1 b.1, a.2 || b.2)

/-- RSUM and RMAX (R140, R146): a masked lane counts as +0 or −infinity; the result goes to every lane. -/
def execReduce (e : BlkEnv) (k0 : Blk) (i : Insn) (k : Blk) : Blk :=
  let a := k0.reg e i.va
  let mb := k0.maskBits e i.mask
  let xs := (List.range 256).map (fun j =>
    if isActive e mb 0 j then (elemVal 0 a [] j, false) else (if i.op = 0x33 then Val.zero else .inf true, false))
  let r := tree (redNode i) (Val.zero, false) 8 xs
  let o := Fmt.fp32.convert .rne (i.ovf || i.op == 0x33) r.1
  k.put e 0 i.vd (elts e k0 i 0 256 (fun _ => eltOf 0 (o.1, r.2 || o.2) false))

/-- The bits of an integer or mask-slot instruction 0x40 to 0x47 on operand bits of width `w`; where the spec states no
result, free bits (log entry 16). -/
def intOp (op w a b c : Nat) : Nat :=
  let opened := (Config.laneOpen op a b c).toNat % 2 ^ w
  let sum := fun (x : Int) => let r := satInt 32 x; if r.2 then opened else fromSigned 32 x
  match op with
  | 0x40 => sum (toSigned 32 a + toSigned 32 b)
  | 0x41 => sum (toSigned 32 a - toSigned 32 b)
  | 0x42 => a &&& b
  | 0x43 => a ||| b
  | 0x44 => a ^^^ b
  | 0x45 => if b < 32 then a * 2 ^ b % 2 ^ 32 else opened
  | 0x46 => if b < 32 ∧ (b = 0 ∨ a < 2 ^ 31) then a / 2 ^ b else opened
  | _ => opened

/-- Instructions 0x40 to 0x47. -/
def execInt (e : BlkEnv) (k0 : Blk) (i : Insn) (k : Blk) : Blk :=
  let a := k0.reg e i.va
  let b := k0.reg e i.vb
  let c := k0.reg e i.vc
  let f := i.dfmt
  k.put e f i.vd (elts e k0 i f (elemCount f) (fun j =>
    eltRaw (intOp i.op (fmtWidth f) (elemBits f a [] j) (elemBits f b [] j) (elemBits f c [] j))))

/-- A CMP condition (Table 5.4); the reserved code 7 is open (log entry 16). -/
def cmpHolds (cond : Nat) (a b : Val) : Bool :=
  let un := a == .nan || b == .nan
  let lt := a.lt b && !a.eq b
  let gt := b.lt a && !a.eq b
  match cond with
  | 0 => a.eq b
  | 1 => !a.eq b
  | 2 => lt
  | 3 => lt || a.eq b
  | 4 => gt
  | 5 => gt || a.eq b
  | 6 => un
  | _ => bitOf (Config.laneOpen 0x48 7 0 0).toNat 0

/-- A mask takes the bits of active halves; masked halves as R140 says. -/
def putMask (e : BlkEnv) (k0 : Blk) (i : Insn) (m : Nat) (g : Nat → Option Bool) (k : Blk) : Blk :=
  let mb := k0.maskBits e i.mask
  let new := (k0.maskBits e m).zipIdx.map (fun x =>
    match g x.2 with
    | some v => if x.2 / 2 < e.act && mb.getD x.2 false then v else if i.pz then false else x.1
    | none => x.1)
  { k with masks := Tbl.set k.masks m new }

/-- CMP: on 32-bit lanes bit 2l is written (R136). -/
def execCmp (e : BlkEnv) (k0 : Blk) (i : Insn) (k : Blk) : Blk :=
  let a := k0.reg e i.va
  let b := k0.reg e i.vb
  putMask e k0 i (bits i.imm 3 3) (fun h =>
    if isPacked i.sfmt then some (cmpHolds (bits i.imm 0 3) (elemVal i.sfmt a [] h) (elemVal i.sfmt b [] h))
    else if h % 2 = 0 then some (cmpHolds (bits i.imm 0 3) (elemVal i.sfmt a [] (h / 2)) (elemVal i.sfmt b [] (h / 2)))
    else none) k

/-- MAND, MOR and MNOT over the 512 bits. -/
def execMask (e : BlkEnv) (k0 : Blk) (i : Insn) (k : Blk) : Blk :=
  let a := k0.maskBits e (bits i.imm 3 3)
  let b := k0.maskBits e (bits i.imm 6 3)
  putMask e k0 i (bits i.imm 0 3) (fun h =>
    let x := a.getD h false
    let y := b.getD h false
    some (if i.op = 0x49 then x && y else if i.op = 0x4A then x || y else !x)) k

/-- `w` bits at bit offset `bit` from address `a`. -/
def peekBits (m : Memory) (a bit w : Nat) : Nat := bits (leNat (m.read (a + bit / 8) ((bit % 8 + w + 7) / 8))) (bit % 8) w

/-- `w` bits at bit offset `bit` from address `a` replaced. -/
def pokeBits (m : Memory) (a bit w v : Nat) : Memory :=
  let n := (bit % 8 + w + 7) / 8
  m.write (a + bit / 8) (leBytes n (setBits (leNat (m.read (a + bit / 8) n)) (bit % 8) w v))

/-- The address of element 0 of a VLD or VST in a block (R141). -/
def accessBase (e : BlkEnv) (i : Insn) : Nat :=
  let st := e.p.streams.getD (bits i.imm 0 4) (0, 0, 0)
  st.1 + e.b * st.2.1 + 64 * bits i.imm 4 12

/-- VLD (R141): elements unpack into lanes; an E8M0 stream holds one scale for each 32 lanes. -/
def execVld (e : BlkEnv) (k0 : Blk) (i : Insn) (k : Blk) : Blk :=
  let f := streamFmt e.p i
  let a := accessBase e i
  if f = 0xD then
    let es := (elts e k0 i 0 256 (fun j => eltRaw (peekBits k0.mem a (j / 32 * 8) 8))).zipIdx.map (fun x =>
      if x.2 % 32 = 0 then x.1 else .keep)
    k.setReg i.vd (mergeLanes 0 (k0.reg e i.vd) es)
  else k.setReg i.vd (mergeLanes f (k0.reg e i.vd) (elts e k0 i f (elemCount f) (fun j =>
    eltRaw (peekBits k0.mem a (j * fmtWidth f) (fmtWidth f)))))

/-- VST (R140, R141): active elements are stored, masked ones as zeros under PZ, tail lanes never. -/
def execVst (e : BlkEnv) (k0 : Blk) (i : Insn) (k : Blk) : Blk :=
  let f := streamFmt e.p i
  let a := accessBase e i
  let r := k0.reg e i.va
  let g := if f = 0xD then 0 else f
  let w := if f = 0xD then 8 else fmtWidth f
  let es := (elts e k0 i g (elemCount g) (fun j => eltRaw (elemBits f r [] j))).zipIdx
  let step := fun (m : Memory) (x : Elt × Nat) =>
    if e.act ≤ laneOf g x.2 ∨ (f = 0xD ∧ x.2 % 32 ≠ 0) then m
    else
      let bit := if f = 0xD then x.2 / 32 * 8 else x.2 * w
      match x.1 with
      | .wr v _ _ _ _ => pokeBits m a bit w v
      | .zero => pokeBits m a bit w 0
      | .keep => m
  { k with mem := es.foldl step k.mem }

/-- One instruction, its sources from `k0`. -/
def execInsn (e : BlkEnv) (k0 : Blk) (k : Blk) (i : Insn) : Blk :=
  if i.op = 0 then k
  else if i.op = 1 then execVld e k0 i k
  else if i.op = 2 then execVst e k0 i k
  else if i.op = 0x18 ∨ i.op = 0x32 then execStoch e k0 i k
  else if i.op ≤ 0x2A then execArith e k0 i k
  else if i.op = 0x30 then execCvt e k0 i k
  else if i.op = 0x31 then execQmx e k0 i k
  else if i.op ≤ 0x34 then execReduce e k0 i k
  else if i.op ≤ 0x47 then execInt e k0 i k
  else if i.op = 0x48 then execCmp e k0 i k
  else execMask e k0 i k

/-- One bundle: all four instructions read their sources before any writes (R137). -/
def execBundle (e : BlkEnv) (k : Blk) (b : List Nat) : Blk := b.foldl (fun acc w => execInsn e k acc (Insn.ofWord w)) k

/-- A whole block over the module's memory: its memory with the block's stores, flags and SR count. -/
def runBlock (e : BlkEnv) (m : Memory) (bundles : List (List Nat)) : Blk :=
  bundles.foldl (execBundle e) ⟨[], [], m, false, false, false, 0⟩

end Sys2Proof.Machine
end

