-- ==== Sys2Proof/Machine/Swage.lean ====
section
/-! DEFINITION. The Swage family (chapter 5): VEC records and their checks, block slots, block commit, completion, test
claims, clock gating and map-outs; and Spark's zero-vector check (R119). -/

namespace Sys2Proof.Machine

open Sys2Proof

/-! Records (R134, R139) -/

/-- The 512 bytes of a parameter block as VEC parameters (Table 5.2). -/
def vecParams (die : Nat) (pb : List Byte) : VecParams :=
  { kernel := localise die (fieldAt pb 0 8), len := bits (fieldAt pb 8 4) 0 11, blocks := bits (fieldAt pb 0x10 4) 0 24 + 1,
    tail := bits (fieldAt pb 0x14 4) 0 9,
    streams := (List.range 16).map (fun j =>
      (localise die (fieldAt pb (0x40 + 16 * j) 8), fieldAt pb (0x48 + 16 * j) 4, bits (fieldAt pb (0x4C + 16 * j) 4) 0 4)),
    consts := (List.range 16).map (fun j => fieldAt pb (0x140 + 4 * j) 4),
    tags := (List.range 16).map (fun j =>
      let w := fieldAt pb (0x180 + 8 * j) 8
      (bits w 0 24, bits w 24 40)) }

/-- The bits of a VEC parameter block that Table 5.2 gives a meaning. -/
def vecPbFields : List (Nat × Nat × Nat) :=
  [(0, 0, 64), (8, 0, 11), (0x10, 0, 24), (0x14, 0, 9), (0x140, 0, 512), (0x180, 0, 1024)]
    ++ (List.range 16).flatMap (fun j => [(0x40 + 16 * j, 0, 64), (0x48 + 16 * j, 0, 32), (0x4C + 16 * j, 0, 4)])

/-- The bundles of a kernel, four words each (R137). -/
def readKernel (m : Memory) (p : VecParams) : List (List Nat) :=
  (List.range p.len).map (fun j => (List.range 4).map (fun q => leNat (m.read (p.kernel + 32 * j + 8 * q) 8)))

/-- A refusal of Table 5.6 (R139): SWG_REFUSE, CMD_REFUSED and the command error. -/
def refuseVec (s : State) (c : Nat) (r : Rec) (code : Nat) : State :=
  let die := homeDie s c
  let s := s.wr R.SWG_REFUSE_LAST_CODE die code
  let s := s.wr R.SWG_REFUSE_LAST_CTX die c
  let s := raise (s.inc R.SWG_REFUSE_COUNT die 1) .SWG die 10
  cmdError s c r 2 code

/-- The Spark refusal of R119: NO_HOLD. -/
def refuseSpark (s : State) (c : Nat) (r : Rec) : State :=
  let s := raise (s.inc R.SPK_REFUSED_REFUSED 0 1) .SPK 0 4
  cmdError (logErr s .SPK 0 1 .COMMAND (homeDie s c) 0 [c, 0, 0]) c r 3 1

/-- Whether R119 refuses SR instructions now. -/
def sparkRefuses (s : State) : Bool :=
  (!s.on R.SPK_CTL_SRC 0 && !s.tmp.holdValid) || !s.on R.SPK_STS_KAT_PASS 0

/-- The seeds and step of the source that SPK_CTL selects (R115): G, U and step. -/
def sparkInputs (s : State) : Nat × Nat × Nat :=
  if s.on R.SPK_CTL_SRC 0 then (s.rd R.SPK_SEED_G_SEED_G 0, s.rd R.SPK_SEED_U_SEED_U 0, s.rd R.SPK_STEP_STEP 0)
  else (s.rd R.SPK_HOLD_G_HOLD_SEED_G 0, s.rd R.SPK_HOLD_U_HOLD_SEED_U 0, s.tmp.step)

/-- The regions of a VEC command: its kernel and the streams its instructions use. -/
def vecRegions (p : VecParams) (bs : List (List Insn)) : List (Bool × Nat × Nat × Nat × Nat) :=
  (false, p.kernel, 1, 0, 32 * p.len) :: bs.flatten.flatMap (accessRegions p)

/-- A VEC command that passed its checks joins the die's work; an SR command samples its inputs now (R115). -/
def startVec (s : State) (c : Nat) (r : Rec) (die : Nat) (p : VecParams) (bundles : List (List Nat)) (sr : Bool) : State :=
  let l := launch s c r .vec 1 0 0 0 false
  let i := sparkInputs s
  let v : Vec :=
    { die := die, ctx := c, p := p, bundles := bundles, sr := sr, seedG := i.1, seedU := i.2.1, step := i.2.2, next := 0,
      again := [], committed := 0 }
  releaseCur { l.2 with eng := { l.2.eng with vecs := l.2.eng.vecs ++ [(l.1, v)] } } c

/-- VEC (R139, R494): the block is read, the checks run in their order, and the command's blocks join the die's work. -/
def vecRec (s : State) (c : Nat) (r : Rec) : State :=
  let die := homeDie s c
  let pb := localise die r.pb
  if pb % 64 ≠ 0 ∨ !inHearth die pb 512 then refuseVec s c r 8
  else if !accessOk s (reqOf s c) false pb 512 then refuseAccess s c r (false, pb, 512)
  else match unservable s c r [(pb, 512)] with
  | some t => t
  | none =>
    let bs := s.load pb 512
    let p := vecParams die bs
    let bundles := readKernel s.mem p
    let insns := bundles.map (fun b => b.map Insn.ofWord)
    let sr := insns.flatten.any Insn.isSr
    if pbReserved vecPbFields bs then cmdError s c r 0 2
    else if vecCheck die p insns ≠ 0 then
      let s := if vecCheck die p insns = 8 then bankWriteFault s (vecRegions p insns) else s
      refuseVec s c r (vecCheck die p insns)
    else match refusedRegion s c (vecRegions p insns) with
    | some a => refuseAccess s c r a
    | none => if sr ∧ sparkRefuses s then refuseSpark s c r else startVec s c r die p bundles sr

/-- VEC (R139). -/
def execVec (ctx : Nat) (s : State) : Outcome := onRec s ctx 0x21 (vecRec s ctx)

/-! Block slots (R133) -/

/-- Command `id` of the Swages. -/
def vecOf (s : State) (id : Nat) : Option Vec := (s.eng.vecs.find? (fun e => e.1 == id)).map (·.2)

/-- Command `id` replaced. -/
def State.setVec (s : State) (id : Nat) (v : Vec) : State := { s with eng := { s.eng with vecs := Tbl.set s.eng.vecs id v } }

/-- The block of a command that the dispatcher assigns next: one to run again, else the next in ascending order. -/
def nextBlock (v : Vec) : Option (Nat × Vec) :=
  match v.again with
  | b :: t => some (b, { v with again := t })
  | [] => if v.next < v.p.blocks then some (v.next, { v with next := v.next + 1 }) else none

/-- The commands whose kernels a Swage's instruction buffer holds. -/
def kernelsOf (x : Swage) : List Nat := x.slots.foldl (fun l e => if l.contains e.2.1 then l else e.2.1 :: l) []

/-- The oldest command of a die with a block to assign whose kernel fits the unit's instruction buffer (R133). -/
def takeBlock (s : State) (die : Nat) (x : Swage) : Option (Nat × Nat × Vec) :=
  s.eng.vecs.findSome? (fun e =>
    if e.2.die = die ∧ flightLive s e.1 ∧ ((kernelsOf x).contains e.1 ∨ (kernelsOf x).length < 2) then
      (nextBlock e.2).map (fun r => (e.1, r.1, r.2))
    else none)

/-- VEC_BLOCK_START (R133): a free slot of an ACTIVE Swage receives the next block. -/
def startBlock (s : State) (die u slot : Nat) : State :=
  let x := swageOf s die u
  if x.st ≠ .active ∨ x.leaving ∨ x.slots.any (fun e => e.1 == slot) ∨ s.on R.DIE_STS_IN_RESET die ∨ hearthStalled s die then s
  else match takeBlock s die x with
  | some (id, b, v) => (s.setVec id v).setSwage die u { x with slots := x.slots ++ [(slot, (id, b))], gated := false }
  | none => s

/-- VEC_BLOCK_START (R133). -/
def execVecBlockStart (die unit slot : Nat) (s : State) : Outcome :=
  if die < 8 ∧ unit < 8 ∧ slot < 8 then live s (startBlock s die unit slot) else .fault .noSuchUnit

/-- A parity error of a Swage (R152): PARITY, its log entry, the step fault and the unit's ledger event. -/
def swgParity (s : State) (die u : Nat) (par : SwgParity) (ctx b : Nat) : State :=
  let code := match par with | .none => 0 | .reg => 1 | .sbuf => 2 | .ibuf => 3
  if code = 0 then s
  else
    let s := logErr (raise s .SWG die 8) .SWG die code (stepClass s .INFO) u 0 [ctx, b, 0]
    parityEvent (stepFault s .uncorrectable) (swageId die u) (typeCode .SWG) code

/-- The Swages of a die that are not MAPPED_OUT. -/
def swagesHeld (s : State) (die : Nat) : Nat := 8 - (swagesIn s die .mapped).length

/-- CAPACITY_LOW where the units not MAPPED_OUT fell below 8 (Table 5.10). -/
def swgCapacity (old s : State) (die : Nat) : State :=
  if swagesHeld old die = 8 ∧ swagesHeld s die < 8 then raise s .SWG die 7 else s

/-- A Swage whose last block has gone leaves service under a map-out (R153) or goes idle. -/
def drainSwage (s : State) (die u : Nat) : State :=
  let x := swageOf s die u
  if !x.slots.isEmpty then s
  else if x.leaving then
    let t := s.setSwage die u { x with st := .mapped, leaving := false, gated := true }
    swgCapacity s t die
  else s.setSwage die u { x with idleSince := s.clock }

/-- A block commits (R142, R148): its stores, its flags, the counters and events of Tables 5.9 and 5.10. -/
def commitBlock (s : State) (die u slot id b : Nat) (v : Vec) (par : SwgParity) : State :=
  let e : BlkEnv :=
    { p := v.p, b := b, act := activeLanes v.p b, seedG := v.seedG, seedU := v.seedU, step := v.step, tag := s.free }
  let k := runBlock e s.mem v.bundles
  let s := { s with mem := k.mem, free := s.free + 1 }
  let s := orAflags s v.ctx (Arith.bits ⟨false, k.nan, k.inf, k.sat⟩)
  let s := s.inc R.SWG_BLOCKS_BLOCKS die 1
  let s := s.inc R.SWG_BUNDLES_BUNDLES die v.bundles.length
  let s := s.inc R.SWG_SR_SR die k.sr
  let s := s.inc R.SPK_WORDS_WORDS 0 k.sr
  let s := if k.sat then raise (s.inc R.SWG_SAT_SAT die 1) .SWG die 4 else s
  let s := if k.nan then raise (s.inc R.SWG_NAN_NAN die 1) .SWG die 5 else s
  let s := swgParity s die u par v.ctx b
  let s := s.setVec id { v with committed := v.committed + 1 }
  let x := swageOf s die u
  drainSwage (s.setSwage die u { x with slots := x.slots.filter (fun q => q.1 != slot) }) die u

/-- VEC_BLOCK_COMMIT (R142). -/
def execVecBlockCommit (die unit slot : Nat) (par : SwgParity) (s : State) : Outcome :=
  if die < 8 ∧ unit < 8 ∧ slot < 8 then
    live s (match (if hearthStalled s die then none else (swageOf s die unit).slots.find? (fun e => e.1 == slot)) with
      | some e => (match vecOf s e.2.1 with | some v => commitBlock s die unit slot e.2.1 e.2.2 v par | none => s)
      | none => s)
  else .fault .noSuchUnit

/-- VEC_COMPLETE (R143): every block has committed. -/
def completeVec (s : State) (id : Nat) : State :=
  match flightOf s id, vecOf s id with
  | some f, some v =>
    if v.committed = v.p.blocks ∧ !f.abandoned then
      completeFlight { s with eng := { s.eng with vecs := s.eng.vecs.filter (fun e => e.1 != id) } } id f
    else s
  | _, _ => s

/-- VEC_COMPLETE (R143). -/
def execVecComplete (id : Nat) (s : State) : Outcome := live s (completeVec s id)

/-- SWG_CLK_GATE (R154): a Swage idle for CLK_GATE_IDLE cycles stops its clock. -/
def gateSwage (s : State) (die u : Nat) : State :=
  let x := swageOf s die u
  if x.slots.isEmpty ∧ x.idleSince + cyclesNs (max 16 (s.rd R.SWG_CFG_CLK_GATE_IDLE die)) ≤ s.clock then
    s.setSwage die u { x with gated := true }
  else s

/-- SWG_CLK_GATE (R154). -/
def execSwgClkGate (die unit : Nat) (s : State) : Outcome :=
  if die < 8 ∧ unit < 8 then live s (gateSwage s die unit) else .fault .noSuchUnit

/-! Test claims (R149, R150) -/

/-- BIST_CLAIM_SWAGE (R149, R350): the longest-due Swage is claimed; no new block goes to it. -/
def claimSwage (s : State) (die : Nat) : State :=
  if (claimOf s.bist.swgClaim die).isSome ∨ !s.on R.BSR_CFG_SWG_EN die ∨ s.on R.DIE_STS_IN_RESET die then s
  else match longestDue (dueUnits s die (swageIds s die)) with
    | none => s
    | some id =>
      let u := id - swageId die 0
      let t := { s with bist := { s.bist with swgClaim := s.bist.swgClaim ++ [(die, u, s.clock, false)],
                                              dueNow := s.bist.dueNow.filter (fun e => e.1 != id) } }
      t.setSwage die u { swageOf t die u with st := .test }

/-- BIST_CLAIM_SWAGE (R149). -/
def execBistClaimSwage (die : Nat) (s : State) : Outcome := onUnit s die 8 (claimSwage s die)

/-- The claimed Swage of a die enters TEST. -/
def enterSwgTest (s : State) (die u t0 : Nat) : State :=
  { s with bist := { s.bist with swgClaim := Tbl.set s.bist.swgClaim die (u, t0, true) } }

/-- SWG_TEST_ENTER (R149): once its blocks have committed. -/
def swgEnter (s : State) (die : Nat) : State :=
  match claimOf s.bist.swgClaim die with
  | some (u, t0, false) => if (swageOf s die u).slots.isEmpty then enterSwgTest s die u t0 else s
  | _ => s

/-- SWG_TEST_ENTER (R149). -/
def execSwgTestEnter (die : Nat) (s : State) : Outcome := onUnit s die 8 (swgEnter s die)

/-- A block goes back to its command, to run again from its first bundle (R150). -/
def rerunBlock (s : State) (id b : Nat) : State :=
  match vecOf s id with
  | some v => s.setVec id { v with again := v.again ++ [b] }
  | none => s

/-- The context of command `id`; 0 when there is none. -/
def vecCtx (s : State) (id : Nat) : Nat := match vecOf s id with | some v => v.ctx | none => 0

/-- SWG_CLAIM_FORCED (R150): 50 ms after the claim the unit's uncommitted blocks are abandoned and run again elsewhere. -/
def swgForced (s : State) (die : Nat) : State :=
  match claimOf s.bist.swgClaim die with
  | some (u, t0, false) =>
    let x := swageOf s die u
    if s.clock < t0 + 50000000 then s
    else match x.slots with
      | [] => s
      | e :: _ =>
        let s := x.slots.foldl (fun t q => rerunBlock t q.2.1 q.2.2) s
        let s := s.inc R.SWG_ABANDONED_ABANDONED die x.slots.length
        let s := raise (s.inc R.SWG_FORCED_FORCED die 1) .SWG die 6
        let s := logErr s .SWG die 4 .INFO u 0 [vecCtx s e.2.1, e.2.2, 0]
        enterSwgTest (s.setSwage die u { x with slots := [] }) die u t0
  | _ => s

/-- SWG_CLAIM_FORCED (R150). -/
def execSwgClaimForced (die : Nat) (s : State) : Outcome := onUnit s die 8 (swgForced s die)

/-! Abandonment and map-outs -/

/-- The uncommitted blocks of commands `ids` are abandoned on every Swage (R151); `log` as on a CTX reset: counted, and
BLOCK_ABANDONED logged once for the first of them. -/
def abandonSwages (s : State) (ids : List Nat) (log : Bool) : State :=
  let units := (List.range 64).map (fun k => (k / 8, k % 8))
  let held := units.flatMap (fun u =>
    ((swageOf s u.1 u.2).slots.filter (fun q => ids.contains q.2.1)).map (fun q => (u, q.2)))
  let s1 := if log then
      match held with
      | [] => s
      | h :: _ =>
        let t := held.foldl (fun t q => t.inc R.SWG_ABANDONED_ABANDONED q.1.1 1) s
        raise (logErr t .SWG h.1.1 5 .INFO h.1.2 0 [vecCtx s h.2.1, h.2.2, 0]) .SWG h.1.1 9
    else s
  let s2 := units.foldl (fun t u =>
    let x := swageOf t u.1 u.2
    if x.slots.any (fun q => ids.contains q.2.1) then
      drainSwage (t.setSwage u.1 u.2 { x with slots := x.slots.filter (fun q => !ids.contains q.2.1) }) u.1 u.2
    else t) s1
  { s2 with eng := { s2.eng with vecs := s2.eng.vecs.filter (fun e => !ids.contains e.1) } }

/-- A staged SWG_MAP takes effect (R153): an idle ACTIVE unit at once, a busy one when its blocks commit, one in TEST when
the test ends; a unit that leaves MAPPED_OUT is due for test at once (R350). -/
def applySwgMap (s : State) (die : Nat) : State :=
  let mask := s.rd R.SWG_MAP_MAP_OUT die
  let t := (List.range 8).foldl (fun t u =>
    let x := swageOf t die u
    match x.st, bitOf mask u with
    | .active, b => drainSwage (t.setSwage die u { x with leaving := b }) die u
    | .test, b => t.setSwage die u { x with mapNext := b }
    | .mapped, false =>
      { t.setSwage die u { x with st := .active, gated := false } with
        bist := { t.bist with dueNow := Tbl.set t.bist.dueNow (swageId die u) t.clock } }
    | _, _ => t) s
  t

/-! Spark -/

/-- SPARK_KAT (R119): the zero-vector check completes; on a mismatch KAT_FAIL and its log entry. -/
def sparkKatOp (s : State) (good : Bool) : State :=
  let ok := good && (List.range 4).map (sparkWord 0 0 0) == [0x6627E8D5, 0xE169C58D, 0xBC57AC4C, 0x9B00DBD8]
  let s := (s.wr R.SPK_STS_KAT_DONE 0 1).wr R.SPK_STS_KAT_PASS 0 (b2n ok)
  if ok then s else logErr (raise s .SPK 0 5) .SPK 0 2 .DOMAIN 0 0 [0, 0, 0]

/-- SPARK_KAT (R119). -/
def execSparkKat (good : Bool) (s : State) : Outcome := live s (sparkKatOp s good)

end Sys2Proof.Machine
end

