-- ==== Sys2Proof/Machine/Hbm.lean ====
section
/-! DEFINITION. The Hearth and HBM family (chapters 6 and 7): Hearth scrub, initialisation and halt, HBM training, reads and
their error outcomes, heals, parity retry, refresh, patrol scrub, gathers and self-refresh exit. -/

namespace Sys2Proof.Machine

open Sys2Proof

/-! Hearth -/

/-- The device address of line `i` of a bank of a die's Hearth (R169). -/
def bankLine (die bank i : Nat) : Nat := hearthBase die + i * 2 ^ 15 + (bank ^^^ (i % 128)) * 256

/-- The requester in DETAIL: a context, or 0x3F for one that is not (R179, R202). -/
def requester (ctx : Nat) : Nat := if ctx < 63 then ctx else 0x3F

/-- A Hearth read with a correctable error (R172): counted, logged, and the health input of its die. -/
def hearthCe (s : State) (die bank addr ctx : Nat) : State :=
  let s := raise (s.inc R.HRT_CE_CE die 1) .HRT die 4
  healthInput (logErr s .HRT die 2 .CORRECTED bank addr [requester ctx, 0, 0]) 0 (dieId die)

/-- A Hearth read with an uncorrectable error (R172): counted, logged, and a step fault if a step is running. -/
def hearthUe (s : State) (die bank addr ctx : Nat) : State :=
  let s := raise (s.inc R.HRT_UE_UE die 1) .HRT die 5
  let s := stepFault (logErr s .HRT die 1 (stepClass s .INFO) bank addr [requester ctx, 0, 0]) .uncorrectable
  healthInput (ledgerEvent s (dieId die) 7 0 (s.rd (R.HLT_W_WEIGHT 3) 0) false [addr, 0]) 3 (dieId die)

/-- The whole scrub passes of a Hearth: those that every bank has completed (R173). -/
def hearthPasses (s : State) (die : Nat) : Nat :=
  ((List.range 128).map (fun b => Tbl.get 0 s.hscrub (128 * die + b) / 65536)).foldl min (Tbl.get 0 s.hscrub (128 * die) / 65536)

/-- HEARTH_SCRUB_READ (R173): the next line of a bank is read, corrected or reported. -/
def hearthScrub (s : State) (die bank : Nat) (ecc : Ecc) : State :=
  if !s.on R.HRT_CTL_SCRUB_EN die || hearthStalled s die || s.on R.DIE_STS_IN_RESET die then s
  else
    let n := Tbl.get 0 s.hscrub (128 * die + bank)
    let a := bankLine die bank (n % 65536)
    let old := hearthPasses s die
    let s := { s with hscrub := Tbl.set s.hscrub (128 * die + bank) (n + 1) }
    let s := s.inc R.HRT_SCRUB_PASS_PASSES die (hearthPasses s die - old)
    match ecc with
    | .ok => s
    | .correctable => hearthCe s die bank a 0x3F
    | .uncorrectable => hearthUe s die bank a 0x3F

/-- HEARTH_SCRUB_READ (R173). -/
def execHearthScrubRead (die bank : Nat) (ecc : Ecc) (s : State) : Outcome :=
  if die < 8 ∧ bank < 128 then live s (hearthScrub s die bank ecc) else .fault .noSuchUnit

/-- HEARTH_INIT_DONE (R176): every line is zero, INIT_DONE is set. -/
def hearthInit (s : State) (die : Nat) : State :=
  if s.on R.HRT_STS_INIT_DONE die || s.on R.DIE_STS_IN_RESET die || !s.smc.released then s
  else refreshReady (raise ((s.zero (hearthBase die) hearthSize).wr R.HRT_STS_INIT_DONE die 1) .HRT die 6)

/-- HEARTH_INIT_DONE (R176). -/
def execHearthInitDone (die : Nat) (s : State) : Outcome := onUnit s die 8 (hearthInit s die)

/-- HALT (R171): the Hearth stalls while HRT_CTL.HALT is 1. -/
def execHalt (die : Nat) (on : Bool) (s : State) : Outcome :=
  onUnit s die 8 ((s.wr R.HRT_CTL_HALT die (b2n on)).wr R.HRT_STS_HALTED die (b2n on))

/-! The step's end at a stop -/

/-- PHASE becomes STOPPED with a reason; step contexts issue nothing more (R31, R188, R190). -/
def enterStopped (s : State) (r : Reason) : State :=
  { s with tmp := { s.tmp with phase := .stopped, lastReason := r }, attempt := { s.attempt with frozen := true } }

/-! Regions and sectors -/

/-- The bank region that holds a direct address: the pair (0 WC, 1 MS, 2 MR) and whether it is bank B. -/
def bankAt (m : AddrMap) (a : Nat) : Option (Nat × Bool) :=
  [(0, false), (0, true), (1, false), (1, true), (2, false), (2, true)].find? (fun b =>
    inRange a (pairBase m b.1 b.2) (pairSize m b.1))

/-- REGION, BANK and WAS_ACTIVE of HBM_UE_INFO for a direct address (Tables 7.7 and 7.8). -/
def ueRegion (s : State) (a : Nat) : Nat × Bool × Bool :=
  match bankAt s.map a with
  | some b => (b.1 + 1, b.2, b.2 == s.tmp.activeBank)
  | none =>
    if inRange a s.map.hold s.map.holdSize then (4, false, false)
    else if inRange a s.map.wardHold s.map.holdSize then (5, false, false)
    else if inRange a frecBase 0x1000000 then (6, false, false)
    else if inRange a s.map.guest s.map.guestSize then (7, false, false)
    else (0, false, false)

/-- The device address of a byte of a pseudo-channel's row: the inverse of R159. -/
def addrOf (s : State) (stack pc row byte : Nat) : Nat :=
  let k := s.map.split
  let off := fun (l : List (Nat × Nat)) (r first : Nat) (tail : Bool) =>
    let r0 := r - (if tail then 4096 else 0)
    let j := row - first
    if j < r0 then (j * l.length + l.idxOf (stack, pc)) * 4096 + byte
    else (r0 * l.length + (j - r0) * (l.length - 1) + (l.filter (· != (0, 0))).idxOf (stack, pc)) * 4096 + byte
  if stack = 0 ∧ pc = 0 ∧ 196608 - 4096 ≤ row then frecBase + (row - (196608 - 4096)) * 4096 + byte
  else if row < pkgRows k then off (pkgList s) (pkgRows k) 0 (k == 0)
  else dlBase (stack / 2) + off (dlList s (stack / 2)) (12288 * k) (pkgRows k) (stack / 2 == 0 && 0 < k)

/-! Training (R181 to R185) -/

/-- The ledger entry of a map-out set or cleared (Table 13.8). -/
def mapoutEntry (s : State) (stack ch : Nat) (on : Bool) : State := ledgerAdd s (stackId stack) 0x0B 0 0 [stack, ch, b2n on]

/-- The channels of a mask. -/
def channelsOf (m : Nat) : List Nat := (List.range 16).filter (bitOf m)

/-- A mask without channel 0. -/
def noAnchor (m : Nat) : Nat := m - m % 2

/-- Channels are added to the map-out list of a stack (R184). -/
def listMapout (s : State) (stack m : Nat) : State :=
  let old := Tbl.get 0 s.ledger.mapout stack
  let new := channelsOf (m - (m &&& old))
  let s := { s with ledger := { s.ledger with mapout := Tbl.set s.ledger.mapout stack (old ||| m) } }
  new.foldl (fun s c => mapoutEntry s stack c true) s

/-- R183: whether a stack fails. -/
def stackFails (r : StackReport) : Bool := !r.portOk || !r.geometryOk || decide (r.ch0Spares < r.ch0Faults) || !r.ch0Trains

/-- One stack is trained (R182 to R184). -/
def trainStack (s : State) (n : Nat) (r : StackReport) : State :=
  let old := stackOf s n
  if stackFails r then
    let s := raise (s.setStack n { Stack.init with failed := true, mapped := 0xFFFF }) .HBM n 11
    if n = 0 then logErr s .HBM n 5 .MODULE 0 0 [0x3F, 0, 0] else s
  else
    let listed := noAnchor (Tbl.get 0 s.ledger.mapout n ||| old.pending)
    let faults := noAnchor (r.laneFaults % 2 ^ 16)
    let fails := noAnchor (r.trainFails % 2 ^ 16)
    let failed := fails - (fails &&& (listed ||| faults))
    let s := listMapout s n (listed ||| faults ||| failed)
    let s := (channelsOf failed).foldl (fun s c => logErr s .HBM n 4 .DOMAIN (2 * c) 0 [0x3F, 0, 0]) s
    s.setStack n { Stack.init with trained := true, mapped := listed ||| faults ||| failed, spares := min 15 r.ch0Faults }

/-- Table 7.2: every stack is trained, HBM is zero and the map is the COLD default with its MAP_SEQ kept by the caller. With
HS0 failed no stack is in service (R183). -/
def trainAll (s : State) (rs : List StackReport) (seq : Nat) : State :=
  let s := rs.zipIdx.foldl (fun s x => trainStack s x.2 x.1) s
  let s := if (stackOf s 0).failed then
      { s with hbmStacks := s.hbmStacks.map (fun e => (e.1, { e.2 with trained := false })) }
    else s.zero 0 (hearthBase 0)
  { s with map := AddrMap.coldDefault seq, heals := [] }

/-! Reads and their outcomes (R187, R188) -/

/-- The owner and place of a direct HBM address: stack and pseudo-channel. -/
def pcOf (s : State) (a : Nat) : Nat × Nat := (hbmPlace s a).1

/-- The report of an uncorrectable sector (R187): counter, event, HBM_UE_INFO and ADDR, the log entry, the step fault, the
ledger event and health input. -/
def reportUe (s : State) (a ctx : Nat) : State :=
  let p := pcOf s a
  let g := ueRegion s a
  let info := g.1 + 16 * b2n g.2.1 + 32 * b2n g.2.2
  let s := raise (s.inc R.HBM_UE_UE p.1 1) .HBM p.1 5
  let s := s.wr R.HBM_UE_INFO_REGION p.1 g.1
  let s := s.wr R.HBM_UE_INFO_BANK p.1 (b2n g.2.1)
  let s := s.wr R.HBM_UE_INFO_WAS_ACTIVE p.1 (b2n g.2.2)
  let s := s.wr R.HBM_UE_INFO_PC p.1 p.2
  let s := s.wr R.HBM_UE_ADDR_ADDR p.1 (a / 32 * 32)
  let s := logErr s .HBM p.1 1 (stepClass s .INFO) p.2 (a / 32 * 32) [requester ctx, info, 0]
  let s := stepFault s .uncorrectable
  healthInput (ledgerEvent s (stackId p.1) 7 0 (s.rd (R.HLT_W_WEIGHT 3) 0) false [a / 32 * 32, g.1]) 3 (stackId p.1)

/-- HOLD_LOST on the stack of address `a` (R188): the event and its log entry. -/
def holdLost (s : State) (a ctx : Nat) (c : EClass) : State :=
  let p := pcOf s a
  let g := ueRegion s a
  logErr (raise s .HBM p.1 10) .HBM p.1 6 c p.2 (a / 32 * 32) [requester ctx, g.1 + 16 * b2n g.2.1 + 32 * b2n g.2.2, 0]

/-- The local hold is lost (R188): at once in IDLE and STOPPED, else at the step's outcome. -/
def loseHold (s : State) (a ctx : Nat) : State :=
  if !s.tmp.holdValid then s
  else
    let s := holdLost { s with tmp := { s.tmp with holdValid := false } } a ctx .MODULE
    if s.tmp.phase = .idle ∨ s.tmp.phase = .stopped then enterStopped s .uncorrectable
    else { s with attempt := { s.attempt with holdGone := true } }

/-- The ward's hold copy is lost (R188). -/
def loseWardHold (s : State) (a ctx : Nat) : State :=
  if s.tmp.wardHoldValid then holdLost { s with tmp := { s.tmp with wardHoldValid := false } } a ctx .CAPACITY else s

/-! Heals (R189, R190) -/

/-- Whether a heal may start now: the phase allows it and the module has sent no vote (R189). -/
def healFree (s : State) : Bool :=
  (match s.tmp.phase with
   | .idle | .hold | .run | .check | .stopped => true
   | _ => false) && s.attempt.vote.isNone

/-- The map row of a direct address. -/
def rowOf (a : Nat) : Nat := a / 4096 * 4096

/-- A heal fails (R190): STOPPED, HEAL_FAIL, the ledger event and health input; the heal is over. -/
def failHeal (s : State) (row : Nat) : State :=
  let p := pcOf s row
  let s := { s with heals := s.heals.filter (fun h => h.row != row) }
  let s := raise (s.inc R.HBM_HEAL_HEAL_FAILED p.1 1) .HBM p.1 9
  let g := ueRegion s row
  let s := logErr s .HBM p.1 3 .MODULE p.2 row [0x3F, g.1 + 16 * b2n g.2.1 + 32 * b2n g.2.2, 0]
  let s := healthInput (ledgerEvent s (stackId p.1) 8 0 (s.rd (R.HLT_W_WEIGHT 4) 0) false [row]) 4 (stackId p.1)
  enterStopped s .uncorrectable

/-- The node and remote address that a row of an ACTIVE bank heals from (Table 7.4). -/
def healSource (s : State) (row : Nat) : Option (Nat × Nat) :=
  match bankAt s.map row with
  | some (pair, b) =>
    let off := row - pairBase s.map pair b
    if pair = 0 then some (s.rd R.TMP_BUDDY_BUDDY_NODE 0, aliasBase 0 + off)
    else if pair = 1 then some (s.rd R.TMP_BUDDY_BUDDY_NODE 0, aliasBase 4 + off)
    else some (s.rd R.TMP_BUDDY_WARD_NODE 0, aliasBase 2 + off)
  | none => none

/-- A heal starts (R189): its source row is asked for through the fabric; with HEAL_EN = 0 it is a failed heal (R190). -/
def startHeal (s : State) (row : Nat) : State :=
  if !s.on R.HBM_CTL_HEAL_EN (pcOf s row).1 then failHeal s row
  else
    let s := { s with heals := s.heals.filter (fun h => h.row != row) ++ [⟨row, false⟩] }
    match healSource s row with
    | some (node, a) => queueAll s node (readPkts a row 4096 (.heal row) false)
    | none => s

/-- An error in an ACTIVE bank (R189): healed now, or held until the step's outcome. -/
def healOrHold (s : State) (a : Nat) : State :=
  let row := rowOf a
  if s.heals.any (fun h => h.row == row) then s
  else if healFree s then startHeal s row
  else { s with heals := s.heals ++ [⟨row, true⟩] }

/-- The action of Table 7.3 for the region of a direct address. -/
def ueAction (s : State) (a ctx : Nat) : State :=
  match ueRegion s a with
  | (4, _, _) => loseHold s a ctx
  | (5, _, _) => loseWardHold s a ctx
  | (1, _, true) | (2, _, true) | (3, _, true) => healOrHold s a
  | _ => s

/-- An uncorrectable sector is read (R187, R188). -/
def hbmUe (s : State) (a ctx : Nat) : State := ueAction (reportUe s a ctx) a ctx

/-- A corrected sector (R187). -/
def hbmCe (s : State) (a : Nat) : State :=
  let p := pcOf s a
  healthInput (raise (s.inc R.HBM_CE_CE p.1 1) .HBM p.1 4) 1 (stackId p.1)

/-- The outcome of an HBM read at a direct address. -/
def hbmOutcome (s : State) (a ctx : Nat) (ecc : Ecc) : State :=
  match ecc with
  | .ok => s
  | .correctable => hbmCe s a
  | .uncorrectable => hbmUe s a ctx

/-- Whether a device address lies in HBM that serves. -/
def servedHbm (s : State) (a : Nat) : Bool :=
  match windowOf s (direct s a) with
  | .hbm | .frec => hbmServes s (direct s a)
  | _ => false

/-- HBM_READ (R187). -/
def execHbmRead (addr : Nat) (ecc : Ecc) (ctx : Nat) (s : State) : Outcome :=
  live s (if servedHbm s addr then hbmOutcome s (direct s addr) ctx ecc else s)

/-- HEAL_DONE (R189, R190): the source row is written and read back clean, or the heal has failed. -/
def endHeal (s : State) (row : Nat) (src : Option (List Byte)) (back : Ecc) : State :=
  if !s.heals.any (fun h => h.row == row && !h.held) then s
  else if (accessBlocked s row 4096).isSome then failHeal s row
  else match src, back with
    | some bs, .uncorrectable => failHeal (reportUe (s.store row (bs.take 4096)) row 0x3F) row
    | some bs, b =>
      if bs.length ≠ 4096 then failHeal s row
      else
        let p := pcOf s row
        let s := s.store row bs
        let s := if b = .correctable then hbmCe s row else s
        let s := { s with heals := s.heals.filter (fun h => h.row != row) }
        raise (s.inc R.HBM_HEAL_HEALED p.1 1) .HBM p.1 8
    | none, _ => failHeal s row

/-- HEAL_DONE (R189). -/
def execHealDone (row : Nat) (src : Option (List Byte)) (readBack : Ecc) (s : State) : Outcome :=
  live s (endHeal s row src readBack)

/-- Heals held until the step's outcome start at a discard (R189); at a flip their lines lie in INACTIVE banks and need
none. -/
def startHeldHeals (s : State) : State :=
  (s.heals.filter (·.held)).foldl (fun s h => startHeal s h.row) s

/-- The held heals dropped at a flip. -/
def dropHeldHeals (s : State) : State := { s with heals := s.heals.filter (fun h => !h.held) }

/-! Parity, refresh and scrub (R191 to R193) -/

/-- A channel is flagged for map-out at the next training (R185, R191, R199), and noted in the map-out list so that a
training after COLD finds it. -/
def flagChannel (s : State) (stack ch : Nat) : State :=
  let x := stackOf s stack
  if bitOf x.pending ch then s
  else
    let s := s.setStack stack { x with pending := x.pending ||| 2 ^ ch }
    raise (if ch = 0 then s else listMapout s stack (2 ^ ch)) .HBM stack 12

/-- HBM_PARITY_ERROR (R191): `errors` errors in a row of one command against the retry limit. -/
def parityError (s : State) (a : Nat) (write : Bool) (errors ctx : Nat) : State :=
  let p := pcOf s a
  if errors = 0 then s
  else if errors ≤ clampNat 1 7 (s.rd R.HBM_CTL_RETRY_LIMIT p.1) then
    healthInput (raise (s.inc R.HBM_PAR_RETRY_PAR_RETRY p.1 1) .HBM p.1 6) 2 (stackId p.1)
  else
    let g := ueRegion s a
    let s := raise (s.inc R.HBM_PAR_FAIL_PAR_FAIL p.1 1) .HBM p.1 7
    let s := logErr s .HBM p.1 2 (stepClass s .INFO) p.2 (a / 32 * 32)
      [requester ctx, g.1 + 16 * b2n g.2.1 + 32 * b2n g.2.2, 0]
    let s := if p.2 / 2 = 0 then s else flagChannel s p.1 (p.2 / 2)
    hbmUe (if write then s.undefine (a / 32 * 32) 32 else s) a ctx

/-- HBM_PARITY_ERROR (R191). -/
def execHbmParityError (addr : Nat) (write : Bool) (errors ctx : Nat) (s : State) : Outcome :=
  live s (if servedHbm s addr then parityError s (direct s addr) write errors ctx else s)

/-- HBM_REFRESH (R192): the request-cycles that foreground accesses wait on it are not given: a free value. -/
def execHbmRefresh (stack pc _bank : Nat) (s : State) : Outcome :=
  if stack < 16 ∧ pc < 32 then
    live s (if (stackOf s stack).trained && !(stackOf s stack).selfRefresh then
      (s.fresh.2).inc R.HBM_REF_WAIT_REF_WAIT stack s.fresh.1
    else s)
  else .fault .noSuchUnit

/-- HBM_TEMP_READ (R192): HBM_TEMP, and HOT above 85 °C. -/
def readTemp (s : State) (stack temp : Nat) : State :=
  let x := stackOf s stack
  let hot := decide (85 < temp)
  let s := (s.wr R.HBM_TEMP_TEMP stack (min 255 temp)).setStack stack { x with hot := hot }
  raiseIf (hot && !x.hot) s .HBM stack 13

/-- HBM_TEMP_READ (R192). -/
def execHbmTempRead (stack temp : Nat) (s : State) : Outcome := onUnit s stack 16 (readTemp s stack temp)

/-- Sectors of a pseudo-channel: 768 MiB of 32 bytes. -/
def pcSectors : Nat := 25165824

/-- The scrub passes of a stack: those that every usable pseudo-channel has completed (R193). -/
def stackPasses (s : State) (n : Nat) : Nat :=
  let ns := ((List.range 32).filter (pcUsable s n)).map (fun pc => Tbl.get 0 (stackOf s n).scrub pc / pcSectors)
  ns.foldl min (ns.headD 0)

/-- HBM_PATROL_SCRUB (R193): the next sector of a pseudo-channel is read under R187. -/
def patrolScrub (s : State) (stack pc : Nat) (ecc : Ecc) : State :=
  let x := stackOf s stack
  if !s.on R.HBM_CTL_SCRUB_EN stack || !x.trained || x.selfRefresh || !pcUsable s stack pc then s
  else
    let n := Tbl.get 0 x.scrub pc
    let k := n % pcSectors
    let a := addrOf s stack pc (k / 128) (k % 128 * 32)
    let old := stackPasses s stack
    let s := s.setStack stack { x with scrub := Tbl.set x.scrub pc (n + 1) }
    hbmOutcome (s.inc R.HBM_SCRUB_PASS_PASSES stack (stackPasses s stack - old)) a 0x3F ecc

/-- HBM_PATROL_SCRUB (R193). -/
def execHbmPatrolScrub (stack pc : Nat) (ecc : Ecc) (s : State) : Outcome :=
  if stack < 16 ∧ pc < 32 then live s (patrolScrub s stack pc ecc) else .fault .noSuchUnit

/-! GATHER (R194 to R196) -/

/-- The window of a table: PKG, one DLn or one XX alias, as a number; none where GATHER may not read. -/
def tableWindow (s : State) (a : Nat) : Option Nat :=
  match windowOf s a with
  | .hbm => some (if a < dlBase 0 then 0 else 1 + (a - dlBase 0) / 0x001000000000)
  | .act | .inact => some (16 + (a - aliasBase 0) / 0x004000000000)
  | _ => none

/-- The indices of a GATHER. -/
def gatherIndex (m : Memory) (a count : Nat) : List Nat := readWords m a count

/-- The access that refuses a GATHER (R195), if one does: as (write, address, length). -/
def gatherRefused (s : State) (c die base limit index count dest : Nat) : Option (Bool × Nat × Nat) :=
  let q := reqOf s c
  if base % 32 ≠ 0 ∨ tableWindow s base = none ∨ tableWindow s (base + 32 * limit - 1) ≠ tableWindow s base then
    some (false, base, 32)
  else if index % 64 ≠ 0 ∨ !inHearth die index (4 * count) ∨ !accessOk s q false index (4 * count) then
    some (false, index, 4 * count)
  else if dest % 64 ≠ 0 ∨ !inHearth die dest (32 * count) ∨ overlap (dest, 32 * count) (index, 4 * count)
      ∨ !accessOk s q true dest (32 * count) then some (true, dest, 32 * count)
  else match (gatherIndex s.mem index count).find? (fun i => limit ≤ i || !accessOk s q false (base + 32 * i) 32) with
  | some i => some (false, base + 32 * i, 32)
  | none => none

/-- GATHER (R194, R195): the whole index array is scanned and checked, then the command goes into flight. -/
def gatherRec (s : State) (c : Nat) (r : Rec) : State :=
  let die := homeDie s c
  let base := r.op64 8
  let limit := r.op32 0x10 + 1
  let count := bits (r.op32 0x14) 0 20 + 1
  let index := r.addr s c 0x18
  let dest := r.addr s c 0x20
  match gatherRefused s c die base limit index count dest with
  | some a =>
    let s := if a.1 && meetsActive s a.2 then stepFault s .bankWrite else s
    cmdError (refuseEffects s (reqOf s c) a.1 c a.2.1 a.2.2) c r 0 3
  | none =>
    let is := gatherIndex s.mem index count
    match unservable s c r ((index, 4 * count) :: (dest, 32 * count) :: is.map (fun i => (base + 32 * i, 32))) with
    | some t => t
    | none =>
      let l := launch s c r .gather 1 (direct s base) dest count false
      releaseCur { l.2 with gathers := l.2.gathers ++ [(l.1, is)] } c

/-- GATHER (R195). -/
def execGather (ctx : Nat) (s : State) : Outcome := onRec s ctx 0x12 (gatherRec s ctx)

/-- The sectors of a GATHER reach the Hearth (R194, R196). -/
def moveGather (s : State) (src dst : Nat) (is : List Nat) : State :=
  is.zipIdx.foldl (fun s x =>
    let a := src + 32 * x.1
    let s := countBytes (s.inc R.HBM_GATHER_GATHER (pcOf s a).1 1) false a 32
    countBytes (s.store (dst + 32 * x.2) (s.mem.read a 32)) true (dst + 32 * x.2) 32) s

/-- GATHER_COMPLETE (R196). -/
def endGather (s : State) (id : Nat) : State :=
  match flightOf s id with
  | some f =>
    let is := Tbl.get [] s.gathers id
    let rest := { s with gathers := s.gathers.filter (fun e => e.1 != id) }
    if f.abandoned || f.lost || f.work != .gather || waitsHearth s f.dst (32 * f.len) then s
    else match (is.map (fun i => (f.src + 32 * i, 32)) ++ [(f.dst, 32 * f.len)]).findSome? (fun (a : Nat × Nat) =>
        (accessBlocked s a.1 a.2).map (·, a.1)) with
      | some (d, a) => failFlight (domainBlocked rest d a) id f 7 1
      | none => completeFlight (moveGather rest f.src f.dst is) id f
  | none => s

/-- GATHER_COMPLETE (R196). -/
def execGatherComplete (id : Nat) (s : State) : Outcome := live s (endGather s id)

/-! Self-refresh (R197, R199) -/

/-- A stack leaves self-refresh with the channels of `bad` failing recalibration: they stay in service, flagged, and every
access to them receives an error completion (R199). -/
def exitSelfRefresh (s : State) (n bad : Nat) : State :=
  let x := stackOf s n
  if !x.selfRefresh then s
  else if x.failed then s.setStack n { x with selfRefresh := false }
  else
    let bad := bad % 2 ^ 16 - (bad % 2 ^ 16 &&& x.mapped)
    let s := s.setStack n { x with selfRefresh := false, badChannels := x.badChannels ||| bad }
    (channelsOf bad).foldl (fun s c => flagChannel (logErr s .HBM n 4 .DOMAIN (2 * c) 0 [0x3F, 0, 0]) n c) s

/-- Both stacks of a die out of reset leave self-refresh. -/
def exitDie (s : State) (die bad0 bad1 : Nat) : State :=
  if s.on R.DIE_STS_IN_RESET die || !s.smc.released then s
  else
    refreshReady (exitSelfRefresh (exitSelfRefresh s (2 * die) bad0) (2 * die + 1) bad1)

/-- HBM_SELF_REFRESH_EXIT (R197). -/
def execHbmSelfRefreshExit (die bad0 bad1 : Nat) (s : State) : Outcome := onUnit s die 8 (exitDie s die bad0 bad1)

end Sys2Proof.Machine
end

