-- ==== Sys2Proof/Machine/Links.lean ====
section
/-! DEFINITION. The link family (chapter 9): enabling and training, negotiation, lane faults and the degrade to ×2,
codewords, control slots and credits, adaptation in service. -/

namespace Sys2Proof.Machine

open Sys2Proof

/-- Bit masks of lanes. -/
def lanesOf (m : Nat) : List Nat := (List.range 4).filter (bitOf m)

/-- The two lowest-numbered lanes of a mask. -/
def lowestTwo (m : Nat) : Nat := ((lanesOf m).take 2).foldl (fun a i => a + 2 ^ i) 0

/-- Whether a link carries packets. -/
def linkLive (l : Link) : Bool := l.state == .up || l.state == .degraded

/-- Whether a link is in training (Table 9.8). -/
def linkTraining (l : Link) : Bool :=
  l.state == .detect || l.state == .train || l.state == .align || l.state == .negotiate

/-- LNK_STS as a word (Table 9.12). -/
def lnkSts (s : State) (k : Nat) : Nat :=
  viewField s R.LNK_STS_STATE k + 2 ^ 4 * viewField s R.LNK_STS_WIDTH k + 2 ^ 8 * s.rd R.LNK_STS_LANES_UP k
    + 2 ^ 12 * s.rd R.LNK_STS_LANE_MAP k + 2 ^ 20 * s.rd R.LNK_STS_POLARITY k + 2 ^ 24 * s.rd R.LNK_STS_FAIL_REASON k

/-- The version in effect as one number (R249). -/
def lnkVersion (s : State) (k : Nat) : Nat := 256 * s.rd R.LNK_PARTNER_VER_MAJOR k + s.rd R.LNK_PARTNER_VER_MINOR k

/-- A command in the control slots that a link sends (Table 9.5). -/
def sendControl (s : State) (k cmd lanes arg : Nat) : State := s.emit (.control k cmd arg lanes)

/-- A link leaves UP or DEGRADED: what its transmitter holds is lost, its receiver starts afresh (R245, R252, R254). -/
def Link.quiet (l : Link) (st : LinkState) : Link :=
  { l with state := st, egress := [], prio := [], egressSlots := 0, rxSeq := none, window := [], windowPrev := [], asks := [] }

/-- A link goes to a state other than UP, DEGRADED or RETRAIN_X2; LINK_DOWN if it carried packets (Table 9.14). -/
def linkLeave (s : State) (k : Nat) (st : LinkState) : State :=
  let l := linkOf s k
  let s := (s.setLink k (l.quiet st)).wr R.LNK_STS_LANES_UP k 0
  raiseIf (linkLive l) (raiseIf (linkLive l) s .LNK k 5) .XPT (k / 16) 6

/-- Training starts (R248, R250): from the stored coefficients where `fast` and they exist. -/
def startTraining (s : State) (k : Nat) (fast restoring : Bool) : State :=
  let s := linkLeave s k .detect
  let l := linkOf s k
  s.setLink k { l with
    fast := fast && l.coeffs, restoring := restoring, t0 := s.clock, retryAt := none, goodLanes := 15,
    degradeAcked := false, partnerDegrade := false }

/-- Whether a link may train: its page is enabled and its port die released and out of reset. -/
def linkEnabled (s : State) (k : Nat) : Bool :=
  s.hrd R.PAGE_CTL_ENABLE (slotOf .LNK k) == 1 && !s.on R.PDC_STS_IN_RESET (k / 16)
    && s.smc.released

/-- LINK_ENABLE (R257): ENABLE is set, and a link that is DOWN starts training. -/
def enableLink (s : State) (k : Nat) : State :=
  let s := s.hwr R.PAGE_CTL_ENABLE (slotOf .LNK k) 1
  if (linkOf s k).state = .down ∧ linkEnabled s k then startTraining s k true false else s

/-- LINK_ENABLE (R257). -/
def execLinkEnable (k : Nat) (s : State) : Outcome := onUnit s k 32 (enableLink s k)

/-- LINK_DISABLE (R257): DOWN_NOTICE is sent, the link enters DOWN. -/
def disableLink (s : State) (k : Nat) : State :=
  let s := s.hwr R.PAGE_CTL_ENABLE (slotOf .LNK k) 0
  let s := if linkLive (linkOf s k) then sendControl s k 3 0 0 else s
  linkLeave s k .down

/-- LINK_DISABLE (R257). -/
def execLinkDisable (k : Nat) (s : State) : Outcome := onUnit s k 32 (disableLink s k)

/-- A link enters FAILED with a reason (R251, R255, R261): the counter, event, log entry, ledger entry and health input; a
retry falls due unless the partner is wrong. -/
def failLink (s : State) (k reason : Nat) : State :=
  let s := linkLeave s k .failed
  let l := linkOf s k
  let s := s.wr R.LNK_STS_FAIL_REASON k reason
  let due := if reason = 5 ∨ reason = 6 then none
    else some (s.clock + (max 10 (s.rd R.LNK_CFG_RETRY_MS k)) * 1000000)
  let s := s.setLink k { l with retryAt := due }
  let s := raise (s.inc R.LNK_RETRAINS_FAILS k 1) .LNK k 10
  let s := logErr s .LNK k reason .CAPACITY k 0 [lnkSts s k, 0, 0]
  healthInput (ledgerEvent s (linkId k) 0x0A 0 (s.rd (R.HLT_W_WEIGHT 8) 0) false [lnkSts s k]) 8 (portId (k / 16))

/-- A link enters UP or DEGRADED on physical lanes (Table 9.8 step 5, Table 9.10 step 6): credits start afresh, the plane
leaves SUSPECT (R276). -/
def linkUpOn (s : State) (k lanes : Nat) (up : Bool) (rep : LinkReport) : State :=
  let l := linkOf s k
  let s := s.setLink k { (l.quiet (if up then .up else .degraded)) with
    coeffs := true, fast := false, restoring := false, degradedAt := s.clock, goodLanes := lanes, degradeAcked := false,
    partnerDegrade := false, credit0 := rep.cap.credit, creditTotal := 0, sent := 0, delays := [] }
  let s := s.wr R.LNK_STS_LANES_UP k lanes
  let s := s.wr R.LNK_STS_LANE_MAP k rep.laneMap
  let s := s.wr R.LNK_STS_POLARITY k rep.polarity
  let s := s.wr R.LNK_STS_FAIL_REASON k 0
  let s := raise (s.wr R.LNK_UP_TIME_UP_TIME k s.now) .LNK k 4
  let s := { s with xp := { s.xp with suspect := s.xp.suspect - (s.xp.suspect &&& 2 ^ k) } }
  if up then s else raise s .LNK k 7

/-- The lower of two versions (R249). -/
def lowerVersion (a b : Nat × Nat) : Nat × Nat := if a.1 < b.1 ∨ (a.1 = b.1 ∧ a.2 ≤ b.2) then a else b

/-- NEGOTIATE (R238, R249): LNK_PARTNER is written; the answer is the failure reason, 0 for none. -/
def negotiate (s : State) (k : Nat) (cap : CapBlock) : Nat × State :=
  let v := lowerVersion (cap.verMajor, cap.verMinor) (s.rd R.LNK_TRAIN_VER_CAP_MAJOR k, s.rd R.LNK_TRAIN_VER_CAP_MINOR k)
  let s := s.wr R.LNK_PARTNER_PLANE k cap.plane
  let s := s.wr R.LNK_PARTNER_PORT k cap.port
  let s := s.wr R.LNK_PARTNER_VER_MAJOR k v.1
  let s := s.wr R.LNK_PARTNER_VER_MINOR k v.2
  (if v.1 < 1 ∨ v.1 < cap.minMajor then 4 else if cap.role = 0 then 6 else if cap.plane ≠ k then 5 else 0, s)

/-- The end of a training (Table 9.8, R250, R255). -/
def endTraining (s : State) (k : Nat) (rep : LinkReport) : State :=
  let l := linkOf s k
  let off := s.rd R.LNK_TRAIN_LANE_DISABLE k
  let good := rep.goodLanes % 16 - (rep.goodLanes % 16 &&& off)
  let n := popCount 4 good
  if !rep.signal then failLink s k 1
  else if n < 2 then
    if l.fast then s.setLink k { l with fast := false, state := .train } else failLink s k 2
  else if !rep.aligned then failLink s k 3
  else
    let r := negotiate s k rep.cap
    if r.1 ≠ 0 then failLink r.2 k r.1
    else if n = 4 then linkUpOn r.2 k 15 true rep
    else if 257 ≤ lnkVersion r.2 k then linkUpOn r.2 k (lowestTwo good) false rep
    else failLink r.2 k 2

/-- The short alignment and negotiation of a degrade (Table 9.10 steps 4 to 6): on two lanes with version and identity
unchanged the link is DEGRADED; otherwise it stays in RETRAIN_X2 until its time is over (R253). -/
def endDegrade (s : State) (k lanes : Nat) (rep : LinkReport) : State :=
  let old := (s.rd R.LNK_PARTNER_PLANE k, s.rd R.LNK_PARTNER_PORT k, lnkVersion s k)
  if popCount 4 lanes < 2 then failLink s k 2
  else if !rep.signal || !rep.aligned then s
  else
    let r := negotiate s k rep.cap
    let new := (r.2.rd R.LNK_PARTNER_PLANE k, r.2.rd R.LNK_PARTNER_PORT k, lnkVersion r.2 k)
    if r.1 ≠ 0 ∨ old ≠ new then r.2 else linkUpOn r.2 k (lowestTwo lanes) false rep

/-- LINK_TRAINING (R248): the training in progress ends, or the realignment of a degrade that the partner asked for. -/
def trainLink (s : State) (k : Nat) (rep : LinkReport) : State :=
  let l := linkOf s k
  if linkTraining l then endTraining s k rep
  else if l.state = .retrainX2 ∧ l.partnerDegrade then endDegrade s k l.goodLanes rep
  else s

/-- LINK_TRAINING (R248). -/
def execLinkTraining (k : Nat) (rep : LinkReport) (s : State) : Outcome := onUnit s k 32 (trainLink s k rep)

/-- RETRAIN (R250, R253): a fast retrain, ignored while DOWN and in RETRAIN_X2. -/
def retrainLink (s : State) (k : Nat) : State :=
  match (linkOf s k).state with
  | .down | .retrainX2 => s
  | _ => startTraining s k true false

/-- RETRAIN (R250). -/
def execRetrain (k : Nat) (s : State) : Outcome := onUnit s k 32 (retrainLink s k)

/-- LINK_RETRY (R251): RETRY_MS after a failure, full training again while ENABLE is 1. -/
def retryLink (s : State) (k : Nat) : State :=
  let l := linkOf s k
  match l.state, l.retryAt with
  | .failed, some t => if t ≤ s.clock ∧ linkEnabled s k then startTraining s k false false else s
  | _, _ => s

/-- LINK_RETRY (R251). -/
def execLinkRetry (k : Nat) (s : State) : Outcome := onUnit s k 32 (retryLink s k)

/-- AUTO_RESTORE (R255): ten minutes of DEGRADED with AUTO_RESTORE = 1, while PHASE is IDLE. -/
def restoreLink (s : State) (k : Nat) : State :=
  let l := linkOf s k
  if l.state = .degraded ∧ s.on R.LNK_CFG_AUTO_RESTORE k ∧ l.degradedAt + 600000000000 ≤ s.clock ∧ s.tmp.phase = .idle then
    startTraining s k true true
  else s

/-- AUTO_RESTORE (R255). -/
def execAutoRestore (k : Nat) (s : State) : Outcome := onUnit s k 32 (restoreLink s k)

/-! Lane faults (R252, R253) -/

/-- A link enters RETRAIN_X2 on the lanes that are good (Table 9.10 step 1): the counter, the ledger entry, the health
input. -/
def enterX2 (s : State) (k good : Nat) (partner : Bool) : State :=
  let l := linkOf s k
  let s := s.setLink k { (l.quiet .retrainX2) with
    t0 := s.clock, goodLanes := good, degradeAcked := false, partnerDegrade := partner }
  let s := raiseIf (linkLive l) (s.inc R.LNK_RETRAINS_DEGRADES k 1) .XPT (k / 16) 6
  healthInput (ledgerEvent s (linkId k) 9 0 (s.rd (R.HLT_W_WEIGHT 7) 0) false [lnkSts s k]) 7 (portId (k / 16))

/-- Physical lanes `bad` of a link fault (R252, R253). -/
def faultLanes (s : State) (k bad : Nat) : State :=
  let l := linkOf s k
  let hit := bad % 16 &&& (if l.state = .retrainX2 then lowestTwo l.goodLanes else s.rd R.LNK_STS_LANES_UP k)
  if hit = 0 then s
  else match l.state with
  | .up =>
    let s := raise s .LNK k 6
    let good := 15 - (bad % 16)
    if popCount 4 good < 2 ∨ !s.on R.LNK_CFG_DEGRADE_EN k ∨ lnkVersion s k < 257 then failLink s k 2
    else
      let s := enterX2 s k good false
      sendControl s k 1 (lowestTwo good) 0
  | .degraded | .retrainX2 => failLink (raise s .LNK k 6) k 2
  | _ => s

/-- LANE_FAULT (R252): signal or lock lost, or the symbol threshold passed. -/
def execLaneFault (k lane : Nat) (_cause : LaneCause) (s : State) : Outcome :=
  if k < 32 ∧ lane < 4 then live s (faultLanes s k (2 ^ lane)) else .fault .noSuchUnit

/-- A partner's lane mask in this end's physical lane numbers (LANE_MAP). -/
def fromPartner (s : State) (k m : Nat) : Nat :=
  ((List.range 4).filter (fun i => bitOf m (bits (s.rd R.LNK_STS_LANE_MAP k) (2 * i) 2))).foldl (fun a i => a + 2 ^ i) 0

/-- DEGRADE_REQ (R253): answered with DEGRADE_ACK; an UP link enters Table 9.10 at step 3; where this end also found faults
the union of bad lanes is excluded. -/
def degradeAsked (s : State) (k lanes : Nat) : State :=
  let l := linkOf s k
  let named := fromPartner s k lanes
  match l.state with
  | .up =>
    if lnkVersion s k < 257 then s
    else if popCount 4 named < 2 then failLink s k 2
    else sendControl (enterX2 s k named true) k 2 named 0
  | .retrainX2 =>
    let both := l.goodLanes &&& named
    if popCount 4 both < 2 then failLink s k 2
    else sendControl (s.setLink k { l with goodLanes := both, partnerDegrade := true }) k 2 (lowestTwo both) 0
  | _ => s

/-- DEGRADE_REQ (R253). -/
def execDegradeReq (k lanes : Nat) (s : State) : Outcome := onUnit s k 32 (degradeAsked s k lanes)

/-- DEGRADE_ACK (R252): the lanes named by both ends are realigned. -/
def degradeAnswered (s : State) (k lanes : Nat) (rep : LinkReport) : State :=
  let l := linkOf s k
  if l.state = .retrainX2 then
    let both := l.goodLanes &&& fromPartner s k lanes
    endDegrade (s.setLink k { l with goodLanes := both, degradeAcked := true }) k both rep
  else s

/-- DEGRADE_ACK (R252). -/
def execDegradeAck (k lanes : Nat) (rep : LinkReport) (s : State) : Outcome := onUnit s k 32 (degradeAnswered s k lanes rep)

/-- DEGRADE_TIMEOUT (R253): no DEGRADE_ACK by 100 µs, or not DEGRADED by 350 µs. -/
def degradeLate (s : State) (k : Nat) : State :=
  let l := linkOf s k
  if l.state = .retrainX2 ∧ ((!l.degradeAcked ∧ !l.partnerDegrade ∧ l.t0 + 100000 ≤ s.clock) ∨ l.t0 + 350000 ≤ s.clock) then
    failLink s k 7
  else s

/-- DEGRADE_TIMEOUT (R253). -/
def execDegradeTimeout (k : Nat) (s : State) : Outcome := onUnit s k 32 (degradeLate s k)

/-- DOWN_NOTICE (R257): the partner's loss is no fault: the link waits for signal again. -/
def noticeDown (s : State) (k : Nat) : State :=
  if linkLive (linkOf s k) || (linkOf s k).state == .retrainX2 then startTraining s k true false else s

/-- DOWN_NOTICE (R257). -/
def execDownNotice (k : Nat) (s : State) : Outcome := onUnit s k 32 (noticeDown s k)

/-! Codewords, control slots and packets (R242 to R247) -/

/-- CODEWORD_RX (R245): corrected symbols are counted by lane; nothing of an uncorrectable codeword is delivered, nor of one
after a gap in CW_SEQ. -/
def receiveCodeword (s : State) (k seq : Nat) (symbols : List Nat) (bad : Bool) (packets slots : Nat) : State :=
  let l := linkOf s k
  if !linkLive l then s
  else
    let gap := match l.rxSeq with | some q => seq % 60 != (q + 1) % 60 | none => false
    let s := s.inc R.LNK_FEC_CW_CW k 1
    let l' := { l with rxSeq := some (seq % 60) }
    if bad then
      let s := (s.setLink k l').inc R.LNK_PKT_DROP_PKT_DROP k packets
      healthInput (raise (s.inc R.LNK_FEC_UNCORR_UNCORR k 1) .LNK k 8) 5 (portId (k / 16))
    else
      let add := fun (t : Tbl Nat) (x : Nat × Nat) => Tbl.set t x.2 (Tbl.get 0 t x.2 + x.1)
      let s := (symbols.take 4).zipIdx.foldl (fun s x => s.inc (R.LNK_LANE_SYM_LANE_SYM x.2) k x.1) s
      let s := if symbols.any (0 < ·) then s.inc R.LNK_FEC_CORR_CORR k 1 else s
      let l' := { l' with window := (symbols.take 4).zipIdx.foldl add l.window }
      if gap then (s.setLink k l').inc R.LNK_PKT_DROP_PKT_DROP k packets
      else (s.setLink k { l' with rxFreed := (l.rxFreed + slots) % 2 ^ 32 }).inc R.LNK_RX_SLOTS_RX_SLOTS k slots

/-- CODEWORD_RX (R245). -/
def execCodewordRx (k seq : Nat) (symbols : List Nat) (uncorrectable : Bool) (packets slots : Nat) (s : State) : Outcome :=
  onUnit s k 32 (receiveCodeword s k seq symbols uncorrectable packets slots)

/-- CONTROL_SLOT_RX (R246, R247): credits are brought up to date, the delay of the last 256 slots averaged in ps. -/
def receiveControl (s : State) (k : Nat) (cs : ControlSlot) : State :=
  let l := linkOf s k
  if !linkLive l then s
  else
    let d : Int := (s.now : Int) - cs.echoTime - cs.echoHold
    let ds := (d :: l.delays).take 256
    let s := s.setLink k { l with creditTotal := cs.credit, lastTx := cs.txTime, lastRxAt := s.now, delays := ds }
    s.wr R.LNK_DELAY_DELAY k (int32 (ds.foldl (· + ·) 0 * 500 / ds.length))

/-- CONTROL_SLOT_RX (R246). -/
def execControlSlotRx (k : Nat) (cs : ControlSlot) (s : State) : Outcome := onUnit s k 32 (receiveControl s k cs)

/-- Credits that a link has left: those advertised at NEGOTIATE and freed since, less the slots sent (R246). -/
def creditsLeft (l : Link) : Nat := (l.credit0 + l.creditTotal + 2 ^ 32 - l.sent % 2 ^ 32) % 2 ^ 32

/-- PACKET_TX (R246, R275): the packet at the head of the priority queue, else of the egress queue, is sent if the credits
cover its slots; else the link waits and counts the cycles, whose number the spec does not give: a free value. -/
def transmit (s : State) (k : Nat) : State :=
  let l := linkOf s k
  if !linkLive l then s
  else
    let stall := (s.fresh.2).inc R.LNK_CREDIT_STALL_CREDIT_STALL k s.fresh.1
    let send := fun (x : PClass × Packet) (l' : Link) =>
      if slotsOf x.2 ≤ creditsLeft l then
        ((s.setLink k { l' with sent := (l.sent + slotsOf x.2) % 2 ^ 32 }).inc R.LNK_TX_SLOTS_TX_SLOTS k (slotsOf x.2)).emit
          (.wire k x.1 x.2)
      else stall
    match l.prio, l.egress with
    | x :: t, _ => send x { l with prio := t }
    | [], x :: t => send x { l with egress := t, egressSlots := l.egressSlots - slotsOf x.2 }
    | [], [] => s

/-- PACKET_TX (R246). -/
def execPacketTx (k : Nat) (s : State) : Outcome := onUnit s k 32 (transmit s k)

/-! Symbol windows and adaptation (R252, R256) -/

/-- Whether adaptation in service runs on a link. -/
def adapting (s : State) (k : Nat) : Bool := linkLive (linkOf s k) && s.on R.LNK_CFG_ADAPT_EN k && decide (258 ≤ lnkVersion s k)

/-- A receiver may ask the partner for one coefficient step per lane, at most every 10 ms (R256): whether and in which
direction is not given: a free value. -/
def askStep (s : State) (k lane : Nat) : State :=
  let l := linkOf s k
  let since := match l.asks.find? (fun e => e.1 == lane) with | some e => some e.2.at' | none => none
  let free := match since with | some t => decide (t + 10000000 ≤ s.clock) | none => true
  if !adapting s k || !free then s
  else
    let d := s.fresh
    if d.1 % 2 = 0 then d.2
    else
      let up := d.1 / 2 % 2 == 1
      let a : TxAsk := { up := up, acked := false, at' := s.clock, before := 0 }
      sendControl (d.2.setLink k { l with asks := Tbl.set l.asks lane a }) k 5 (2 ^ lane) (b2n up)

/-- SER_WINDOW_END (R252): a 100 µs window ends; SER_HIGH and lane faults by the corrected symbols of each lane. -/
def endWindow (s : State) (k : Nat) : State :=
  let l := linkOf s k
  if !linkLive l then s
  else
    let e := clampNat 8 20 (s.rd R.LNK_CFG_SER_EXP k)
    let above := fun (t : Nat) => ((List.range 4).filter (fun i => t < Tbl.get 0 l.window i)).foldl (fun a i => a + 2 ^ i) 0
    let s := s.setLink k { l with window := [], windowPrev := l.window }
    let s := raiseIf (above (2 ^ (e - 3)) != 0) s .LNK k 9
    let s := if l.state = .up then faultLanes s k (above (2 ^ e)) else s
    (lanesOf (s.rd R.LNK_STS_LANES_UP k)).foldl (fun s i => askStep s k i) s

/-- SER_WINDOW_END (R252). -/
def execSerWindowEnd (k : Nat) (s : State) : Outcome := onUnit s k 32 (endWindow s k)

/-- A step of this end's transmitter coefficients of a lane. -/
def stepCoef (l : Link) (lane : Nat) (up : Bool) : Link :=
  { l with coefs := Tbl.set l.coefs lane (Tbl.get 0 l.coefs lane + (if up then 1 else -1)) }

/-- TXEQ_REQ (R256): the step is applied and answered. -/
def stepAsked (s : State) (k lane : Nat) (up : Bool) : State :=
  if adapting s k then sendControl (s.setLink k (stepCoef (linkOf s k) lane up)) k 6 (2 ^ lane) (b2n up) else s

/-- TXEQ_REQ (R256). -/
def execTxeqReq (k lane : Nat) (up : Bool) (s : State) : Outcome :=
  if k < 32 ∧ lane < 4 then live s (stepAsked s k lane up) else .fault .noSuchUnit

/-- TXEQ_ACK (R256): the partner has applied the step; the window before it is noted. -/
def stepAnswered (s : State) (k lane : Nat) : State :=
  let l := linkOf s k
  match l.asks.find? (fun e => e.1 == lane) with
  | some e => s.setLink k { l with asks := Tbl.set l.asks lane { e.2 with acked := true, before := Tbl.get 0 l.windowPrev lane } }
  | none => s

/-- TXEQ_ACK (R256). -/
def execTxeqAck (k lane : Nat) (s : State) : Outcome :=
  if k < 32 ∧ lane < 4 then live s (stepAnswered s k lane) else .fault .noSuchUnit

/-- TXEQ_WINDOW_END (R256): the window after a step against the one before it; a rise asks for the step to be undone. -/
def judgeStep (s : State) (k lane : Nat) : State :=
  let l := linkOf s k
  match l.asks.find? (fun e => e.1 == lane) with
  | some e =>
    if !e.2.acked then s
    else
      let s := s.setLink k { l with asks := Tbl.set l.asks lane { e.2 with acked := false } }
      if e.2.before < Tbl.get 0 l.windowPrev lane then sendControl s k 5 (2 ^ lane) (b2n (!e.2.up)) else s
  | none => s

/-- TXEQ_WINDOW_END (R256). -/
def execTxeqWindowEnd (k lane : Nat) (s : State) : Outcome :=
  if k < 32 ∧ lane < 4 then live s (judgeStep s k lane) else .fault .noSuchUnit

/-- A taken apply of LNK_TRAIN (R259): a lane newly disabled on an UP link faults; anything else waits for a training. -/
def applyLnkTrain (s : State) (k old : Nat) : State :=
  let new := s.rd R.LNK_TRAIN_LANE_DISABLE k
  if (linkOf s k).state = .up then faultLanes s k (new - (new &&& old)) else s

/-- A port die's reset stops its links at once (R258). -/
def stopLinks (s : State) (d : Nat) : State :=
  (List.range 16).foldl (fun s i =>
    let k := 16 * d + i
    let l := linkOf s k
    s.setLink k { Link.init with coeffs := l.coeffs, coefs := l.coefs }) s

/-- After the release of a port die its enabled links train, fast where coefficients are stored (R250, R258). -/
def trainLinks (s : State) (d : Nat) : State :=
  (List.range 16).foldl (fun s i => if linkEnabled s (16 * d + i) then startTraining s (16 * d + i) true false else s) s

end Sys2Proof.Machine
end

