-- ==== Sys2Proof/Machine/Failure.lean ====
section
/-! DEFINITION. Work that fails: Weld collectives (R309), Tongs destinations (R333) and flows with everything that is under
way on them (R274). -/

namespace Sys2Proof.Machine

open Sys2Proof

/-! Weld collectives -/

/-- Collective `id` is forgotten. -/
def dropColl (s : State) (id : Nat) : State :=
  { s with weld :=
    { s.weld with
      colls := s.weld.colls.filter (fun e => e.1 != id)
      waiting := s.weld.waiting.filter (· != id) } }

/-- The collective in flight under `id`. -/
def collOf (s : State) (id : Nat) : Option Coll := (s.weld.colls.find? (fun e => e.1 == id)).map (·.2)

/-- Collective `id` replaced. -/
def State.setColl (s : State) (id : Nat) (c : Coll) : State :=
  { s with weld := { s.weld with colls := Tbl.set s.weld.colls id c } }

/-- A record in flight ends as a command error, with its packets and its collective (R214, R274, R309). -/
def endFlight (s : State) (id source code : Nat) : State :=
  match flightOf s id with
  | some f => failFlight (abandonPackets (dropColl s id) (ownedBy id)) id f source code
  | none => s

/-- A collective fails (R309): counted, logged with its COLL, the address of its failing chunk, its context and the peer;
it sends nothing more, later packets for it are dropped, and its record ends with SOURCE 5. -/
def failColl (s : State) (id code addr peer : Nat) : State :=
  match collOf s id with
  | some c =>
    let s := raise (s.inc R.WLD_FAILS_FAILS 0 1) .WLD 0 4
    let s := logErr s .WLD 0 code (stepClass s .COMMAND) c.p.coll addr [c.ctx, peer, 0]
    let s := { s with weld := { s.weld with failed := (c.p.coll, c.tag) :: s.weld.failed } }
    endFlight s id 5 code
  | none => s

/-! Tongs -/

/-- Encoding of the record states (Table 12.2). -/
def RecState.code : RecState → Nat
  | .empty => 0 | .resident => 1 | .out => 2 | .away => 3 | .in' => 4 | .back => 5 | .lost => 6

/-- The bytes of a layer record (Table 12.1). -/
def LayerRec.bytes (r : LayerRec) : List Byte :=
  leBytes 8 (r.st.code + 16 * r.dest + 128 * b2n r.usedAlt) ++ leBytes 8 r.home ++ leBytes 8 r.ret ++ leBytes 8 r.len
    ++ leBytes 8 r.off ++ leBytes 24 0

/-- The address of record (slot, layer) (R324). -/
def recordAt (s : State) (slot layer : Nat) : Nat := s.rd R.ALG_CFG_BASE 0 + slot * 0x2000 + layer * 0x40

/-- Slot `n`, if it is open. -/
def slotAt (s : State) (n : Nat) : Option SeqSlot := (s.slots.find? (fun e => e.1 == n)).map (·.2)

/-- Slot `n` replaced. -/
def State.setSlot (s : State) (n : Nat) (x : SeqSlot) : State := { s with slots := Tbl.set s.slots n x }

/-- Record `layer` of an open slot. -/
def SeqSlot.rec' (x : SeqSlot) (layer : Nat) : LayerRec := Tbl.get LayerRec.none x.recs layer

/-- A record of an open slot takes a value, in the record table too; ALG_PEAK follows (R324, Table 12.7). -/
def setRec (s : State) (slot layer : Nat) (r : LayerRec) : State :=
  match slotAt s slot with
  | some x =>
    let s := s.setSlot slot { x with recs := Tbl.set x.recs layer r }
    let s := s.store (recordAt s slot layer) r.bytes
    if s.rd R.ALG_PEAK_PEAK 0 < residentBytes s then s.wr R.ALG_PEAK_PEAK 0 (residentBytes s) else s
  | none => s

/-- A record becomes LOST with its destination (R333). -/
def loseRec (s : State) (slot layer : Nat) (r : LayerRec) (owner : Nat) : State :=
  let s := raise ((setRec s slot layer { r with st := .lost }).inc R.TNG_LOST_LOST 0 1) .TNG 0 5
  logErr s .TNG 0 0x11 (stepClass s .INFO) (slot * 256 + layer) r.home [owner, r.dest, 0]

/-- The records and transfers of a slot at destination `d` are lost. -/
def loseSlot (s : State) (d n : Nat) (x : SeqSlot) : State :=
  let hit := x.recs.filter (fun e => e.2.atDest && e.2.dest == d)
  let keep := fun (l : Nat) => !hit.any (fun e => e.1 == l)
  let at' := fun (m : Option Move) => match m with | some v => v.dest == d | none => false
  let s := if at' x.out' then abandonPackets s (· == .tongs n x.owner false) else s
  let s := if at' x.in' then abandonPackets s (· == .tongs n x.owner true) else s
  let s := s.setSlot n { x with
    offloads := x.offloads.filter keep, eligible := x.eligible.filter keep,
    out' := if at' x.out' then none else x.out', in' := if at' x.in' then none else x.in' }
  hit.foldl (fun s e => loseRec s n e.1 e.2 x.owner) s

/-- Destination `d` goes DOWN (R333): its records become LOST, their transfers stop; during a step the step fault FLOW_FAIL
and the STOP. -/
def destDown (s : State) (d : Nat) : State :=
  let down := s.rd R.TNG_DEST_STS_DOWN 0
  if bitOf down d then s
  else
    let s := raise (s.wr R.TNG_DEST_STS_DOWN 0 (down + 2 ^ d)) .TNG 0 4
    let s := logErr s .TNG 0 0x10 (stepClass s .CAPACITY) 0 0 [0, d, 0]
    let s := s.slots.foldl (fun s e => loseSlot s d e.1 e.2) s
    if s.tmp.phase = .idle then s else sendStopBurst (stepFault s .flowFail) .flowFail

/-! Flows -/

/-- The context whose HOLD waits for its ward-hold write (R222). -/
def holdCtx (s : State) : Option (Nat × Rec) :=
  (List.range 64).findSome? (fun c =>
    let x := ctxOf s c
    match x.cur with
    | some r => if x.block == .hold && r.opcode == 0x50 then some (c, r) else none
    | none => none)

/-- The ward-hold write is lost with its flow: the HOLD ends as a command error (R274). -/
def failHoldWrite (s : State) (cause : Nat) : State :=
  let s := abandonPackets { s with attempt := { s.attempt with holdWriting := false } } (· == .holdWrite)
  match holdCtx s with
  | some (c, r) => cmdError s c r 4 cause
  | none => s

/-- What the failure of a flow does to whom a packet on it belongs to (R274, R333). The takeover loader, the fill and a heal
end by commands of their own; a vote has no record. -/
def failOwner (s : State) (cause : Nat) : Owner → State
  | .flight id | .weld id => endFlight s id 4 cause
  | .ctx c =>
    (match (ctxOf s c).wait with
     | some w => cmdErrorAt s c 4 cause w.record SyncErr.none
     | none => s)
  | .holdWrite => failHoldWrite s cause
  | .tongs n _ fetch =>
    (match slotAt s n with
     | some x => (match (if fetch then x.in' else x.out') with | some m => destDown s m.dest | none => s)
     | none => s)
  | .vote | .takeover | .fill | .heal _ | .reply | .none => s

/-- The owners of what is incomplete on a flow, each once. -/
def Flow.owners (x : Flow) : List Owner :=
  (((x.unacked.filter (fun u => !u.pkt.abandoned)).map (·.pkt.owner)) ++ x.waiting.map (·.owner)
    ++ (x.reads.filter (fun r => !r.abandoned)).map (·.owner)).eraseDups

/-- Transfers that wait for a flow entry get one where they can (R265). -/
def serveNeeds (s : State) : State :=
  let need := s.xp.needPeers
  need.foldl (fun s e =>
    if (flowTo s e.1).isSome || (freeFlow s).isSome || (evictable s).isSome then queuePkt s e.1 e.2
    else { s with xp := { s.xp with needPeers := s.xp.needPeers ++ [e] } }) { s with xp := { s.xp with needPeers := [] } }

/-- While a drain runs, the last acknowledgement or failure starts its LIFETIME_US (Table 10.6). -/
def noteDrain (s : State) : State :=
  if s.xp.slc.draining then { s with xp := { s.xp with slc := { s.xp.slc with drainSince := s.clock } } } else s

/-- The entry of a failed flow: FAILED with its cause (FLW_VIEW0). -/
def Flow.dead (x : Flow) (cause : Nat) : Flow := { Flow.freed with state := .failed, cause := cause, peer := x.peer }

/-- A flow fails (R274): the entry is released, the failure is counted and logged; during a step the step fault FLOW_FAIL;
every incomplete transfer of it ends; then the STOP. -/
def flowFail (s : State) (f cause : Nat) : State :=
  let x := flowOf s f
  let d := flowDie f
  let oldest := match x.unacked with | u :: _ => u.pkt.addr | [] => 0
  let s := noteDrain (s.setFlow f (x.dead cause))
  let s := raise ((s.inc R.XPT_FLOW_FAILS_FLOW_FAILS d 1).inc R.FLW_FAILS_FAILS d 1) .XPT d 4
  let s := logErr s .XPT d cause (stepClass s .COMMAND) f oldest [x.peer, 0, 0]
  let step := s.tmp.phase != .idle
  let s := if step then stepFault s .flowFail else s
  let s := x.owners.foldl (fun s o => failOwner s cause o) s
  let s := if step then sendStopBurst s .flowFail else s
  prune (serveNeeds s)

end Sys2Proof.Machine
end

