-- ==== Sys2Proof/Machine/Transport.lean ====
section
/-! DEFINITION. The transport family (chapter 10): reception and delivery, acknowledgements, flows, injection and resends,
tables and epochs, drain, STOP and CUT, fabric time. Weld packets are in Weld.lean, SIGNAL kinds here. -/

namespace Sys2Proof.Machine

open Sys2Proof

/-! Reception (R270 to R272) -/

/-- The port die of a plane. -/
def planeDie (plane : Nat) : Nat := plane / 16

/-- Whether a packet can arrive on a plane: its link is UP or DEGRADED. -/
def planeOpen (s : State) (plane : Nat) : Bool := decide (plane < 32) && linkReady s plane

/-- LIFETIME_US of a port die (Table 10.13). -/
def lifetimeUs (s : State) (d : Nat) : Nat := clampNat 100 2000 (s.rd R.XPT_CFG_LIFETIME_US d)

/-- RESEND_US of a port die in ns. -/
def resendNs (s : State) (d : Nat) : Nat := clampNat 10 1000 (s.rd R.XPT_CFG_RESEND_US d) * 1000

/-- TRIES of a port die. -/
def triesOf (s : State) (d : Nat) : Nat := max 1 (s.rd R.XPT_CFG_TRIES d)

/-- The table version that a packet's EPOCH names, if it is not retired (R270). -/
def versionOf (s : State) (p : Packet) : Option SliceVer :=
  if p.epoch = b2n s.xp.slc.epoch then some s.xp.slc.cur else s.xp.slc.prev

/-- What the first checks of R270 make of a packet. -/
inductive Checked where
  | drop (s : State)
  | retired (s : State)
  | pass (s : State)

/-- The checks of R270 up to the destination, in their order: CRC, version, lifetime, slice, epoch, destination. -/
def checkPacket (s : State) (plane : Nat) (c : PClass) (p : Packet) : Checked :=
  let d := planeDie plane
  let cur := s.xp.slc.cur.slice
  let prev := match s.xp.slc.prev with | some v => v.slice | none => 0
  if p.crc ≠ packetCrc c p then .drop (s.inc R.XPT_CRC_DROP_CRC_DROP d 1)
  else if p.verMajor ≠ 1 then .drop (s.inc R.XPT_BAD_VER_BAD_VER d 1)
  else if c = .TIME then .pass s
  else if lifetimeUs s d < (s.now / 1000 % 65536 + 65536 - p.injUs % 65536) % 65536 then
    .drop (s.inc R.XPT_STALE_DROP_STALE_DROP d 1)
  else if p.slice = 0 ∨ (p.slice ≠ cur ∧ p.slice ≠ prev) then
    let s := raise (s.inc R.XPT_SLICE_DROP_SLICE_DROP d 1) .XPT d 7
    .drop (logErr s .XPT d 6 .INFO plane 0 [p.src, 0, 0])
  else match versionOf s p with
    | none => .retired (s.inc R.XPT_EPOCH_DROP_EPOCH_DROP d 1)
    | some v =>
      if p.dst = v.own ∨ p.dst = v.mcast then .pass s else .drop (s.inc R.XPT_DST_DROP_DST_DROP d 1)

/-- What the delivery of a packet comes to: its effect took place, it is dropped and acknowledged, it is refused with a NAK
reason, or nothing answers it (R271, R375). -/
inductive Verdict where
  | done | drop | nak (reason : Nat) | lost
  deriving DecidableEq, Repr

/-- The receive side of a flow after SEQ `q` is marked: CUM passes every marked SEQ. -/
def Flow.mark (x : Flow) (q : Nat) : Flow :=
  let marks := q :: x.rxMarks
  let cum := (List.range (marks.length + 1)).foldl (fun c _ => if marks.contains c then (c + 1) % 2 ^ 32 else c) x.rxCum
  { x with rxCum := cum, rxMarks := marks.filter (cum < ·) }

/-- A packet of a flow is acknowledged: CUM and SACK show it and an ACK falls due (R272). -/
def noteDelivery (s : State) (f q : Nat) : State :=
  let x := (flowOf s f).mark q
  s.setFlow f { x with ackDue := x.ackDue + 1, ackSince := if x.ackDue = 0 then s.clock else x.ackSince, lastUse := s.clock }

/-- What a verdict does to the flow. -/
def applyVerdict (s : State) (plane f q : Nat) : Verdict → State
  | .done => noteDelivery (s.inc R.XPT_RX_PKTS_RX_PKTS (planeDie plane) 1) f q
  | .drop => noteDelivery s f q
  | .nak r => sendFlowNak s f q r
  | .lost => s

/-- The answer of a delivery: the state after it and its verdict. -/
abbrev Delivery := State → Nat → Packet → State × Verdict

/-! Counter operations from other modules (R220, R221, R225) -/

/-- KIND of a SIGNAL payload (Table 8.7). -/
def sigKind (p : Packet) : Nat := fieldAt p.payload 0 2 % 8
/-- PHYS of a SIGNAL payload. -/
def sigPhys (p : Packet) : Nat := fieldAt p.payload 2 2
/-- VALUE of a SIGNAL payload. -/
def sigValue (p : Packet) : Nat := fieldAt p.payload 8 8
/-- SUB_ID of a SIGNAL payload. -/
def sigSub (p : Packet) : Nat := fieldAt p.payload 0x18 2
/-- The waiter context of a SIGNAL payload. -/
def sigCtx (p : Packet) : Nat := fieldAt p.payload 0x1A 1 % 64

/-- The counter that a fabric request may act on: allocated, with REMOTE_OK (R220). -/
def remoteCounter (s : State) (k : Nat) : Option Counter :=
  match counterOf s k with
  | some x => if x.remoteOk then some x else none
  | none => none

/-- A refused fabric counter request (R168, R220). -/
def signalDenied (s : State) : State × Verdict := (s.inc R.SYN_DENIED_DENIED 0 1, .nak 1)

/-- How a tag (STEP, ATT) compares with the module's (R225, R308): equal, its successor, or any other. -/
inductive TagOrder where
  | equal | successor | other
  deriving DecidableEq, Repr

/-- The comparison of a tag. -/
def tagOrder (s : State) (step att : Nat) : TagOrder :=
  if step = s.tmp.step ∧ att = s.tmp.att then .equal
  else if (step = s.tmp.step ∧ att = (s.tmp.att + 1) % 256) ∨ (step = (s.tmp.step + 1) % 2 ^ 64 ∧ att = 0) then .successor
  else .other

/-- A STEP_TAGGED operation on a STEP counter is applied, deferred or dropped by its tag (R225). -/
def taggedOp (s : State) (k op v step att : Nat) : State :=
  match tagOrder s step att with
  | .equal => counterOp s k op v
  | .successor =>
    if 256 ≤ s.syn.deferred.length then raise (s.inc R.SYN_DEFER_OVF_DEFER_OVF 0 1) .SYN 0 5
    else { s with syn := { s.syn with deferred := s.syn.deferred ++ [⟨k, op, v, step, att⟩] } }
  | .other => s.inc R.SYN_DROP_STALE_DROP_STALE 0 1

/-- A SIGNAL of KIND OP (R216, R220, R225). -/
def deliverOp : Delivery := fun s _ p =>
  match remoteCounter s (sigPhys p) with
  | none => signalDenied s
  | some x =>
    let w := fieldAt p.payload 0 2
    let op := w / 8 % 4
    if op = 3 then (s, .drop)
    else if bitOf w 8 && x.stepFlag then
      (taggedOp s (sigPhys p) op (sigValue p) (fieldAt p.payload 0x10 8) (fieldAt p.payload 4 1), .done)
    else (counterOp s (sigPhys p) op (sigValue p), .done)

/-- A SIGNAL of KIND SUBSCRIBE (R221, R230): NOTIFY at once where the condition holds, a BROKEN notice for a BROKEN counter,
BUSY where the table is full, else a subscription. -/
def deliverSubscribe : Delivery := fun s _ p =>
  let k := sigPhys p
  match remoteCounter s k with
  | none => signalDenied s
  | some x =>
    let w := fieldAt p.payload 0 2
    let b : Sub := { phys := k, node := p.src, ctx := sigCtx p, subId := sigSub p, eq := w / 32 % 8 == 1, value := sigValue p }
    let tag := x.stepFlag && s.tmp.phase != .idle
    let answer := fun kind => queuePkt s p.src (signalPkt s kind 0 0 (tag && kind == 2) k x.value b.subId b.ctx .reply)
    if x.broken then (answer 3, .done)
    else if condHolds b.eq x.value b.value then (answer 2, .done)
    else if 4096 ≤ s.syn.subs.length then (answer 5, .done)
    else ({ s with syn := { s.syn with subs := s.syn.subs ++ [b] } }, .done)

/-- The WAIT that a notice of a node answers: the waiter's remote WAIT on that counter with that SUB_ID. -/
def waiterOf (s : State) (p : Packet) : Option WaitState :=
  match (ctxOf s (sigCtx p)).wait with
  | some w => if w.remote = some p.src ∧ w.phys = sigPhys p ∧ w.subId = sigSub p then some w else none
  | none => none

/-- A SIGNAL of KIND NOTIFY (R221): the waiter's condition has held; a suspended WAIT keeps the notice (R228). -/
def deliverNotify : Delivery := fun s _ p =>
  match waiterOf s p with
  | some w =>
    let c := sigCtx p
    (s.setCtx c { ctxOf s c with wait := some { w with notified := some (sigValue p), lastValue := sigValue p } }, .done)
  | none => (s, .done)

/-- A SIGNAL of KIND BROKEN (R219, R230). -/
def deliverBroken : Delivery := fun s _ p =>
  match waiterOf s p with
  | some w => (brokenWake s (sigCtx p) w w.lastValue, .done)
  | none => (s, .done)

/-- A SIGNAL of KIND CANCEL (R221): the subscription is dropped. -/
def deliverCancel : Delivery := fun s _ p =>
  let mine := fun (b : Sub) => b.phys == sigPhys p && b.node == p.src && b.ctx == sigCtx p && b.subId == sigSub p
  ({ s with syn := { s.syn with subs := s.syn.subs.filter (fun b => !mine b) } }, .done)

/-- A SIGNAL of KIND BUSY (R221): the waiter subscribes again in 10 µs. -/
def deliverBusy : Delivery := fun s _ p =>
  match waiterOf s p with
  | some w =>
    let c := sigCtx p
    (s.setCtx c { ctxOf s c with wait := some { w with busyUntil := some (s.clock + 10000) } }, .done)
  | none => (s, .done)

/-- A SIGNAL packet by its KIND (Table 8.7); one of a reserved KIND is dropped and acknowledged. -/
def deliverSignal : Delivery := fun s f p =>
  match sigKind p with
  | 0 => deliverOp s f p
  | 1 => deliverSubscribe s f p
  | 2 => deliverNotify s f p
  | 3 => deliverBroken s f p
  | 4 => deliverCancel s f p
  | 5 => deliverBusy s f p
  | _ => (s, .drop)

/-- SIGNALs held for their turn are delivered while the flow's CUM has reached them (R271), at most `n` of them. -/
def runHeld (s : State) (plane f : Nat) : Nat → State
  | 0 => s
  | n + 1 =>
    let x := flowOf s f
    match x.heldSignals.find? (fun e => e.1 == x.rxCum) with
    | some e =>
      let s := s.setFlow f { x with heldSignals := x.heldSignals.filter (fun h => h.1 != e.1) }
      let r := deliverSignal s f e.2
      runHeld (applyVerdict r.1 plane f e.1 r.2) plane f n
    | none => s

/-- The flow of a sequenced packet's FLOW field, if it is OPEN with the packet's source (R270). -/
def openFlowOf (s : State) (p : Packet) : Option Flow :=
  let x := flowOf s p.flow
  if x.state = .opened ∧ x.peer = p.src then some x else none

/-- A sequenced packet is taken through the checks of R270 and delivered; a SIGNAL waits for every lower SEQ (R271). -/
def receiveSeq (s : State) (plane : Nat) (c : PClass) (p : Packet) (deliver : Delivery) : State :=
  if !planeOpen s plane then s
  else match checkPacket s plane c p with
  | .drop t => t
  | .retired t => (match openFlowOf t p with
    | some _ => sendFlowNak t p.flow p.seq 2
    | none => sendNoFlowNak t p.src p.seq 2)
  | .pass t =>
    (match openFlowOf t p with
    | none => sendNoFlowNak t p.src p.seq 3
    | some x =>
      if p.seq < x.rxCum ∨ x.rxMarks.contains p.seq then
        sendFlowAck (t.inc R.XPT_DUP_DROP_DUP_DROP (planeDie plane) 1) p.flow
      else if x.rxCum + 4096 ≤ p.seq then t
      else if c = .SIGNAL ∧ p.seq ≠ x.rxCum then
        if x.heldSignals.any (fun e => e.1 == p.seq) then t
        else t.setFlow p.flow { x with heldSignals := x.heldSignals ++ [(p.seq, p)] }
      else
        let r := deliver t p.flow p
        runHeld (applyVerdict r.1 plane p.flow p.seq r.2) plane p.flow 4096)

/-- A SIGNAL packet of one KIND arrives. -/
def receiveSignal (s : State) (plane kind : Nat) (p : Packet) (deliver : Delivery) : State :=
  if sigKind p = kind then receiveSeq s plane .SIGNAL p deliver else s

/-- SIGNAL_OP (R220). -/
def execSignalOp (plane : Nat) (p : Packet) (s : State) : Outcome := onUnit s plane 32 (receiveSignal s plane 0 p deliverOp)
/-- SUBSCRIBE (R221). -/
def execSubscribe (plane : Nat) (p : Packet) (s : State) : Outcome :=
  onUnit s plane 32 (receiveSignal s plane 1 p deliverSubscribe)
/-- NOTIFY (R221). -/
def execNotify (plane : Nat) (p : Packet) (s : State) : Outcome := onUnit s plane 32 (receiveSignal s plane 2 p deliverNotify)
/-- BROKEN (R230). -/
def execBroken (plane : Nat) (p : Packet) (s : State) : Outcome := onUnit s plane 32 (receiveSignal s plane 3 p deliverBroken)
/-- CANCEL (R221). -/
def execCancel (plane : Nat) (p : Packet) (s : State) : Outcome := onUnit s plane 32 (receiveSignal s plane 4 p deliverCancel)
/-- BUSY (R221). -/
def execBusy (plane : Nat) (p : Packet) (s : State) : Outcome := onUnit s plane 32 (receiveSignal s plane 5 p deliverBusy)

/-! DATA, READ and WRITE (R271) -/

/-- Bytes written at ADDR for a requester under R167 and R168: refused with NAK ACCESS; unanswered where the range lies in
a domain in reset (R375), a halted Hearth or a working copy whose block table is being zeroed. -/
def writeFor (s : State) (r : Req) (ctx : Nat) (p : Packet) : State × Verdict :=
  let n := p.payload.length
  if !accessOk s r true p.addr n then (refuseEffects s r true ctx p.addr n, .nak 1)
  else if (accessBlocked s p.addr n).isSome || waitsHearth s p.addr n || waitsTouch s p.addr n then (s, .lost)
  else (writeAny s p.addr p.payload, .done)

/-- WRITE (R271). -/
def deliverWrite : Delivery := fun s _ p => writeFor s (.fabric p.src) 0x3F p

/-- WRITE (R271). -/
def execWrite (plane : Nat) (p : Packet) (s : State) : Outcome := onUnit s plane 32 (receiveSeq s plane .WRITE p deliverWrite)

/-- The outcome of the error correction of a read at a direct address (R172, R187). -/
def readOutcome (s : State) (a ctx : Nat) (ecc : Ecc) : State :=
  match windowOf s a, ecc with
  | .hbm, e | .frec, e => hbmOutcome s a ctx e
  | .hearth _, .ok => s
  | .hearth d, .correctable => hearthCe s d ((a - hearthBase d) / 256 % 128) a ctx
  | .hearth d, .uncorrectable => hearthUe s d ((a - hearthBase d) / 256 % 128) a ctx
  | _, _ => s

/-- READ (R271): the source range is read under the rights of a fabric peer and its DATA is queued on the same flow, or the
READ is refused; bad data is never sent. -/
def deliverRead (ecc : Ecc) : Delivery := fun s _ p =>
  let n := fieldAt p.payload 8 8
  let r : Req := .fabric p.src
  if !accessOk s r false p.addr n then (refuseEffects s r false 0x3F p.addr n, .nak 1)
  else if waitsHearth s p.addr n then (s, .lost)
  else match accessBlocked s p.addr n with
  | some d => (domainBlocked s d p.addr, .nak 5)
  | none =>
    let s := readOutcome s (direct s p.addr) 0x3F ecc
    if ecc = .uncorrectable then (s, .nak 5)
    else
      let data : OutPkt :=
        { cls := .DATA, addr := fieldAt p.payload 0 6, head := [], src := some (direct s p.addr, n), owner := .reply,
          stepTag := p.stepTag, abandoned := false }
      (queuePkt s p.src data, .done)

/-- READ (R271). -/
def execRead (plane : Nat) (p : Packet) (ecc : Ecc) (s : State) : Outcome :=
  onUnit s plane 32 (receiveSeq s plane .READ p (deliverRead ecc))

/-- One packet of an owner's transfer has been completed. -/
def countDown (s : State) (o : Owner) : State :=
  match o with
  | .flight id =>
    (match flightOf s id with
     | some f => s.setFlight id { f with left := f.left - 1 }
     | none => s)
  | .tongs n _ fetch =>
    (match slotAt s n with
     | some x =>
       let down := fun (m : Option Move) => m.map (fun v => { v with left := v.left - 1 })
       s.setSlot n (if fetch then { x with in' := down x.in' } else { x with out' := down x.out' })
     | none => s)
  | _ => s

/-- The context of an owner, or 63 for none. -/
def ownerCtx (s : State) : Owner → Nat
  | .flight id => (match flightOf s id with | some f => f.ctx | none => 0x3F)
  | .tongs _ c _ => c
  | .ctx c => c
  | _ => 0x3F

/-- The head of a hold or ward-hold that a takeover asked for arrives: the batch whose length it names is asked for (Table
14.9). -/
def holdRest (s : State) (p : Packet) : State :=
  let rest := fun (node src : Nat) =>
    queueAll s node (readPkts (src + 256) (p.addr + 256) (leNat ((p.payload.drop 0x18).take 4)) .takeover false)
  if p.payload.length ≠ 256 then s
  else if p.addr = s.map.hold then rest (s.rd R.TMP_BUDDY_BUDDY_NODE 0) wardHoldBase
  else if p.addr = s.map.wardHold then rest (s.rd R.TMP_BUDDY_WARD_NODE 0) holdBase
  else s

/-- DATA that answers a READ of a transfer: written under the rights of its context; a domain in reset or a host link that
does not serve ends the record as a command error (R375, R435). -/
def dataFor (s : State) (o : Owner) (p : Packet) : State × Verdict :=
  let c := ownerCtx s o
  let n := p.payload.length
  match o with
  | .fill => (fillAdvance s, .done)
  | .takeover => (holdRest s p, .done)
  | .heal _ => (s, .done)
  | _ =>
    match accessBlocked s p.addr n, o with
    | some d, .flight id => (endFlight (domainBlocked s d p.addr) id 7 1, .drop)
    | some _, _ => (s, .lost)
    | none, _ =>
      if touchesHost p.addr n && !hostUsable s then
        (match o with
         | .flight id => (endFlight (hostFault s (homeDie s c) p.addr 5) id 8 5, .drop)
         | _ => (s, .lost))
      else
        let r := writeFor s (reqOf s c) c p
        (if r.2 = .done then countDown r.1 o else r.1, r.2)

/-- DATA (R271, R490): the answer to a READ is written at ADDR; that of an abandoned one is acknowledged, not written and
counted in CTX_LATE; DATA that nothing asked for is written under the rights of a fabric peer. -/
def deliverData : Delivery := fun s f p =>
  let x := flowOf s f
  match x.reads.find? (fun r => r.dst == p.addr) with
  | some r =>
    let t := s.setFlow f { x with reads := x.reads.erase r }
    if r.abandoned then
      let c := ownerCtx s r.owner
      (prune (if c < 64 then t.inc R.CTX_LATE_LATE c 1 else t), .drop)
    else
      let a := dataFor t r.owner p
      (match a.2 with | .done | .drop => a | _ => ((dataFor s r.owner p).1, a.2))
  | none => writeFor s (.fabric p.src) 0x3F p

/-- DATA (R271). -/
def execData (plane : Nat) (p : Packet) (s : State) : Outcome := onUnit s plane 32 (receiveSeq s plane .DATA p deliverData)

/-! Acknowledgements (R272, R274) -/

/-- KIND of a WELD payload (Table 11.3). -/
def weldKind (bs : List Byte) : Nat := fieldAt bs 0 1 % 16

/-- An interval joined to a list of disjoint ones. -/
def addRange (l : List (Nat × Nat)) (lo hi : Nat) : List (Nat × Nat) :=
  let near := l.filter (fun r => r.1 ≤ hi && lo ≤ r.2)
  let a := (near.map (·.1)).foldl min lo
  let b := (near.map (·.2)).foldl max hi
  (a, b) :: l.filter (fun r => !(r.1 ≤ hi && lo ≤ r.2))

/-- What an acknowledgement means to the owner of a packet: a push COPY or offload has one packet less to go, a remote SIGNAL
completes, the ward-hold write advances, a MIRROR packet marks its bytes (R212, R222, R310, R328). -/
def ackOwner (s : State) (p : OutPkt) : State :=
  if p.abandoned then s
  else match p.owner with
  | .flight id =>
    (match flightOf s id with
     | some f =>
       if f.work = .signal then completeFlight s id f
       else if p.cls = .WRITE then countDown s p.owner
       else s
     | none => s)
  | .tongs _ _ _ => if p.cls = .WRITE then countDown s p.owner else s
  | .holdWrite => { s with attempt := { s.attempt with holdWriteLeft := s.attempt.holdWriteLeft - 1 } }
  | .weld _ =>
    if p.cls = .WELD ∧ weldKind p.head = 3 then
      let o := fieldAt p.head 8 5
      let n := match p.src with | some x => x.2 | none => 0
      { s with attempt := { s.attempt with mirrorAcked := addRange s.attempt.mirrorAcked o (o + n) } }
    else s
  | _ => s

/-- Whether an ACK acknowledges a SEQ (Table 10.3). -/
def acks (cum sack q : Nat) : Bool := decide (q < cum) || (cum < q && q ≤ cum + 64 && bitOf sack (q - cum - 1))

/-- The packets of a flow that an ACK names are released (R272). -/
def releaseAcked (s : State) (f cum sack : Nat) : State :=
  let x := flowOf s f
  let hit := x.unacked.filter (fun u => acks cum sack u.seq)
  if hit.isEmpty then s
  else
    let s := noteDrain (s.setFlow f { x with unacked := x.unacked.filter (fun u => !acks cum sack u.seq), lastUse := s.clock })
    prune (hit.foldl (fun s u => ackOwner s u.pkt) s)

/-- A resend of an entry of a flow's unacknowledged list. -/
def State.setUnacked (s : State) (f : Nat) (u : Unacked) : State :=
  let x := flowOf s f
  s.setFlow f { x with unacked := x.unacked.map (fun v => if v.seq = u.seq then u else v) }

/-- The payload of a packet as read now: its head and the bytes of its source; none where the source cannot be read. -/
def payloadOf (s : State) (p : OutPkt) : Option (List Byte) :=
  match p.src with
  | none => some p.head
  | some (a, n) =>
    if (accessBlocked s a n).isSome || (touchesHost a n && !hostUsable s) then none
    else some (p.head ++ (readAny s a n).1)

/-- The state after the source of a packet has been read. -/
def sourceRead (s : State) (p : OutPkt) : State := match p.src with | some (a, n) => (readAny s a n).2 | none => s

/-- XPT_THR.LO of a plane, at most HI. -/
def thrLo (s : State) (k : Nat) : Nat := min (s.rd R.XPT_THR_HI (k / 16)) (s.rd R.XPT_THR_LO (k / 16))

/-- Whether a plane is skipped for its egress queue: it passed HI and has not fallen to LO since (R275). -/
def planeSkipped (s : State) (k : Nat) : Bool := bitOf s.xp.skip k && decide (thrLo s k < (linkOf s k).egressSlots)

/-- A packet joins the egress queue of a plane, which is skipped from then on if it holds more than HI (R275). -/
def sendData (s : State) (k : Nat) (c : PClass) (p : Packet) : State :=
  let kept := planeSkipped s k
  let s := sendEgress s k c p
  let above := kept || decide (s.rd R.XPT_THR_HI (k / 16) < (linkOf s k).egressSlots)
  let old := s.xp.skip - (s.xp.skip &&& 2 ^ k)
  { s with xp := { s.xp with skip := if above then old + 2 ^ k else old } }

/-- One try of a packet of a flow leaves on plane `k` with the ATT of its injection. -/
def sendTry (s : State) (f k seq att tries : Nat) (p : OutPkt) (payload : List Byte) : State :=
  let x := flowOf s f
  let s := s.inc R.XPT_TX_PKTS_TX_PKTS (flowDie f) 1
  let s' := { s with tmp := { s.tmp with att := att } }
  sendData s k p.cls (mkPacket s' p.cls s.xp.slc.cur.slice x.peer x.peerFlow (tries - 1) seq p.addr p.stepTag payload)

/-- A packet is resent (R273): on the next plane after its previous one, its payload read again; where the source cannot be
read, or no plane is left, the try is not sent and times out. -/
def resend (s : State) (f : Nat) (u : Unacked) (ecc : Ecc) : State :=
  let x := flowOf s f
  let s := s.inc R.XPT_RESENDS_RESENDS (flowDie f) 1
  let s := match u.pkt.src with | some (a, _) => readOutcome s a 0x3F ecc | none => s
  let pay := if ecc = .uncorrectable && u.pkt.src.isSome then none else payloadOf s u.pkt
  match nextPlane (effPlanes s x.peer) (u.plane.getD x.lastPlane), pay with
  | some k, some bs =>
    let s := s.setUnacked f { u with tries := u.tries + 1, plane := some k, at' := s.clock }
    sendTry (sourceRead s u.pkt) f k u.seq u.att (u.tries + 1) u.pkt bs
  | _, none =>
    let s := match u.pkt.src with
      | some (a, n) => (match accessBlocked s a n with | some d => domainBlocked s d a | none => s)
      | none => s
    s.setUnacked f { u with tries := u.tries + 1, plane := none, at' := s.clock }
  | none, _ => s.setUnacked f { u with tries := u.tries + 1, plane := none, at' := s.clock }

/-- A try is over without success: the packet is resent, or with its tries exhausted the flow fails (R273, R274). -/
def retry (s : State) (f : Nat) (u : Unacked) (ecc : Ecc) : State :=
  if triesOf s (flowDie f) ≤ u.tries then flowFail s f 1 else resend s f u ecc

/-- A NAK ACCESS that refuses a mirror or ward-hold packet records MIRROR_FAIL before the flow fails (R163, R310). -/
def mirrorRefused (s : State) (u : Unacked) : State :=
  if u.pkt.cls = .WELD ∧ (weldKind u.pkt.head = 3 ∨ weldKind u.pkt.head = 4) then
    stepFault (raise s .WLD 0 6) .mirrorFail
  else s

/-- What a NAK does to the packet it refuses (Table 10.4). -/
def applyNak (s : State) (f reason : Nat) (u : Unacked) : State :=
  match reason with
  | 1 => flowFail (mirrorRefused s u) f 2
  | 2 => retry s f u .ok
  | 3 => flowFail s f 3
  | 4 => s.setUnacked f { u with plane := none }
  | 5 => flowFail s f 7
  | _ => s

/-- An OPEN that is sent again, or with its tries exhausted fails the flow (R265, R274). -/
def retryOpen (s : State) (f : Nat) : State :=
  let x := flowOf s f
  if triesOf s (flowDie f) ≤ x.openTries then flowFail s f 1
  else
    let s := s.inc R.XPT_RESENDS_RESENDS (flowDie f) 1
    let r := sendCtrl s x.peer 0 f f x.lastPlane
    r.1.setFlow f { x with openTries := x.openTries + 1, openAt := s.clock, openPlane := r.2, lastPlane := r.2.getD x.lastPlane }

/-- The flow that an ACK is for: that of its FLOW with its source, and for a NAK also the flow to its source (R272). -/
def ackFlow (s : State) (p : Packet) (nak : Nat) : Option Nat :=
  let x := flowOf s p.flow
  if x.peer = p.src ∧ (x.state = .opened ∨ x.state = .opening) then some p.flow
  else if nak ≠ 0 then flowTo s p.src else none

/-- An ACK packet (R272): SEQs below CUM and those of SACK are released, then the NAK reason acts on the SEQ it refuses. A
BUSY to an OPEN is a timed-out try. -/
def receiveAck (s : State) (p : Packet) : State :=
  let nak := fieldAt p.payload 0x14 4 % 16
  match ackFlow s p nak with
  | none => s
  | some f =>
    let s := if nak ≠ 0 then s.inc R.XPT_NAK_RX_NAK_RX (flowDie f) 1 else s
    if (flowOf s f).state = .opening then
      (if nak = 4 then s.setFlow f { flowOf s f with openPlane := none } else s)
    else
      let s := fillAdvance (releaseAcked s f (fieldAt p.payload 0 4) (fieldAt p.payload 8 8))
      if nak = 0 then s
      else match (flowOf s f).unacked.find? (fun u => u.seq == fieldAt p.payload 0x10 4) with
        | some u => applyNak s f nak u
        | none => s

/-- A packet of a class that no flow sequences (R270). -/
def receivePlain (s : State) (plane : Nat) (c : PClass) (p : Packet) (act : State → State) : State :=
  if !planeOpen s plane then s
  else match checkPacket s plane c p with
  | .drop t => t
  | .retired t => t
  | .pass t => act t

/-- ACK (R272). -/
def execAck (plane : Nat) (p : Packet) (s : State) : Outcome :=
  onUnit s plane 32 (receivePlain s plane .ACK p (fun t => serveNeeds (receiveAck t p)))

/-- ACK_SEND (R272): the ACK of a flow with deliveries not yet acknowledged leaves. -/
def ackTurn (s : State) (f : Nat) : State :=
  if (flowOf s f).state = .opened ∧ 0 < (flowOf s f).ackDue then sendFlowAck s f else s

/-- ACK_SEND (R272). -/
def execAckSend (flow : Nat) (s : State) : Outcome := onUnit s flow 4096 (ackTurn s flow)

/-! Opening and closing flows (R265) -/

/-- KIND of a CTRL payload (Table 10.2). -/
def ctrlKind (p : Packet) : Nat := fieldAt p.payload 0 8 % 8
/-- The flow ID of a CTRL payload. -/
def ctrlFlow (p : Packet) : Nat := fieldAt p.payload 0 8 / 2 ^ 16 % 2 ^ 12

/-- OPEN_ACK is sent for flow `f`, carrying its ID. -/
def answerOpen (s : State) (node peerFlow f : Nat) : State := (sendCtrl s node 1 peerFlow f 31).1

/-- A flow becomes OPEN with its peer's flow ID. -/
def openedWith (s : State) (f peerFlow : Nat) : State :=
  s.setFlow f { flowOf s f with state := .opened, peerFlow := peerFlow, lastUse := s.clock }

/-- A new flow for a peer's OPEN takes a free or evicted entry; with none the OPEN is answered NAK BUSY (R265). -/
def acceptOpen (s : State) (node peerFlow : Nat) : State :=
  let fresh := fun (s : State) (f : Nat) =>
    answerOpen (s.setFlow f { Flow.freed with state := .opened, peer := node, peerFlow := peerFlow, lastUse := s.clock })
      node peerFlow f
  match freeFlow s with
  | some f => fresh s f
  | none =>
    match evictable s with
    | some f => fresh ((closeFlow s f).inc R.FLW_EVICT_EVICT (flowDie f) 1) f
    | none => sendAckTo s node peerFlow 31 (ackPayload 0 0 0 4)

/-- Whether a flow has received no sequenced packet from its peer. -/
def Flow.fresh (x : Flow) : Bool := x.rxCum == 0 && x.rxMarks.isEmpty && x.heldSignals.isEmpty

/-- CTRL OPEN (R265): crossing opens, a repeated open, a peer that already has a flow, or a new flow. -/
def receiveOpen (s : State) (p : Packet) : State :=
  let id := ctrlFlow p
  match flowTo s p.src with
  | some f =>
    let x := flowOf s f
    if x.state = .opening then answerOpen (openedWith s f id) p.src id f
    else if x.peerFlow = id ∧ x.fresh then answerOpen s p.src id f
    else acceptOpen (flowFail s f 4) p.src id
  | none => acceptOpen s p.src id

/-- OPEN (R265). -/
def execFlowOpen (plane : Nat) (p : Packet) (s : State) : Outcome :=
  onUnit s plane 32 (if ctrlKind p = 0 then receivePlain s plane .CTRL p (fun t => receiveOpen t p) else s)

/-- CTRL OPEN_ACK (R265): the opener's flow is OPEN. -/
def receiveOpenAck (s : State) (p : Packet) : State :=
  let x := flowOf s p.flow
  if x.state = .opening ∧ x.peer = p.src then openedWith s p.flow (ctrlFlow p) else s

/-- OPEN_ACK (R265). -/
def execOpenAck (plane : Nat) (p : Packet) (s : State) : Outcome :=
  onUnit s plane 32 (if ctrlKind p = 1 then receivePlain s plane .CTRL p (fun t => receiveOpenAck t p) else s)

/-- CTRL CLOSE (R265): the entry of the flow with that peer is freed. Transfers that already wait on it open a new one. -/
def receiveClose (s : State) (p : Packet) : State :=
  let x := flowOf s p.flow
  if x.peer = p.src ∧ x.state = .opened ∧ x.unacked.isEmpty then
    serveNeeds (queueAll (s.setFlow p.flow Flow.freed) p.src x.waiting)
  else s

/-- CLOSE (R265). -/
def execClose (plane : Nat) (p : Packet) (s : State) : Outcome :=
  onUnit s plane 32 (if ctrlKind p = 2 then receivePlain s plane .CTRL p (fun t => receiveClose t p) else s)

/-! Injection and resends (R273, R275, R276) -/

/-- WINDOW of a port die. -/
def windowOfDie (s : State) (d : Nat) : Nat := clampNat 16 4096 (s.rd R.XPT_WIN_WINDOW d)

/-- The unacknowledged packets of the flows that a port die holds. -/
def dieUnacked (s : State) (d : Nat) : Nat :=
  ((s.xp.flows.filter (fun e => flowDie e.1 == d)).map (fun e => e.2.unacked.length)).sum

/-- Whether a flow may inject its next packet: it is OPEN, the window and the die's table have room (R273), no abandoned
packet is unacknowledged (R490), its port die takes work (R377), and during a drain only answers leave (R281). -/
def mayInject (s : State) (f : Nat) (p : OutPkt) : Bool :=
  let x := flowOf s f
  let d := flowDie f
  x.state == .opened && decide (x.unacked.length < windowOfDie s d) && decide (dieUnacked s d < 32768)
    && !x.unacked.any (fun u => u.pkt.abandoned) && !s.on R.PDC_STS_IN_RESET d
    && (!s.xp.slc.draining || p.owner == .reply)

/-- The READ that a packet stands for, if it is one. -/
def readOutOf (p : OutPkt) : List ReadOut :=
  if p.cls = .READ then
    [{ dst := fieldAt p.head 0 6, len := fieldAt p.head 8 8, owner := p.owner, abandoned := false }]
  else []

/-- The packet is injected with the next SEQ on plane `k`, or with no plane: its first try then times out (R275). -/
def injectOn (s : State) (f : Nat) (k : Option Nat) (p : OutPkt) (rest : List OutPkt) : State :=
  let x := flowOf s f
  let pay := payloadOf s p
  let k := if pay.isNone then none else k
  let u : Unacked := { seq := x.txNext, att := s.tmp.att, pkt := p, tries := 1, plane := k, at' := s.clock }
  let s := s.setFlow f { x with
    txNext := (x.txNext + 1) % 2 ^ 32, unacked := x.unacked ++ [u], waiting := rest, reads := x.reads ++ readOutOf p,
    lastPlane := k.getD x.lastPlane, lastUse := s.clock, throttled := false }
  match k, pay with
  | some k, some bs => sendTry (sourceRead s p) f k u.seq u.att 1 p bs
  | _, _ => s

/-- A source of a record that lies in a domain in reset, or a host link that does not serve, ends the record (R375, R435). -/
def sourceFails (s : State) (p : OutPkt) : Option State :=
  match p.owner, p.src with
  | .flight id, some (a, n) =>
    (match accessBlocked s a n with
     | some d => some (endFlight (domainBlocked s d a) id 7 1)
     | none =>
       if touchesHost a n && !hostUsable s then
         some (endFlight (hostFault s (homeDie s (ownerCtx s p.owner)) a 5) id 8 5)
       else none)
  | _, _ => none

/-- PACKET_INJECT (R275): the flow's next packet goes to the next plane of its effective mask that is not skipped; with every
plane skipped nothing is injected and the cycles, whose number the spec does not give, are counted. -/
def injectNext (s : State) (f : Nat) : State :=
  let x := flowOf s f
  match x.waiting with
  | [] => s
  | p :: rest =>
    if !mayInject s f p || s.xp.slc.cur.slice == 0 then s
    else match sourceFails s p with
    | some t => t
    | none =>
      let ps := effPlanes s x.peer
      if ps.isEmpty then injectOn s f none p rest
      else match nextPlane (ps.filter (fun k => !planeSkipped s k)) x.lastPlane with
        | some k => injectOn s f (some k) p rest
        | none =>
          let s := if x.throttled then s else raise (s.setFlow f { x with throttled := true }) .XPT (flowDie f) 8
          (s.fresh.2).inc R.XPT_THROTTLE_CYC_THROTTLE_CYC (flowDie f) s.fresh.1

/-- PACKET_INJECT (R275). -/
def execPacketInject (flow : Nat) (s : State) : Outcome := onUnit s flow 4096 (injectNext s flow)

/-- A try on plane `k` timed out with no answer at all: N of them within 100 µs mark it SUSPECT (R276). -/
def planeTimeout (s : State) (k peer : Nat) : State :=
  let d := k / 16
  let ts := s.clock :: (Tbl.get [] s.xp.timeouts k).filter (fun t => s.clock < t + 100000)
  let s := { s with xp := { s.xp with timeouts := Tbl.set s.xp.timeouts k ts } }
  if max 2 (s.rd R.XPT_SUSPECT_N_N d) ≤ ts.length ∧ !bitOf s.xp.suspect k then
    let s := { s with xp := { s.xp with suspect := s.xp.suspect + 2 ^ k, timeouts := Tbl.set s.xp.timeouts k [] } }
    logErr (raise s .XPT d 5) .XPT d 5 .CAPACITY k 0 [peer, 0, 0]
  else s

/-- RESEND_TIMEOUT (R273): the timer of a try ends. -/
def tryTimeout (s : State) (f seq : Nat) (ecc : Ecc) : State :=
  let x := flowOf s f
  let d := flowDie f
  let expired := fun (plane : Option Nat) =>
    let s := s.inc R.XPT_TIMEOUTS_TIMEOUTS d 1
    match plane with | some k => planeTimeout s k x.peer | none => s
  if x.state = .opening then
    if x.openAt + resendNs s d ≤ s.clock then
      healthInput (retryOpen (expired x.openPlane) f) 6 (portId d)
    else s
  else match x.unacked.find? (fun u => u.seq == seq) with
  | some u =>
    if u.at' + resendNs s d ≤ s.clock then
      healthInput (retry (expired u.plane) f u ecc) 6 (portId d)
    else s
  | none => s

/-- RESEND_TIMEOUT (R273). -/
def execResendTimeout (flow seq : Nat) (ecc : Ecc) (s : State) : Outcome := onUnit s flow 4096 (tryTimeout s flow seq ecc)

/-- READMIT (R276): the SUSPECT marks of the mask are cleared. -/
def readmitPlanes (s : State) (d mask : Nat) : State :=
  let m := mask % 2 ^ 16 * 2 ^ (16 * d)
  { s with xp := { s.xp with suspect := s.xp.suspect - (s.xp.suspect &&& m) } }

/-- READMIT (R276). -/
def execReadmit (d mask : Nat) (s : State) : Outcome := onUnit s d 2 (readmitPlanes s d mask)

/-! Tables and epochs (R277 to R281, R292) -/

/-- Leaving a slice: the Bellows lock L returns to 64 whenever SLC_CUR.SLICE_ID becomes 0 (R421). -/
def leftSlice (s : State) (old : Nat) : State :=
  if old ≠ 0 ∧ s.xp.slc.cur.slice = 0 then s.wr R.PWR_STS_L 0 64 else s

/-- A measurement of index 5 or 6 changes (R453). -/
def measChanged (s : State) : State := raise (s.inc R.SEC_MEAS_SEQ_SEQ 0 1) .SEC 0 6

/-- The next version becomes current, EPOCH inverts, the former current version is the previous one (Table 10.5 step 3). -/
def switchTables (s : State) (v : SliceVer) (retireAt : Nat) : State :=
  let slc := s.xp.slc
  let s := { s with xp :=
    { s.xp with
      rteCur := s.xp.rteNext
      rteNext := s.xp.rteCur
      slc := { slc with cur := v, prev := some slc.cur, next := none, epoch := !slc.epoch, retireAt := retireAt } } }
  let s := raise (s.wr R.SLC_SWITCH_TIME_SWITCH_TIME slcI s.now) .SLC slcI 4
  leftSlice (measChanged s) slc.cur.slice

/-- RETIRE_MS in ns. -/
def retireNs (s : State) : Nat := clampNat 2 60 (s.rd R.SLC_CFG_RETIRE_MS slcI) * 1000000

/-- EPOCH_SWITCH (R278): SLC_EPOCH_AT is reached with a switch staged. -/
def epochDue (s : State) : State :=
  match s.xp.slc.next with
  | some v => if s.xp.slc.switchAt ≤ s.now then switchTables s v (s.xp.slc.switchAt + retireNs s) else s
  | none => s

/-- EPOCH_SWITCH (R278). -/
def execEpochSwitch (s : State) : Outcome := live s (epochDue s)

/-- The previous version is retired (Table 10.5 step 5). -/
def retirePrev (s : State) : State :=
  match s.xp.slc.prev with
  | some _ => raise { s with xp := { s.xp with slc := { s.xp.slc with prev := none } } } .SLC slcI 5
  | none => s

/-- EPOCH_RETIRE (R278): RETIRE_MS after the switch. -/
def execEpochRetire (s : State) : Outcome := live s (if s.xp.slc.retireAt ≤ s.now then retirePrev s else s)

/-- DRAIN_SET (R281). -/
def execDrainSet (s : State) : Outcome :=
  live s (if s.xp.slc.draining then s
    else { s with xp := { s.xp with slc := { s.xp.slc with draining := true, drainSince := s.clock } } })

/-- DRAINED (R281, Table 10.6 step 3): nothing is unacknowledged and LIFETIME_US has passed since. -/
def drainEnds (s : State) : State :=
  let slc := s.xp.slc
  let quiet := s.xp.flows.all (fun e => e.2.unacked.isEmpty)
  let life := max (lifetimeUs s 0) (lifetimeUs s 1) * 1000
  if slc.draining && !slc.drained && quiet && decide (slc.drainSince + life ≤ s.clock) then
    raise { s with xp := { s.xp with slc := { slc with drained := true } } } .SLC slcI 6
  else s

/-- DRAINED (R281). -/
def execDrained (s : State) : Outcome := live s (drainEnds s)

/-- DRAIN_CLEAR (R281): injection resumes. -/
def execDrainClear (s : State) : Outcome :=
  live s { s with xp := { s.xp with slc := { s.xp.slc with draining := false, drained := false } } }

/-- Whether writes to the next routing version are dropped (R292). -/
def tableLocked (s : State) (d : Nat) : Bool :=
  s.on R.RTE_IDX_VIEW d || s.xp.slc.next.isSome || s.xp.slc.prev.isSome

/-- COPY_CUR (R292): the current version is copied into the next, or the write is dropped. -/
def copyCurrent (s : State) (d : Nat) : State :=
  if tableLocked s d then raise s .RTE d 4
  else { s with xp := { s.xp with rteNext := Tbl.set s.xp.rteNext d (Tbl.get [] s.xp.rteCur d) } }

/-- COPY_CUR (R292). -/
def execCopyCur (d : Nat) (s : State) : Outcome := onUnit s d 2 (copyCurrent s d)

/-- NODE advances after an RTE_DATA access with AUTO_INC = 1 (R292). -/
def advanceNode (s : State) (d : Nat) : State :=
  if s.on R.RTE_IDX_AUTO_INC d then s.wr R.RTE_IDX_NODE d (s.rd R.RTE_IDX_NODE d + 1) else s

/-- RTE_DATA_WRITE (R292): the selected entry of the next version is set, or the write is dropped. -/
def writeRoute (s : State) (d val : Nat) : State :=
  let s := if val % 2 ^ 32 / 2 ^ 17 ≠ 0 then badAccess s else s
  if tableLocked s d then raise s .RTE d 4
  else
    let v := Tbl.set (Tbl.get [] s.xp.rteNext d) (s.rd R.RTE_IDX_NODE d) (val % 2 ^ 16, bitOf val 16)
    advanceNode { s with xp := { s.xp with rteNext := Tbl.set s.xp.rteNext d v } } d

/-- RTE_DATA_WRITE (R292). -/
def execRteDataWrite (d val : Nat) (s : State) : Outcome := onUnit s d 2 (writeRoute s d val)

/-- RTE_DATA_READ (R292): the selected entry is returned and NODE advances. -/
def readRoute (s : State) (d : Nat) : State :=
  let v := readField s R.RTE_DATA_PLANES d + 2 ^ 16 * readField s R.RTE_DATA_VALID d
  advanceNode (s.emit (.regData (slotOf .RTE d) R.RTE_DATA_PLANES.off v)) d

/-- RTE_DATA_READ (R292). -/
def execRteDataRead (d : Nat) (s : State) : Outcome := onUnit s d 2 (readRoute s d)

/-! STOP and CUT (R285 to R288) -/

/-- SEND_CUT (R287): CUT with CAUSE = HOST. -/
def execSendCut (s : State) : Outcome := live s (requestCut s 0)

/-- SEND_STOP (R293): a STOP with REASON STOP_RECEIVED, unless one was sent for this attempt, and its receipt. -/
def sendStopNow (s : State) : State :=
  let s := if s.attempt.stopSent || s.xp.slc.cur.slice == 0 then s
    else startBurst ({ s with attempt := { s.attempt with stopSent := true } }.inc R.SLC_STOP_TX slcI 1) .STOP
      (stopPayload s Reason.stopReceived.code)
  stopApply (s.inc R.SLC_STOP_RX slcI 1)

/-- SEND_STOP (R293). -/
def execSendStop (s : State) : Outcome := live s (sendStopNow s)

/-- Whether a STOP or CUT payload was handled within the time in which a copy of it can still arrive (R285): the burst's 20 µs
and the longest LIFETIME_US. -/
def seenBefore (s : State) (c : PClass) (bs : List Byte) : Bool :=
  let life := (max (lifetimeUs s 0) (lifetimeUs s 1) + 20) * 1000
  s.xp.seen.any (fun e => e.1 == c && e.2.1 == bs && decide (s.clock ≤ e.2.2 + life))

/-- The payload of a STOP or CUT is noted as handled. -/
def noteSeen (s : State) (c : PClass) (bs : List Byte) : State :=
  { s with xp := { s.xp with seen := (c, bs, s.clock) :: s.xp.seen } }

/-- A STOP by its tag and the receiver's phase (Table 10.10). One of a successor tag is held; one is held at a time. -/
def stopByTag (s : State) (step att reason : Nat) : State :=
  match tagOrder s step att with
  | .equal => stopApply s
  | .successor =>
    (match s.attempt.heldStop with
     | none => { s with attempt := { s.attempt with heldStop := some (step, att, reason) } }
     | some _ => s)
  | .other => s.inc R.SLC_STALE_STALE slcI 1

/-- A STOP message is handled once (R285, R286). -/
def handleStop (s : State) (p : Packet) : State :=
  if seenBefore s .STOP p.payload then s
  else
    let s := (noteSeen s .STOP p.payload).inc R.SLC_STOP_RX slcI 1
    stopByTag s (fieldAt p.payload 0 8) (fieldAt p.payload 8 1) (fieldAt p.payload 9 1)

/-- STOP (R286). -/
def execStop (plane : Nat) (p : Packet) (s : State) : Outcome :=
  onUnit s plane 32 (receivePlain s plane .STOP p (fun t => handleStop t p))

/-- STOP_REPEAT (R285): every burst whose repeat is due is sent again, twice in all. -/
def repeatBursts (s : State) : State :=
  let due := s.xp.bursts.filter (fun b => decide (b.due ≤ s.clock))
  let s := due.foldl sendCopies s
  let next := s.xp.bursts.filterMap (fun b =>
    if b.due ≤ s.clock then (if b.idx < 2 then some { b with idx := b.idx + 1, due := b.due + 10000 } else none) else some b)
  { s with xp := { s.xp with bursts := next } }

/-- STOP_REPEAT (R285). -/
def execStopRepeat (s : State) : Outcome := live s (repeatBursts s)

/-- A CUT message is handled once (R285, R288): a step not yet tempered is cut at its flip; a receiver that has tempered it
cuts at its next flip and sends CUT again with CAUSE = REISSUE. -/
def handleCut (s : State) (p : Packet) : State :=
  if seenBefore s .CUT p.payload then s
  else
    let s := (noteSeen s .CUT p.payload).inc R.SLC_CUT_RX slcI 1
    let step := fieldAt p.payload 0 8
    if s.tmp.tempered < step then takeCut s step (bits (fieldAt p.payload 8 8) 0 2) else requestCut (takeCut s s.tmp.step 2) 2

/-- CUT (R288). -/
def execCut (plane : Nat) (p : Packet) (s : State) : Outcome :=
  onUnit s plane 32 (receivePlain s plane .CUT p (fun t => handleCut t p))

/-! Fabric time (R282, R283) -/

/-- Whether this module is the master (R282). -/
def isMaster (s : State) : Bool := s.on R.TIME_CTL_MASTER 0

/-- TIME payload (Table 10.7). -/
def timePayload (s : State) : List Byte :=
  leBytes 8 s.now ++ leBytes 8 0 ++ leBytes 4 s.xp.slc.cur.own ++ leBytes 4 s.xp.time.seq
    ++ leBytes 8 (clampNat 10 10000 (s.rd R.TIME_CFG_PERIOD_US 0))

/-- TIME_SEND (R282): the master sends a TIME packet with SLICE 0 and DST 0xFFFF on each READY plane. -/
def sendTime (s : State) : State :=
  if !isMaster s then s
  else
    let p := mkPacket s .TIME 0 0xFFFF 0 0 0 0 false (timePayload s)
    let s := (readyPlanes s).foldl (fun s k => sendPrio s k .TIME p) s
    { s with xp := { s.xp with time := { s.xp.time with seq := (s.xp.time.seq + 1) % 2 ^ 32 } } }

/-- TIME_SEND (R282). -/
def execTimeSend (s : State) : Outcome := live s (sendTime s)

/-- A signed 64-bit value. -/
def signed64 (v : Nat) : Int := if v < 2 ^ 63 then v else (v : Int) - 2 ^ 64

/-- The offset of the master's estimated time from the module's own, in ns (R283). -/
def timeOffset (s : State) (plane : Nat) (p : Packet) : Int :=
  let ps := (fieldAt p.payload 0 8 : Int) * 1000 + signed64 (fieldAt p.payload 8 8) + s.rd R.LNK_DELAY_DELAY plane
  ps / 1000 - s.now

/-- The slewing rate for an offset: toward it, at most 100 ppm; the spec fixes no rate, so it is a free value (R283). -/
def slewFor (s : State) (off : Int) : Int × State :=
  if off = 0 then (0, s)
  else
    let r : Int := (s.fresh.1 % 100001 : Nat)
    (if off < 0 then -r else r, s.fresh.2)

/-- The time service's fields replaced. -/
def State.setTime (s : State) (t : TimeSvc) : State := { s with xp := { s.xp with time := t } }

/-- An offset is slewed, counted toward LOCKED when it is within 20 ns (R283). -/
def slewTime (s : State) (off : Int) : State :=
  let r := slewFor s off
  let near := decide (off.natAbs ≤ 20)
  let n := if near then s.xp.time.count + 1 else 0
  let t : TimeSvc := { r.2.xp.time with rate := r.1, count := n }
  if t.state = .acquire ∧ 16 ≤ n then raise (r.2.setTime { t with state := .locked }) .TIME 0 4 else r.2.setTime t

/-- A TIME packet in ACQUIRE (Table 10.8): time is stepped forward or held while PHASE is IDLE, else slewed. -/
def acquireTime (s : State) (off : Int) : State :=
  let s := s.setTime { s.xp.time with state := .acquire }
  if 1000 < off ∧ s.tmp.phase = .idle then
    raise ({ s with now := s.now + off.toNat }.setTime { s.xp.time with count := 0 }) .TIME 0 7
  else if off < -1000 ∧ s.tmp.phase = .idle then
    raise (s.setTime { s.xp.time with count := 0, hold := off.natAbs }) .TIME 0 7
  else slewTime s off

/-- A TIME packet that the module follows (Table 10.8). -/
def followTime (s : State) (plane : Nat) (p : Packet) : State :=
  let off := timeOffset s plane p
  let old := s.xp.time
  let s := s.setTime { old with
    srcPlane := plane, master := fieldAt p.payload 0x10 2, offset := off, lastRx := s.clock,
    period := fieldAt p.payload 0x18 2 }
  match old.state with
  | .unset | .acquire => acquireTime s off
  | .locked => if 1000 < off.natAbs then acquireTime s off else slewTime s off
  | .holdover =>
    if off.natAbs ≤ 20 then raise (slewTime (s.setTime { s.xp.time with state := .locked }) off) .TIME 0 4
    else acquireTime s off

/-- Whether the plane in use still delivers TIME packets: READY, not SUSPECT, heard within ten periods (R283). -/
def sourceLive (s : State) : Bool :=
  let t := s.xp.time
  t.state != .unset && linkReady s t.srcPlane && !bitOf s.xp.suspect t.srcPlane
    && decide (s.clock < t.lastRx + 10 * t.period * 1000)

/-- TIME (R282, R283): a master only notes another master; a follower follows the lower MASTER_NODE, on the lowest plane that
delivers. -/
def handleTime (s : State) (plane : Nat) (p : Packet) : State :=
  let s := s.inc R.TIME_RX_RX 0 1
  let m := fieldAt p.payload 0x10 2
  let t := s.xp.time
  if isMaster s then (if m = s.xp.slc.cur.own then s else raise s .TIME 0 6)
  else
    let tracking := t.state == .acquire || t.state == .locked
    let s := if tracking && m != t.master then raise s .TIME 0 6 else s
    if (tracking && decide (t.master < m)) || bitOf s.xp.suspect plane then s
    else if m = t.master ∧ t.srcPlane < plane ∧ sourceLive s then s
    else followTime s plane p

/-- TIME (R283). -/
def execTime (plane : Nat) (p : Packet) (s : State) : Outcome :=
  onUnit s plane 32 (receivePlain s plane .TIME p (fun t => handleTime t plane p))

/-- HOLDOVER (R283): ten periods of the last TIME packet have passed without another. -/
def enterHoldover (s : State) : State :=
  let t := s.xp.time
  if !isMaster s ∧ (t.state = .acquire ∨ t.state = .locked) ∧ t.lastRx + 10 * t.period * 1000 ≤ s.clock then
    raise (s.setTime { t with state := .holdover }) .TIME 0 5
  else s

/-- HOLDOVER (R283). -/
def execHoldover (s : State) : Outcome := live s (enterHoldover s)

end Sys2Proof.Machine
end

