-- ==== Sys2Proof/Machine/Weld.lean ====
section
/-! DEFINITION. The Weld family (chapter 11) but for votes: collectives, their checks and trees, readiness, partials, gathers,
mirrors and the ward-hold. -/

namespace Sys2Proof.Machine

open Sys2Proof

/-! The tree of R301 -/

/-- At position `i` of the tree over `n` entries from `level` up: the (level, position) of each value this host receives, in
order, and the (level, position) of the host it sends its value to; none at the root. Entry `j` of width `w` is held at the
position of its last member. -/
def treeWalk (n i : Nat) : Nat → Nat → List (Nat × Nat) × Option (Nat × Nat)
  | 0, _ => ([], none)
  | k + 1, level =>
    let w := 2 ^ (level - 1)
    let j := i / w
    if n ≤ w then ([], none)
    else if j % 2 = 1 then
      let r := treeWalk n i k (level + 1)
      ((level, j * w - 1) :: r.1, r.2)
    else if (j + 1) * w < n then ([], some (level, min ((j + 2) * w) n - 1))
    else treeWalk n i k (level + 1)

/-- The position of rank `m` in the order of share `r` (R301). -/
def posOf (n r m : Nat) : Nat := (m + 2 * n - r - 1) % n

/-- The rank at position `p` of the order of share `r`. -/
def rankAt (n r p : Nat) : Nat := (r + 1 + p) % n

/-- The values that rank `m` receives for share `r`, as (level, rank). -/
def treeKids (n r m : Nat) : List (Nat × Nat) := (treeWalk n (posOf n r m) 16 1).1.map (fun e => (e.1, rankAt n r e.2))

/-- The host that rank `m` sends its value for share `r` to, as (level, rank). -/
def treeParent (n r m : Nat) : Option (Nat × Nat) := (treeWalk n (posOf n r m) 16 1).2.map (fun e => (e.1, rankAt n r e.2))

/-! Nodes, ranks and parameters -/

/-- N, the slice size (R300). -/
def sliceSize (s : State) : Nat := s.rd R.TMP_RANK_SIZE 0

/-- The module's rank. -/
def ownRank (s : State) : Nat := s.rd R.TMP_RANK_RANK 0

/-- The node ID of a rank: the entry of the rank map (R300). -/
def nodeOfRank (s : State) (k : Nat) : Nat := s.loadNat (direct s (s.rd R.WLD_RANKMAP_BASE 0 + 2 * k)) 2

/-- Whether the module holds a rank and knows its slice (NO_RANK of Table 11.9). -/
def hasRank (s : State) : Bool :=
  2 ≤ sliceSize s && ownRank s < sliceSize s && s.xp.slc.cur.slice != 0 && s.weld.mapOk

/-- The bits of a WELD parameter block that Table 11.1 gives a meaning. -/
def weldPbFields : List (Nat × Nat × Nat) :=
  [(0, 0, 3), (0, 4, 28), (4, 0, 16), (8, 0, 48), (0x10, 0, 48), (0x18, 0, 40), (0x20, 0, 40), (0x28, 0, 40)]

/-- The fields of a WELD parameter block (Table 11.1). -/
def weldParams (die : Nat) (pb : List Byte) : WeldParams :=
  let w := fieldAt pb 0 4
  { op := bits w 0 3, inFmt := bits w 4 4, accFmt := bits w 8 4, outFmt := bits w 12 4, coll := bits w 16 16,
    root := fieldAt pb 4 2, src := localise die (fieldAt pb 8 6), dst := localise die (fieldAt pb 0x10 6),
    base := fieldAt pb 0x18 5, count := fieldAt pb 0x20 5, total := fieldAt pb 0x28 5 }

/-- Bytes per element of a format code (R298). -/
def weldSize (code : Nat) : Nat := if code = 0 ∨ code = 0xC then 4 else if code = 1 ∨ code = 2 then 2 else 1

/-- Whether a format code is FP32 or BF16. -/
def sumFormat (code : Nat) : Bool := code ≤ 1

/-- R298. -/
def weldFormatOk (p : WeldParams) : Bool :=
  match p.op with
  | 0 | 2 => sumFormat p.inFmt && sumFormat p.accFmt && sumFormat p.outFmt
  | 1 | 3 => [0, 0xC, 1, 2, 3, 4, 0xB, 0xD, 0xE].contains p.inFmt
  | _ => p.inFmt == 0 && p.accFmt == 0 && p.outFmt == 0 && p.root == 0 && p.dst == 0 && p.base == 0 && p.total == 0

/-- First element of share `r` (R300). -/
def shareLo (p : WeldParams) (n r : Nat) : Nat := r * p.total / n

/-- The part of share `r` in the bucket, as first and end element. -/
def shareSeg (p : WeldParams) (n r : Nat) : Nat × Nat :=
  (max p.base (shareLo p n r), min (p.base + p.count) (shareLo p n (r + 1)))

/-- The range of SRC that this module reads (R304), as (address, length). -/
def weldReads (p : WeldParams) (n rank : Nat) : Nat × Nat :=
  let g := shareSeg p n rank
  match p.op with
  | 0 | 2 => (p.src, p.count * weldSize p.inFmt)
  | 1 => (p.src + (g.1 - shareLo p n rank) * weldSize p.inFmt, (g.2 - g.1) * weldSize p.inFmt)
  | 3 => (p.src, if rank = p.root then p.count * weldSize p.inFmt else 0)
  | _ => (p.src, p.count)

/-- The range of DST that this module writes (R304). -/
def weldWrites (p : WeldParams) (n rank : Nat) : Nat × Nat :=
  let g := shareSeg p n rank
  match p.op with
  | 0 => (p.dst + (g.1 - shareLo p n rank) * weldSize p.outFmt, (g.2 - g.1) * weldSize p.outFmt)
  | 2 => (p.dst, p.count * weldSize p.outFmt)
  | 1 | 3 => (p.dst, p.count * weldSize p.inFmt)
  | _ => (p.dst, 0)

/-- Whether a range lies where SRC and DST may: PKG, one DLn, an XX_INACT alias, or a HOST region of a Hearth (R304). -/
def weldPlaced (s : State) (a n : Nat) : Bool :=
  n == 0 || (match windowOf s a, windowOf s (a + n - 1) with
   | .hbm, .hbm | .inact, .inact => true
   | .hearth d, .hearth e => d == e
   | _, _ => false)

/-- MS_INACT. -/
def msInact : Nat := aliasBase 3

/-- RANGE of Table 11.9; for BROADCAST also the ELEM_BASE and TOTAL that R304 asks for. -/
def weldRangeBad (s : State) (p : WeldParams) : Bool :=
  if p.op = 4 then
    p.count == 0 || decide (msInact ≤ p.src ∧ p.src < aliasBase 4 ∧ s.map.msSize < p.src - msInact + p.count)
  else p.count == 0 || decide (p.total < p.base + p.count) || decide (p.total < sliceSize s)
    || (p.op == 3 && (p.base != 0 || p.total != p.count))

/-- The accesses of a collective, as (write, address, length). -/
def weldAccesses (s : State) (p : WeldParams) : List (Bool × Nat × Nat) :=
  let r := weldReads p (sliceSize s) (ownRank s)
  let w := weldWrites p (sliceSize s) (ownRank s)
  ([(false, r.1, r.2), (true, w.1, w.2)]).filter (fun a => a.2.2 != 0)

/-- ADDR of Table 11.9, but for the place of the block. -/
def weldAddrBad (s : State) (c : Nat) (p : WeldParams) : Bool :=
  let as := weldAccesses s p
  let meet := as.any (fun a => a.1 && as.any (fun b => !b.1 && overlap (a.2.1, a.2.2) (b.2.1, b.2.2)))
  (p.op == 4 && !(msInact ≤ p.src && p.src < aliasBase 4))
    || as.any (fun a => !weldPlaced s a.2.1 a.2.2 || !accessOk s (reqOf s c) a.1 a.2.1 a.2.2)
    || (meet && !(p.op == 2 && p.src == p.dst && p.inFmt == p.outFmt))

/-- Whether COLL is in flight on this module. -/
def collBusy (s : State) (coll : Nat) : Bool := s.weld.colls.any (fun e => e.2.p.coll == coll)

/-- The first check of R297 that fails gives its code of Table 11.9; 0 for none. -/
def weldCheck (s : State) (c : Nat) (p : WeldParams) : Nat :=
  let errs : List (Bool × Nat) :=
    [ (4 < p.op, 1), (!weldFormatOk p, 2), (!hasRank s, 5), (weldRangeBad s p, 3), (p.op == 3 && decide (sliceSize s ≤ p.root), 7),
      (weldAddrBad s c p, 4), (collBusy s p.coll, 6) ]
  match errs.find? (fun e => e.1) with
  | some e => e.2
  | none => 0

/-! Values -/

/-- The number format of code 0 or 1. -/
def sumFmt (code : Nat) : Fmt := if code = 0 then .fp32 else .bf16

/-- An element converted between FP32 and BF16 under RNE (R298, R301). -/
def weldConvert (src dst bits : Nat) : Nat :=
  if src = dst then bits else ((sumFmt dst).convert .rne Config.weldOvfInf ((sumFmt src).decode bits)).1

/-- fl(x + y) in a format under RNE (R301). -/
def weldAdd (code x y : Nat) : Nat :=
  ((sumFmt code).convert .rne Config.weldOvfInf (((sumFmt code).decode x).add ((sumFmt code).decode y))).1

/-- The elements of a byte list. -/
def elemsOf (size : Nat) (bs : List Byte) : List Nat :=
  (List.range (bs.length / size)).map (fun i => leNat ((bs.drop (size * i)).take size))

/-- Elements as bytes. -/
def bytesOf (size : Nat) (xs : List Nat) : List Byte := xs.flatMap (leBytes size)

/-- Every element of a byte list converted. -/
def convertAll (src dst : Nat) (bs : List Byte) : List Byte :=
  bytesOf (weldSize dst) ((elemsOf (weldSize src) bs).map (weldConvert src dst))

/-- Two byte lists added element by element, the left value first (R301). -/
def addAll (code : Nat) (l r : List Byte) : List Byte :=
  bytesOf (weldSize code) (List.zipWith (weldAdd code) (elemsOf (weldSize code) l) (elemsOf (weldSize code) r))

/-! Packets -/

/-- The die whose HBM or Hearth holds a byte: the combiner of a chunk (chapter 11; log entry 19). -/
def dieHolding (s : State) (a : Nat) : Nat :=
  match windowOf s (direct s a) with
  | .hearth d => d
  | _ => (hbmPlace s (direct s a)).1.1 / 2

/-- The WELD sub-header (Table 11.3). -/
def weldHead (kind tree level coll share offset crc step : Nat) : List Byte :=
  leBytes 4 (kind + tree * 2 ^ 4 + level * 2 ^ 8 + coll * 2 ^ 16) ++ leBytes 4 share ++ leBytes 8 offset ++ leBytes 8 crc
    ++ leBytes 8 step

/-- TREE, LEVEL, COLL, SHARE, OFFSET, DESC_CRC and STEP of a WELD packet (Table 11.3). -/
def wTree (p : Packet) : Nat := bits (fieldAt p.payload 0 4) 4 4
/-- LEVEL. -/
def wLevel (p : Packet) : Nat := bits (fieldAt p.payload 0 4) 8 4
/-- COLL. -/
def wColl (p : Packet) : Nat := fieldAt p.payload 2 2
/-- SHARE. -/
def wShare (p : Packet) : Nat := fieldAt p.payload 4 2
/-- OFFSET. -/
def wOffset (p : Packet) : Nat := fieldAt p.payload 8 5
/-- DESC_CRC. -/
def wCrc (p : Packet) : Nat := fieldAt p.payload 0x10 4
/-- STEP. -/
def wStep (p : Packet) : Nat := fieldAt p.payload 0x18 8
/-- The data after the sub-header. -/
def wData (p : Packet) : List Byte := p.payload.drop 32

/-- The (STEP, ATT) tag of a WELD packet that carries one (R308). -/
def wTag (p : Packet) : Option (Nat × Nat) := if p.stepTag then some (wStep p, p.att) else none

/-- A packet of a collective: a literal `data` or a source range in memory after its sub-header. -/
def collPkt (s : State) (id : Nat) (c : Coll) (kind level share offset addr : Nat) (data : List Byte)
    (src : Option (Nat × Nat)) : OutPkt :=
  { cls := .WELD, addr := addr, head := weldHead kind 0 level c.p.coll share offset c.crc s.tmp.step ++ data, src := src,
    owner := .weld id, stepTag := c.tag.isSome, abandoned := false }

/-- The Weld payload bytes of a packet. -/
def OutPkt.bytes (p : OutPkt) : Nat := p.head.length + (match p.src with | some r => r.2 | none => 0)

/-- A packet of collective `id` for a node leaves at once if its READY has arrived and waits for it if not (R306); chunk `k` is
carried by the engine of PD(k mod 2). -/
def sendWeld (s : State) (id node k : Nat) (p : OutPkt) : State :=
  match collOf s id with
  | some c =>
    if c.ready.contains node then queuePkt (s.inc R.WLD_TX_BYTES_TX_BYTES (k % 2) p.bytes) node p
    else s.setColl id { c with queued := c.queued ++ [(node, k, p)] }
  | none => s

/-! Chunks -/

/-- The chunks of a segment with at most `size` elements each (R307), as (number, first, end). -/
def cutSegment (lo hi size : Nat) : List (Nat × Nat × Nat) :=
  (List.range (ceilDiv (hi - lo) size)).map (fun k => (k, lo + k * size, min hi (lo + (k + 1) * size)))

/-- The reduce chunks of a share at this module, each with its own contribution in ACC_FMT (R301). -/
def reduceChunks (s : State) (p : WeldParams) (n rank r : Nat) : List Chunk :=
  let g := shareSeg p n r
  (cutSegment g.1 g.2 (4064 / weldSize p.accFmt)).map (fun k =>
    let own := (readAny s (p.src + (k.2.1 - p.base) * weldSize p.inFmt) ((k.2.2 - k.2.1) * weldSize p.inFmt)).1
    { reduce := true, share := r, idx := k.1, lo := k.2.1, hi := k.2.2, need := treeKids n r rank, got := [],
      val := convertAll p.inFmt p.accFmt own, done := false })

/-- The format that a gather moves: OUT_FMT for ALL_REDUCE, else IN_FMT. -/
def gatherFmt (p : WeldParams) : Nat := if p.op = 2 then p.outFmt else p.inFmt

/-- The gather chunks of a share at this module, with what each waits for. -/
def gatherChunks (p : WeldParams) (n r : Nat) (need : List (Nat × Nat)) (done : Bool) : List Chunk :=
  let g := shareSeg p n r
  (cutSegment g.1 g.2 (4064 / weldSize (gatherFmt p))).map (fun k =>
    { reduce := false, share := r, idx := k.1, lo := k.2.1, hi := k.2.2, need := need, got := [], val := [], done := done })

/-- What the gather of share `r` waits for at rank `m`: its parent's value; at the owner under BROADCAST, the root's SCATTER. -/
def gatherNeed (p : WeldParams) (n rank r : Nat) : List (Nat × Nat) :=
  if r = rank then (if p.op = 3 ∧ p.root ≠ rank then [(0, p.root)] else [])
  else match treeParent n r rank with
    | some e => [e]
    | none => []

/-- The chunks of a collective at its start. -/
def startChunks (s : State) (p : WeldParams) (n rank : Nat) : List Chunk :=
  let shares := List.range n
  let reds := if p.op = 0 ∨ p.op = 2 then shares.flatMap (reduceChunks s p n rank) else []
  let gats := if p.op = 0 ∨ p.op = 4 then []
    else (shares.filter (fun r => p.op != 2 || r != rank)).flatMap (fun r =>
      let need := gatherNeed p n rank r
      gatherChunks p n r need need.isEmpty)
  reds ++ gats

/-- Where element `e` of a gather stands at DST. -/
def gatherAddr (p : WeldParams) (e : Nat) : Nat := p.dst + (e - p.base) * weldSize (gatherFmt p)

/-- Chunk `x` of collective `id` replaced. -/
def setChunk (s : State) (id : Nat) (x : Chunk) : State :=
  match collOf s id with
  | some c =>
    s.setColl id { c with chunks := c.chunks.map (fun y => if y.reduce = x.reduce ∧ y.share = x.share ∧ y.lo = x.lo then x else y) }
  | none => s

/-- The data of a gather chunk goes down the tree: to the host of each left entry this module received from (R304). -/
def sendDown (s : State) (id : Nat) (c : Coll) (x : Chunk) : State :=
  let a := gatherAddr c.p x.lo
  (treeKids c.n x.share c.rank).foldl (fun s k =>
    sendWeld s id (nodeOfRank s k.2) x.idx
      (collPkt s id c 1 k.1 x.share (x.lo - c.p.base) a [] (some (direct s a, (x.hi - x.lo) * weldSize (gatherFmt c.p))))) s

/-- Bytes a collective writes at DST, counted at their combiner (R304, Table 11.7). -/
def weldWrite (s : State) (c : Coll) (a : Nat) (bs : List Byte) : State :=
  (writeAny s a bs).inc R.WLC_OUT_BYTES_OUT_BYTES c.die bs.length

/-- ALL_REDUCE: once every chunk of the own share is reduced, the results in DST go down the tree. -/
def gatherOwn (s : State) (id : Nat) : State :=
  match collOf s id with
  | some c =>
    let own := c.chunks.filter (fun y => y.share == c.rank)
    if c.p.op = 2 ∧ own.all (fun y => y.reduce && y.done) then
      let xs := gatherChunks c.p c.n c.rank [] true
      xs.foldl (fun s x => sendDown s id c x) (s.setColl id { c with chunks := c.chunks ++ xs })
    else s
  | none => s

/-- The values that have arrived are added in the order of the tree, the left value first: what is still needed, what is held, and
the value (R301). -/
def foldGot (acc : Nat) : List (Nat × Nat) → List (Nat × List Byte) → List Byte → List (Nat × Nat) × List Byte
  | [], _, v => ([], v)
  | (l, m) :: need, got, v =>
    match got.find? (fun g => g.1 == l) with
    | some g => foldGot acc need got (addAll acc g.2 v)
    | none => ((l, m) :: need, v)

/-- The value of a chunk that needs nothing more: sent to its parent, or at the owner converted and written (R301, R304). -/
def finishReduce (s : State) (id : Nat) (c : Coll) (x : Chunk) : State :=
  let s := setChunk s id { x with done := true }
  match treeParent c.n x.share c.rank with
  | some e =>
    let addr := c.p.src + (x.lo - c.p.base) * weldSize c.p.inFmt
    let s := s.inc R.WLC_OUT_BYTES_OUT_BYTES c.die x.val.length
    sendWeld s id (nodeOfRank s e.2) x.idx (collPkt s id c 0 e.1 x.share (x.lo - c.p.base) addr x.val none)
  | none =>
    let off := if c.p.op = 2 then x.lo - c.p.base else x.lo - shareLo c.p c.n c.rank
    gatherOwn (weldWrite s c (c.p.dst + off * weldSize c.p.outFmt) (convertAll c.p.accFmt c.p.outFmt x.val)) id

/-- A reduce chunk goes as far as the values that have arrived allow. -/
def advanceReduce (s : State) (id : Nat) (c : Coll) (x : Chunk) : State :=
  let r := foldGot c.p.accFmt x.need x.got x.val
  let added := (x.need.length - r.1.length) * (x.hi - x.lo)
  let s := s.inc R.WLC_ELEMS_ELEMS c.die added
  let y := { x with need := r.1, val := r.2 }
  if r.1.isEmpty then finishReduce s id c y else setChunk s id y

/-! Start and completion -/

/-- Every node that this module receives data of the collective from. -/
def dataPeers (s : State) (c : Coll) : List Nat := ((c.chunks.flatMap (fun x => x.need.map (·.2))).eraseDups).map (nodeOfRank s)

/-- READY goes to every peer from which data will come (R306). -/
def sendReady (s : State) (id : Nat) (c : Coll) : State :=
  (dataPeers s c).foldl (fun s node =>
    let p := collPkt s id c 7 0 0 0 0 [] none
    queuePkt (s.inc R.WLD_TX_BYTES_TX_BYTES 0 p.bytes) node p) s

/-- The first data of a collective: reduce chunks that wait for nothing, the own share of a gather, and the root's SCATTERs. -/
def firstData (s : State) (id : Nat) (c : Coll) : State :=
  let s := (c.chunks.filter (fun x => x.reduce && x.need.isEmpty)).foldl (fun s x => finishReduce s id c x) s
  let own := c.chunks.filter (fun x => !x.reduce && x.share == c.rank && x.need.isEmpty)
  let sz := weldSize c.p.inFmt
  let from' := fun (e : Nat) => if c.p.op = 3 then c.p.src + e * sz else c.p.src + (e - shareLo c.p c.n c.rank) * sz
  let s := own.foldl (fun s x =>
    let r := readAny s (from' x.lo) ((x.hi - x.lo) * sz)
    sendDown (weldWrite r.2 c (gatherAddr c.p x.lo) r.1) id c x) s
  if c.p.op = 3 ∧ c.p.root = c.rank then
    (c.chunks.filter (fun x => x.share != c.rank)).foldl (fun s x =>
      sendWeld s id (nodeOfRank s x.share) x.idx
        (collPkt s id c 2 0 x.share x.lo (gatherAddr c.p x.lo) []
          (some (direct s (c.p.src + x.lo * sz), (x.hi - x.lo) * sz)))) s
  else s

/-- MIRROR: the bytes of MS_INACT go to the buddy's MR_INACT at the same offset (R310). -/
def sendMirror (s : State) (id : Nat) (c : Coll) : State :=
  let o := c.p.src - msInact
  (cutSegment 0 c.p.count 4064).foldl (fun s k =>
    let p := collPkt s id c 3 0 0 (o + k.2.1) (aliasBase 5 + o + k.2.1) [] (some (direct s (c.p.src + k.2.1), k.2.2 - k.2.1))
    queuePkt (s.inc R.WLD_TX_BYTES_TX_BYTES (k.1 % 2) p.bytes) (s.rd R.TMP_BUDDY_BUDDY_NODE 0) p) s

/-- The READYs that arrived before the start are taken; one with another CRC fails the collective with MISMATCH (R299, R306). -/
def takeHeld (s : State) (id : Nat) (c : Coll) : State :=
  let mine := s.weld.held.filter (fun r => r.coll == c.p.coll && r.tag == c.tag)
  let s := { s with weld := { s.weld with held := s.weld.held.filter (fun r => !(r.coll == c.p.coll && r.tag == c.tag)) } }
  match mine.find? (fun r => r.crc != c.crc) with
  | some r => failColl s id 8 0 r.node
  | none => s.setColl id { c with ready := mine.map (·.node) }

/-- The collective of a flight begins: its block has passed every check (R297, R306). -/
def beginColl (s : State) (id : Nat) (f : Flight) (p : WeldParams) (pb : List Byte) : State :=
  let n := sliceSize s
  let rank := ownRank s
  let c : Coll :=
    { p := p, home := homeDie s f.ctx, die := dieHolding s p.src, ctx := f.ctx, n := n, rank := rank, crc := crc32c pb,
      tag := if f.tagged then some (f.step, f.att) else none, chunks := startChunks s p n rank, ready := [], queued := [],
      last := s.clock }
  let s := { s with weld :=
    { s.weld with
      colls := s.weld.colls ++ [(id, c)], waiting := s.weld.waiting.filter (· != id),
      failed := s.weld.failed.filter (fun x => x != (p.coll, c.tag)) } }
  if p.op = 4 then sendMirror s id c
  else
    let s := takeHeld (sendReady s id c) id c
    match collOf s id with
    | some c' => firstData s id c'
    | none => s

/-- The ranges of a collective that must be served for it to start: its block, SRC and DST. -/
def weldRanges (s : State) (pb : Nat) (p : WeldParams) : List (Nat × Nat) :=
  (pb, 64) :: (weldAccesses s p).map (fun a => (a.2.1, a.2.2))

/-- A collective that may start: its block is read once and checked (R297, R494); a Hearth that is halted, or a block table that is
being zeroed, makes it wait. -/
def startColl (s : State) (id : Nat) (f : Flight) : State :=
  let die := homeDie s f.ctx
  let pb := localise die f.record.pb
  if 16 ≤ s.weld.colls.length ∨ waitsHearth s pb 64 then s
  else match accessBlocked s pb 64 with
  | some d => endFlight (domainBlocked s d pb) id 7 1
  | none =>
    let bs := s.load pb 64
    let p := weldParams die bs
    let code := weldCheck s f.ctx p
    if pbReserved weldPbFields bs then endFlight s id 0 2
    else if code ≠ 0 then
      let bad := if code = 4 then (weldAccesses s p).find? (fun a => !accessOk s (reqOf s f.ctx) a.1 a.2.1 a.2.2) else none
      let s := match bad with
        | some a => refuseEffects s (reqOf s f.ctx) a.1 f.ctx a.2.1 a.2.2
        | none => s
      endFlight s id 5 code
    else
      let rs := weldRanges s pb p
      match rs.findSome? (fun a => (accessBlocked s a.1 a.2).map (·, a.1)) with
      | some (d, a) => endFlight (domainBlocked s d a) id 7 1
      | none =>
        if rs.any (fun a => waitsHearth s a.1 a.2 || waitsTouch s a.1 a.2) then s
        else beginColl s id f p bs

/-- WELD (R297, R494): the record itself is checked, then it goes into flight and starts unless it must wait. -/
def weldRec (s : State) (c : Nat) (r : Rec) : State :=
  let die := homeDie s c
  let pb := localise die r.pb
  if pb % 64 ≠ 0 ∨ !inHearth die pb 64 then cmdError s c r 5 4
  else if !accessOk s (reqOf s c) false pb 64 then refuseAccess s c r (false, pb, 64)
  else
    let l := launch s c r .coll 1 0 0 0 false
    let s := { l.2 with weld := { l.2.weld with waiting := l.2.weld.waiting ++ [l.1] } }
    let t := match flightOf s l.1 with | some f => startColl s l.1 f | none => s
    if (flightOf t l.1).isSome then releaseCur t c else t

/-- OP of the block that a record names, read ahead to tell the rows of R304 apart; 5 where the block is not in its place. -/
def weldOp (s : State) (c : Nat) (r : Rec) : Nat :=
  let die := homeDie s c
  let pb := localise die r.pb
  if pb % 64 ≠ 0 ∨ !inHearth die pb 64 then 5 else bits (leNat (s.load pb 4)) 0 3

/-- A WELD record of operation `op`; one whose OP names none, or whose block is misplaced, is refused by every row. -/
def onWeld (s : State) (c op : Nat) : Outcome :=
  onRec s c 0x30 (fun r => if weldOp s c r = op ∨ 4 < weldOp s c r then weldRec s c r else s)

/-- REDUCE_SCATTER (R304). -/
def execReduceScatter (ctx : Nat) (s : State) : Outcome := onWeld s ctx 0
/-- ALL_GATHER (R304). -/
def execAllGather (ctx : Nat) (s : State) : Outcome := onWeld s ctx 1
/-- ALL_REDUCE (R304). -/
def execAllReduce (ctx : Nat) (s : State) : Outcome := onWeld s ctx 2
/-- BROADCAST (R304). -/
def execBroadcast (ctx : Nat) (s : State) : Outcome := onWeld s ctx 3
/-- MIRROR (R310). -/
def execMirror (ctx : Nat) (s : State) : Outcome := onWeld s ctx 4

/-- COLL_START (R297): a collective that waits starts once fewer than 16 are in flight. -/
def execCollStart (id : Nat) (s : State) : Outcome :=
  live s (match flightOf s id with
    | some f => if s.weld.waiting.contains id && !f.abandoned then startColl s id f else s
    | none => s)

/-- Whether a packet of collective `id` is still to be injected or acknowledged. -/
def weldPending (s : State) (id : Nat) : Bool :=
  hasPackets s id || s.xp.flows.any (fun e => e.2.waiting.any (fun p => p.owner == .weld id))
    || s.xp.needPeers.any (fun e => e.2.owner == .weld id)

/-- COLL_COMPLETE (R305): every value is written and every packet acknowledged. -/
def endColl (s : State) (id : Nat) : State :=
  match collOf s id, flightOf s id with
  | some c, some f =>
    if c.queued.isEmpty && c.chunks.all (·.done) && !weldPending s id then
      completeFlight ((dropColl s id).inc R.WLD_DONE_DONE 0 1) id f
    else s
  | _, _ => s

/-- COLL_COMPLETE (R305). -/
def execCollComplete (id : Nat) (s : State) : Outcome := live s (endColl s id)

/-- STALL (R309): no data and no completed chunk for STALL_MS while a peer's data or READY is awaited. -/
def stallColl (s : State) (id : Nat) : State :=
  match collOf s id with
  | some c =>
    let waits := !c.queued.isEmpty || c.chunks.any (fun x => !x.done)
    if waits ∧ c.last + max 1 (s.rd R.WLD_CFG_STALL_MS 0) * 1000000 ≤ s.clock then
      let peer := match c.queued, c.chunks.find? (fun x => !x.done) with
        | q :: _, _ => q.1
        | [], some x => (match x.need with | e :: _ => nodeOfRank s e.2 | [] => 0)
        | [], none => 0
      failColl s id 9 0 peer
    else s
  | none => s

/-- STALL (R309). -/
def execStall (id : Nat) (s : State) : Outcome := live s (stallColl s id)

/-! Reception (R306 to R311) -/

/-- What the comparison of R308 makes of a WELD packet received on flow `f`: it passes, is refused with BUSY, or is dropped. -/
def weldTag (s : State) (f : Nat) (p : Packet) (pass : State → State × Verdict) : State × Verdict :=
  match wTag p with
  | none => pass s
  | some t =>
    match tagOrder s t.1 t.2 with
    | .equal => pass s
    | .successor => (s, .nak 4)
    | .other => (raise (s.inc R.WLD_STALE_STALE (flowDie f) 1) .WLD (flowDie f) 5, .drop)

/-- A WELD packet of one KIND arrives: compared by its tag and delivered; its accepted payload is counted. -/
def receiveWeld (s : State) (plane kind : Nat) (p : Packet) (deliver : Delivery) : State :=
  if weldKind p.payload = kind then
    receiveSeq s plane .WELD p (fun s f p =>
      let r := weldTag s f p (fun s => deliver s f p)
      (if r.2 = .done then r.1.inc R.WLD_RX_BYTES_RX_BYTES (flowDie f) p.payload.length else r.1, r.2))
  else s

/-- The collective in flight that a packet is for, by COLL and tag. -/
def collFor (s : State) (p : Packet) : Option (Nat × Coll) :=
  s.weld.colls.find? (fun e => e.2.p.coll == wColl p && e.2.tag == wTag p)

/-- A packet for a collective in flight, whose DESC_CRC must be that of its block (R299); for any other it is dropped. -/
def onColl (s : State) (p : Packet) (act : Nat → Coll → State × Verdict) : State × Verdict :=
  match collFor s p with
  | some (id, c) => if wCrc p ≠ c.crc then (failColl s id 8 p.addr p.src, .drop) else act id c
  | none => (s, .drop)

/-- Packets that waited for the READY of a node leave (R306). -/
def releaseQueued (s : State) (id node : Nat) : State :=
  match collOf s id with
  | some c =>
    let mine := c.queued.filter (fun q => q.1 == node)
    let s := s.setColl id { c with ready := node :: c.ready, queued := c.queued.filter (fun q => q.1 != node), last := s.clock }
    -- the cycles for which data waited, whose number the spec does not give (log entry 4)
    let s := if mine.isEmpty then s else (s.fresh.2).inc R.WLD_READY_WAIT_READY_WAIT 0 s.fresh.1
    mine.foldl (fun s q => sendWeld s id node q.2.1 q.2.2) s
  | none => s

/-- READY (R306): taken by the collective it names, held for one that has not started, or refused with BUSY. -/
def deliverReady : Delivery := fun s f p =>
  match collFor s p with
  | some (id, c) =>
    if wCrc p ≠ c.crc then (failColl s id 8 0 p.src, .drop) else (releaseQueued s id p.src, .done)
  | none =>
    let d := flowDie f
    if s.weld.failed.contains (wColl p, wTag p) then (s, .drop)
    else if 1024 ≤ (s.weld.held.filter (fun r => r.die == d)).length then (raise s .WLD d 9, .nak 4)
    else
      let r : ReadyMsg := { node := p.src, coll := wColl p, tag := wTag p, crc := wCrc p, die := d }
      ({ s with weld := { s.weld with held := s.weld.held ++ [r] } }, .done)

/-- READY (R306). -/
def execReady (plane : Nat) (p : Packet) (s : State) : Outcome := onUnit s plane 32 (receiveWeld s plane 7 p deliverReady)

/-- A parity error of a combiner (R321): counted, logged, a step fault, and the die's health input. -/
def combParity (s : State) (die : Nat) : State :=
  let s := raise (s.inc R.WLC_PARITY_PARITY die 1) .WLC die 4
  let s := logErr s .WLC die 1 (stepClass s .INFO) die 0 [0, 0, 0]
  parityEvent (stepFault s .uncorrectable) (dieId die) (typeCode .WLC) 1

/-- The chunk of a collective that a packet feeds: of its SHARE at its OFFSET, waiting for its LEVEL from its sender. -/
def chunkFor (s : State) (c : Coll) (reduce : Bool) (p : Packet) : Option Chunk :=
  c.chunks.find? (fun x => x.reduce == reduce && !x.done && x.share == wShare p && x.lo == c.p.base + wOffset p
    && x.need.any (fun e => e.1 == wLevel p && nodeOfRank s e.2 == p.src)
    && (wData p).length == (x.hi - x.lo) * weldSize (if reduce then c.p.accFmt else gatherFmt c.p))

/-- PARTIAL (R301): the left value of a pair is added to this host's entry. -/
def deliverPartial (par : Bool) : Delivery := fun s _ p =>
  onColl s p (fun id c =>
    match chunkFor s c true p with
    | some x =>
      let s := s.inc R.WLC_IN_BYTES_IN_BYTES c.die (wData p).length
      let s := if par then combParity s c.die else s
      let c := { c with last := s.clock }
      (advanceReduce (s.setColl id c) id c { x with got := x.got ++ [(wLevel p, wData p)] }, .done)
    | none => (s, .drop))

/-- PARTIAL (R301). -/
def execPartialSum (plane : Nat) (p : Packet) (par : Bool) (s : State) : Outcome :=
  onUnit s plane 32 (receiveWeld s plane 0 p (deliverPartial par))

/-- GATHER or SCATTER data (R304): written at DST and sent down the tree; unanswered where DST cannot be written now. -/
def deliverGather : Delivery := fun s _ p =>
  onColl s p (fun id c =>
    match chunkFor s c false p with
    | some x =>
      let a := gatherAddr c.p x.lo
      let n := (wData p).length
      if (accessBlocked s a n).isSome || waitsHearth s a n || waitsTouch s a n then (s, .lost)
      else
        let s := s.inc R.WLC_IN_BYTES_IN_BYTES c.die n
        let c := { c with last := s.clock }
        let y := { x with need := [], done := true }
        (sendDown (setChunk (weldWrite (s.setColl id c) c a (wData p)) id y) id c y, .done)
    | none => (s, .drop))

/-- WELD_GATHER (R304). -/
def execWeldGather (plane : Nat) (p : Packet) (s : State) : Outcome := onUnit s plane 32 (receiveWeld s plane 1 p deliverGather)

/-- SCATTER (R304): the root's share for this rank. -/
def execScatter (plane : Nat) (p : Packet) (s : State) : Outcome := onUnit s plane 32 (receiveWeld s plane 2 p deliverGather)

/-- MIRROR data is written into MR_INACT, resolved at acceptance (R165, R310); beyond the region it is refused (R163). -/
def deliverMirror : Delivery := fun s _ p => writeFor s (.fabric p.src) 0x3F { p with addr := aliasBase 5 + wOffset p, payload := wData p }

/-- WELD_MIRROR (R310). -/
def execWeldMirror (plane : Nat) (p : Packet) (s : State) : Outcome := onUnit s plane 32 (receiveWeld s plane 3 p deliverMirror)

/-- Whether the ward-hold image is whole: every byte up to its length has been delivered (R311, Table 8.8). -/
def wardWhole (w : Weld) : Bool :=
  match w.wardLen with
  | some n => w.ward.any (fun r => r.1 == 0 && n ≤ r.2)
  | none => false

/-- HOLD data from the ward is written into WARD_HOLD; the whole image sets WARD_HOLD_VALID (R311). -/
def deliverHold : Delivery := fun s _ p =>
  let o := wOffset p
  let bs := wData p
  let a := s.map.wardHold + o
  if p.src ≠ s.rd R.TMP_BUDDY_WARD_NODE 0 ∨ s.map.holdSize < o + bs.length then (s, .nak 1)
  else if (accessBlocked s a bs.length).isSome then (s, .lost)
  else
    let w := s.weld
    -- an image of another step, or one that was released or lost after it was whole, begins anew
    let w := if w.wardStep ≠ wStep p ∨ (!s.tmp.wardHoldValid && wardWhole w) then { w with wardStep := wStep p, ward := [], wardLen := none } else w
    let w := { w with
      ward := addRange w.ward o (o + bs.length)
      wardLen := if o = 0 ∧ 0x1C ≤ bs.length then some (256 + fieldAt bs 0x18 4) else w.wardLen }
    let s := countBytes ({ s with weld := w }.store a bs) true a bs.length
    ({ s with tmp := { s.tmp with wardHoldValid := wardWhole w } }, .done)

/-- WELD_HOLD (R311). -/
def execWeldHold (plane : Nat) (p : Packet) (s : State) : Outcome := onUnit s plane 32 (receiveWeld s plane 4 p deliverHold)

end Sys2Proof.Machine
end

