-- ==== Sys2Proof/Machine/Tongs.lean ====
section
/-! DEFINITION. The Tongs family (chapter 12): sequence slots, layer records, offloads, fetches and destinations. -/

namespace Sys2Proof.Machine

open Sys2Proof

/-! Parameter block and checks (R326, R332, R337) -/

/-- The fields of a TONGS parameter block (Table 12.3). -/
structure TongsParams where
  op : Nat
  slot : Nat
  layer : Nat
  dest : Nat
  below : Nat
  ahead : Nat
  home : Nat
  ret : Nat
  len : Nat
  off : Nat
  outVid : Nat
  inVid : Nat
  deriving DecidableEq, Repr

/-- The bits of a TONGS parameter block that Table 12.3 gives a meaning. -/
def tongsPbFields : List (Nat × Nat × Nat) :=
  [(0, 0, 3), (0, 8, 5), (0, 16, 7), (0, 24, 3), (4, 0, 8), (4, 8, 7), (8, 0, 48), (0x10, 0, 48), (0x18, 0, 40), (0x20, 0, 48),
    (0x28, 0, 20), (0x2C, 0, 20)]

/-- The fields of a block. -/
def tongsParams (die : Nat) (pb : List Byte) : TongsParams :=
  let w := fieldAt pb 0 4
  let v := fieldAt pb 4 4
  { op := bits w 0 3, slot := bits w 8 5, layer := bits w 16 7, dest := bits w 24 3, below := bits v 0 8, ahead := bits v 8 7,
    home := localise die (fieldAt pb 8 6), ret := localise die (fieldAt pb 0x10 6), len := fieldAt pb 0x18 5,
    off := fieldAt pb 0x20 6, outVid := bits (fieldAt pb 0x28 4) 0 20, inVid := bits (fieldAt pb 0x2C 4) 0 20 }

/-- Whether destination `d` is in force. -/
def destInForce (s : State) (d : Nat) : Bool := s.on (R.TNG_DEST_VALID d) 0

/-- Whether destination `d` is DOWN. -/
def destIsDown (s : State) (d : Nat) : Bool := bitOf (s.rd R.TNG_DEST_STS_DOWN 0) d

/-- The destination a PUT takes and whether it is the alternate (R332). -/
def destTaken (s : State) (d : Nat) : Option (Nat × Bool) :=
  if !destIsDown s d then some (d, false)
  else
    let a := s.rd (R.TNG_DEST_ALT d) 0
    if s.on (R.TNG_DEST_HAS_ALT d) 0 && destInForce s a && !destIsDown s a then some (a, true) else none

/-- Whether a PUT of a slot needs an offload (R327). -/
def needsOffload (x : SeqSlot) (layer : Nat) : Bool := decide (layer < x.below)

/-- The ranges that R329 protects: HOME of RESIDENT and OUT records, RETURN of IN and BACK records. -/
def protectedRanges (s : State) : List (Nat × Nat) :=
  (openRecs s).filterMap (fun r =>
    match r.st with
    | .resident | .out => some (r.home, r.len)
    | .in' | .back => some (r.ret, r.len)
    | _ => none)

/-- Whether a range lies in PKG or one DLn. -/
def inHbmWindow (s : State) (a n : Nat) : Bool :=
  windowOf s a == .hbm && windowOf s (a + n - 1) == .hbm && (a < dlBase 0) == (a + n - 1 < dlBase 0)

/-- STATE of Table 12.8. -/
def stateBad (x : SeqSlot) (p : TongsParams) : Bool :=
  let st := (x.rec' p.layer).st
  match p.op with
  | 2 => st != .resident && st != .back
  | 3 => st != .away
  | 4 => x.recs.any (fun e => e.2.st != .empty)
  | _ => false

/-- The checks of Table 12.8 in its order; 0 for none. -/
def tongsCheck (s : State) (c : Nat) (p : TongsParams) : Nat :=
  let x := slotAt s p.slot
  let owned := match x with | some y => y.owner == c | none => false
  let slot : SeqSlot := x.getD { owner := c, below := 0, ahead := 0, outVid := 0, inVid := 0, offloads := [], eligible := [], out' := none,
                                 in' := none, recs := [] }
  let put := p.op == 1
  let off := put && needsOffload slot p.layer
  let above := match destTaken s p.dest with | some t => decide (s.rd (R.TNG_DEST_SIZE t.1) 0 < p.off + p.len) | none => false
  let errs : List (Bool × Nat) :=
    [ (4 < p.op, 1), (!isStepCtx s c || s.tmp.phase != .run, 2), (if p.op == 0 then x.isSome else !owned, 3),
      (put && (slot.rec' p.layer).st != .empty, 4), (stateBad slot p, 5),
      (put && (protectedRanges s).any (overlap (p.home, p.len)), 6),
      (put && (p.len == 0 || p.len % 64 != 0 || !inHbmWindow s p.home p.len || !inHbmWindow s p.ret p.len
        || (off && destInForce s p.dest && above)), 7),
      (off && destInForce s p.dest && (destTaken s p.dest).isNone, 8),
      (p.op == 0 && ((boundTo s c p.outVid).isNone || (boundTo s c p.inVid).isNone), 9),
      ((off && !destInForce s p.dest) || (p.op == 0 && !s.algSet), 0xA) ]
  match errs.find? (fun e => e.1) with
  | some e => e.2
  | none => 0

/-- A TONGS record is refused (R326, R337): event, ALG log entry and command error. -/
def refuseTongs (s : State) (c : Nat) (r : Rec) (p : TongsParams) (code : Nat) : State :=
  let s := logErr (raise s .ALG 0 4) .ALG 0 code .COMMAND (p.slot * 256 + p.layer) p.home [c, p.dest, 0]
  cmdError s c r 6 code

/-- The parameters named where the block is not in its place. -/
def TongsParams.none : TongsParams := tongsParams 0 []

/-! Operations (R327) -/

/-- OPEN: the slot is open and owned by the context, its records EMPTY. -/
def openSlot (s : State) (c : Nat) (p : TongsParams) : State :=
  let x : SeqSlot :=
    { owner := c, below := p.below, ahead := p.ahead, outVid := p.outVid, inVid := p.inVid, offloads := [], eligible := [],
      out' := none, in' := none, recs := [] }
  ({ s with slots := s.slots ++ [(p.slot, x)] }).store (recordAt s p.slot 0) (List.replicate 0x2000 0)

/-- PUT: the record is RESIDENT; below OFFLOAD_BELOW its offload is queued, to ALT where DEST is DOWN. -/
def putLayer (s : State) (p : TongsParams) (x : SeqSlot) : State :=
  let t := (destTaken s p.dest).getD (p.dest, false)
  let off := needsOffload x p.layer
  let r : LayerRec :=
    { st := .resident, dest := if off then t.1 else p.dest, usedAlt := off && t.2, home := p.home, ret := p.ret, len := p.len,
      off := p.off }
  let s := setRec s p.slot p.layer r
  if off then
    let y := (slotAt s p.slot).getD x
    let s := s.setSlot p.slot { y with offloads := y.offloads ++ [p.layer] }
    if t.2 then raise (s.inc R.TNG_ALT_USED_ALT_USED 0 1) .TNG 0 6 else s
  else s

/-- RELEASE: the record is EMPTY; AWAY records within AHEAD of it become eligible for a fetch (R329). -/
def releaseLayer (s : State) (p : TongsParams) (x : SeqSlot) : State :=
  let s := setRec s p.slot p.layer LayerRec.none
  let more := (x.recs.filter (fun e => e.2.st == .away && decide (p.layer ≤ e.1 + x.ahead) && !x.eligible.contains e.1)).map (·.1)
  let y := (slotAt s p.slot).getD x
  s.setSlot p.slot { y with eligible := y.eligible ++ more, offloads := y.offloads.filter (· != p.layer) }

/-- FETCH: the record's fetch is eligible at once. -/
def fetchLayer (s : State) (p : TongsParams) (x : SeqSlot) : State :=
  s.setSlot p.slot { x with eligible := if x.eligible.contains p.layer then x.eligible else x.eligible ++ [p.layer] }

/-- CLOSE: the slot is closed. -/
def closeSlot (s : State) (p : TongsParams) : State := { s with slots := s.slots.filter (fun e => e.1 != p.slot) }

/-- The effect of a TONGS record whose checks have passed. -/
def tongsAct (s : State) (c : Nat) (p : TongsParams) : State :=
  match p.op, slotAt s p.slot with
  | 0, _ => openSlot s c p
  | 1, some x => putLayer s p x
  | 2, some x => releaseLayer s p x
  | 3, some x => fetchLayer s p x
  | _, _ => closeSlot s p

/-- The accesses of a TONGS record beside its block: HOME is read, RETURN written (R167). -/
def tongsRefused (s : State) (c : Nat) (p : TongsParams) : Option (Bool × Nat × Nat) :=
  if p.op = 1 then
    [(false, p.home, p.len), (true, p.ret, p.len)].find? (fun a => !accessOk s (reqOf s c) a.1 a.2.1 a.2.2)
  else none

/-- TONGS (R326, R494): the block is read once and checked; each operation completes on issue. -/
def tongsRec (s : State) (c : Nat) (r : Rec) : State :=
  let die := homeDie s c
  let pb := localise die r.pb
  if pb % 64 ≠ 0 ∨ !inHearth die pb 64 then refuseTongs s c r TongsParams.none 7
  else if !accessOk s (reqOf s c) false pb 64 then refuseAccess s c r (false, pb, 64)
  else match unservable s c r [(pb, 64)] with
  | some t => t
  | none =>
    let bs := s.load pb 64
    let p := tongsParams die bs
    if pbReserved tongsPbFields bs then cmdError s c r 0 2
    else if tongsCheck s c p ≠ 0 then refuseTongs s c r p (tongsCheck s c p)
    else match tongsRefused s c p with
    | some a => refuseAccess s c r a
    | none => finishCur (tongsAct s c p) c r

/-- OP of the block that a record names, read ahead to tell the rows apart; 5 where the block is not in its place. -/
def tongsOp (s : State) (c : Nat) (r : Rec) : Nat :=
  let die := homeDie s c
  let pb := localise die r.pb
  if pb % 64 ≠ 0 ∨ !inHearth die pb 64 then 5 else bits (leNat (s.load pb 4)) 0 3

/-- A TONGS record of operation `op`; one whose OP names none, or whose block is misplaced, is refused by every row. -/
def onTongs (s : State) (c op : Nat) : Outcome :=
  onRec s c 0x38 (fun r => if tongsOp s c r = op ∨ 4 < tongsOp s c r then tongsRec s c r else s)

/-- TONGS_OPEN (R327). -/
def execTongsOpen (ctx : Nat) (s : State) : Outcome := onTongs s ctx 0
/-- PUT (R327). -/
def execPut (ctx : Nat) (s : State) : Outcome := onTongs s ctx 1
/-- RELEASE (R327). -/
def execRelease (ctx : Nat) (s : State) : Outcome := onTongs s ctx 2
/-- FETCH (R327). -/
def execFetch (ctx : Nat) (s : State) : Outcome := onTongs s ctx 3
/-- TONGS_CLOSE (R327). -/
def execTongsClose (ctx : Nat) (s : State) : Outcome := onTongs s ctx 4

/-! Transfers (R328, R329, R331) -/

/-- The transfers of Tongs in flight. -/
def movesInFlight (s : State) : Nat := (s.slots.map (fun e => b2n e.2.out'.isSome + b2n e.2.in'.isSome)).sum

/-- Whether a destination is a lender (else a host range). -/
def isLend (s : State) (d : Nat) : Bool := s.on (R.TNG_DEST_KIND d) 0

/-- The address of a record's data at its destination. -/
def destAddr (s : State) (r : LayerRec) : Nat := s.rd (R.TNG_DEST_BASE r.dest) 0 + r.off

/-- OFFLOAD_START (R328): the first queued offload of the slot starts; its packets go to a lender. -/
def offloadStart (s : State) (n : Nat) : State :=
  match slotAt s n with
  | some x =>
    (match x.offloads, x.out' with
     | l :: rest, none =>
       let r := x.rec' l
       if 8 ≤ movesInFlight s ∨ destIsDown s r.dest then s
       else
         let lend := isLend s r.dest
         let s := s.setSlot n { x with offloads := rest, out' := some ⟨l, r.dest, if lend then (chunks r.len).length else 0⟩ }
         let s := setRec s n l { r with st := .out }
         if lend then
           queueAll s (s.rd (R.TNG_DEST_NODE r.dest) 0) (writePkts r.home (destAddr s r) r.len (.tongs n x.owner false) true)
         else s
     | _, _ => s)
  | none => s

/-- OFFLOAD_START (R328). -/
def execOffloadStart (slot : Nat) (s : State) : Outcome := onUnit s slot 32 (offloadStart s slot)

/-- A context's counter by its VID has 1 added. -/
def addVid (s : State) (c vid : Nat) : State :=
  match boundTo s c vid with
  | some k => counterOp s k 0 1
  | none => s

/-- A host transfer of Tongs fails: the host error is recorded and its destination goes DOWN (R333, R435). -/
def hostMoveFails (s : State) (d addr code : Nat) : State := destDown (hostFault s 8 addr code) d

/-- OFFLOAD_DONE (R328): the last byte is acknowledged: the record is AWAY and OUT_VID's counter has 1 added. -/
def offloadDone (s : State) (n : Nat) : State :=
  match slotAt s n with
  | some x =>
    (match x.out' with
     | some m =>
       let r := x.rec' m.layer
       if m.left ≠ 0 ∨ (accessBlocked s r.home r.len).isSome then s
       else if !isLend s m.dest ∧ !hostUsable s then hostMoveFails s m.dest (destAddr s r) 5
       else
         let s := if isLend s m.dest then s else
           let d := readAny s r.home r.len
           writeAny d.2 (destAddr s r) d.1
         let s := (s.setSlot n { x with out' := none }).inc R.TNG_OUT_BYTES_OUT_BYTES 0 r.len
         addVid (setRec s n m.layer { r with st := .away }) x.owner x.outVid
     | none => s)
  | none => s

/-- OFFLOAD_DONE (R328). -/
def execOffloadDone (slot : Nat) (s : State) : Outcome := onUnit s slot 32 (offloadDone s slot)

/-- FETCH_START (R329): the highest eligible fetch starts once its RETURN range meets no protected one; while it waits, the cycles,
whose number the spec does not give, are counted. -/
def fetchStart (s : State) (n : Nat) : State :=
  match slotAt s n with
  | some x =>
    (match x.eligible, x.in' with
     | e :: es, none =>
       let l := es.foldl max e
       let r := x.rec' l
       if 8 ≤ movesInFlight s then s
       else if (protectedRanges s).any (overlap (r.ret, r.len)) then
         raise ((s.fresh.2).inc R.TNG_FETCH_BLOCKED_FETCH_BLOCKED 0 s.fresh.1) .TNG 0 7
       else
         let lend := isLend s r.dest
         let s := s.setSlot n { x with
           eligible := x.eligible.filter (· != l), in' := some ⟨l, r.dest, if lend then (chunks r.len).length else 0⟩ }
         let s := setRec s n l { r with st := .in' }
         if lend then
           queueAll s (s.rd (R.TNG_DEST_NODE r.dest) 0) (readPkts (destAddr s r) r.ret r.len (.tongs n x.owner true) true)
         else s
     | _, _ => s)
  | none => s

/-- FETCH_START (R329). -/
def execFetchStart (slot : Nat) (s : State) : Outcome := onUnit s slot 32 (fetchStart s slot)

/-- FETCH_DONE (R329): the data is visible: the record is BACK and IN_VID's counter has 1 added. -/
def fetchDone (s : State) (n : Nat) : State :=
  match slotAt s n with
  | some x =>
    (match x.in' with
     | some m =>
       let r := x.rec' m.layer
       if m.left ≠ 0 ∨ (accessBlocked s r.ret r.len).isSome then s
       else if !isLend s m.dest ∧ !hostUsable s then hostMoveFails s m.dest (destAddr s r) 5
       else
         let s := if isLend s m.dest then s else
           let d := readAny s (destAddr s r) r.len
           writeAny d.2 r.ret d.1
         let s := (s.setSlot n { x with in' := none }).inc R.TNG_IN_BYTES_IN_BYTES 0 r.len
         addVid (setRec s n m.layer { r with st := .back }) x.owner x.inVid
     | none => s)
  | none => s

/-- FETCH_DONE (R329). -/
def execFetchDone (slot : Nat) (s : State) : Outcome := onUnit s slot 32 (fetchDone s slot)

/-! Destinations (R333) -/

/-- FORCE_DOWN (R333): the destinations of the mask go DOWN. -/
def execForceDown (mask : Nat) (s : State) : Outcome :=
  live s ((List.range 8).foldl (fun s d => if bitOf mask d then destDown s d else s) s)

/-- CLEAR_DOWN (R333): the DOWN bits of the mask are cleared. -/
def execClearDown (mask : Nat) (s : State) : Outcome :=
  live s (s.wr R.TNG_DEST_STS_DOWN 0 (s.rd R.TNG_DEST_STS_DOWN 0 - (s.rd R.TNG_DEST_STS_DOWN 0 &&& mask % 256)))

/-- Whether an owner is a Tongs transfer. -/
def Owner.isTongs : Owner → Bool
  | .tongs _ _ _ => true
  | _ => false

/-- Every slot is closed, as at a flip and a discard: its transfers are abandoned (R323). -/
def closeSlots (s : State) : State := abandonPackets { s with slots := [] } Owner.isTongs

/-- Whether Tongs has a transfer of the attempt to complete: in flight, or queued and sure to start (R24, R323). -/
def tongsActive (s : State) : Bool :=
  s.slots.any (fun e => e.2.out'.isSome || e.2.in'.isSome || !e.2.offloads.isEmpty || !e.2.eligible.isEmpty)

/-- The host transfers of Tongs in flight fail (R434, R435). -/
def failHostMoves (s : State) (code : Nat) : State :=
  s.slots.foldl (fun s e =>
    let hit := fun (m : Option Move) => match m with | some v => !isLend s v.dest | none => false
    let s := match e.2.out' with | some m => if hit (some m) then hostMoveFails s m.dest 0 code else s | none => s
    match e.2.in' with | some m => if hit (some m) then hostMoveFails s m.dest 0 code else s | none => s) s

end Sys2Proof.Machine
end

