-- ==== Sys2Proof/Machine/Abandon.lean ====
section
/-! DEFINITION. Work that is abandoned at a discard or a reset (R94, R151, R224, R229, R314), and the reset and teardown of
contexts. -/

namespace Sys2Proof.Machine

open Sys2Proof

/-- The records in flight under `ids` are abandoned: their tiles, blocks, gathers and collectives stop, and no new packet of them is
injected; `log` as at a CTX reset, where Anvils and Swages report what they drop (R94, R151). -/
def abandonWork (s : State) (ids : List Nat) (log : Bool) : State :=
  let s := abandonSwages (abandonAnvils s ids log) ids log
  let s := { s with
    gathers := s.gathers.filter (fun e => !ids.contains e.1)
    weld := { s.weld with
      colls := s.weld.colls.filter (fun e => !ids.contains e.1), waiting := s.weld.waiting.filter (fun i => !ids.contains i) } }
  abandonFlights s ids

/-- The Tongs transfers of the slots that a context owns are abandoned (R229). -/
def abandonSlots (s : State) (c : Nat) : State :=
  let stop := fun (x : SeqSlot) => if x.owner = c then { x with offloads := [], eligible := [], out' := none, in' := none } else x
  abandonPackets { s with slots := s.slots.map (fun e => (e.1, stop e.2)) }
    (fun o => match o with | .tongs _ d _ => d == c | _ => false)

/-- Whether a context executes a HOLD that waits. -/
def holding (x : Ctx) : Bool := match x.cur with | some r => r.opcode == 0x50 | none => false

/-- A ward-hold write under way is abandoned. -/
def abandonHoldWrite (s : State) : State :=
  abandonPackets { s with attempt := { s.attempt with holdWriting := false } } (· == .holdWrite)

/-- Steps 1 to 3 of Table 8.9 (R229, R232): the context enters QUARANTINE with an empty queue, its work is abandoned, its
counters are BROKEN and its subscription is cancelled. A DESTROY of a context whose RESET is under way ends in FREE. -/
def resetCtx (s : State) (c : Nat) (destroy : Bool) : State :=
  let x := ctxOf s c
  match x.state with
  | .free => s
  | .quarantine => if destroy then s.setCtx c { x with destroying := true } else s
  | _ =>
    let s := cancelSub s c
    let ids := flightsOf s c
    let s := s.setCtx c { Ctx.freed with state := .quarantine, qpos := x.qpos, since := s.clock, destroying := destroy }
    let s := abandonSlots (abandonWork (clearErr s c) ids true) c
    let s := abandonPackets (if holding x then abandonHoldWrite s else s) (fun o => o == .ctx c)
    let s := breakOwned s c
    if isStepCtx s c ∧ stepUnderWay s then
      sendStopBurst { s with attempt := { s.attempt with ctxLost := true } } .stopReceived
    else s

/-- CTX_RESET (R229). -/
def execCtxReset (ctx : Nat) (s : State) : Outcome := onUnit s ctx 64 (resetCtx s ctx false)

/-- DESTROY (R229). -/
def execDestroy (ctx : Nat) (s : State) : Outcome := onUnit s ctx 64 (resetCtx s ctx true)

/-- Whether a packet of context `c` is injected and not yet acknowledged. -/
def ctxDraining (s : State) (c : Nat) : Bool :=
  s.flights.any (fun e => e.2.ctx == c) || s.xp.flows.any (fun e => e.2.unacked.any (fun u => u.pkt.owner == .ctx c))

/-- CTX_CFG of a context returns to its reset values (R229). -/
def resetCfg (s : State) (c : Nat) : State :=
  [R.CTX_CFG_DIE, R.CTX_CFG_PRIORITY, R.CTX_CFG_STEP_ROLE].foldl (fun s f =>
    { (s.wr f c f.reset) with shadow := Store.set s.shadow (f.key c) f.reset }) s

/-- Step 5 of Table 8.9: the context leaves QUARANTINE. -/
def endQuarantine (s : State) (c : Nat) : State :=
  let s := prune s
  let x := ctxOf s c
  if x.state ≠ .quarantine ∨ ctxDraining s c then s
  else if x.destroying then
    let s := resetCfg (s.setCtx c Ctx.freed) c
    let s := { s with syn := { s.syn with bindings := s.syn.bindings.filter (fun b => b.1.1 != c) } }
    raise s .CTX c 7
  else raise (s.setCtx c { x with state := .idle, since := s.clock }) .CTX c 11

/-- QUARANTINE_END (R229). -/
def execQuarantineEnd (ctx : Nat) (s : State) : Outcome := onUnit s ctx 64 (endQuarantine s ctx)


end Sys2Proof.Machine
end

