-- ==== Sys2Proof/Machine/Integrity.lean ====
section
/-! DEFINITION. The integrity family (chapter 13): Loupe's checks and settlements, the Touchmark table, fold and tally, the
rotating BIST's tests, and the fault ledger and health scores. The on-command BIST is in Bst.lean. -/

namespace Sys2Proof.Machine

open Sys2Proof

/-! SUSPECT (R352) -/

/-- An Anvil becomes SUSPECT; the event is raised when the bit goes from 0 to 1. -/
def suspectAnvil (s : State) (die m : Nat) : State :=
  let f := R.ANV_SUSPECT_SUSPECT
  let i := 2 * die + m / 20
  if bitOf (s.rd f i) (m % 20) then s else raise (s.wr f i (s.rd f i + 2 ^ (m % 20))) .BSR die 5

/-- A Swage becomes SUSPECT. -/
def suspectSwage (s : State) (die u : Nat) : State :=
  let f := R.SWG_UNIT_STS_SUSPECT
  if bitOf (s.rd f die) u then s else raise (s.wr f die (s.rd f die + 2 ^ u)) .BSR die 5

/-- The SUSPECT bit of an Anvil is cleared (R352). -/
def clearAnvilSuspect (s : State) (die m : Nat) : State :=
  let f := R.ANV_SUSPECT_SUSPECT
  let i := 2 * die + m / 20
  s.wr f i (s.rd f i - (if bitOf (s.rd f i) (m % 20) then 2 ^ (m % 20) else 0))

/-- The SUSPECT bit of a Swage is cleared (R352). -/
def clearSwageSuspect (s : State) (die u : Nat) : State :=
  let f := R.SWG_UNIT_STS_SUSPECT
  s.wr f die (s.rd f die - (if bitOf (s.rd f die) u then 2 ^ u else 0))

/-! Loupe (R338 to R345) -/

/-- Whether FP32 bits are a saturated value: the largest finite magnitude. -/
def saturated (b : Nat) : Bool := b % 2 ^ 31 == 0x7F7FFFFF

/-- R340, R341: whether Loupe passes an element. In a tile that set ACC_SAT only the sign and whether it is saturated are
checked; an INT8 or non-finite element must have its exact bits. -/
def elemPasses (sat : Bool) (e : LpElem) (good res : Nat) : Bool :=
  match e.exact with
  | some b => res == b
  | none =>
    if sat then bitOf res 31 == bitOf good 31 && saturated res == saturated good
    else
      match (((Fmt.fp32.decode res).add e.x.neg).abs).mul (.fin false e.den 0) with
      | .fin n m q => !(Val.lt e.bound (.fin n m q))
      | _ => false

/-- Whether every element of a result passes. -/
def tilePasses (c : Capture) (res : List Nat) : Bool :=
  ((c.elems.zip c.good).zip res).all (fun y => elemPasses c.sat y.1.1 y.1.2 y.2)

/-- The unit that reruns a tile (R342): the lowest-numbered ACTIVE Anvil of the die other than u1 that is not SUSPECT, else
the lowest-numbered ACTIVE one other than u1. -/
def rerunUnit (s : State) (die u1 : Nat) : Option Nat :=
  let us := (anvilsIn s die .active).filter (· != u1)
  match us.find? (fun m => !bitOf (s.rd R.ANV_SUSPECT_SUSPECT (2 * die + m / 20)) (m % 20)) with
  | some m => some m
  | none => us.head?

/-- The capture of a die replaced. -/
def State.setCapture (s : State) (die : Nat) (c : Capture) : State :=
  { s with eng := { s.eng with captures := Tbl.set s.eng.captures die c } }

/-- The capture of a die is over. -/
def dropCapture (s : State) (die : Nat) : State :=
  { s with eng := { s.eng with captures := s.eng.captures.filter (fun e => e.1 != die) } }

/-- LOUPE_CHECK_DONE (R340): the tile passes, or its settlement begins. -/
def loupeCheck (s : State) (die : Nat) (slip : Bool) : State :=
  match captureOf s die with
  | some c =>
    if !c.ended || c.settling then s
    else
      let s := s.inc R.LPE_SAMPLED_SAMPLED die 1
      let s := if c.sat && c.elems.any (·.exact.isNone) then s.inc R.LPE_SKIP_SAT_SKIP_SAT die 1 else s
      if tilePasses c c.res && !slip then dropCapture s die
      else s.setCapture die { c with settling := true, slip := slip, u2 := rerunUnit s die c.u1, rerun := none }
  | none => s

/-- LOUPE_CHECK_DONE (R340). -/
def execLoupeCheckDone (die : Nat) (slip : Bool) (s : State) : Outcome := onUnit s die 8 (loupeCheck s die slip)

/-- LOUPE_RERUN_DONE (R342): what the rerun on u2 shows; a unit no longer ACTIVE is replaced by the next one chosen. -/
def loupeRerun (s : State) (die : Nat) (faults : List (Nat × Nat)) : State :=
  match captureOf s die with
  | some c =>
    if !c.settling || c.rerun.isSome then s
    else
      match c.u2 with
      | some m =>
        if (anvilOf s die m).st = .active then
          let res2 := withFaults c.good faults
          s.setCapture die { c with rerun := some (res2 == c.res, !c.slip && tilePasses c res2) }
        else s.setCapture die { c with u2 := rerunUnit s die c.u1 }
      | none => s
  | none => s

/-- LOUPE_RERUN_DONE (R342). -/
def execLoupeRerunDone (die : Nat) (faults : List (Nat × Nat)) (s : State) : Outcome := onUnit s die 8 (loupeRerun s die faults)

/-- R342: the outcome of a settlement: 1 ANVIL_WRONG, 2 LOUPE_WRONG, 3 UNRESOLVED. -/
def settleOutcome (rerun : Option (Bool × Bool)) (agrees : Bool) : Nat :=
  match rerun with
  | some (same, passes) => if !agrees then (if same then 2 else 3) else if same then 2 else if passes then 1 else 3
  | none => 3

/-- Whether a captured tile belongs to the attempt that is still running (R343). -/
def captureLive (s : State) (c : Capture) : Bool :=
  c.tagged && c.step == s.tmp.step && c.att == s.tmp.att && attemptLive s

/-- The units column of Table 13.3 and its ledger entries and health inputs (R344, Table 13.8). -/
def settleUnits (s : State) (die : Nat) (c : Capture) (out : Nat) : State :=
  let u2 := c.u2.getD 0x3F
  if out = 1 then
    let s := suspectAnvil s die c.u1
    healthInput (ledgerEvent s (anvilId die c.u1) 1 0 (s.rd (R.HLT_W_WEIGHT 10) 0) false [c.addr, c.ctx, u2]) 10 (anvilId die c.u1)
  else if out = 2 then
    healthInput (ledgerEvent s (loupeId die) 2 0 (s.rd (R.HLT_W_WEIGHT 11) 0) false [c.addr]) 11 (loupeId die)
  else
    let s := suspectAnvil s die c.u1
    let s := match c.u2 with | some m => suspectAnvil s die m | none => s
    let ids := anvilId die c.u1 :: (match c.u2 with | some m => [anvilId die m] | none => []) ++ [loupeId die]
    ids.foldl (fun s id =>
      healthInput (ledgerEvent s id 3 0 (s.rd (R.HLT_W_WEIGHT 12) 0) false [c.addr, c.u1, u2]) 12 id) s

/-- The registers and log of an outcome (Tables 13.13, 13.19). -/
def settleRegs (s : State) (die : Nat) (c : Capture) (out : Nat) (cls : EClass) : State :=
  let u2 := c.u2.getD 0x3F
  let s := s.inc (if out = 1 then R.LPE_OUTCOMES_ANVIL_WRONG else if out = 2 then R.LPE_OUTCOMES_LOUPE_WRONG
    else R.LPE_OUTCOMES_UNRESOLVED) die 1
  let s := ((s.wr R.LPE_LAST_OUTCOME die out).wr R.LPE_LAST_U1 die c.u1).wr R.LPE_LAST_U2 die u2
  let s := (s.wr R.LPE_LAST_CTX die c.ctx).wr R.LPE_LAST_ADDR_D_ADDR die c.addr
  let s := if out = 1 then s else s.wr R.LPE_STS_FLAGGED die 1
  logErr (raise s .LPE die (3 + out)) .LPE die out cls c.u1 c.addr [c.ctx + u2 * 256, 0, 0]

/-- LOUPE_SETTLE (R342, R343): the settlement ends once the rerun is done or no other unit is ACTIVE. -/
def loupeSettle (s : State) (die : Nat) (agrees : Bool) : State :=
  match captureOf s die with
  | some c =>
    if !c.settling || (c.u2.isSome && c.rerun.isNone) then s
    else
      let out := settleOutcome c.rerun agrees
      let hurts := out != 2 && captureLive s c
      let s := settleRegs s die c out (if hurts then .STEP else .CAPACITY)
      let s := if hurts then stepFault s .anvilFault else s
      settleUnits (dropCapture s die) die c out
  | none => s

/-- LOUPE_SETTLE (R342). -/
def execLoupeSettle (die : Nat) (agrees : Bool) (s : State) : Outcome := onUnit s die 8 (loupeSettle s die agrees)

/-- Whether some Loupe checks or settles a tile of the running attempt, so that the vote waits (R345). -/
def loupeHoldsVote (s : State) : Bool :=
  s.eng.captures.any (fun e => e.2.tagged && e.2.step == s.tmp.step && e.2.att == s.tmp.att)

/-! Touchmark (R346 to R349) -/

/-- The number of 64 KiB blocks of the covered range (R347). -/
def touchBlocks (s : State) : Nat := ceilDiv (s.rd R.TCH_LEN_LEN 0) 65536

/-- The address of the table entry of block `b` (R347). -/
def touchEntry (s : State) (b : Nat) : Nat := s.rd R.TCH_TABLE_BASE 0 + 32 * b

/-- One step of the fold (R348): both CRCs go on over a value as 8 bytes, least significant first. -/
def touchStep (h : Nat × Nat) (c1 c2 : Nat) : Nat × Nat :=
  (crcRun touchPoly1 h.1 (leBytes 8 c1), crcRun touchPoly2 h.2 (leBytes 8 c2))

/-- TOUCH as (h1, h2) (R348). -/
def touchmark (s : State) : Nat × Nat :=
  let h := (List.range (touchBlocks s)).foldl
    (fun h b => touchStep h (s.loadNat (touchEntry s b) 8) (s.loadNat (touchEntry s b + 8) 8)) (0, 0)
  touchStep h (s.rd R.TCH_LEN_LEN 0) (s.rd R.TCH_LEN_LEN 0)

/-- The first block whose BYTES differs from its length, if there is one (R348). -/
def badBlock (s : State) : Option Nat :=
  (List.range (touchBlocks s)).find? (fun b => s.loadNat (touchEntry s b + 16) 4 != touchBlockLen (s.rd R.TCH_LEN_LEN 0) b)

/-- The fold at a temper where a Touchmark is due (R348): TOUCH is kept for the vote; a block written short or twice clears
TOUCH_VALID, raises COVERAGE and makes the module vote OK = 0. -/
def foldTouch (s : State) : State :=
  let h := touchmark s
  let s := (s.wr R.TCH_LAST_LO_H1 0 h.1).wr R.TCH_LAST_HI_H2 0 h.2
  let s := s.inc R.TCH_COUNT_COMPUTED 0 1
  match badBlock s with
  | none =>
    let s := (s.wr R.TCH_STS_VALID 0 1).wr R.TCH_STS_COVER_FAIL 0 0
    { s with attempt := { s.attempt with touchValid := true, touch := h.2 * 2 ^ 64 + h.1 } }
  | some b =>
    let s := ((s.wr R.TCH_STS_VALID 0 0).wr R.TCH_STS_COVER_FAIL 0 1).wr R.TCH_BAD_BLOCK_BLOCK 0 b
    let s := logErr (raise s .TCH 0 4) .TCH 0 1 .STEP b 0 [0, 0, 0]
    let s := { s with attempt := { s.attempt with touchValid := false, touch := 0 } }
    stepFault s .touchmarkMismatch

/-- TCH_ZERO_DONE (R347): the table is zero and writes into the INACTIVE working copy go on. -/
def tchZero (s : State) : State :=
  if s.tchZeroing then { (s.zero (s.rd R.TCH_TABLE_BASE 0) (32 * touchBlocks s)) with tchZeroing := false } else s

/-- TCH_ZERO_DONE (R347). -/
def execTchZeroDone (s : State) : Outcome := live s (tchZero s)

/-- The class of a tally record (Table 13.5). -/
def tallyClass (valid : Bool) (touch lo hi : Nat) : Nat := if !valid then 3 else if touch = lo then 0 else if touch = hi then 1 else 2

/-- The outcome of a tally over `n` ranks (R349), in the encoding of ODD_OUTCOME: 1 ODD with a class, 2 PAIR, 3 UNKNOWN. -/
def tallyOutcome (n : Nat) (count : List Nat) : Nat × Nat :=
  if n = 2 then (2, 0)
  else
    let used := (List.range 4).filter (fun c => count.getD c 0 != 0)
    match used.length, used.find? (fun c => count.getD c 0 == 1) with
    | 2, some c => (1, c)
    | _, _ => (3, 0)

/-- A tally's result takes effect (R349): TCH_STS, and the ledger entry of the replica named by ODD, or of every replica under
PAIR and UNKNOWN. -/
def tallyDone (s : State) (step att : Nat) (out cls rank : Nat) : State :=
  let s := { s with weld := { s.weld with tally := none } }
  let self := out == 1 && rank == s.rd R.TMP_RANK_RANK 0
  let s := (s.wr R.TCH_STS_ODD_OUTCOME 0 out).wr R.TCH_STS_ODD_CLASS 0 cls
  let s := (s.wr R.TCH_STS_ODD_SELF 0 (b2n self)).wr R.TCH_STS_ODD_RANK 0 rank
  if self then
    let s := logErr (raise s .TCH 0 5) .TCH 0 2 .CAPACITY rank 0 [0, 0, 0]
    healthInput (ledgerEvent s moduleId 0x0C 0 (s.rd (R.HLT_W_WEIGHT 14) 0) true [step, att, out, rank]) 14 moduleId
  else if out = 1 then s
  else ledgerEvent s moduleId 0x0C 0 0 false [step, att, out, rank]

/-- VOTE_TIMEOUT in ns (Table 1.7). -/
def voteTimeoutNs (s : State) : Nat := max 1 (s.rd R.TMP_CFG_VOTE_TIMEOUT 0) * 1000000

/-- TALLY_TIMEOUT (R349): no tally result within VOTE_TIMEOUT; the outcome is UNKNOWN. -/
def tallyTimeout (s : State) : State :=
  match s.weld.tally with
  | some (step, att, deadline) => if deadline ≤ s.clock then tallyDone s step att 3 0 0 else s
  | none => s

/-- TALLY_TIMEOUT (R349). -/
def execTallyTimeout (s : State) : Outcome := live s (tallyTimeout s)

/-! Rotating BIST (R350 to R352) -/

/-- A failing test is recorded (R351): `m` is the unit within its class. -/
def bistFail (s : State) (die m : Nat) (swage pers : Bool) (id sig : Nat) : State :=
  let last := Tbl.get (0, 0) s.bist.lastPass id
  let s := s.inc (if pers then R.BSR_FAILS_PERSISTENT else R.BSR_FAILS_TRANSIENT) die 1
  let s := s.wr R.BSR_SIG_SIG die sig
  let s := ((s.wr R.BSR_LAST_UNIT die m).wr R.BSR_LAST_IS_SWAGE die (b2n swage)).wr R.BSR_LAST_PERSISTENT die (b2n pers)
  let s := logErr (raise s .BSR die 4) .BSR die 1 .CAPACITY (if swage then 64 + m else m) 0 [0, 0, 0]
  let s := ledgerEvent s id 4 (if pers then 2 else 1) (s.rd (R.HLT_W_WEIGHT 13) 0) false [sig, last.1, last.2]
  let s := healthInput s 13 id
  if swage then suspectSwage s die m else suspectAnvil s die m

/-- A passing test is counted; after eight in a row with no further counted event SUSPECT is cleared (R352). -/
def bistPass (s : State) (die m : Nat) (swage : Bool) (id : Nat) : State :=
  let n := Tbl.get 0 s.bist.passes id + 1
  let s := { s with bist :=
    { s.bist with passes := Tbl.set s.bist.passes id n, lastPass := Tbl.set s.bist.lastPass id (s.tmp.step, pohNow s) } }
  if n < 8 then s else if swage then clearSwageSuspect s die m else clearAnvilSuspect s die m

/-- The tested unit returns to service (Table 3.2 step 6, Table 5.8 step 5). -/
def bistReturn (s : State) (die m : Nat) (swage : Bool) (id : Nat) : State :=
  let s := { s with bist := { s.bist with lastEnd := Tbl.set s.bist.lastEnd id s.clock } }
  if swage then
    let x := swageOf s die m
    let t := { s with bist := { s.bist with swgClaim := s.bist.swgClaim.filter (fun e => e.1 != die) } }
    let t := t.setSwage die m { x with st := if x.mapNext then .mapped else .active, mapNext := false, idleSince := s.clock,
                                       gated := x.mapNext }
    swgCapacity s t die
  else
    let a := anvilOf s die m
    let t := { s with bist := { s.bist with anvClaim := s.bist.anvClaim.filter (fun e => e.1 != die) } }
    let t := t.setAnvil die m { Anvil.reset with st := if a.mapNext then .mapped else .spare, idleSince := s.clock }
    capacityCheck s (promote t die) die

/-- The end of a test whose signature is `sig` and, on a mismatch, that of its repeat `sig2` (R351). -/
def bistTestEnd (s : State) (die : Nat) (swage : Bool) (sig sig2 : Nat) : State :=
  match claimOf (if swage then s.bist.swgClaim else s.bist.anvClaim) die with
  | some (m, _, true) =>
    let id := if swage then swageId die m else anvilId die m
    let want := Config.bistSignature id % 2 ^ 64
    let s := s.inc R.BSR_TESTS_TESTS die 1
    let s := if sig = want then bistPass s die m swage id
      else
        let s := s.inc R.BSR_TESTS_TESTS die 1
        let pers := sig2 != want
        let s := bistFail s die m swage pers id (if pers then sig2 % 2 ^ 64 else sig % 2 ^ 64)
        if pers then s else bistPass s die m swage id
    bistReturn s die m swage id
  | _ => s

/-- BIST_TEST_END (R351). -/
def execBistTestEnd (die : Nat) (swage : Bool) (sig sig2 : Nat) (s : State) : Outcome :=
  onUnit s die 8 (bistTestEnd s die swage sig sig2)

/-! Ledger (R355 to R358) -/

/-- LDG_CLEAR (R355): PERMANENT and the event history of a unit are cleared, RETIRED with it for a Loupe. -/
def ldgClear (s : State) (unit : Nat) : State :=
  let s := { s with ledger :=
    { s.ledger with permanent := s.ledger.permanent.filter (· != unit), stamps := s.ledger.stamps.filter (fun e => e.1 != unit) } }
  let s := if unit / 4096 = 3 ∧ unit % 4096 < 8 then s.wr R.LPE_STS_RETIRED (unit % 4096) 0 else s
  ledgerAdd s unit 0x0F 0 0 []

/-- LDG_CLEAR (R355). -/
def execLdgClear (unit : Nat) (s : State) : Outcome := live s (ldgClear s (unit % 2 ^ 16))

/-- Entries that the event log holds (R356). -/
def logCapacity : Nat := 1044480

/-- LEDGER_WRITE (R358): the oldest pending entry goes to the flash within the hour's budget; a full log loses its oldest
block of 1,024 entries (R356). -/
def ledgerWrite (s : State) (ok : Bool) : State :=
  match s.ledger.waiting with
  | [] => s
  | e :: rest =>
    if 1024 ≤ writtenThisHour s then s
    else if !ok then raise (s.wr R.LDG_STS_WRITE_FAIL 0 1) .LDG 0 5
    else
      let l := s.ledger
      let n := (l.seq + 1) % 2 ^ 32
      let kept := if logCapacity ≤ l.log.length then l.log.take (logCapacity - 1024) else l.log
      { s with ledger :=
        { l with waiting := rest, seq := n, log := { e with seq := n } :: kept, written := writtenThisHour s + 1,
                 hour := pohNow s / 3600 } }

/-- LEDGER_WRITE (R358). -/
def execLedgerWrite (ok : Bool) (s : State) : Outcome := live s (ledgerWrite s ok)

/-- Power-on time is saved to the header (R356). -/
def savePoh (s : State) : State := { s with ledger := { s.ledger with pohSaved := pohNow s } }

/-- POH_SAVE (R356). -/
def execPohSave (s : State) : Outcome := live s (savePoh s)

/-! Health scores (R359 to R361) -/

/-- HEALTH_DECAY (R359): one second's decay of every score. -/
def healthDecay (s : State) : State :=
  let half := s.rd R.HLT_CFG_HALF_LIFE_H 0
  let s := { s with health := { s.health with score := s.health.score.map (fun (e : Nat × Nat) => (e.1, decayed half 1 e.2)) } }
  s.health.score.foldl (fun s e => updateLevel s e.1) s

/-- HEALTH_DECAY (R359). -/
def execHealthDecay (s : State) : Outcome := live s (healthDecay s)

/-- SCORE entries for every unit with at least one point (R361). -/
def scoreEntries (s : State) : State :=
  s.health.score.foldl (fun s e => if 64 ≤ e.2 then ledgerAdd s e.1 0x0D 0 0 [e.2] else s) s

/-- SCORE (R361). -/
def execScore (s : State) : Outcome := live s (scoreEntries s)

end Sys2Proof.Machine
end

