-- ==== Sys2Proof/Machine/Tree.lean ====
section
/-! DEFINITION. The vote tree (R312): the 64-byte records of its four trees and their reductions (Tables 1.2, 13.5 and R403),
the reductions that a module hosts, and the records and results it sends. The spec fixes the fields of the records and not
their places in the 64 bytes: log entry 20. -/

namespace Sys2Proof.Machine

open Sys2Proof

/-! Records -/

/-- A record padded to 64 bytes. -/
def pad64 (bs : List Byte) : List Byte := (bs ++ List.replicate 64 0).take 64

/-- A vote record or partial of attempt `att` as bytes (Table 1.2). -/
def voteBytes (v : Vote) (att : Nat) : List Byte :=
  leBytes 8 v.stepMin ++ leBytes 8 v.stepMax ++ leBytes 16 v.touchMin ++ leBytes 16 v.touchMax ++ leBytes 8 v.flipT
    ++ leBytes 8 (b2n v.ok + 2 * b2n v.tvAnd + 4 * b2n v.tvOr + 8 * b2n v.restored + 2 ^ 4 * v.cap + 2 ^ 11 * v.reason
      + 2 ^ 19 * v.rank + 2 ^ 35 * (att % 256))

/-- The vote that bytes spell. -/
def voteOf (bs : List Byte) : Vote :=
  let w := fieldAt bs 0x38 8
  { stepMin := fieldAt bs 0 8, stepMax := fieldAt bs 8 8, ok := bitOf w 0, reason := bits w 11 8, rank := bits w 19 16,
    tvAnd := bitOf w 1, tvOr := bitOf w 2, touchMin := fieldAt bs 0x10 16, touchMax := fieldAt bs 0x20 16, cap := bits w 4 7,
    flipT := fieldAt bs 0x30 8, restored := bitOf w 3 }

/-- ATT of a vote record. -/
def voteAtt (bs : List Byte) : Nat := bits (fieldAt bs 0x38 8) 35 8

/-- The reduction of two vote records (Table 1.2). -/
def Vote.join (a b : Vote) : Vote :=
  let first := if a.ok then b else if b.ok then a else if a.rank ≤ b.rank then a else b
  { stepMin := min a.stepMin b.stepMin, stepMax := max a.stepMax b.stepMax, ok := a.ok && b.ok, reason := first.reason,
    rank := first.rank, tvAnd := a.tvAnd && b.tvAnd, tvOr := a.tvOr || b.tvOr,
    touchMin := if !a.tvOr then b.touchMin else if !b.tvOr then a.touchMin else min a.touchMin b.touchMin,
    touchMax := if !a.tvOr then b.touchMax else if !b.tvOr then a.touchMax else max a.touchMax b.touchMax,
    cap := min a.cap b.cap, flipT := max a.flipT b.flipT, restored := a.restored || b.restored }

/-- The reason of a failing step vote, or none where the result is OK (Table 1.2). A step mismatch names RESTORE_MISMATCH
where some replica was restored (R35). -/
def Vote.fails (v : Vote) : Option Reason :=
  if v.stepMin ≠ v.stepMax then some (if v.restored then .restoreMismatch else .stepMismatch)
  else if !v.ok then some (reasonOf v.reason)
  else if v.tvAnd ≠ v.tvOr then some .touchmarkMismatch
  else if v.tvOr ∧ v.touchMin ≠ v.touchMax then some .touchmarkMismatch
  else none

/-- A tally record (Table 13.5): STEP, ATT, COUNT and RANK of the four classes. -/
def tallyBytes (step att : Nat) (count rank : List Nat) : List Byte :=
  pad64 (leBytes 8 step ++ leBytes 8 (att % 256) ++ (count ++ rank).flatMap (leBytes 2))

/-- COUNT of a tally record. -/
def tallyCount (bs : List Byte) : List Nat := (List.range 4).map (fun c => fieldAt bs (0x10 + 2 * c) 2)
/-- RANK of a tally record. -/
def tallyRank (bs : List Byte) : List Nat := (List.range 4).map (fun c => fieldAt bs (0x18 + 2 * c) 2)

/-- A pre-cut record or partial (R403): the minimum and maximum of CUT_STEP and P. -/
def preCutBytes (lo hi p : Nat) : List Byte := pad64 (leBytes 8 lo ++ leBytes 8 hi ++ leBytes 8 p)

/-- A post-cut record or partial (R403): the minimum and maximum of CUT_STEP and OK. -/
def postCutBytes (lo hi : Nat) (ok : Bool) : List Byte := pad64 (leBytes 8 lo ++ leBytes 8 hi ++ leBytes 8 (b2n ok))

/-- P of the reduction of two pre-cut records: the minimum of the values that are not 0 (R403). -/
def minCut (a b : Nat) : Nat := if a = 0 then b else if b = 0 then a else min a b

/-- The reduction of two records of one tree (R312): step vote, tally, pre-cut, post-cut. -/
def joinRecords (tree : Nat) (a b : List Byte) : List Byte :=
  if tree = 0 then voteBytes ((voteOf a).join (voteOf b)) (voteAtt a)
  else if tree = 1 then
    tallyBytes (fieldAt a 0 8) (fieldAt a 8 8) (((tallyCount a).zip (tallyCount b)).map (fun e => (e.1 + e.2) % 2 ^ 16))
      (((tallyRank a).zip (tallyRank b)).map (fun e => min e.1 e.2))
  else
    let lo := min (fieldAt a 0 8) (fieldAt b 0 8)
    let hi := max (fieldAt a 8 8) (fieldAt b 8 8)
    if tree = 2 then preCutBytes lo hi (minCut (fieldAt a 0x10 8) (fieldAt b 0x10 8))
    else postCutBytes lo hi (fieldAt a 0x10 8 == 1 && fieldAt b 0x10 8 == 1)

/-- The step and attempt that a record of a tree names; the records of a cut name no attempt. -/
def recordKey (tree : Nat) (bs : List Byte) : Nat × Nat :=
  if tree = 0 then (fieldAt bs 0 8, voteAtt bs) else if tree = 1 then (fieldAt bs 0 8, fieldAt bs 8 1) else (fieldAt bs 0 8, 0)

/-! The tree -/

/-- A WELD packet of KIND VOTE (5) or RESULT (6): STEP_TAG is 1 for a step vote's record and 0 for every other (R312; for
results log entry 20). -/
def treePkt (s : State) (kind tree level : Nat) (bs : List Byte) : OutPkt :=
  { cls := .WELD, addr := 0, head := weldHead kind tree level 0 (sliceSize s - 1) 0 0 s.tmp.step ++ bs, src := none,
    owner := .vote, stepTag := kind == 5 && tree == 0, abandoned := false }

/-- A record or result leaves for a node; the engine of PD0 counts its payload. -/
def sendTree (s : State) (node : Nat) (p : OutPkt) : State :=
  queuePkt (s.inc R.WLD_TX_BYTES_TX_BYTES 0 p.bytes) node p

/-- The children of this module in the vote tree, as (level, rank): the tree of R301 with r = N − 1. -/
def voteKids (s : State) : List (Nat × Nat) := treeKids (sliceSize s) (sliceSize s - 1) (ownRank s)

/-- A result goes down to the children of this module (R312). -/
def sendResult (s : State) (tree : Nat) (bs : List Byte) : State :=
  (voteKids s).foldl (fun s k => sendTree s (nodeOfRank s k.2) (treePkt s 6 tree k.1 bs)) s

/-- The reduction hosted for a tree, step and attempt; a fresh one if none is. -/
def entryFor (s : State) (tree step att : Nat) : VoteEntry :=
  match s.weld.votes.find? (fun e => e.tree == tree && e.step == step && e.att == att) with
  | some e => e
  | none => { tree := tree, step := step, att := att, own := none, got := [] }

/-- Hosted reductions without one. -/
def dropEntry (s : State) (tree step att : Nat) : State :=
  { s with weld :=
    { s.weld with votes := s.weld.votes.filter (fun e => !(e.tree == tree && e.step == step && e.att == att)) } }

/-- A record joins the reduction that this module hosts, as its own or at a level. Once its own and every child's is there the
reduction goes up, or at the root is the result, which goes down and is the answer (R312). -/
def contribute (s : State) (tree : Nat) (level : Option Nat) (bs : List Byte) : State × Option (List Byte) :=
  let k := recordKey tree bs
  let e := entryFor s tree k.1 k.2
  let e : VoteEntry := match level with
    | none => { e with own := some bs }
    | some l => if e.got.any (fun g => g.1 == l) then e else { e with got := e.got ++ [(l, bs)] }
  let s := dropEntry s tree k.1 k.2
  match e.own with
  | some own =>
    if (voteKids s).all (fun c => e.got.any (fun g => g.1 == c.1)) then
      let total := e.got.foldl (fun t g => joinRecords tree g.2 t) own
      match treeParent (sliceSize s) (sliceSize s - 1) (ownRank s) with
      | some (l, host) => (sendTree s (nodeOfRank s host) (treePkt s 5 tree l total), none)
      | none => (sendResult s tree total, some total)
    else ({ s with weld := { s.weld with votes := s.weld.votes ++ [e] } }, none)
  | none => ({ s with weld := { s.weld with votes := s.weld.votes ++ [e] } }, none)

/-! The tally (R349) -/

/-- A tally result acts where it names the attempt whose tally this module awaits. -/
def tallyResult (s : State) (bs : List Byte) : State :=
  match s.weld.tally with
  | some (step, att, _) =>
    if recordKey 1 bs = (step, att) then
      let o := tallyOutcome (sliceSize s) (tallyCount bs)
      tallyDone s step att o.1 o.2 (if o.1 = 1 then (tallyRank bs).getD o.2 0 else 0)
    else s
  | none => s

/-- A TOUCHMARK_MISMATCH result with the reduced record `v` starts a tally (R349): the event, the counter, and this module's
record, of an attempt whose TOUCH was `valid` and `touch`. -/
def startTally (s : State) (v : Vote) (step att : Nat) (valid : Bool) (touch : Nat) : State :=
  let s := raise (s.inc R.TCH_MISMATCH_MISMATCH 0 1) .TCH 0 6
  let c := tallyClass valid touch v.touchMin v.touchMax
  let s := { s with weld := { s.weld with tally := some (step, att, s.clock + voteTimeoutNs s) } }
  let own := tallyBytes step att ((List.range 4).map (fun k => b2n (k == c)))
    ((List.range 4).map (fun k => if k = c then ownRank s else 0xFFFF))
  match contribute s 1 none own with
  | (t, some total) => tallyResult t total
  | (t, none) => t

end Sys2Proof.Machine
end

