-- ==== Sys2Proof/Machine/Checkpoint.lean ====
section
/-! DEFINITION. Ingot checkpoints (chapter 15): the layouts on the ingot drive, Sahsin's NVMe commands one after another, cuts
with their two records in the vote tree, restore and fill. The rows that receive the results of a cut are in Temper.lean. -/

namespace Sys2Proof.Machine

open Sys2Proof

/-! Layouts (R398, R399, R408) -/

/-- Bytes of section data on the drive: padded to 4 KiB (R399). -/
def pad4k (n : Nat) : Nat := ceilDiv n 4096 * 4096

/-- A block of 4 KiB that begins with bytes. -/
def block4k (bs : List Byte) : List Byte := (bs ++ List.replicate 4096 0).take 4096

/-- Bytes zero-padded to `n`. -/
def padTo (n : Nat) (bs : List Byte) : List Byte := (bs ++ List.replicate n 0).take n

/-- The bank bytes of section 1 as (offset, length) (R398): the whole bank, or under STRIPE that of rank `r` of `n`. -/
def wcPart (mode wcSize r n : Nat) : Nat × Nat :=
  if mode = 1 ∧ n ≠ 0 then (r * wcSize / n, (r + 1) * wcSize / n - r * wcSize / n) else (0, wcSize)

/-- Section 1 under the module's configuration. -/
def ownWcPart (s : State) : Nat × Nat := wcPart (s.rd R.CKP_CFG_WC_MODE 0) s.map.wcSize (ownRank s) (sliceSize s)

/-- Byte of namespace 1 at which slot `k` begins (R399). -/
def slotBase (s : State) (k : Nat) : Nat := 0x100000 + k * s.rd R.CKP_SLOT_SIZE 0

/-- Bytes that a slot must hold (R399). -/
def imageSize (s : State) : Nat := 12288 + pad4k s.map.msSize + pad4k (ownWcPart s).2

/-- The slot header of a cut (Table 15.1); `sl` writes SEAL. CUT_SEQ is the count of completed cuts after this one. -/
def slotHeader (s : State) (c : Cut) (sl : Bool) : List Byte :=
  let w := ownWcPart s
  let body := padTo 0xF8
    (leBytes 4 0x4F474E49 ++ leBytes 4 (0 + 1 * 256) ++ leBytes 8 c.step ++ leBytes 4 (ownRank s + sliceSize s * 2 ^ 16)
      ++ leBytes 4 (s.xp.slc.cur.slice % 2 ^ 12 + s.rd R.CKP_CFG_WC_MODE 0 % 4 * 2 ^ 16 + c.cause % 4 * 2 ^ 24)
      ++ leBytes 8 s.map.msSize ++ leBytes 8 s.map.wcSize ++ leBytes 8 w.1 ++ leBytes 8 w.2 ++ leBytes 8 c.time
      ++ leBytes 4 (s.rd R.CKP_CUTS_DONE 0 + 1))
  block4k (body ++ leBytes 4 (crc32c body) ++ leBytes 4 (if sl then 0x4C414553 else 0))

/-- A section header (Table 15.2). -/
def sectionHeader (kind step len : Nat) : List Byte :=
  block4k (leBytes 4 0x54434553 ++ leBytes 4 kind ++ leBytes 8 step ++ leBytes 8 len)

/-- A confirm record (Table 15.9). -/
def confirmRecord (s : State) (seq step : Nat) : List Byte :=
  let body := padTo 0xFC (leBytes 4 0x4D464E43 ++ leBytes 4 seq ++ leBytes 8 step ++ leBytes 4 (s.xp.slc.cur.slice % 2 ^ 12))
  block4k (body ++ leBytes 4 (crc32c body))

/-- Whether a slot or image header is sealed but for its version: SEAL, and a CRC that passes (R400). -/
def headerSealed (h : List Byte) : Bool :=
  fieldAt h 0xFC 4 == 0x4C414553 && fieldAt h 0xF8 4 == crc32c (padTo 0xF8 h)

/-- FORMAT_MAJOR of a header. -/
def headerMajor (h : List Byte) : Nat := fieldAt h 5 1

/-- Whether a slot is sealed (R400). -/
def slotSealed (h : List Byte) : Bool := headerSealed h && headerMajor h == 1

/-- Whether a copy of the confirm record is valid (R408). -/
def confirmValid (c : List Byte) : Bool := fieldAt c 0 4 == 0x4D464E43 && fieldAt c 0xFC 4 == crc32c (padTo 0xFC c)

/-! The drive (R406) -/

/-- Whether an entry of the plan is an NVMe command. -/
def DriveOp.isCommand : DriveOp → Bool
  | .write _ _ | .copy _ _ _ | .flush | .read _ _ | .identify _ | .setFeatures | .createCq | .createSq => true
  | .unsealed | .sealed | .confirmed _ _ _ | .cutDone | .ready => false

/-- The NVMe command of a plan entry as a message: I/O opcodes as NVMe 2.0 gives them, admin opcodes plus 0x100, the byte of
the namespace, the data address and the length. -/
def DriveOp.message : DriveOp → OutMsg
  | .write off bs => .nvme 0x01 off Config.driveBuffer bs.length
  | .copy off a n => .nvme 0x01 off a n
  | .flush => .nvme 0x00 0 0 0
  | .read off n => .nvme 0x02 off Config.driveBuffer n
  | .identify cns => .nvme 0x106 cns Config.driveBuffer 4096
  | .setFeatures => .nvme 0x109 0 0 0
  | .createCq => .nvme 0x105 0 Config.driveBuffer 0
  | _ => .nvme 0x101 0 Config.driveBuffer 0

/-- STATE of CKP_STS set. -/
def setCkpState (s : State) (v : Nat) : State := s.wr R.CKP_STS_STATE 0 v

/-- The cut under way replaced. -/
def State.setCut (s : State) (c : Option Cut) : State := { s with ckp := { s.ckp with cut := c } }

/-- CUT_PENDING is cleared, and a CUT for a later step that waited becomes the pending cut (R288). -/
def clearPending (s : State) : State :=
  let slc := s.xp.slc
  let s := { s with xp := { s.xp with slc := { slc with cutPending := none, cutNext := none } } }
  match slc.cutNext with
  | some n => setCutPending s n.1 n.2
  | none => s

/-- A pending cut whose step is the cut's own is cleared. -/
def clearOwnPending (s : State) (step : Nat) : State := if s.xp.slc.cutPending = some step then clearPending s else s

/-- The cut ends (Table 15.3 step 9): STATE = IDLE, CUT_DONE or CUT_FAIL, counted, with its duration. -/
def endCut (s : State) (ok : Bool) : State :=
  match s.ckp.cut with
  | some c =>
    let s := clearOwnPending { s with ckp := { s.ckp with cut := none } } c.step
    let s := s.wr R.CKP_LAST_US_US 0 (min (2 ^ 32 - 1) ((s.clock - c.began) / 1000))
    let s := s.inc (if ok then R.CKP_CUTS_DONE else R.CKP_CUTS_FAILED) 0 1
    raise (setCkpState s 0) .CKP 0 (if ok then 4 else 5)
  | none => s

/-- CUT_TIMEOUT_S in ns (R403). -/
def cutTimeoutNs (s : State) : Nat := max 1 (s.rd R.CKP_CFG_CUT_TIMEOUT_S 0) * 1000000000

/-- The SEALED bit of slot `k`. -/
def sealedField (k : Nat) : Field := if k = 0 then R.CKP_SLOT_STS_A_SEALED else R.CKP_SLOT_STS_B_SEALED
/-- The STEP register of slot `k`. -/
def stepField (k : Nat) : Field := if k = 0 then R.CKP_STEP_A_STEP else R.CKP_STEP_B_STEP

/-- Whether slot `k` holds a sealed image of `step`. -/
def holds (s : State) (k step : Nat) : Bool := s.on (sealedField k) 0 && s.rd (stepField k) 0 == step

/-- The confirm record is written with a step (R408): the copy that does not stand, with SEQ one higher, then Flush. -/
def confirmPlan (s : State) (step : Nat) : List DriveOp :=
  let c := s.ckp.confirm
  let copy := match c with | some (k, _) => 1 - k | none => 0
  let seq := match c with | some (_, q) => (q + 1) % 2 ^ 32 | none => 1
  [.write (copy * 0x1000) (confirmRecord s seq step), .flush, .confirmed step seq copy]

/-- A section's data in commands of at most the transfer size (Table 15.5). -/
def copyPlan (s : State) (off addr len : Nat) : List DriveOp :=
  let x := max 4096 s.ckp.xfer
  (List.range (ceilDiv len x)).map (fun k => .copy (off + k * x) (addr + k * x) (min x (len - k * x)))

/-- Steps 3 to 6 of Table 15.3 for slot `c.slot`. -/
def writePlan (s : State) (c : Cut) : List DriveOp :=
  let b := slotBase s c.slot
  let w := ownWcPart s
  let sec1 := b + 0x2000 + pad4k s.map.msSize
  [.write b (slotHeader s c false), .flush, .unsealed,
   .write (b + 0x1000) (sectionHeader 0 c.step s.map.msSize)]
    ++ copyPlan s (b + 0x2000) (pairBase s.map 1 s.tmp.activeBank) s.map.msSize
    ++ [.write sec1 (sectionHeader 1 c.step w.2)]
    ++ copyPlan s (sec1 + 0x1000) (pairBase s.map 0 s.tmp.activeBank + w.1) w.2
    ++ [.flush, .write b (slotHeader s c true), .flush, .sealed]

/-- The result of a post-cut reduction (R403): OK and one step over the slice lead to the confirm record. -/
def postCutActs (s : State) (bs : List Byte) : State × List DriveOp :=
  match s.ckp.cut with
  | some c =>
    if c.stage ≠ .post then (s, [])
    else if fieldAt bs 0x10 8 = 1 ∧ fieldAt bs 0 8 = fieldAt bs 8 8 then
      (s.setCut (some { c with stage := .confirm }), confirmPlan s c.step ++ [.cutDone])
    else (endCut s false, [])
  | none => (s, [])

/-- The module's post-cut record goes up the tree (Table 15.3 step 7); at the root of a tree that is complete its result is
there at once. -/
def sendPost (s : State) (ok : Bool) : State × List DriveOp :=
  match s.ckp.cut with
  | some c =>
    let s := setCkpState (s.setCut (some { c with stage := .post, deadline := s.clock + cutTimeoutNs s })) 2
    match contribute s 3 none (postCutBytes c.step c.step ok) with
    | (t, some total) => postCutActs t total
    | (t, none) => (t, [])
  | none => (s, [])

/-- What Sahsin does at a mark of its plan, and the plan that this begins. -/
def driveMark (s : State) : DriveOp → State × List DriveOp
  | .unsealed =>
    (match s.ckp.cut with | some c => ((s.wr (sealedField c.slot) 0 0).wr (stepField c.slot) 0 0, []) | none => (s, []))
  | .sealed =>
    (match s.ckp.cut with
     | some c => sendPost (clearOwnPending ((s.wr (sealedField c.slot) 0 1).wr (stepField c.slot) 0 c.step) c.step) true
     | none => (s, []))
  | .confirmed step seq copy =>
    ({ (s.wr R.CKP_CONFIRMED_STEP 0 step) with ckp := { s.ckp with confirm := some (copy, seq) } }, [])
  | .cutDone => (endCut s true, [])
  | .ready =>
    -- the speed and width that the port trained to are the drive's (R405): fresh values in their ranges (log entry 4)
    let a := s.fresh
    let b := a.2.fresh
    let s := (b.2.wr R.CKP_STS_LINK_GEN 0 (4 + a.1 % 3)).wr R.CKP_STS_LINK_WIDTH 0 (1 + b.1 % 4)
    (s.wr R.CKP_STS_DRIVE_READY 0 1, [])
  | _ => (s, [])

/-- The first command of a plan is issued. -/
def issueFirst (s : State) (plan : List DriveOp) : State :=
  match plan with
  | [] => { s with ckp := { s.ckp with plan := [] } }
  | op :: _ => ({ s with ckp := { s.ckp with plan := plan, issued := s.clock } }).emit op.message

/-- The plan that a result begins, if it begins one. -/
def goOn (r : State × List DriveOp) : State := if r.2.isEmpty then r.1 else issueFirst r.1 r.2

/-- The plan goes on: marks are acted on until the next command is issued. -/
def driveRun (s : State) : List DriveOp → State
  | [] => { s with ckp := { s.ckp with plan := [] } }
  | op :: rest =>
    if op.isCommand then issueFirst s (op :: rest)
    else
      let r := driveMark s op
      if rest.isEmpty then issueFirst r.1 r.2 else driveRun r.1 rest

/-- A DRIVE entry: LAST_CODE, the log with the slot and the NVMe status (R416). -/
def logDrive (s : State) (slot addr status : Nat) : State :=
  logErr (s.wr R.CKP_STS_LAST_CODE 0 6) .CKP 0 6 .CAPACITY slot addr [status % 2 ^ 16, 0, 0]

/-- The slot that the cut under way writes; 0 without one. -/
def cutSlot (s : State) : Nat := match s.ckp.cut with | some c => c.slot | none => 0

/-- An NVMe command fails or does not complete (R404): DRIVE; a cut before its seal sends OK = 0, a confirm record that is not
written ends the cut with CUT_FAIL, and an initialisation leaves DRIVE_READY at 0. -/
def driveFails (s : State) (status : Nat) : State :=
  let s := raise (logDrive { s with ckp := { s.ckp with plan := [] } } (cutSlot s) 0 status) .CKP 0 10
  match s.ckp.cut with
  | some c =>
    if c.stage = .drive then
      goOn (sendPost s false)
    else endCut s false
  | none => s

/-- What a completed read or Identify tells Sahsin (R407, R408); none where the drive cannot be used (R406). -/
def driveData (s : State) (op : DriveOp) (bs : List Byte) : Option State :=
  match op with
  | .identify 1 =>
    -- MDTS, in units of the 4 KiB page
    let m := fieldAt bs 77 1
    some { s with ckp := { s.ckp with xfer := if m = 0 ∨ 8 ≤ m then 0x100000 else min 0x100000 (4096 * 2 ^ m) } }
  | .identify _ =>
    let f := fieldAt bs (128 + 4 * (fieldAt bs 26 1 % 16)) 4
    let ds := bits f 16 8
    if (ds = 9 ∨ ds = 12) ∧ f % 2 ^ 16 = 0 ∧ fieldAt bs 29 1 % 8 = 0 then
      some (s.wr R.CKP_NS_CAP_CAP 0 (fieldAt bs 0 8 * 2 ^ ds))
    else none
  | .read off _ =>
    if off < 0x2000 then
      let k := off / 0x1000
      let seq := fieldAt bs 4 4
      let better := match s.ckp.confirm with | some (_, q) => decide (q < seq) | none => true
      if confirmValid bs && better then
        some { (s.wr R.CKP_CONFIRMED_STEP 0 (fieldAt bs 8 8)) with ckp := { s.ckp with confirm := some (k, seq) } }
      else some s
    else
      let k := if off = slotBase s 0 then 0 else 1
      some ((s.wr (sealedField k) 0 (b2n (slotSealed bs))).wr (stepField k) 0 (if slotSealed bs then fieldAt bs 8 8 else 0))
  | _ => some s

/-- Drive bytes counted at a completion (Table 15.7). -/
def driveCount (s : State) : DriveOp → State
  | .write _ bs => s.inc R.CKP_WR_BYTES_BYTES 0 bs.length
  | .copy _ _ n => s.inc R.CKP_WR_BYTES_BYTES 0 (pad4k n)
  | .read _ n => s.inc R.CKP_RD_BYTES_BYTES 0 n
  | _ => s

/-- NVME_COMPLETION (R406): the command in progress completes. -/
def driveCompletes (s : State) (status : Nat) (bs : List Byte) : State :=
  match s.ckp.plan with
  | [] => s
  | op :: rest =>
    if status ≠ 0 then driveFails s status
    else
      match driveData (driveCount s op) op bs with
      | some t => driveRun t rest
      | none => raise { s with ckp := { s.ckp with plan := [] } } .CKP 0 10

/-- NVME_COMPLETION (R406). -/
def execNvmeCompletion (status : Nat) (data : List Byte) (s : State) : Outcome := live s (driveCompletes s status data)

/-- NVME_TIMEOUT (R404): 2 s without a completion. -/
def driveTimeout (s : State) : State :=
  if !s.ckp.plan.isEmpty ∧ s.ckp.issued + 2000000000 ≤ s.clock then driveFails s 0 else s

/-- NVME_TIMEOUT (R404). -/
def execNvmeTimeout (s : State) : Outcome := live s (driveTimeout s)

/-- The initialisation of the drive begins (R407): Identify, the queue pair, both confirm copies and, where slots are
configured, both slot headers. -/
def driveInit (s : State) : State :=
  let s := (s.wr R.CKP_STS_DRIVE_READY 0 0).wr R.CKP_CONFIRMED_STEP 0 0
  let s := { s with ckp := { s.ckp with confirm := none, xfer := 0x100000 } }
  let slots := if s.rd R.CKP_SLOT_SIZE 0 = 0 then [] else [DriveOp.read (slotBase s 0) 4096, .read (slotBase s 1) 4096]
  issueFirst s ([.identify 1, .setFeatures, .createCq, .createSq, .identify 0, .read 0 4096, .read 0x1000 4096] ++ slots ++ [.ready])

/-- DRIVE_INIT (R407): ignored while STATE is not IDLE (R414). -/
def execDriveInit (s : State) : Outcome := live s (if s.rd R.CKP_STS_STATE 0 = 0 then driveInit s else s)

/-- Whether a request of `n` bytes lies in a buffer. -/
def within (a n base len : Nat) : Bool := base ≤ a && a + n ≤ base + len

/-- What a memory request of the drive gets (R405): the bytes of the buffer of the command in progress, or none where it does
not reach it. -/
def driveBytes (s : State) (a n : Nat) (write : Bool) : Option (List Byte) :=
  match s.ckp.plan with
  | .write _ bs :: _ =>
    if !write && within a n Config.driveBuffer bs.length then some ((bs.drop (a - Config.driveBuffer)).take n) else none
  | .copy _ base len :: _ =>
    if !write && within a n base len && (accessBlocked s a n).isNone then some (s.load a n) else none
  | .read _ len :: _ => if write && within a n Config.driveBuffer len then some [] else none
  | .identify _ :: _ => if write && within a n Config.driveBuffer 4096 then some [] else none
  | _ => none

/-- DRIVE_MEMORY_REQUEST (R405): answered from the buffers of the command in progress; any other gets Unsupported Request and
is logged as DRIVE. -/
def driveRequest (s : State) (a n : Nat) (write : Bool) : State :=
  match driveBytes s a n write with
  | some bs => s.emit (.driveData true bs)
  | none => (logDrive s (cutSlot s) a 0).emit (.driveData false [])

/-- DRIVE_MEMORY_REQUEST (R405). -/
def execDriveMemoryRequest (addr len : Nat) (write : Bool) (s : State) : Outcome := live s (driveRequest s addr len write)

/-! Cuts (R401 to R404) -/

/-- R401: the slot that a cut writes, and whether the confirm record is written with P before. -/
def chooseSlot (s : State) (p : Nat) : Nat × Bool :=
  let a := s.on R.CKP_SLOT_STS_A_SEALED 0
  let b := s.on R.CKP_SLOT_STS_B_SEALED 0
  let fix := s.rd R.CKP_CONFIRMED_STEP 0 != p
  if p ≠ 0 ∧ holds s 0 p then (1, fix)
  else if p ≠ 0 ∧ holds s 1 p then (0, fix)
  else if !a && !b then (0, false)
  else if a && (!b || s.rd R.CKP_STEP_B_STEP 0 < s.rd R.CKP_STEP_A_STEP 0) then (1, false)
  else (0, false)

/-- The result of a pre-cut reduction (R403): a difference in CUT_STEP ends the cut; else P chooses the slot and the drive's
work begins. Without a usable drive or without space the module sends OK = 0 and writes nothing. -/
def preCutResult (s : State) (bs : List Byte) : State :=
  match s.ckp.cut with
  | some c =>
    if c.stage ≠ .pre then s
    else if fieldAt bs 0 8 ≠ fieldAt bs 8 8 then endCut s false
    else
      let p := fieldAt bs 0x10 8
      let ch := chooseSlot s p
      let c : Cut := { c with slot := ch.1, stage := .drive }
      let s := s.setCut (some c)
      if !s.on R.CKP_STS_DRIVE_READY 0 then goOn (sendPost s false)
      else if s.rd R.CKP_SLOT_SIZE 0 < imageSize s then
        let s := logErr (s.wr R.CKP_STS_LAST_CODE 0 0x0A) .CKP 0 0x0A .CAPACITY c.slot 0 [0, 0, 0]
        goOn (sendPost s false)
      else driveRun s ((if ch.2 then confirmPlan s p else []) ++ writePlan s c)
  | none => s

/-- The result of a post-cut reduction. -/
def postCutResult (s : State) (bs : List Byte) : State :=
  goOn (postCutActs s bs)

/-- The cut begins at the flip that tempered its step (R401): STATE = WRITING and the pre-cut record goes up the tree. -/
def startCut (s : State) (flipTime : Nat) : State :=
  match s.xp.slc.cutPending with
  | some p =>
    if p ≠ s.tmp.tempered then s
    else
      let c : Cut := { step := p, cause := s.xp.slc.cutCause, time := flipTime, began := s.clock, slot := 0, stage := .pre,
                       deadline := s.clock + cutTimeoutNs s }
      let s := setCkpState (s.setCut (some c)) 1
      match contribute s 2 none (preCutBytes p p (s.rd R.CKP_CONFIRMED_STEP 0)) with
      | (t, some total) => preCutResult t total
      | (t, none) => t
  | none => s

/-- CUT_TIMEOUT (R403): no result of the pre-cut or post-cut record within CUT_TIMEOUT_S. -/
def cutTimeout (s : State) : State :=
  match s.ckp.cut with
  | some c =>
    if (c.stage = .pre ∨ c.stage = .post) ∧ c.deadline ≤ s.clock then
      endCut (logErr (s.wr R.CKP_STS_LAST_CODE 0 7) .CKP 0 7 .INFO c.slot 0 [0, 0, 0]) false
    else s
  | none => s

/-- CUT_TIMEOUT (R403). -/
def execCutTimeout (s : State) : Outcome := live s (cutTimeout s)

/-! Restore (R409, R410) -/

/-- A restore is refused with a code and changes nothing else; `unit` is the image (R409, R416). -/
def refuseRestore (s : State) (unit code : Nat) : State :=
  raise (logErr (s.wr R.CKP_STS_LAST_CODE 0 code) .CKP 0 code .COMMAND unit 0 [0, 0, 0]) .CKP 0 7

/-- The slot that PICK chooses among the sealed ones (R409). -/
def pickSlot (s : State) (a b : List Byte) : Option Nat :=
  let sa := slotSealed a
  let sb := slotSealed b
  let want := s.rd R.CKP_RESTORE_STEP_STEP 0
  if s.on R.CKP_RESTORE_PICK 0 then
    if sa && fieldAt a 8 8 == want then some 0 else if sb && fieldAt b 8 8 == want then some 1 else none
  else if sa && (!sb || fieldAt b 8 8 ≤ fieldAt a 8 8) then some 0
  else if sb then some 1 else none

/-- The image that a restore selects, as (unit, its header block and both section header blocks), if one is sealed. -/
def selectImage (s : State) (a b host : List Byte) : Option (Nat × List Byte) :=
  if s.on R.CKP_RESTORE_SOURCE 0 then (if headerSealed host then some (2, host) else none)
  else (pickSlot s a b).map (fun k => (k, if k = 0 then a else b))

/-- Whether a section header is what the image's header asks for (R409 item 6). -/
def sectionOk (h : List Byte) (kind step len : Nat) : Bool :=
  fieldAt h 0 4 == 0x54434553 && fieldAt h 4 1 % 2 == kind && fieldAt h 8 8 == step && fieldAt h 0x10 6 == len

/-- The refusal code of an image (R409 items 3 to 6); 0 where it may be loaded. -/
def imageCode (s : State) (h : List Byte) : Nat :=
  let w := ownWcPart s
  if headerMajor h ≠ 1 then 5
  else if fieldAt h 0x10 2 ≠ ownRank s ∨ fieldAt h 0x12 2 ≠ sliceSize s then 3
  else if fieldAt h 0x18 6 ≠ s.map.msSize ∨ fieldAt h 0x20 6 ≠ s.map.wcSize ∨ fieldAt h 0x28 6 ≠ w.1 ∨ fieldAt h 0x30 6 ≠ w.2 then 4
  else if !sectionOk (h.drop 0x1000) 0 (fieldAt h 8 8) s.map.msSize || !sectionOk (h.drop 0x2000) 1 (fieldAt h 8 8) w.2 then 2
  else 0

/-- RESTORE (R409): refused with the first code that applies, else STATE = RESTORING. -/
def restoreOp (s : State) (a b host : List Byte) : State :=
  if s.rd R.CKP_STS_STATE 0 ≠ 0 then s
  else
    let fromHost := s.on R.CKP_RESTORE_SOURCE 0
    let busy := !(liveCtxs s).isEmpty || !(s.tmp.phase == .idle || s.tmp.phase == .stopped)
      || (!fromHost && !s.on R.CKP_STS_DRIVE_READY 0)
    if busy then refuseRestore s (if fromHost then 2 else 0) 8
    else
      match selectImage s a b host with
      | none => refuseRestore s (if fromHost then 2 else 0) 1
      | some (unit, h) =>
        let code := imageCode s h
        if code ≠ 0 then refuseRestore s unit code
        else
          let s := if fromHost then s else s.inc R.CKP_RD_BYTES_BYTES 0 12288
          setCkpState { s with ckp := { s.ckp with restoring := some { source := unit, step := fieldAt h 8 8 } } } 3

/-- RESTORE (R409). -/
def execRestore (imgA imgB imgHost : List Byte) (s : State) : Outcome := live s (restoreOp s imgA imgB imgHost)

/-- The restore's data reads failed (R410): bank A is undefined and the TMP state unchanged. -/
def restoreFails (s : State) (r : Restoring) : State :=
  let s := { s with ckp := { s.ckp with restoring := none } }
  let s := (s.undefine s.map.wcA s.map.wcSize).undefine s.map.msA s.map.msSize
  let s := if r.source = 2 then s else logDrive s r.source 0 0
  raise (setCkpState s 0) .CKP 0 7

/-- RESTORE_DONE (R410): the data stands in bank A and the step state is set in one act. -/
def restoreDone (s : State) (ms wc : Option (List Byte)) : State :=
  match s.ckp.restoring with
  | none => s
  | some r =>
    match ms, wc with
    | some m, some w =>
      let part := ownWcPart s
      if m.length ≠ s.map.msSize ∨ w.length ≠ part.2 then restoreFails s r
      else
        let s := (s.store s.map.msA m).store (s.map.wcA + part.1) w
        let s := if r.source = 2 then s else s.inc R.CKP_RD_BYTES_BYTES 0 (pad4k m.length + pad4k w.length)
        let s := { s with
          tmp := { s.tmp with
            activeBank := false, tempered := r.step, step := r.step + 1, att := 0, replayCount := 0, lastReason := .none,
            holdValid := false, wardHoldValid := false, phase := .idle }
          attempt := Attempt.fresh
          ckp := { s.ckp with restoring := none } }
        let s := (s.wr R.CKP_STS_RESTORED 0 1).wr R.CKP_STS_FILLED 0 0
        raise (setCkpState s 0) .CKP 0 6
    | _, _ => restoreFails s r

/-- RESTORE_DONE (R410). -/
def execRestoreDone (ms wc : Option (List Byte)) (s : State) : Outcome := live s (restoreDone s ms wc)

/-! Fill (R411) -/

/-- The sources of a fill: the ward's MS_ACT for MR bank A, and under STRIPE the stripe of every other rank. -/
def fillLoads (s : State) : List Load :=
  let n := sliceSize s
  let ward : Load := { node := s.rd R.TMP_BUDDY_WARD_NODE 0, src := aliasBase 2, dst := s.map.mrA, len := s.map.mrSize }
  if s.rd R.CKP_CFG_WC_MODE 0 ≠ 1 then [ward]
  else ward :: ((List.range n).filter (· != ownRank s)).map (fun j =>
    let w := wcPart 1 s.map.wcSize j n
    { node := nodeOfRank s j, src := aliasBase 0 + w.1, dst := s.map.wcA + w.1, len := w.2 })

/-- FILL (R411): ignored while STATE is not IDLE (R414); the reads of at most 8 sources are sent at once. -/
def fillOp (s : State) : State :=
  if s.rd R.CKP_STS_STATE 0 ≠ 0 then s
  else fillAdvance (setCkpState { s with ckp := { s.ckp with loads := fillLoads s } } 4)

/-- FILL (R411). -/
def execFill (s : State) : Outcome := live s (fillOp s)

/-- Bytes put into the working copy of bank A at offsets. -/
def putStripes (s : State) (stripes : List (Nat × List Byte)) : State :=
  stripes.foldl (fun s e => if e.1 + e.2.length ≤ s.map.wcSize then s.store (s.map.wcA + e.1) e.2 else s) s

/-- FILL_DONE (R411): every byte is visible, or a read was refused or failed. -/
def fillDone (s : State) (mr : Option (List Byte)) (stripes : List (Nat × List Byte)) : State :=
  if s.rd R.CKP_STS_STATE 0 ≠ 4 then s
  else
    let s := abandonPackets { s with ckp := { s.ckp with loads := [] } } (· == .fill)
    match mr with
    | some m =>
      let s := s.store s.map.mrA (m.take s.map.mrSize)
      let s := if s.rd R.CKP_CFG_WC_MODE 0 = 1 then putStripes s stripes else s
      raise (setCkpState (s.wr R.CKP_STS_FILLED 0 1) 0) .CKP 0 8
    | none =>
      let s := logErr (s.wr R.CKP_STS_LAST_CODE 0 9) .CKP 0 9 .COMMAND 0 0 [0, 0, 0]
      raise (setCkpState s 0) .CKP 0 9

/-- FILL_DONE (R411). -/
def execFillDone (mr : Option (List Byte)) (stripes : List (Nat × List Byte)) (s : State) : Outcome := live s (fillDone s mr stripes)

/-- An apply of CKP_CFG and CKP_SLOT is refused (R414). -/
def ckpCfgBad (s : State) : Bool :=
  let size := s.stagedOf R.CKP_SLOT_SIZE 0
  s.rd R.CKP_STS_STATE 0 != 0 || s.xp.slc.cutPending.isSome || size % 2 ^ 20 != 0
    || decide (s.rd R.CKP_NS_CAP_CAP 0 < 0x100000 + 2 * size)

end Sys2Proof.Machine
end

