-- ==== Sys2Proof/Machine/Power.lean ====
section
/-! DEFINITION. The power family (chapter 16): the Bellows cap and its terms, ramps and hints, temperatures and the thermal
trip, loss of lock and engine sleep. -/

namespace Sys2Proof.Machine

open Sys2Proof

/-! The Bellows cap (R417) -/

/-- CAP_MAX of a die (Table 16.6): 0 acts as 1, above 64 as 64. -/
def capMax (s : State) (n : Nat) : Nat := clampNat 1 64 (s.rd R.BLW_CTL_CAP_MAX n)

/-- The terms of die `n` in the order of Table 16.1. -/
def capTerms (s : State) (n : Nat) : List Nat :=
  [capMax s n, s.rd R.PWR_STS_P 0, s.rd (R.THM_DIE_T n) 0, s.rd R.PWR_STS_L 0, s.rd R.BLW_STS_Q n]

/-- The first of the smallest terms. -/
def limiter (ts : List Nat) : Nat :=
  let m := ts.foldl min 64
  (ts.findIdx? (· == m)).getD 0

/-- B_n and LIMITER of a die are brought up to date (R417); B_n is at least 1. -/
def refreshCap (s : State) (n : Nat) : State :=
  let ts := capTerms s n
  (s.wr R.BLW_STS_CAP n (max 1 (ts.foldl min 64))).wr R.BLW_STS_LIMITER n (limiter ts)

/-- The caps of every die that is out of reset. -/
def refreshCaps (s : State) : State :=
  (List.range 8).foldl (fun s n => if s.on R.DIE_STS_IN_RESET n then s else refreshCap s n) s

/-- CAP of a vote record (R421): the minimum over the dies of min(CAP_MAX, P, T_n), or 64 without LOCK_EN. -/
def voteCap (s : State) : Nat :=
  if s.on R.PWR_CFG_LOCK_EN 0 then
    (List.range 8).foldl (fun m n => min m (min (capMax s n) (min (s.rd R.PWR_STS_P 0) (s.rd (R.THM_DIE_T n) 0)))) 64
  else 64

/-- L is set at a flip to the reduced CAP, or to 64 without LOCK_EN (R421). -/
def lockAt (s : State) (cap : Nat) : State :=
  let l := if s.on R.PWR_CFG_LOCK_EN 0 then cap else 64
  refreshCaps (raiseIf (s.rd R.PWR_STS_L 0 != l) (s.wr R.PWR_STS_L 0 l) .PWR 0 6)

/-! The power loop (R418) -/

/-- PKG_LIMIT_W: values outside 800 to 2,400 act as the nearest limit. -/
def pkgLimit (s : State) : Nat := clampNat 800 2400 (s.rd R.PWR_LIMIT_PKG_LIMIT_W 0)

/-- The evaluation every 10 µs from the average package power in W. -/
def powerFast (s : State) (pkg : Nat) : State :=
  let p := s.rd R.PWR_STS_P 0
  let above := decide (pkgLimit s < pkg)
  let q := if above then max 1 (p * pkgLimit s / pkg) else p
  let s := { s with power := { s.power with fell := s.power.fell || decide (q < p), uj := s.power.uj + 10 * pkg } }
  let s := s.wr R.PWR_ENERGY_MJ 0 (min (2 ^ 64 - 1) (s.power.uj / 1000))
  let s := raiseIf (p == 64 && decide (q < 64)) (s.wr R.PWR_STS_P 0 q) .PWR 0 4
  let s := if q < 64 then s.inc R.PWR_CAPPED_CAPPED 0 1 else s
  let floor := q == 1 && above
  refreshCaps (raiseIf (floor && !s.on R.PWR_STS_FLOOR 0) (s.wr R.PWR_STS_FLOOR 0 (b2n floor)) .PWR 0 5)

/-- The evaluation every 100 µs from the averages of package and input power in W. -/
def powerSlow (s : State) (pkg input : Nat) : State :=
  let s := (s.wr R.PWR_PKG_PKG_W 0 (min 0xFFFF pkg)).wr R.PWR_PKG_IN_W 0 (min 0xFFFF input)
  let rise := decide (pkg + max 10 (s.rd R.PWR_CFG_HYST_W 0) < pkgLimit s) && !s.power.fell
  let s := if rise then s.wr R.PWR_STS_P 0 (min 64 (s.rd R.PWR_STS_P 0 + 1)) else s
  refreshCaps { s with power := { s.power with fell := false } }

/-- POWER_EVAL (R418). -/
def execPowerEval (slow : Bool) (pkg input : Nat) (s : State) : Outcome :=
  live s (if slow then powerSlow s pkg input else powerFast s pkg)

/-! Ramp and hints (R419, R420) -/

/-- Q_n after a microsecond (R419). -/
def rampNext (q target level : Nat) (held window : Bool) : Nat :=
  if held then (if window && q < target then min target (q + 8) else min 64 (q + 1)) else min 64 level

/-- RAMP_EVAL (R419): Q_n, the level shown, and a window that ends once Q_n reaches TARGET (R420). -/
def rampEval (s : State) (n : Nat) (held : Bool) (level : Nat) : State :=
  if s.on R.DIE_STS_IN_RESET n then s
  else
    let target := s.rd R.BLW_HINT_TARGET n
    let window := s.on R.BLW_HINT_WINDOW n
    let q := rampNext (s.rd R.BLW_STS_Q n) target level held window
    let s := (s.wr R.BLW_STS_Q n q).wr R.BLW_STS_LEVEL n (min 64 level)
    let s := if held then s.inc R.BLW_RAMP_WAIT_RAMP_WAIT n 1 else s
    let s := if window ∧ target ≤ q then s.wr R.BLW_HINT_WINDOW n 0 else s
    refreshCap s n

/-- RAMP_EVAL (R419). -/
def execRampEval (die : Nat) (heldBack : Bool) (level : Nat) (s : State) : Outcome :=
  onUnit s die 8 (rampEval s die heldBack level)

/-- One die takes the hint of a HEAT record issued now, or ignores it (R420). -/
def hintDie (s : State) (n target lead : Nat) : State :=
  if s.on R.DIE_STS_IN_RESET n then s
  else if lead < 40 then raise (s.inc R.BLW_HINTS_IGNORED n 1) .BLW n 4
  else
    let s := (s.wr R.BLW_HINT_TARGET n target).wr R.BLW_HINT_TIME_T_H n (s.now + lead * 1000)
    ((s.wr R.BLW_HINT_PENDING n 1).wr R.BLW_HINT_WINDOW n 0).inc R.BLW_HINTS_TAKEN n 1

/-- HEAT (R226): the hint of every die that DIES names; TARGET outside 1 to 64 acts as the nearest limit. It completes on
issue. -/
def heatRec (s : State) (c : Nat) (r : Rec) : State :=
  let w := r.op32 8
  let target := clampNat 1 64 (bits w 0 7)
  let s := (List.range 8).foldl (fun s n => if bitOf w (8 + n) then hintDie s n target (bits (r.op32 0xC) 0 16) else s) s
  finishCur s c r

/-- HEAT (R226). -/
def execHeat (ctx : Nat) (s : State) : Outcome := onRec s ctx 0x53 (heatRec s ctx)

/-- HINT_PREPARE (R420): 40 µs before t_h the die's regulators are prepared; no register shows it. -/
def execHintPrepare (die : Nat) (s : State) : Outcome := onUnit s die 8 s

/-- HINT_WINDOW (R420): the window opens at t_h and ends 200 µs later. -/
def hintWindow (s : State) (n : Nat) : State :=
  let t := s.rd R.BLW_HINT_TIME_T_H n
  if s.on R.BLW_HINT_PENDING n then
    if t ≤ s.now then (s.wr R.BLW_HINT_PENDING n 0).wr R.BLW_HINT_WINDOW n 1 else s
  else if s.on R.BLW_HINT_WINDOW n ∧ t + 200000 ≤ s.now then s.wr R.BLW_HINT_WINDOW n 0
  else s

/-- HINT_WINDOW (R420). -/
def execHintWindow (die : Nat) (s : State) : Outcome := onUnit s die 8 (hintWindow s die)

/-! Temperature (R422 to R425) -/

/-- THROTTLE_C: values outside 80 to 100 act as the nearest limit. -/
def throttleC (s : State) : Nat := clampNat 80 100 (s.rd R.THM_CFG_THROTTLE_C 0)
/-- HBM_LIMIT_C: values outside 85 to 105 act as the nearest limit. -/
def hbmLimitC (s : State) : Nat := clampNat 85 105 (s.rd R.THM_CFG_HBM_LIMIT_C 0)
/-- HYST_C: 1 to 10; 0 acts as 1. -/
def hystC (s : State) : Nat := clampNat 1 10 (s.rd R.THM_CFG_HYST_C 0)

/-- The sensors of die slot `d` (0 to 7 CDn, 8 and 9 PDd) as their first number and count (R431). -/
def sensorsOf (d : Nat) : Nat × Nat := if d < 8 then (4 * d, 4) else (32 + 2 * (d - 8), 2)

/-- The die slot and index of a sensor. -/
def sensorPlace (id : Nat) : Nat × Nat := if id < 32 then (id / 4, id % 4) else (8 + (id - 32) / 2, (id - 32) % 2)

/-- SENSOR_OK of a die slot. -/
def okField (d : Nat) : Field := if d < 8 then R.THM_DIE_SENSOR_OK d else R.THM_PD_SENSOR_OK (d - 8)
/-- TEMP of a die slot. -/
def tempField (d : Nat) : Field := if d < 8 then R.THM_DIE_TEMP d else R.THM_PD_TEMP (d - 8)
/-- MAX of a die slot. -/
def maxField (d : Nat) : Field := if d < 8 then R.THM_DIE_MAX d else R.THM_PD_MAX (d - 8)

/-- The temperature of a die slot: the highest last reading of its working sensors; none where none works (R422). -/
def dieTemp (s : State) (d : Nat) : Option Nat :=
  let p := sensorsOf d
  let ok := s.rd (okField d) 0
  let xs := ((List.range p.2).filter (bitOf ok)).map (fun i => Tbl.get 0 s.power.temps (p.1 + i))
  if xs.isEmpty then none else some (xs.foldl max 0)

/-- The registers of a die slot follow its sensors; PD_HOT for a port die above THROTTLE_C or without a working sensor, T_n = 1
for a compute die without one (R422 to R424). -/
def updateTemp (s : State) (d : Nat) : State :=
  match dieTemp s d with
  | some t =>
    let s := s.wr (tempField d) 0 (min 255 t)
    let s := s.wr (maxField d) 0 (max (s.rd (maxField d) 0) (min 255 t))
    let hottest := (List.range 10).foldl (fun m k => max m ((dieTemp s k).getD 0)) 0
    let s := s.wr R.THM_STS_HOTTEST 0 (min 255 hottest)
    raiseIf (decide (8 ≤ d) && decide (throttleC s < t)) s .THM 0 5
  | none => if d < 8 then s.wr (R.THM_DIE_T d) 0 1 else raise s .THM 0 5

/-- SENSOR_READ (R422 to R424): a reading whose self-check passes counts; one that fails leaves the sensor out. -/
def sensorRead (s : State) (id temp : Nat) (good : Bool) : State :=
  let p := sensorPlace id
  let f := okField p.1
  let ok := s.rd f 0
  let s :=
    if good then { (s.wr f 0 (ok ||| 2 ^ p.2)) with power := { s.power with temps := Tbl.set s.power.temps id temp } }
    else if bitOf ok p.2 then logErr (raise (s.wr f 0 (ok - 2 ^ p.2)) .THM 0 7) .THM 0 1 .CAPACITY id 0 [0, 0, 0]
    else s
  updateTemp s p.1

/-- SENSOR_READ (R424). -/
def execSensorRead (id temp : Nat) (good : Bool) (s : State) : Outcome := onUnit s id 36 (sensorRead s id temp good)

/-- Whether die `n` or one of its stacks is too hot (R422). -/
def tooHot (s : State) (n : Nat) : Bool :=
  decide (throttleC s < (dieTemp s n).getD 0)
    || [2 * n, 2 * n + 1].any (fun st => decide (hbmLimitC s < s.rd R.HBM_TEMP_TEMP st))

/-- Whether die `n` and both its stacks are cool again (R422). -/
def coolAgain (s : State) (n : Nat) : Bool :=
  decide ((dieTemp s n).getD 0 + hystC s ≤ throttleC s)
    && [2 * n, 2 * n + 1].all (fun st => decide (s.rd R.HBM_TEMP_TEMP st + hystC s ≤ hbmLimitC s))

/-- Whether some T_n is below 64. -/
def throttling (s : State) : Bool := (List.range 8).any (fun n => decide (s.rd (R.THM_DIE_T n) 0 < 64))

/-- The thermal term of a die after an evaluation; 1 where no sensor works (R424). -/
def thermalTerm (s : State) (slow : Bool) (n : Nat) : Nat :=
  let t := s.rd (R.THM_DIE_T n) 0
  if (dieTemp s n).isNone then 1
  else if slow then (if coolAgain s n then min 64 (t + 1) else t)
  else if tooHot s n then max 1 (t - 1)
  else t

/-- THERMAL_EVAL (R422): every 100 µs the terms may fall, every 1 ms they may rise. -/
def thermalEval (s : State) (slow : Bool) : State :=
  let s := (List.range 8).foldl (fun s n =>
    let t := s.rd (R.THM_DIE_T n) 0
    let u := thermalTerm s slow n
    raiseIf (t == 64 && decide (u < 64)) (s.wr (R.THM_DIE_T n) 0 u) .THM 0 4) s
  let s := s.wr R.THM_STS_THROTTLING 0 (b2n (throttling s))
  let s := if slow then s else
    let s := if throttling s then s.inc R.THM_THROTTLED_THROTTLED 0 1 else s
    raiseIf ((List.range 16).any (fun st => decide (hbmLimitC s < s.rd R.HBM_TEMP_TEMP st))) s .THM 0 6
  refreshCaps s

/-- THERMAL_EVAL (R422). -/
def execThermalEval (slow : Bool) (s : State) : Outcome := live s (thermalEval s slow)

/-- THERMAL_TRIP (R425): a working sensor reads 110 °C or more: the trip is latched, every clock but the always-on one stops,
the outputs are disabled and HBM is lost. -/
def thermalTrip (s : State) (id temp : Nat) : State :=
  let p := sensorPlace id
  if temp < 110 ∨ !bitOf (s.rd (okField p.1) 0) p.2 then s
  else
    let s := { s with power := { s.power with on := false, trip := some (id, temp, s.now) } }
    (s.undefine 0 (2 ^ 48)).emit (.pin "THERMTRIP_N" false)

/-- THERMAL_TRIP (R425). -/
def execThermalTrip (sensor temp : Nat) (s : State) : Outcome := onUnit s sensor 36 (thermalTrip s sensor temp)

/-! Clocks (R427, R428) -/

/-- PLL_UNLOCK (R427): the loop of die slot `d` loses lock; the die must then be reset; a bring-up stops (R482). -/
def pllUnlock (s : State) (d : Nat) : State :=
  let f := if d < 8 then R.CLK_STS_CD_LOCK else R.CLK_STS_PD_LOCK
  let b := if d < 8 then d else d - 8
  let s := s.wr f 0 (s.rd f 0 - (if bitOf (s.rd f 0) b then 2 ^ b else 0))
  let s := { s with smc := { s.smc with unlocked := s.smc.unlocked ||| 2 ^ d } }
  haltBringup (logErr (raise s .CLK 0 4) .CLK 0 1 .DOMAIN d 0 [0, 0, 0]) 3

/-- PLL_UNLOCK (R427). -/
def execPllUnlock (d : Nat) (s : State) : Outcome := onUnit s d 10 (pllUnlock s d)

/-- SLEEP_US in ns: values below 10 act as 10. -/
def sleepNs (s : State) : Nat := max 10 (s.rd R.CLK_CFG_SLEEP_US 0) * 1000

/-- Whether the engines of a die have had nothing to do for SLEEP_US (R428). -/
def dieIdle (s : State) (n : Nat) : Bool :=
  let t := sleepNs s
  (List.range 64).all (fun c => homeDie s c != n ||
      ((ctxOf s c).state != .ready && (ctxOf s c).state != .running && ((ctxOf s c).state == .free || decide ((ctxOf s c).since + t ≤ s.clock))))
    && (List.range 40).all (fun m => !anvilBusy (anvilOf s n m) && decide ((anvilOf s n m).idleSince + t ≤ s.clock))
    && (List.range 8).all (fun m => (swageOf s n m).slots.isEmpty && decide ((swageOf s n m).idleSince + t ≤ s.clock))
    && (claimOf s.bist.anvClaim n).isNone && (claimOf s.bist.swgClaim n).isNone && (captureOf s n).isNone
    && !s.weld.colls.any (fun e => e.2.home == n || e.2.die == n)
    && !s.flights.any (fun e => e.2.work == .gather && homeDie s e.2.ctx == n)

/-- DIE_SLEEP (R428): the engine clocks of an idle die stop. -/
def dieSleep (s : State) (n : Nat) : State :=
  let a := s.rd R.CLK_STS_AWAKE 0
  if s.on R.CLK_CFG_SLEEP_EN 0 ∧ dieIdle s n ∧ bitOf a n then s.wr R.CLK_STS_AWAKE 0 (a - 2 ^ n) else s

/-- DIE_SLEEP (R428). -/
def execDieSleep (die : Nat) (s : State) : Outcome := onUnit s die 8 (dieSleep s die)

/-- DIE_WAKE (R428): the engine clocks run again after `ns`; Q_n is 0 (R419). -/
def dieWake (s : State) (n ns : Nat) : State :=
  let a := s.rd R.CLK_STS_AWAKE 0
  if bitOf a n ∨ s.on R.DIE_STS_IN_RESET n then s
  else
    let s := (s.wr R.CLK_STS_AWAKE 0 (a + 2 ^ n)).inc R.CLK_WAKES_WAKES 0 1
    let s := s.wr R.CLK_WAKE_MAX_NS 0 (max (s.rd R.CLK_WAKE_MAX_NS 0) (min 0xFFFF ns))
    refreshCap (s.wr R.BLW_STS_Q n 0) n

/-- DIE_WAKE (R428). -/
def execDieWake (die ns : Nat) (s : State) : Outcome := onUnit s die 8 (dieWake s die ns)

end Sys2Proof.Machine
end

