-- ==== Sys2Proof/Machine/Temper.lean ====
section
/-! DEFINITION. The step (chapter 1, R222 to R225, R310 to R312): the records HOLD, STEP and TEMPER, the checks, the vote, its
result, the flip, the discard and the replay. -/

namespace Sys2Proof.Machine

open Sys2Proof

/-! HOLD, STEP and TEMPER (R222, R223) -/

/-- The record of opcode `op` that a context executes, or in which it is blocked for `b`. -/
def blockedRec (s : State) (c op : Nat) (b : Block) : Option Rec :=
  let x := ctxOf s c
  match x.cur with
  | some r => if r.opcode == op && (x.state == .running || (x.state == .waiting && x.block == b)) then some r else none
  | none => none

/-- The context waits in its record. -/
def blockOn (s : State) (c : Nat) (b : Block) : State :=
  let x := ctxOf s c
  if x.state = .waiting ∧ x.block = b then s else s.setCtx c { x with state := .waiting, block := b, since := s.clock }

/-- HOLD or STEP completes: CTX_RESTART is the next record, with the call and loop state (R223). -/
def markRestart (s : State) (c : Nat) (r : Rec) : State :=
  let x := ctxOf s c
  let pc := match x.pc with | some a => Pc.mem a | none => Pc.ring x.qpos
  finishCur (s.setCtx c { x with restart := some { step := s.tmp.step, pc := pc, frames := x.frames } }) c r

/-- The head of the hold image (Table 8.8). -/
def holdHead (s : State) (r : Rec) : List Byte :=
  (leBytes 8 s.tmp.step ++ leBytes 8 (r.op64 0x18) ++ leBytes 8 (r.op64 0x20) ++ leBytes 4 r.batchLen
    ++ List.replicate 256 0).take 256

/-- The image at HOLD_BASE goes to the buddy's WARD_HOLD as KIND HOLD, in packets of at most 4,064 data bytes (R307, R311). -/
def sendHold (s : State) : State :=
  let len := 256 + s.loadNat (s.map.hold + 0x18) 4
  let ks := cutSegment 0 len 4064
  let s := { s with attempt := { s.attempt with holdWriteLeft := ks.length, holdWriting := true, wardAcked := false } }
  ks.foldl (fun s k =>
    let p : OutPkt :=
      { cls := .WELD, addr := wardHoldBase + k.2.1, head := weldHead 4 0 0 0 0 k.2.1 0 s.tmp.step,
        src := some (s.map.hold + k.2.1, k.2.2 - k.2.1), owner := .holdWrite, stepTag := true, abandoned := false }
    sendTree s (s.rd R.TMP_BUDDY_BUDDY_NODE 0) p) s

/-- A STOP held for this (STEP, ATT) is applied once an attempt is live in it, and dropped once its tag can no longer come
(R286). -/
def applyHeldStop (s : State) : State :=
  match s.attempt.heldStop with
  | none => s
  | some h =>
    let t := { s with attempt := { s.attempt with heldStop := none } }
    match tagOrder s h.1 h.2.1 with
    | .equal => if attemptLive s then stopApply t else s
    | .successor => s
    | .other => t.inc R.SLC_STALE_STALE slcI 1

/-- Phase 1 begins: the hold is written at HOLD_BASE with the batch, the Spark seeds are set and the image goes to the buddy
(R222 steps 2 to 4). -/
def beginHold (s : State) (c : Nat) (r : Rec) : State :=
  let a := r.addr s c 8
  let rd := readAny s a r.batchLen
  let s := rd.2.store s.map.hold (holdHead s r ++ rd.1)
  let s := (s.wr R.SPK_HOLD_G_HOLD_SEED_G 0 (r.op64 0x18)).wr R.SPK_HOLD_U_HOLD_SEED_U 0 (r.op64 0x20)
  let s := { s with
    tmp := { s.tmp with phase := .hold }
    attempt := { Attempt.fresh with heldStop := s.attempt.heldStop } }
  applyHeldStop (sendHold (blockOn s c .hold))

/-- HOLD (R222): under a valid hold it marks the restart point once PHASE = RUN; else it waits until PHASE = IDLE, no cut runs
(R401) and a restored module is FILLED (R411), and starts phase 1. -/
def holdRec (s : State) (c : Nat) (r : Rec) : State :=
  if s.tmp.holdValid then (if s.tmp.phase = .run then markRestart s c r else blockOn s c .hold)
  else if s.tmp.phase = .idle ∧ s.rd R.CKP_STS_STATE 0 = 0 ∧ s.on R.CKP_STS_FILLED 0 then
    match unservable s c r [(r.addr s c 8, r.batchLen)] with
    | some t => t
    | none => if waitsHearth s (r.addr s c 8) r.batchLen then blockOn s c .hold else beginHold s c r
  else blockOn s c .hold

/-- HOLD (R222). -/
def execHold (ctx : Nat) (s : State) : Outcome :=
  onUnit s ctx 64 (match blockedRec s ctx 0x50 .hold with | some r => holdRec s ctx r | none => s)

/-- WARD_HOLD_ACK (R22): every packet of the image is acknowledged: HOLD_VALID, PHASE = RUN, and the HOLD completes. -/
def wardHoldAcked (s : State) : State :=
  if s.tmp.phase = .hold ∧ s.attempt.holdWriting ∧ s.attempt.holdWriteLeft = 0 then
    let s := { s with
      tmp := { s.tmp with phase := .run, holdValid := true }
      attempt := { s.attempt with holdWriting := false, wardAcked := true } }
    match holdCtx s with
    | some (c, r) => markRestart s c r
    | none => s
  else s

/-- WARD_HOLD_ACK (R22). -/
def execWardHoldAck (s : State) : Outcome := live s (wardHoldAcked s)

/-- STEP (R223): waits until PHASE = RUN and marks the restart point. -/
def stepRec (s : State) (c : Nat) (r : Rec) : State :=
  if s.tmp.phase = .run then markRestart s c r else blockOn s c .step

/-- STEP (R223). -/
def execStep (ctx : Nat) (s : State) : Outcome :=
  onUnit s ctx 64 (match blockedRec s ctx 0x51 .step with | some r => stepRec s ctx r | none => s)

/-- TEMPER (R223): waits for the flip. -/
def execTemper (ctx : Nat) (s : State) : Outcome := onRec s ctx 0x52 (fun _ => blockOn s ctx .temper)

/-! The checks (R24) -/

/-- Whether a context waits in TEMPER. -/
def inTemper (s : State) (c : Nat) : Bool := (ctxOf s c).state == .waiting && (ctxOf s c).block == .temper

/-- Whether a transfer of the attempt is still to complete (R24). -/
def workLeft (s : State) : Bool := s.flights.any (fun e => e.2.tagged && !e.2.abandoned) || tongsActive s

/-- CHECK_START (R24, R223, R310, R348): phase 6 begins; a mirror not whole is a step fault, a Touchmark that is due is folded. -/
def startChecks (s : State) : State :=
  if s.tmp.phase = .run ∧ !(stepCtxs s).isEmpty ∧ (stepCtxs s).all (inTemper s) ∧ !workLeft s then
    let s := { s with tmp := { s.tmp with phase := .check }, attempt := { s.attempt with checkStarted := true } }
    let s := if mirrorMarked s = mirrorNeed s ∧ s.attempt.wardAcked then s else stepFault s .mirrorFail
    if touchDue s then foldTouch s else s
  else s

/-- CHECK_START (R24). -/
def execCheckStart (s : State) : Outcome := live s (startChecks s)

/-! The flip (R27) -/

/-- The three INACTIVE banks become undefined (Table 1.3). -/
def undefineInactive (s : State) : State :=
  (List.range 3).foldl (fun s p => s.undefine (pairBase s.map p (!s.tmp.activeBank)) (pairSize s.map p)) s

/-- Every STEP counter returns to its initial value (R225). -/
def resetStepCounters (s : State) : State :=
  (s.syn.counters.filter (fun e => e.2.stepFlag)).foldl (fun s e => counterSet s e.1 e.2 e.2.init) s

/-- The deferred operations after a flip or discard (R225): those now current are applied in arrival order, those that can no
longer become current are dropped and counted. -/
def applyDeferred (s : State) : State :=
  let q := s.syn.deferred
  q.foldl (fun s d => match tagOrder s d.step d.att with
    | .equal => counterOp s d.phys d.op d.value
    | .successor => { s with syn := { s.syn with deferred := s.syn.deferred ++ [d] } }
    | .other => s.inc R.SYN_DROP_STALE_DROP_STALE 0 1) { s with syn := { s.syn with deferred := [] } }

/-- What a flip and a discard do to the work of the step: slots closed (R323), the peak that Tongs keeps, the Touchmark table to
be zeroed (R347), READYs and failures of the past attempt forgotten. -/
def endAttempt (s : State) : State :=
  let s := (closeSlots s).wr R.ALG_PEAK_PEAK 0 0
  let gone := fun (t : Option (Nat × Nat)) => match t with | some k => tagOrder s k.1 k.2 == .other | none => false
  { s with
    tchZeroing := true
    weld := { s.weld with held := s.weld.held.filter (fun r => !gone r.tag), failed := s.weld.failed.filter (fun f => !gone f.2) } }

/-- A CUT whose sending waited for the flip or discard is sent (R287). -/
def sendDeferredCut (s : State) : State :=
  match s.xp.slc.cutDeferred with
  | some cause => requestCut { s with xp := { s.xp with slc := { s.xp.slc with cutDeferred := none } } } cause
  | none => s

/-- The flip (R27), with its time, the reduced CAP if a result carried one, and whether it is late: the step is tempered in one
act; then STEP counters and deferred operations, TEMPER completes, and a pending cut of the step begins (R401). -/
def flipAct (s : State) (time : Nat) (cap : Option Nat) (late : Bool) : State :=
  let t := s.tmp
  let s := { s with
    tmp := { t with
      activeBank := !t.activeBank, tempered := t.step, flipTime := time, holdValid := false, wardHoldValid := false,
      step := (t.step + 1) % 2 ^ 64, replayCount := 0, phase := .idle, att := 0,
      lateFlips := if late then min 0xFF (t.lateFlips + 1) else t.lateFlips }
    attempt := { Attempt.fresh with heldStop := s.attempt.heldStop } }
  let s := match cap with | some c => lockAt s c | none => s
  let s := dropHeldHeals (undefineInactive s)
  let s := s.wr R.ALG_PEAK_LAST_PEAK_LAST 0 (s.rd R.ALG_PEAK_PEAK 0)
  let s := endAttempt s
  let s := applyDeferred (resetStepCounters s)
  let s := s.wr R.CKP_STS_RESTORED 0 0
  let s := raiseIf late (raise s .TMP 0 9) .TMP 0 10
  let s := ((List.range 64).filter (inTemper s)).foldl (fun s c =>
    match (ctxOf s c).cur with | some r => finishCur s c r | none => s) s
  applyHeldStop (sendDeferredCut (startCut s time))

/-- FLIP (R27): at T_flip the held OK result takes effect. -/
def flipDue (s : State) : State :=
  match s.tmp.phase, s.attempt.result with
  | .flipWait, some (t, cap) => if t ≤ s.now then flipAct s t (some cap) false else s
  | _, _ => s

/-- FLIP (R27). -/
def execFlip (s : State) : Outcome := live s (flipDue s)

/-! The discard (R28, R224, R225) -/

/-- A step context returns to its restart point of this step; one that has not passed its restart record goes on in it, or
with its failed record (R224, R232). -/
def rewindCtx (s : State) (c : Nat) : State :=
  let x := ctxOf s c
  let ours := match x.restart with | some r => r.step == s.tmp.step | none => false
  match x.restart, x.failed with
  | some r, _ =>
    if ours then
      let s := clearErr (abandonPackets (cancelSub s c) (fun o => o == .ctx c)) c
      let x := ctxOf s c
      let pc := match r.pc with | .mem a => some a | .ring _ => none
      let st := if x.state = .preempted then CtxState.preempted else .waiting
      settle (s.setCtx c { x with
        state := st, pc := pc, frames := r.frames, cur := none, wait := none, failed := none, reissue := [],
        block := .none, deferredErr := false, since := s.clock }) c
    else rewindHeld s c x
  | none, _ => rewindHeld s c x
where
  /-- A STEP_HELD context without a restart point of this step: a failed HOLD waits again, any other record is issued again. -/
  rewindHeld (s : State) (c : Nat) (x : Ctx) : State :=
    match x.state, x.failed with
    | .stepHeld, some r =>
      let s := clearErr s c
      if r.opcode = 0x50 then
        s.setCtx c { x with state := .waiting, block := .hold, cur := some r, failed := none, since := s.clock }
      else
        settle (s.setCtx c { x with
          state := .waiting, block := .none, failed := none, reissue := (if r.fetched then [r] else []) ++ x.reissue }) c
    | _, _ => s

/-- The commands whose work a discard abandons: those of the attempt in flight, and those that a STOP has already ended. -/
def attemptWork (s : State) : List Nat :=
  let gone := fun (id : Nat) => (flightOf s id).isNone
  (s.flights.filter (fun e => e.2.tagged)).map (·.1) ++ (s.eng.mmas.map (·.1)).filter gone
    ++ (s.eng.vecs.map (·.1)).filter gone ++ (s.gathers.map (·.1)).filter gone ++ (s.weld.colls.map (·.1)).filter gone
    ++ s.weld.waiting.filter gone

/-- The work of the attempt is abandoned and the step contexts return to their restart points (R224). -/
def rewindStep (s : State) : State :=
  let s := abandonWork s (attemptWork s) false
  let s := abandonHoldWrite s
  (stepCtxs s).foldl rewindCtx s

/-- ATT moves on (R225); the attempt discarded is kept for its tally (R349). -/
def nextAtt (s : State) : State :=
  { s with
    tmp := { s.tmp with att := (s.tmp.att + 1) % 256 }
    weld := { s.weld with discarded := some (s.tmp.step, s.tmp.att) } }

/-- PHASE = STOPPED with REPLAY_EXHAUSTED (R31). -/
def exhaust (s : State) : State :=
  let s := raise (enterStopped s .replayExhausted) .TMP 0 6
  logErr s .TMP 0 3 .STEP (ownRank s) 0 (tmpDetail s Reason.replayExhausted.code)

/-- The replay begins (R28, R224): at phase 2 under the hold, issue resuming at `resume`; where the buddy has not acknowledged
the hold, its write is repeated from the local hold (Table 1.1). -/
def startReplay (s : State) (resume : Nat) : State :=
  let s := { s with attempt := { s.attempt with resumeAt := if s.now < resume then some resume else none } }
  if s.tmp.holdValid then { s with tmp := { s.tmp with phase := .run } }
  else sendHold { s with tmp := { s.tmp with phase := .hold } }

/-- The attempt's outcome at this module is a discard (R28): banks, hold, reason and count as R28 says; ATT, STEP counters and
deferred operations (R225); the rewind (R224). It ends in STOPPED where the hold was lost (R188), the replays are exhausted
(R31) or a step context was reset (R232), and else in the replay. -/
def discardAct (s : State) (r : Reason) (resume : Nat) (result : Bool) : State :=
  let a := s.attempt
  let t := s.tmp
  let s := rewindStep { s with tmp := { t with lastReason := r, replayCount := min 0xFF (t.replayCount + 1) } }
  let s := nextAtt (undefineInactive s)
  let s := { s with attempt :=
    { Attempt.fresh with heldStop := a.heldStop, wardAcked := s.tmp.holdValid && a.wardAcked } }
  let s := endAttempt s
  let s := applyDeferred (resetStepCounters s)
  let s := raise s .TMP 0 8
  let s :=
    if a.holdGone then enterStopped s .uncorrectable
    else if result ∧ max 1 (s.rd R.TMP_CFG_REPLAY_LIMIT 0) ≤ s.tmp.replayCount then exhaust s
    else if a.ctxLost then { s with tmp := { s.tmp with phase := .stopped }, attempt := { s.attempt with frozen := true } }
    else startReplay s resume
  applyHeldStop (sendDeferredCut (startHeldHeals s))

/-- REPLAY_START (R224): issue of the step contexts resumes. -/
def resumeIssue (s : State) : State :=
  match s.attempt.resumeAt with
  | some t => if t ≤ s.now then { s with attempt := { s.attempt with resumeAt := none } } else s
  | none => s

/-- REPLAY_START (R224). -/
def execReplayStart (s : State) : Outcome := live s (resumeIssue s)

/-! The vote (R25, R312) -/

/-- The module's own vote (Table 1.2). -/
def ownVote (s : State) : Vote :=
  let a := s.attempt
  { stepMin := s.tmp.step, stepMax := s.tmp.step, ok := a.fault.isNone, reason := (a.fault.getD .none).code, rank := ownRank s,
    tvAnd := a.touchValid, tvOr := a.touchValid, touchMin := a.touch, touchMax := a.touch, cap := voteCap s,
    flipT := s.now + max 10 (s.rd R.TMP_CFG_FLIP_DELAY 0) * 1000, restored := s.on R.CKP_STS_RESTORED 0 }

/-- A step vote's result that names this module's attempt (R26 to R28): an OK result is held until T_flip, or acted on at once
when late; a FAIL result discards, and TOUCHMARK_MISMATCH starts a tally (R349). -/
def voteResult (s : State) (bs : List Byte) : State :=
  let v := voteOf bs
  if s.tmp.phase = .vote ∧ v.stepMin ≤ s.tmp.step ∧ s.tmp.step ≤ v.stepMax ∧ voteAtt bs = s.tmp.att then
    match v.fails with
    | none =>
      let s := { s with attempt := { s.attempt with result := some (v.flipT, v.cap) } }
      if v.flipT < s.now then flipAct s s.now (some v.cap) true else { s with tmp := { s.tmp with phase := .flipWait } }
    | some r =>
      let a := s.attempt
      let t := s.tmp
      let s := discardAct s r v.flipT true
      if r = .touchmarkMismatch then startTally s v t.step t.att a.touchValid a.touch else s
  else s

/-- What a result of a tree does at this module. -/
def resultActs (s : State) (tree : Nat) (bs : List Byte) : State :=
  if tree = 0 then voteResult s bs
  else if tree = 1 then tallyResult s bs
  else if tree = 2 then preCutResult s bs
  else if tree = 3 then postCutResult s bs
  else s

/-- VOTE_SEND (R25): sent once the checks are done, and at once where a STOP ended the attempt (R286); never while a heal runs
(R189) or a Loupe checks a tile of the attempt (R345). -/
def sendVote (s : State) : State :=
  if s.tmp.phase = .check ∧ s.attempt.checkStarted ∧ s.attempt.vote.isNone ∧ s.heals.all (·.held) ∧ !loupeHoldsVote s then
    let v := ownVote s
    let s := { s with
      tmp := { s.tmp with phase := .vote }
      attempt := { s.attempt with vote := some v, deadline := s.clock + voteTimeoutNs s } }
    match contribute s 0 none (voteBytes v s.tmp.att) with
    | (t, some total) => voteResult t total
    | (t, none) => t
  else s

/-- VOTE_SEND (R25). -/
def execVoteSend (s : State) : Outcome := live s (sendVote s)

/-- Whether a packet carries the record of the child at its level. -/
def fromChild (s : State) (p : Packet) : Bool :=
  (wData p).length == 64 && wTree p < 4 && (voteKids s).any (fun k => k.1 == wLevel p && nodeOfRank s k.2 == p.src)

/-- A record of a tree arrives from a child (R312); a tally record of another attempt than the discarded one is ignored
(R349). -/
def deliverVote : Delivery := fun s _ p =>
  let bs := wData p
  if fromChild s p && (wTree p != 1 || s.weld.discarded == some (recordKey 1 bs)) then
    match contribute s (wTree p) (some (wLevel p)) bs with
    | (t, some total) => (resultActs t (wTree p) total, .done)
    | (t, none) => (t, .done)
  else (s, .drop)

/-- VOTE (R312). -/
def execVote (plane : Nat) (p : Packet) (s : State) : Outcome := onUnit s plane 32 (receiveWeld s plane 5 p deliverVote)

/-- A result arrives from the parent (R312): it goes down the tree and takes effect here. -/
def deliverResult (only : Nat → Bool) : Delivery := fun s _ p =>
  let bs := wData p
  if bs.length == 64 && only (wTree p) then (resultActs (sendResult s (wTree p) bs) (wTree p) bs, .done) else (s, .drop)

/-- RESULT (R26, R312). -/
def execResult (plane : Nat) (p : Packet) (s : State) : Outcome :=
  onUnit s plane 32 (if wTree p = 2 ∨ wTree p = 3 then s else receiveWeld s plane 6 p (deliverResult (fun t => decide (t < 2))))

/-- PRE_CUT_RESULT (R403). -/
def execPreCutResult (plane : Nat) (p : Packet) (s : State) : Outcome :=
  onUnit s plane 32 (if wTree p = 2 then receiveWeld s plane 6 p (deliverResult (· == 2)) else s)

/-- POST_CUT_RESULT (R403). -/
def execPostCutResult (plane : Nat) (p : Packet) (s : State) : Outcome :=
  onUnit s plane 32 (if wTree p = 3 then receiveWeld s plane 6 p (deliverResult (· == 3)) else s)

/-! In doubt, and the end of a stop (R29 to R31) -/

/-- VOTE_TIMEOUT (R29): the module is in doubt and sends STOP; it neither flips nor discards. -/
def voteLate (s : State) : State :=
  if s.tmp.phase = .vote ∧ s.attempt.deadline ≤ s.clock then
    let s := raise { s with tmp := { s.tmp with phase := .inDoubt } } .TMP 0 5
    let s := logErr s .TMP 0 2 .STEP (ownRank s) 0 (tmpDetail s s.tmp.lastReason.code)
    sendStopBurst s .voteTimeout
  else s

/-- VOTE_TIMEOUT (R29). -/
def execVoteTimeout (s : State) : Outcome := live s (voteLate s)

/-- RESOLVE = FORWARD (R30): the flip at once; L is unchanged (R421). It is counted as late. -/
def execResolveForward (s : State) : Outcome :=
  live s (if s.tmp.phase = .inDoubt then flipAct s s.now none true else s)

/-- RESOLVE = DISCARD (R30): the discard with RESOLVED_DISCARD; issue resumes at once (R224). -/
def execResolveDiscard (s : State) : Outcome :=
  live s (if s.tmp.phase = .inDoubt then discardAct s .resolvedDiscard s.now false else s)

/-- REPLAY_RESUME (R31, R188): from STOPPED under a valid hold REPLAY_COUNT is cleared and the replay starts; an attempt that
stopped without a discard is rewound first. -/
def resumeReplay (s : State) : State :=
  if s.tmp.phase = .stopped ∧ s.tmp.holdValid then
    let done := match s.weld.discarded with
      | some k => k.1 == s.tmp.step && (k.2 + 1) % 256 == s.tmp.att
      | none => false
    let s := if done then s else applyDeferred (resetStepCounters (endAttempt (nextAtt (undefineInactive (rewindStep s)))))
    let a := s.attempt
    let s := { s with
      tmp := { s.tmp with replayCount := 0 }
      attempt := { Attempt.fresh with heldStop := a.heldStop, wardAcked := a.wardAcked } }
    applyHeldStop (startReplay s s.now)
  else s

/-- REPLAY_RESUME (R31). -/
def execReplayResume (s : State) : Outcome := live s (resumeReplay s)

end Sys2Proof.Machine
end

