-- ==== Sys2Proof/Machine/Resets.lean ====
section
/-! DEFINITION. The reset family (chapter 14): the fault record (R379 to R381), the reset of each domain (R371 to R375), requested
resets (R376 to R378), PERST# (R434) and the watchdog (R383). -/

namespace Sys2Proof.Machine

open Sys2Proof

/-! The fault record (R379 to R381) -/

/-- A range written whole: its zero bytes are listed nowhere. -/
def Memory.place (m : Memory) (a : Nat) (bs : List Byte) : Memory :=
  let cells := ((bs.zipIdx a).filter (fun x => x.1 != 0)).map (fun x => (x.2, x.1))
  { cells := m.cells.filter (fun c => c.1 < a) ++ cells ++ m.cells.filter (fun c => a + bs.length ≤ c.1),
    marks := (a, bs.length, none) :: m.marks }

/-- Bytes placed at an offset of FREC. -/
def placeFrec (s : State) (off : Nat) (bs : List Byte) : State := { s with mem := s.mem.place (frecBase + off) bs }

/-- Section `i` of the record with known contents: the state and its part of the header, offset, length, CRC-32C and time of
capture (Tables 14.6 and 14.7). -/
def frecSection (s : State) (off : Nat) (bs : List Byte) : State × List Byte :=
  (placeFrec s off bs, leBytes 4 off ++ leBytes 4 bs.length ++ leBytes 4 (crc32c bs) ++ leBytes 4 (s.now / 1000))

/-- A section whose layout the spec does not give: its bytes are undefined (log entry 3). -/
def frecOpen (s : State) (off len : Nat) : State × List Byte :=
  let bs := (List.range len).map (fun k => Config.freeByte (s.free + 1) (frecBase + off + k))
  (s.undefine (frecBase + off) len, leBytes 4 off ++ leBytes 4 len ++ leBytes 4 (crc32c bs) ++ leBytes 4 (s.now / 1000))

/-- The 4 KiB image of a page slot, zero where no page is (Table 14.6 section 0). -/
def pageBytes (s : State) (slot : Nat) : List Byte :=
  match pageAt slot with
  | some _ => (List.range 1024).flatMap (fun k => leBytes 4 (slotWord s slot (4 * k)))
  | none => List.replicate 4096 0

/-- Section 1: each context's dispatcher state, whose layout the spec does not give, and its queue entries. -/
def ctxSection (s : State) : State × List Byte :=
  let tag := s.free + 1
  let image := fun (c : Nat) =>
    let q := (ctxOf s c).queue.flatten.take 65536
    (List.range 8192).map (fun k => Config.freeByte tag (frecBase + 0x210000 + c * 0x12000 + k)) ++ q
      ++ List.replicate (65536 - q.length) 0
  let bs := (List.range 64).flatMap image
  let s := placeFrec s 0x210000 bs
  let s := (List.range 64).foldl (fun s c =>
    { s with mem := s.mem.blankRange (frecBase + 0x210000 + c * 0x12000) 8192 (some tag) }) s
  ({ s with free := tag },
    leBytes 4 0x210000 ++ leBytes 4 0x480000 ++ leBytes 4 (crc32c bs) ++ leBytes 4 (s.now / 1000))

/-- The 16 bytes of counter `k` (Table 14.6 section 2). -/
def counterBytes (s : State) (k : Nat) : List Byte :=
  match counterOf s k with
  | some x =>
    leBytes 8 x.value ++ leBytes 8 (x.owner % 2 ^ 16 + 2 ^ 16 + b2n x.broken * 2 ^ 17 + b2n x.stepFlag * 2 ^ 18
      + b2n x.remoteOk * 2 ^ 19 + min 255 (waitersOf s k).length * 2 ^ 24)
  | none => List.replicate 16 0

/-- The 64 bytes of flow `f` (Table 14.6 section 4): FLW_VIEW0, FLW_VIEW1, the oldest unacknowledged ADDR and its tries, each taken
as 8 bytes. -/
def flowBytes (s : State) (f : Nat) : List Byte :=
  let x := flowOf s f
  let v0 := x.state.code + x.cause * 2 ^ 4 + x.peerFlow * 2 ^ 8 + x.peer * 2 ^ 20 + x.unacked.length * 2 ^ 36
  let u := x.unacked.head?
  leBytes 8 v0 ++ leBytes 8 (x.txNext % 2 ^ 32 + x.rxCum % 2 ^ 32 * 2 ^ 32)
    ++ leBytes 8 (match u with | some a => a.pkt.addr | none => 0) ++ leBytes 8 (match u with | some a => a.tries | none => 0)
    ++ List.replicate 32 0

/-- The eight sections of the record and their parts of the header. -/
def frecSections (s : State) : State × List Byte :=
  let r0 := frecSection s 0x10000 ((List.range 512).flatMap (pageBytes s))
  let r1 := ctxSection r0.1
  let r2 := frecSection r1.1 0x690000 ((List.range 65536).flatMap (counterBytes s))
  let r3 := frecOpen r2.1 0x790000 0x40000
  let r4 := frecSection r3.1 0x7D0000 ((List.range 4096).flatMap (flowBytes s))
  let r5 := frecOpen r4.1 0x810000 0x20000
  let r6 := frecOpen r5.1 0x830000 0x100000
  let r7 := frecOpen r6.1 0x930000 0x200000
  (placeFrec r7.1 0xB30000 (List.replicate 0x4D0000 0), r0.2 ++ r1.2 ++ r2.2 ++ r3.2 ++ r4.2 ++ r5.2 ++ r6.2 ++ r7.2)

/-- The header of Table 14.7 up to the CRC, with `parts` of its sections. -/
def frecHeader (s : State) (parts : List Byte) : List Byte :=
  let t := s.tmp
  leBytes 4 0x43455246 ++ leBytes 4 0x0100 ++ leBytes 4 (s.rd R.FLT_REC_SEQ_SEQ 0)
    ++ leBytes 4 (s.rd R.FLT_RST_DOMAIN 0 + s.rd R.FLT_RST_TARGET 0 * 2 ^ 8 + s.rd R.FLT_RST_NO_STOP 0 * 2 ^ 16
        + b2n s.attempt.stopSent * 2 ^ 17)
    ++ leBytes 8 s.now ++ leBytes 8 s.now ++ leBytes 8 t.step ++ leBytes 8 t.tempered
    ++ leBytes 4 (t.phase.code + b2n t.activeBank * 2 ^ 4 + t.lastReason.code * 2 ^ 8 + t.att * 2 ^ 16 + t.replayCount * 2 ^ 24)
    ++ leBytes 4 (pohNow s) ++ leBytes 4 (s.xp.slc.cur.own + s.xp.slc.cur.slice * 2 ^ 16) ++ leBytes 4 0
    ++ parts ++ List.replicate 56 0

/-- The fault record is written (R379): the history shifts, the sections, the header with its CRC, and COMPLETE. -/
def writeRecord (s : State) : State :=
  let old := s.load frecBase 0x100
  let history := old ++ s.load (frecBase + 0x1000) 0x700
  let s := s.inc R.FLT_REC_SEQ_SEQ 0 1
  let r := frecSections s
  let h := frecHeader s r.2
  let s := placeFrec r.1 0x1000 history
  let s := placeFrec s 0 (h ++ leBytes 4 (crc32c h) ++ leBytes 4 1)
  raise (s.wr R.FLT_STS_FREC_PENDING 0 1) .FLT 0 12

/-- The record of a reset of (domain, target), or RECORD_FAIL where HS0.PC0 cannot be written (R381). -/
def faultRecord (s : State) (dom target : Nat) : State :=
  if hbmServes s frecBase then writeRecord s
  else logErr (raise (s.wr R.FLT_STS_FREC_FAIL 0 1) .FLT 0 13) .FLT 0 2 .DOMAIN (dom + 256 * target) 0 [0, 0, 0]

/-- FREC_ACK (R381). -/
def execFrecAck (s : State) : Outcome := live s (s.wr R.FLT_STS_FREC_PENDING 0 0)

/-! What a reset does to pages, collectives and transfers -/

/-- The slots of the pages that `sel` names. -/
def slotsWhere (sel : Page → Nat → Bool) : List Nat :=
  (List.range 512).filter (fun p => match pageAt p with | some x => sel x.1 x.2 | none => false)

/-- Every field of the pages in `slots` returns to its reset value, staged applies are lost, error logs are cleared (R56). -/
def resetSlots (s : State) (slots : List Nat) : State :=
  let keep := fun (e : Key × Nat) => !slots.contains e.1.slot
  { s with
    regs := s.regs.filter keep
    shadow := s.shadow.filter keep
    staged := s.staged.filter keep
    errlog := s.errlog.filter (fun e => !slots.contains e.1)
    snaps := s.snaps.filter (fun e => !slots.contains e.1) }

/-- Every collective in flight on the module is lost, with what it hosted (R309, R313). -/
def loseColls (s : State) : State :=
  let s := (s.weld.colls.map (·.1)).foldl (fun s id => failColl s id 0x0A 0 0) s
  { s with weld := { s.weld with votes := [] } }

/-- Transfers in flight within the module that meet memory which cannot serve are lost (R375). -/
def loseFlights (s : State) : State :=
  let meets := fun (e : Nat × Flight) =>
    match e.2.work with
    | .copyLocal => (accessBlocked s e.2.src e.2.len).isSome || (accessBlocked s e.2.dst e.2.len).isSome
    | .gather => (accessBlocked s e.2.dst (32 * e.2.len)).isSome
        || (Tbl.get [] s.gathers e.1).any (fun i => (accessBlocked s (e.2.src + 32 * i) 32).isSome)
    | _ => false
  { s with flights := s.flights.map (fun e => if meets e then (e.1, { e.2 with lost := true }) else e) }

/-- A stack enters self-refresh (R197): its contents, map-out and repair stay. -/
def holdStack (s : State) (n : Nat) : State :=
  let x := stackOf s n
  if x.trained || x.failed then s.setStack n { x with selfRefresh := true, hot := false } else s

/-- RETIRED of a PERMANENT Loupe is set again after its page was reset (R355). -/
def restoreLoupe (s : State) (n : Nat) : State :=
  if s.ledger.permanent.contains (loupeId n) then s.wr R.LPE_STS_RETIRED n 1 else s

/-- The loop of a die slot locks at its release (R427). -/
def lockDie (s : State) (d : Nat) : State :=
  let f := if d < 8 then R.CLK_STS_CD_LOCK else R.CLK_STS_PD_LOCK
  let b := if d < 8 then d else d - 8
  let s := s.wr f 0 (s.rd f 0 ||| 2 ^ b)
  { s with smc := { s.smc with unlocked := s.smc.unlocked - (s.smc.unlocked &&& 2 ^ d) } }

/-! DIE, PORT and CHIP -/

/-- The engines and queues of a compute die, emptied. -/
def clearDie (s : State) (n : Nat) : State :=
  let eng := { s.eng with
    anvils := s.eng.anvils.filter (fun e => e.1 / 40 != n)
    mmas := s.eng.mmas.filter (fun e => e.2.die != n)
    swages := s.eng.swages.filter (fun e => e.1 / 8 != n)
    vecs := s.eng.vecs.filter (fun e => e.2.die != n)
    deferred := s.eng.deferred.filter (· != n)
    captures := s.eng.captures.filter (fun e => e.1 != n) }
  let bist := { s.bist with
    anvClaim := s.bist.anvClaim.filter (fun e => e.1 != n)
    swgClaim := s.bist.swgClaim.filter (fun e => e.1 != n) }
  { s with
    eng := eng
    bist := bist
    served := s.served.filter (fun e => e.1 != n)
    hscrub := s.hscrub.filter (fun e => e.1 / 128 != n) }

/-- A DIE reset of CDn is asserted and released (R229, R372 to R375, R176, R197). -/
def dieReset (s : State) (n : Nat) : State :=
  let s := loseColls (stepFault s .uncorrectable)
  let s := ((liveCtxs s).filter (fun c => homeDie s c == n)).foldl (fun s c => resetCtx s c false) s
  let s := clearDie s n
  let s := resetSlots s (slotsWhere (fun p i => (capsOf p).domain == .die && dieOfPage p i == some n))
  let s := holdStack (holdStack (s.undefine (hearthBase n) hearthSize) (2 * n)) (2 * n + 1)
  let s := loseFlights s
  let s := (s.inc R.DIE_RESETS_RESETS n 1).wr R.DIE_LAST_RESET_TIME n s.now
  let s := restoreLoupe (promote (s.wr R.DIE_STS_READY n 0) n) n
  refreshCap (lockDie s n) n

/-- The transport of a port die, emptied (R289, R313). -/
def clearPort (s : State) (d : Nat) : State :=
  let mine := fun (k : Nat) => k / 16 == d
  let xp := { s.xp with
    flows := s.xp.flows.filter (fun e => e.1 / 2048 != d)
    timeouts := s.xp.timeouts.filter (fun e => !mine e.1)
    suspect := s.xp.suspect - (s.xp.suspect &&& (0xFFFF * 2 ^ (16 * d)))
    skip := s.xp.skip - (s.xp.skip &&& (0xFFFF * 2 ^ (16 * d))) }
  let weld := { s.weld with held := s.weld.held.filter (fun r => r.die != d) }
  let s := { s with xp := xp, weld := weld }
  if d = 0 then
    { s with
      weld := { s.weld with mapOk := false, wardStep := 0, ward := [], wardLen := none, tally := none }
      attempt := { s.attempt with mirrorAcked := [] } }
  else s

/-- A PORT reset of PDd is asserted and released (R258, R289, R313, R316, R374, R375). -/
def portReset (s : State) (d : Nat) : State :=
  let s := loseColls (stepFault s .uncorrectable)
  let s := stopLinks (clearPort s d) d
  let s := resetSlots s (slotsWhere (fun p i => (capsOf p).domain == .port && portOfPage p i == some d))
  let s := (s.inc R.PDC_RESETS_RESETS d 1).wr R.PDC_LAST_RESET_TIME d s.now
  let s := prune (s.wr R.PDC_STS_READY d 0)
  trainLinks (lockDie s (8 + d)) d

/-- All links after a reset that keeps their coefficients (R250, R258). -/
def keptLinks (s : State) : Tbl Link :=
  s.links.map (fun e => (e.1, { Link.init with coeffs := e.2.coeffs, coefs := e.2.coefs }))

/-- A CHIP reset is asserted and released (R372, R374, R429, R483): only the always-on domain, the COLD pages, HBM in
self-refresh, the address map, the link coefficients, flash, fuses and power stay; the SMC starts. -/
def chipReset (s : State) : State :=
  let kept := resetSlots s (slotsWhere (fun p _ => (capsOf p).domain != .cold))
  let held := (List.range 16).foldl holdStack s
  let smc : Smc :=
    { s.smc with image := [], released := false, unlocked := 0, cutShort := false, spdm := 0, spdmVersion := 0 }
  let t : State :=
    { State.reset with
      pending := s.pending, now := s.now, clock := s.clock, free := s.free, out := s.out, regs := kept.regs,
      shadow := kept.shadow, staged := kept.staged, errlog := kept.errlog, snaps := kept.snaps, mem := s.mem, map := s.map,
      hbmStacks := held.hbmStacks, links := keptLinks s, xp := { Xport.reset with time := s.xp.time }, ledger := s.ledger,
      bist := { s.bist with anvClaim := [], swgClaim := [] }, power := s.power, seq := s.seq, smc := smc }
  let t := t.undefine (hearthBase 0) (8 * hearthSize)
  let t := (t.wr R.PWR_STS_P 0 64).wr R.PWR_STS_L 0 64
  ((List.range 8).foldl (fun t n => t.wr (R.THM_DIE_T n) 0 64) t).emit (.pin "CK_PERST_N" false)

/-- The note of a reset in the FLT page: LAST_DOMAIN, LAST_TARGET, LAST_CAUSE and LAST_TIME (Table 14.14). -/
def noteReset (s : State) (dom target cause : Nat) : State :=
  let s := (s.wr R.FLT_STS_LAST_DOMAIN 0 dom).wr R.FLT_STS_LAST_TARGET 0 target
  (s.wr R.FLT_STS_LAST_CAUSE 0 cause).wr R.FLT_LAST_TIME_TIME 0 s.now

/-! Requested resets (R376, R377) -/

/-- The STOP copies waiting in the priority queues leave at once: they leave before the reset is asserted (R377). -/
def flushStops (s : State) : State :=
  (readyPlanes s).foldl (fun s k =>
    let l := linkOf s k
    let out := l.prio.filter (fun x => x.1 == .STOP)
    let s := s.setLink k { l with prio := l.prio.filter (fun x => x.1 != .STOP) }
    out.foldl (fun s x => (s.inc R.LNK_TX_SLOTS_TX_SLOTS k (slotsOf x.2)).emit (.wire k x.1 x.2)) s) s

/-- Steps 1 to 3 of Table 14.5: BUSY, the STOP unless NO_STOP, the saves and the record unless NO_RECORD. -/
def beforeReset (s : State) (dom target : Nat) : State :=
  let s := s.wr R.FLT_STS_RESETTING 0 1
  let stop := s.xp.slc.cur.slice != 0 && !s.on R.FLT_RST_NO_STOP 0
    && (s.tmp.phase == .hold || s.tmp.phase == .run || s.tmp.phase == .check)
  let s := if stop then flushStops (sendStopBurst (stepFault s .uncorrectable) .uncorrectable) else s
  let s := scoreEntries (savePoh s)
  let s := if s.on R.FLT_RST_NO_RECORD 0 then s else faultRecord s dom target
  { s with seq := ⟨some (dom, target)⟩ }

/-- FLT_CTL.GO (R376): while BUSY it is dropped with WR_BUSY; a bad DOMAIN or TARGET raises GO_REFUSED; GO with another
domain than this row's is another command; else the reset `f` of Table 14.5 runs and is counted in `count`. -/
def request (s : State) (dom : Nat) (count : Field) (f : State → Nat → State) : State :=
  let d := s.rd R.FLT_RST_DOMAIN 0
  let target := if dom = 1 then 0 else s.rd R.FLT_RST_TARGET 0
  if busyOf s .FLT 0 then raise s .FLT 0 0
  else if d = 0 ∨ 3 < d ∨ (d = 3 ∧ 1 < s.rd R.FLT_RST_TARGET 0) then raise s .FLT 0 17
  else if d ≠ dom then s
  else
    let s := noteReset (beforeReset s dom target) dom target 1
    f (s.inc count 0 1) target

/-- Sahsin writes the pending ledger entries that its rate budget allows (R358). -/
def flushLedger (s : State) : State := s.ledger.waiting.foldl (fun s _ => ledgerWrite s true) s

/-- CHIP_RESET_REQUEST (R377). -/
def execChipResetRequest (s : State) : Outcome :=
  live s (request s 1 R.FLT_RESET_CNT_CHIP (fun s _ => chipReset (flushLedger s)))

/-- DIE_RESET_REQUEST (R377). -/
def execDieResetRequest (s : State) : Outcome := live s (request s 2 R.FLT_RESET_CNT_DIE dieReset)

/-- PORT_RESET_REQUEST (R377). -/
def execPortResetRequest (s : State) : Outcome := live s (request s 3 R.FLT_RESET_CNT_PORT portReset)

/-- Whether the domain of a requested reset is ready (Table 14.3). -/
def domainReady (s : State) (r : Nat × Nat) : Bool :=
  if r.1 = 1 then s.rd R.SMC_BRINGUP_STAGE 0 == 5 && (List.range 10).all (readyBit s)
  else if r.1 = 2 then readyBit s r.2
  else readyBit s (8 + r.2)

/-- RESET_DONE (R377): READY is set where it holds, then RESET_DONE is raised and BUSY ends. -/
def resetDone (s : State) : State :=
  match s.seq.requested with
  | some r =>
    let s := refreshReady s
    if domainReady s r then
      raise ({ s with seq := ⟨none⟩ }.wr R.FLT_STS_RESETTING 0 0) .FLT 0 11
    else s
  | none => s

/-- RESET_DONE (R377). -/
def execResetDone (s : State) : Outcome := live s (resetDone s)

/-! Takeover failure, PERST# and the watchdog -/

/-- A takeover load fails (R389): FAILED with its cause, PHASE IDLE, the BANK banks undefined; TKO_FAIL names the source
node. -/
def failTakeover (s : State) (cause node : Nat) : State :=
  if s.rd R.FLT_TKO_STS_STATE 0 ≠ 1 then s
  else
    let s := abandonPackets s (· == .takeover)
    let b := s.on R.FLT_TKO_CFG_BANK 0
    let s := [0, 1, 2].foldl (fun s p => s.undefine (pairBase s.map p b) (pairSize s.map p)) s
    let s := (s.wr R.FLT_TKO_STS_STATE 0 3).wr R.FLT_TKO_STS_CAUSE 0 cause
    let s := { s.wr R.FLT_TKO_TIME_TIME 0 s.now with tmp := { s.tmp with phase := .idle } }
    logErr (raise s .FLT 0 15) .FLT 0 3 .MODULE node 0 [0, 0, 0]

/-- PERST (R371, R378, R434): an unrequested CHIP reset: it ends a requested one, fails a takeover, writes no record and sends
no STOP; ledger entries still waiting are lost with Sahsin. -/
def perst (s : State) : State :=
  let s := failTakeover s.fresh.2 3 (s.fresh.1 % 2 ^ 16)
  let s := { s.wr R.FLT_STS_RESETTING 0 0 with seq := ⟨none⟩, ledger := { s.ledger with waiting := [] } }
  chipReset ((noteReset s 1 0 2).inc R.FLT_RESET_CNT_CHIP 0 1)

/-- PERST (R434). -/
def execPerst (s : State) : Outcome := live s (perst s)

/-- The SMC restarts (R383, R440): the mailbox is DOWN until it runs again; a BUSY command was cut short. -/
def smcRestart (s : State) : State :=
  let cut := s.rd R.SMC_MB_STS_STATE 0 == 1 || s.smc.cutShort
  let s := (s.wr R.SEC_BOOT_STATE 0 3).wr R.SMC_MB_STS_STATE 0 3
  { s with smc := { s.smc with cutShort := cut, spdm := 0, spdmVersion := 0 } }

/-- WDOG (R383). -/
def wdog (s : State) : State :=
  let s := raise ((noteReset s 0 0 3).inc R.FLT_RESET_CNT_WDOG 0 1) .FLT 0 16
  smcRestart (logErr s .FLT 0 4 .DOMAIN 0 0 [0, 0, 0])

/-- WDOG (R383). -/
def execWdog (s : State) : Outcome := live s (wdog s)

end Sys2Proof.Machine
end

