-- ==== Sys2Proof/Machine/Host.lean ====
section
/-! DEFINITION. The host link (chapter 17, R432 to R439): its going up and down, configuration, the memory aperture, requests
to host memory that fail, and the release of MSI-X messages. -/

namespace Sys2Proof.Machine

open Sys2Proof

/-! Requests to host memory that fail (R435) -/

/-- The code of a failed request (Table 17.11). -/
def hostCode : HostErr → Nat
  | .ur => 1 | .ca => 2 | .timeout => 3 | .poison => 4 | .linkDown => 5

/-- The host address range that a record in flight touches, as a device address. -/
def hostSide (f : Flight) : Nat := if touchesHost f.src f.len then f.src else f.dst

/-- A record in flight that moves data over the host link fails (R435): it ends as a command error with SOURCE 8. -/
def hostFlightFails (s : State) (id code : Nat) : State :=
  match flightOf s id with
  | some f =>
    if !f.host || f.abandoned || f.lost then s
    else endFlight (hostFault s (homeDie s f.ctx) (hostSide f) code) id 8 code
  | none => s

/-- A transfer of Tongs to or from a host destination fails (R333, R435). -/
def tongsHostFails (s : State) (slot : Nat) (fetch : Bool) (code : Nat) : State :=
  match slotAt s slot with
  | some x =>
    (match (if fetch then x.in' else x.out') with
     | some m => if isLend s m.dest then s else hostMoveFails s m.dest (destAddr s (x.rec' m.layer)) code
     | none => s)
  | none => s

/-- The batch read of a HOLD fails (R222, R435): before PHASE leaves IDLE, so that its context is FAULTED. -/
def holdReadFails (s : State) (c code : Nat) : State :=
  match blockedRec s c 0x50 .hold with
  | some r =>
    let a := r.addr s c 8
    if s.tmp.holdValid || s.tmp.phase != .idle || !touchesHost a r.batchLen then s
    else cmdError (hostFault s (homeDie s c) a code) c r 8 code
  | none => s

/-- HOSTW_REQUEST_ERROR (R435). -/
def hostRequestFails (s : State) (who : HostAsk) (err : HostErr) : State :=
  match who with
  | .flight id => hostFlightFails s id (hostCode err)
  | .tongs slot fetch => tongsHostFails s slot fetch (hostCode err)
  | .hold ctx => holdReadFails s ctx (hostCode err)

/-- HOSTW_REQUEST_ERROR (R435). -/
def execHostwRequestError (who : HostAsk) (err : HostErr) (s : State) : Outcome := live s (hostRequestFails s who err)

/-! MSI-X (R438) -/

/-- Pending messages of vectors that are no longer masked are sent (R438). -/
def flushPending (s : State) : State :=
  s.host.pba.reverse.foldl (fun s v =>
    if vectorMasked s v then s
    else msixRequest { s with host := { s.host with pba := s.host.pba.filter (· != v) } } v) s

/-- MSIX_GAP_END (R438): the requests merged within a vector's gap leave as one message, or stay pending while it is
masked. -/
def gapEnds (s : State) (v : Nat) : State :=
  if !s.host.merged.contains v || decide (s.clock < Tbl.get 0 s.host.gapEnd v) then s
  else
    let t := { s with host := { s.host with merged := s.host.merged.filter (· != v) } }
    if vectorMasked s v then msixRequest t v else msixSend t v

/-- MSIX_GAP_END (R438). -/
def execMsixGapEnd (vector : Nat) (s : State) : Outcome := onUnit s vector 2048 (gapEnds s vector)

/-- The Mask bit word of a vector in its MSX page (R439). -/
def maskKey (v : Nat) : Key := ⟨slotOf .MSX (v / 256), 16 * (v % 256) + 12, 0⟩

/-- The vector control word of a vector. -/
def maskWord (s : State) (v : Nat) : Nat := Store.get 1 s.regs (maskKey v)

/-- MSIX_UNMASK (R438): the vector's Mask bit is cleared, and a message its pending bit held is sent. -/
def unmask (s : State) (v : Nat) : State :=
  let w := maskWord s v
  flushPending
    { s with
      regs := Store.set s.regs (maskKey v) (w - w % 2)
      host := { s.host with unmasked := if s.host.unmasked.contains v then s.host.unmasked else v :: s.host.unmasked } }

/-- MSIX_UNMASK (R438). -/
def execMsixUnmask (vector : Nat) (s : State) : Outcome := onUnit s vector 2048 (unmask s vector)

/-! The link (R434) -/

/-- The records in flight over the host link. -/
def hostFlights (s : State) : List Nat := (s.flights.filter (fun e => e.2.host)).map (·.1)

/-- The host link goes down (R434): LINK_DOWN, and every outstanding device request to the host ends with HOST_LINK. -/
def hostDown (s : State) : State :=
  if !s.host.up then s
  else
    let s := { s with host := { s.host with up := false } }
    let s := (((s.wr R.HIF_LINK_GEN 0 0).wr R.HIF_LINK_WIDTH 0 0).wr R.HIF_LINK_UP 0 0).wr R.HIF_LINK_FLIT 0 0
    let s := raise (s.inc R.HIF_LINK_DOWNS_DOWNS 0 1) .HIF 0 5
    let s := (hostFlights s).foldl (fun s id => hostFlightFails s id 5) s
    failHostMoves s 5

/-- The function's configuration space returns to its defaults (R434): BARs, Bus Master Enable, MSI-X Enable and the aperture's
size, and every vector's Mask bit is 1. -/
def configDefaults (s : State) : State :=
  let msix : Key × Nat → Bool := fun e =>
    match pageAt e.1.slot with | some x => x.1 == .MSX && e.1.off % 16 == 12 | none => false
  let s :=
    { s with
      regs := s.regs.map (fun e => if msix e then (e.1, e.2 - e.2 % 2 + 1) else e)
      host := { s.host with
        busMaster := false, msixEnable := false, functionMask := false, regBar := 0, cmdBar := 0, aptBar := 0,
        aptLog := 30, unmasked := [] } }
  s.wr R.HIF_APT_SIZE_LOG 0 0

/-- LINK_DOWN (R434): without PERST# the data link is down too (DL_Down), so that the configuration returns to its
defaults. -/
def execLinkDown (s : State) : Outcome := live s (if s.host.up then configDefaults (hostDown s) else s)

/-- HOT_RESET (R434): the configuration returns to its defaults and the link retrains by itself. -/
def execHotReset (s : State) : Outcome := live s (configDefaults (hostDown s))

/-- The host link is up at a generation and width of Table 17.1 (R432, R434): LINK_UP, or SPEED_CHANGE where it was up
otherwise. -/
def hostUp (s : State) (gen width : Nat) : State :=
  if gen < 5 ∨ 7 < gen ∨ ¬(width = 1 ∨ width = 2 ∨ width = 4 ∨ width = 8) then s
  else
    let was := s.host.up
    let same := s.rd R.HIF_LINK_GEN 0 == gen && s.rd R.HIF_LINK_WIDTH 0 == width
    let s := { s with host := { s.host with up := true } }
    let s := ((s.wr R.HIF_LINK_GEN 0 gen).wr R.HIF_LINK_WIDTH 0 width).wr R.HIF_LINK_UP 0 1
    let s := s.wr R.HIF_LINK_FLIT 0 (b2n (decide (6 ≤ gen)))
    if !was then raise s .HIF 0 6 else if same then s else raise s .HIF 0 7

/-- LINK_UP (R434). -/
def execLinkUp (gen width : Nat) (s : State) : Outcome := live s (hostUp s gen width)

/-! Configuration requests (R434, R436, R480) -/

/-- The kinds of answer to the host: 0x100 a configuration value, 0x101 Request Retry Status, 0x102 Unsupported Request. -/
def answerCfg : Nat := 0x100
/-- Request Retry Status. -/
def answerRrs : Nat := 0x101
/-- Unsupported Request. -/
def answerUr : Nat := 0x102

/-- A 64-bit BAR of a window of `size` bytes: the address bits below the size read 0. -/
def barOf (base size : Nat) : Nat := base % 2 ^ 64 / size * size

/-- The host link's configuration replaced; a message whose vector is no longer masked is sent (R438). -/
def State.setHost (s : State) (h : HostLink) : State := flushPending { s with host := h }

/-- What a configuration read returns: the BARs, and a free value where the spec gives no register (Table 17.3). -/
def configWord (s : State) (off : Nat) : Nat × State :=
  let h := s.host
  let bars : List (Nat × Nat) :=
    [(0x10, h.regBar), (0x14, h.regBar / 2 ^ 32), (0x18, h.cmdBar), (0x1C, h.cmdBar / 2 ^ 32), (0x20, h.aptBar),
     (0x24, h.aptBar / 2 ^ 32)]
  match bars.find? (fun e => e.1 == off) with
  | some e => if off % 8 = 0 then (e.2 % 2 ^ 32 / 16 * 16 + s.fresh.1 % 16, s.fresh.2) else (e.2 % 2 ^ 32, s)
  | none => (s.fresh.1 % 2 ^ 32, s.fresh.2)

/-- A configuration request that is served. -/
def configure (s : State) (req : CfgWrite) : State :=
  match req with
  | .regBar base => s.setHost { s.host with regBar := barOf base (2 ^ 26) }
  | .cmdBar base => s.setHost { s.host with cmdBar := barOf base (2 ^ 22) }
  | .apertureBar base => s.setHost { s.host with aptBar := barOf base (2 ^ s.host.aptLog) }
  | .apertureSize log =>
    if log < 30 ∨ 39 < log then s
    else (s.setHost { s.host with aptLog := log, aptBar := barOf s.host.aptBar (2 ^ log) }).wr R.HIF_APT_SIZE_LOG 0 (log - 30)
  | .busMaster on => s.setHost { s.host with busMaster := on }
  | .msixEnable on => s.setHost { s.host with msixEnable := on }
  | .functionMask on => s.setHost { s.host with functionMask := on }
  | .read off => let r := configWord s off; r.2.emit (.answer answerCfg (leBytes 4 r.1))

/-- CONFIGURATION_REQUEST (R434, R480): Request Retry Status until Sahsin is up. -/
def configRequest (s : State) (req : CfgWrite) : State :=
  if !s.host.up then s
  else if !s.host.ready then s.emit (.answer answerRrs [])
  else configure s req

/-- CONFIGURATION_REQUEST (R434). -/
def execConfigurationRequest (req : CfgWrite) (s : State) : Outcome := live s (configRequest s req)

/-! The memory aperture (R436, R437) -/

/-- The device address of segment `i`: bits [20:0] act as 0 (Table 17.10). -/
def segmentBase (s : State) (i : Nat) : Nat := s.rd (R.HIF_APT_BASE i) 0 / 2 ^ 21 * 2 ^ 21

/-- The parts of an access of `n` bytes at aperture offset `o`, as (device address, bytes) (R437). -/
def apertureParts (s : State) (o n : Nat) : List (Nat × Nat) :=
  let q := 2 ^ s.host.aptLog / 4
  (List.range 4).filterMap (fun i =>
    let lo := max o (i * q)
    let hi := min (o + n) ((i + 1) * q)
    if lo < hi then some (segmentBase s i + (lo - i * q), hi - lo) else none)

/-- The parts of a write with their bytes. -/
def storeParts (s : State) (bs : List Byte) : List (Nat × Nat) → State
  | [] => s
  | p :: ps => storeParts (writeAny s p.1 (bs.take p.2)) (bs.drop p.2) ps

/-- The bytes of a read, part by part. -/
def loadParts (s : State) : List (Nat × Nat) → List Byte × State
  | [] => ([], s)
  | p :: ps =>
    let r := readAny s p.1 p.2
    let t := loadParts r.2 ps
    (r.1 ++ t.1, t.2)

/-- A refused access: counted in BAD_ACCESS; a read returns zeros (R168). -/
def apertureRefused (s : State) (write : Bool) (n : Nat) : State :=
  let s := badAccess s
  if write then s else s.emit (.apertureData (List.replicate n 0))

/-- An access through the aperture (R168, R397, R437): beyond the aperture it is no request that the function decodes; a poisoned
write is dropped; one that meets a halted Hearth or the zeroing of the Touchmark table waits. -/
def aperture (s : State) (off : Nat) (write : Bool) (n : Nat) (bs : List Byte) (poisoned : Bool) : State :=
  let parts := apertureParts s off n
  if !s.host.up || !s.host.ready then s
  else if n = 0 ∨ 2 ^ s.host.aptLog < off + n then s.emit (.answer answerUr [])
  else if write && poisoned then s.inc R.HIF_POISON_RX_POISON 0 1
  else match parts.find? (fun p => !accessOk s .aperture write p.1 p.2) with
  | some p => apertureRefused (refuseEffects s .aperture write 0x3F p.1 p.2) write n
  | none =>
    match parts.findSome? (fun p => (accessBlocked s p.1 p.2).map (fun d => (d, p.1))) with
    | some (d, a) => apertureRefused (logErr s .FLT 0 1 .COMMAND (2 + 256 * d) a [0, 0, 0]) write n
    | none =>
      if parts.any (fun p => waitsHearth s p.1 p.2 || (write && waitsTouch s p.1 p.2)) then s
      else if write then storeParts s bs parts
      else let r := loadParts s parts; r.2.emit (.apertureData r.1)

/-- APERTURE_ACCESS (R437): a write of `data`, or a read of `len` bytes. -/
def execApertureAccess (off : Nat) (write : Bool) (len : Nat) (data : List Byte) (poisoned : Bool) (s : State) : Outcome :=
  live s (aperture s off write (if write then data.length else len) data poisoned)

end Sys2Proof.Machine
end

