-- ==== Sys2Proof/Machine/Security.lean ====
section
/-! DEFINITION. Image checks (R445 to R450), measurements (R453, R454) and the SPDM responder with DOE discovery (R452). -/

namespace Sys2Proof.Machine

open Sys2Proof

/-! Images (R445 to R447) -/

/-- The bytes of image slot A (0) or B (1). -/
def slotBytes (s : State) (k : Nat) : List Byte := if k = 0 then s.smc.slotA else s.smc.slotB

/-- KEY_INDEX of an image (Table 17.6). -/
def keyIndex (img : List Byte) : Nat := bits (fieldAt img 0x14 4) 0 2

/-- SVN of an image. -/
def imageSvn (img : List Byte) : Nat := bits (fieldAt img 8 4) 0 7

/-- Root key hash `k` of the fuses. -/
def rootHash (k : Nat) : List Byte := (List.range 48).map (Config.rootKeyHash k)

/-- The header checks of step 3 of Table 17.7 with the result that FW_STAGE gives each (Table 17.5), 0 for none: MAGIC and
FORMAT_MAJOR; the revocation bit; the key's hash and the signature; the SVN against the fuses. -/
def headerResult (s : State) (img : List Byte) : Nat :=
  let key := (img.drop 0x50).take 96
  if img.length < 512 ∨ fieldAt img 0 4 ≠ 0x4E534853 ∨ fieldAt img 5 1 ≠ 1 then 0x12
  else if bitOf s.smc.revoked (keyIndex img) then 0x1A
  else if sha384 key ≠ rootHash (keyIndex img) ∨ !ecdsaOk key (sha384 (img.take 0x100)) ((img.drop 0x100).take 96) then 0x13
  else if imageSvn img < s.smc.fuseSvn then 0x14
  else 0

/-- The body of an image: BODY_LEN bytes after its header. -/
def imageBody (img : List Byte) : List Byte := (img.drop 512).take (fieldAt img 0x18 4)

/-- Steps 3 and 4 of Table 17.7: the body is at most 3 MiB, whole, and hashes to BODY_HASH (R445). -/
def imageResult (s : State) (img : List Byte) : Nat :=
  let r := headerResult s img
  if r ≠ 0 then r
  else if 3 * 2 ^ 20 < fieldAt img 0x18 4 ∨ img.length < 512 + fieldAt img 0x18 4 then 0x12
  else if sha384 (imageBody img) ≠ (img.drop 0x20).take 48 then 0x13
  else 0

/-- A_VALID and B_VALID follow the slots (Table 17.10). -/
def refreshSlots (s : State) : State :=
  (s.wr R.SEC_BOOT_A_VALID 0 (b2n (headerResult s s.smc.slotA == 0))).wr R.SEC_BOOT_B_VALID 0
    (b2n (headerResult s s.smc.slotB == 0))

/-- The SEC fields of the image that runs (Table 17.10). -/
def showImage (s : State) (k : Nat) (img : List Byte) : State :=
  let s := (s.wr R.SEC_BOOT_ACTIVE_SLOT 0 k).wr R.SEC_BOOT_KEY_INDEX 0 (keyIndex img)
  let s := (s.wr R.SEC_SVN_IMAGE_SVN 0 (imageSvn img)).wr R.SEC_FW_VER_VERSION 0 (fieldAt img 0xC 4)
  s.wr R.SEC_IF_VER_IF_VERSION 0 (fieldAt img 0x10 2)

/-! Measurements (R453, R454) -/

/-- The identity fuse block of a die slot: 0x104 bytes (Table 18.5). -/
def identityBlock (d : Nat) : List Byte := (List.range 0x104).map (Config.identityFuse d)

/-- One port die's current routing table as R454 hashes it. -/
def rteBytes (s : State) (d : Nat) : List Byte :=
  (List.range 65536).flatMap (fun n => let e := rteEntry s d n; leBytes 4 (e.1 % 2 ^ 16 + b2n e.2 * 2 ^ 16))

/-- The input of the fabric table hash (R454). -/
def tableBytes (s : State) : List Byte :=
  let slc := s.xp.slc
  rteBytes s 0 ++ rteBytes s 1 ++ leBytes 2 slc.cur.slice ++ leBytes 2 slc.cur.own ++ leBytes 2 slc.cur.mcast
    ++ leBytes 1 (b2n slc.epoch) ++ leBytes 8 (s.rd R.SLC_SWITCH_TIME_SWITCH_TIME slcI)

/-- The value of measurement `i` (Table 17.8). -/
def measurement (s : State) (i : Nat) : List Byte :=
  match i with
  | 1 => (List.range 48).map Config.bootRomHash
  | 2 => sha384 s.smc.image
  | 3 => (s.smc.image.drop 8).take 12
  | 4 => sha384 ((List.range 4).flatMap rootHash ++ Config.fuseBytes s.smc.revoked s.smc.fuseSvn
      ++ (List.range 10).flatMap identityBlock)
  | 5 => sha384 (if guestAdmitted s then s.guest.descriptor else [])
  | _ => sha384 (tableBytes s)

/-- The DMTF value type of measurement `i` (log entry 23). -/
def measurementType (i : Nat) : Nat := if i = 1 then 0 else if i = 2 then 1 else if i = 3 then 0x86 else if i = 6 then 3 else 2

/-- A DMTF measurement block (log entry 23). -/
def measurementBlock (s : State) (i : Nat) : List Byte :=
  let v := measurement s i
  leBytes 1 i ++ leBytes 1 1 ++ leBytes 2 (3 + v.length) ++ leBytes 1 (measurementType i) ++ leBytes 2 v.length ++ v

/-! The SPDM responder (R452) -/

/-- An SPDM answer: its response code (log entry 23) and body. -/
def spdmAnswer (s : State) (code : Nat) (bs : List Byte) : State := s.emit (.answer code bs)

/-- An SPDM ERROR with an error code. -/
def spdmError (s : State) (code : Nat) : State := spdmAnswer s 0x7F (leBytes 1 code)

/-- The responder answers `f` while Sahsin runs (R452, R455) and the negotiation has come as far as `need`; else
UnexpectedRequest. -/
def onSpdm (s : State) (need : Nat) (f : State → State) : State :=
  if !sahsinRuns s then s else if s.smc.spdm < need then spdmError s 4 else f s

/-- The negotiation has come to `n`, with version `v`. -/
def State.setSpdm (s : State) (n v : Nat) : State := { s with smc := { s.smc with spdm := n, spdmVersion := v } }

/-- GET_VERSION (R452): 1.2 and 1.3; the negotiation starts afresh. -/
def execGetVersion (s : State) : Outcome :=
  live s (onSpdm s 0 (fun s => spdmAnswer (s.setSpdm 1 0) 0x04 ([2] ++ leBytes 2 0x1200 ++ leBytes 2 0x1300)))

/-- The responder's capability flags: CERT, CHAL and MEAS with signature (R452; bits of log entry 23). -/
def spdmCaps : Nat := 2 + 4 + 16

/-- GET_CAPABILITIES (R452) under a version it selects. -/
def execGetCapabilities (version : Nat) (s : State) : Outcome :=
  live s (onSpdm s 1 (fun s =>
    if version = 0x12 ∨ version = 0x13 then spdmAnswer (s.setSpdm 2 version) 0x61 (leBytes 4 spdmCaps) else spdmError s 0x41))

/-- NEGOTIATE_ALGORITHMS (R452): ECDSA P-384 and SHA-384 are selected where they are offered. -/
def execNegotiateAlgorithms (offersEcdsaP384 offersSha384 : Bool) (s : State) : Outcome :=
  live s (onSpdm s 2 (fun s =>
    let t := if offersEcdsaP384 && offersSha384 then s.setSpdm 3 s.smc.spdmVersion else s
    spdmAnswer t 0x63 (leBytes 4 (b2n offersEcdsaP384 * 0x80) ++ leBytes 4 (b2n offersSha384 * 2))))

/-- The certificate chain as served: its length, the hash of the root certificate and the three certificates as stored
(R451; format of log entry 23). -/
def certChain : List Byte :=
  let certs := Config.certificate 0 ++ Config.certificate 1 ++ Config.certificate 2
  leBytes 4 (52 + certs.length) ++ sha384 (Config.certificate 0) ++ certs

/-- GET_DIGESTS (R452): the digest of slot 0. -/
def execGetDigests (s : State) : Outcome := live s (onSpdm s 3 (fun s => spdmAnswer s 0x01 ([1] ++ sha384 certChain)))

/-- GET_CERTIFICATE (R452): a portion of the chain and what remains; slot 0 only. -/
def execGetCertificate (slot off len : Nat) (s : State) : Outcome :=
  live s (onSpdm s 3 (fun s =>
    if slot ≠ 0 ∨ certChain.length ≤ off then spdmError s 1
    else
      let part := (certChain.drop off).take (len % 2 ^ 16)
      spdmAnswer s 0x02 (leBytes 2 part.length ++ leBytes 2 (certChain.length - off - part.length) ++ part)))

/-- A signature with the identity key: a free value (log entry 7). -/
def identitySign (s : State) (msg : List Byte) : List Byte × State :=
  (Config.signature (sha384 msg) s.free, { s with free := s.free + 1 })

/-- CHALLENGE (R451, R452): slot 0, signed with the identity key over the answer and the requester's nonce. -/
def execChallenge (slot : Nat) (nonce : List Byte) (s : State) : Outcome :=
  live s (onSpdm s 3 (fun s =>
    if slot ≠ 0 then spdmError s 1
    else
      let own := (List.range 32).map (fun k => Config.freeByte (s.free + 1) k)
      let body := sha384 certChain ++ own
      let r := identitySign { s with free := s.free + 1 } (body ++ nonce)
      spdmAnswer r.2 0x03 (body ++ r.1)))

/-- The indices that GET_MEASUREMENTS names: 0xFF is all, 0 the number of them. -/
def measurementIndices (index : Nat) : List Nat :=
  if index = 0xFF then [1, 2, 3, 4, 5, 6] else if 1 ≤ index ∧ index ≤ 6 then [index] else []

/-- GET_MEASUREMENTS (R452 to R454): the blocks asked for, signed where asked. -/
def execGetMeasurements (index : Nat) (signature : Bool) (nonce : List Byte) (s : State) : Outcome :=
  live s (onSpdm s 3 (fun s =>
    if 6 < index ∧ index ≠ 0xFF then spdmError s 1
    else
      let is := measurementIndices index
      let bs := is.flatMap (measurementBlock s)
      let body := leBytes 1 (if index = 0 then 6 else is.length) ++ leBytes 3 bs.length ++ bs
      if signature then
        let own := (List.range 32).map (fun k => Config.freeByte (s.free + 1) k)
        let r := identitySign { s with free := s.free + 1 } (body ++ own ++ nonce)
        spdmAnswer r.2 0x60 (body ++ own ++ r.1)
      else spdmAnswer s 0x60 body))

/-- The kind of a DOE Discovery answer. -/
def answerDoe : Nat := 0x103

/-- DOE_DISCOVERY (R452): the protocols of DOE instance 0 by index, each with the next index: discovery itself and CMA/SPDM
(numbers of log entry 23). -/
def execDoeDiscovery (index : Nat) (s : State) : Outcome :=
  live s (
    if !sahsinRuns s then s
    else if index = 0 then s.emit (.answer answerDoe (leBytes 2 1 ++ [0, 1]))
    else if index = 1 then s.emit (.answer answerDoe (leBytes 2 1 ++ [1, 0]))
    else s.emit (.answer answerDoe (leBytes 2 0xFFFF ++ [0xFF, 0])))

/-! Board management (R455) -/

/-- The kinds of answer on the board management bus. -/
def answerEid : Nat := 0x104
/-- The answer to TRIP_STATUS. -/
def answerTrip : Nat := 0x105
/-- The answer to a PLDM numeric sensor read. -/
def answerSensor : Nat := 0x106

/-- ENTDAA (R455): a target without a dynamic address takes the 7-bit one given; the bus interface runs on the standby rail. -/
def execEntdaa (addr : Nat) (s : State) : Outcome :=
  if addr < 128 then
    .next (if s.smc.standby && s.smc.i3c.isNone then { s with smc := { s.smc with i3c := some addr } } else s)
  else .fault .noSuchUnit

/-- Whether the module answers messages on the bus: it has its address and the standby rail is up. -/
def onBus (s : State) : Bool := s.smc.standby && s.smc.i3c.isSome

/-- GET_ENDPOINT_ID (R455): success with endpoint ID 0, none having been assigned (log entry 23). -/
def execGetEndpointId (s : State) : Outcome := .next (if onBus s then s.emit (.answer answerEid [0, 0, 0, 0]) else s)

/-- TRIP_STATUS (R455): the trip flag, the sensor, the temperature and the time latched, and POH. -/
def execTripStatus (s : State) : Outcome :=
  let t := s.power.trip.getD (0, 0, 0)
  .next (if onBus s then
    s.emit (.answer answerTrip
      (leBytes 1 (b2n s.power.trip.isSome) ++ leBytes 1 t.1 ++ leBytes 1 (min 255 t.2.1) ++ leBytes 8 t.2.2 ++ leBytes 4 (pohNow s)))
   else s)

/-- The reading of a numeric sensor (R455): 0 to 9 the dies, 10 to 25 the stacks, 26 package power, 27 input power (numbers of
log entry 23); none for no such sensor, and within it none for one that gives no reading. -/
def numericSensor (s : State) (n : Nat) : Option (Option Nat) :=
  if n < 10 then some (dieTemp s n)
  else if n < 26 then some (some (s.rd R.HBM_TEMP_TEMP (n - 10)))
  else if n = 26 then some (some (s.rd R.PWR_PKG_PKG_W 0))
  else if n = 27 then some (some (s.rd R.PWR_PKG_IN_W 0))
  else none

/-- PLDM_SENSOR_READ (R455): dropped while Sahsin is not running. -/
def sensorAnswer (s : State) (n : Nat) : State :=
  if !onBus s || !sahsinRuns s then s
  else match numericSensor s n with
  | some (some v) => s.emit (.answer answerSensor ([0, 0] ++ leBytes 2 v))
  | some none => s.emit (.answer answerSensor ([0, 2] ++ leBytes 2 0))
  | none => s.emit (.answer answerSensor [0x80])

/-- PLDM_SENSOR_READ (R455). -/
def execPldmSensorRead (sensor : Nat) (s : State) : Outcome := live s (sensorAnswer s sensor)

end Sys2Proof.Machine
end

