-- ==== Sys2Proof/Machine/Mailbox.lean ====
section
/-! DEFINITION. The Sahsin mailbox (R440 to R444) and its commands. -/

namespace Sys2Proof.Machine

open Sys2Proof

/-! The mailbox -/

/-- The request area. -/
def mbRequest (s : State) : List Byte := (List.range 256).flatMap (fun n => leBytes 4 (s.rd (R.SMC_MB_REQ_REQUEST n) 0))

/-- The first words of the response area. -/
def writeResponse (s : State) (bs : List Byte) : State :=
  (List.range (ceilDiv bs.length 4)).foldl (fun s n =>
    s.wr (R.SMC_MB_RSP_RESPONSE n) 0 (leNat ((bs.drop (4 * n)).take 4))) s

/-- A command ends (R440): the response, RSP_LEN and RESULT, STATE = DONE, MB_DONE. -/
def mbDone (s : State) (result : Nat) (rsp : List Byte) : State :=
  let s := ((writeResponse s rsp).wr R.SMC_MB_STS_RSP_LEN 0 rsp.length).wr R.SMC_MB_STS_RESULT 0 result
  raise ((s.wr R.SMC_MB_STS_STATE 0 2).inc R.SMC_MB_SEQ_DONE 0 1) .SMC 0 4

/-- The request bytes of an opcode (Table 17.4); none for no such opcode. -/
def mbPayload (op : Nat) : Option Nat :=
  match op with
  | 0x01 | 0x21 | 0x32 => some 0
  | 0x10 => some 0xA0
  | 0x20 => some 4
  | 0x30 => some 12
  | 0x31 | 0x33 => some 1
  | _ => none

/-- Whether the boot ROM alone answers (R447). -/
def recovering (s : State) : Bool := s.rd R.SEC_BOOT_STATE 0 == 2

/-- The result with which a command ends at once, 0 for none: the boot ROM in RECOVERY serves FW_STAGE alone, a HALTED module
five opcodes (R482), and a request shorter than its payload or longer than the area is BAD_LEN (Table 17.5). -/
def mbRefusal (s : State) (op len : Nat) : Nat :=
  if recovering s ∧ op ≠ 0x30 then 0x10
  else if s.rd R.SMC_BRINGUP_STAGE 0 = 6 ∧ !([0x01, 0x30, 0x31, 0x32, 0x33].contains op) then 0x1D
  else match mbPayload op with
  | none => 0x10
  | some n => if len < n ∨ 1024 < len then 0x11 else 0

/-- DOORBELL (R440): taken in IDLE and DONE, counted as dropped in BUSY and DOWN. -/
def doorbell (s : State) : State :=
  let st := s.rd R.SMC_MB_STS_STATE 0
  if st = 1 ∨ st = 3 then s.inc R.SMC_MB_DROPPED_DROPPED 0 1
  else
    let r := mbRefusal s (s.rd R.SMC_MB_CMD_OPCODE 0) (s.rd R.SMC_MB_CMD_LEN 0)
    let s := s.wr R.SMC_MB_STS_STATE 0 1
    if r = 0 then s else mbDone s r []

/-- DOORBELL (R440). -/
def execDoorbell (s : State) : Outcome := live s (doorbell s)

/-- Command `op` ends as `f` says, if it is the one that is BUSY. -/
def onMailbox (s : State) (op : Nat) (f : State → State) : State :=
  if s.rd R.SMC_MB_STS_STATE 0 = 1 ∧ s.rd R.SMC_MB_CMD_OPCODE 0 = op then f s else s

/-! GET_INFO and the address map (R160 to R162, R441) -/

/-- GET_INFO (R441): four 32-bit words. -/
def getInfo (s : State) : State :=
  let svn := s.smc.fuseSvn + s.rd R.SEC_SVN_IMAGE_SVN 0 * 2 ^ 8 + s.smc.revoked % 16 * 2 ^ 16
  mbDone s 0 (leBytes 4 (s.rd R.SEC_FW_VER_VERSION 0) ++ leBytes 4 (s.rd R.SEC_IF_VER_IF_VERSION 0) ++ leBytes 4 svn
    ++ leBytes 4 Config.bootRomVersion)

/-- GET_INFO (R441). -/
def execGetInfo (s : State) : Outcome := live s (onMailbox s 0x01 getInfo)

/-- A 48-bit field of a descriptor image. -/
def mapField (img : List Byte) (off : Nat) : Nat := fieldAt img off 6

/-- The descriptor of a Table 6.2 image. -/
def mapOfImage (img : List Byte) (seq : Nat) : AddrMap :=
  { split := bits (fieldAt img 0 1) 0 5, wcA := mapField img 0x08, wcB := mapField img 0x10, wcSize := mapField img 0x18,
    msA := mapField img 0x20, msB := mapField img 0x28, msSize := mapField img 0x30, mrA := mapField img 0x38,
    mrB := mapField img 0x40, mrSize := mapField img 0x48, hold := mapField img 0x50, wardHold := mapField img 0x58,
    holdSize := mapField img 0x60, guest := mapField img 0x68, guestSize := mapField img 0x70, seq := seq, valid := true }

/-- The regions of a map as (base, size). -/
def mapRegions (m : AddrMap) : List (Nat × Nat) :=
  [(m.wcA, m.wcSize), (m.wcB, m.wcSize), (m.msA, m.msSize), (m.msB, m.msSize), (m.mrA, m.mrSize), (m.mrB, m.mrSize),
   (m.hold, m.holdSize), (m.wardHold, m.holdSize), (m.guest, m.guestSize)]

/-- Whether a region lies wholly in the populated PKG or one DLn under LOCAL_SPLIT `k`; one of size 0 is absent. -/
def regionFits (s : State) (k : Nat) (r : Nat × Nat) : Bool :=
  r.2 == 0 || decide (r.1 + r.2 ≤ pkgSizeK s k)
    || (List.range 8).any (fun n => decide (dlBase n ≤ r.1 ∧ r.1 + r.2 ≤ dlBase n + dlSizeK s k n))

/-- Whether two regions share a byte. -/
def regionsMeet (a b : Nat × Nat) : Bool := 0 < a.2 && 0 < b.2 && decide (a.1 < b.1 + b.2 ∧ b.1 < a.1 + a.2)

/-- Whether any two of a list of regions share a byte. -/
def anyMeet : List (Nat × Nat) → Bool
  | [] => false
  | r :: rs => rs.any (regionsMeet r) || anyMeet rs

/-- Whether a context exists or a step is under way (the first row of Table 6.3). -/
def mapBusy (s : State) : Bool := !(liveCtxs s).isEmpty || s.tmp.phase != .idle

/-- The code of Table 6.3 that refuses a map, 0 for none, in the order of the table. -/
def mapRefusal (s : State) (m : AddrMap) : Nat :=
  let rs := mapRegions m
  let big := 256 * 2 ^ 30
  if mapBusy s then 1
  else if 16 < m.split then 2
  else if rs.any (fun r => r.1 % 2 ^ 21 != 0 || r.2 % 2 ^ 21 != 0) then 3
  else if rs.any (fun r => !regionFits s m.split r) ∨ big < m.wcSize ∨ big < m.msSize ∨ big < m.mrSize
      ∨ 4 * 2 ^ 30 < m.holdSize then 4
  else if anyMeet rs then 5
  else 0

/-- MAP_SET (R161, R162): refused with nothing changed, or taken; a change of LOCAL_SPLIT leaves HBM without meaning. -/
def mapSet (s : State) : State :=
  let m := mapOfImage (mbRequest s) ((s.map.seq + 1) % 2 ^ 32)
  let r := mapRefusal s m
  if r ≠ 0 then mbDone s r []
  else
    let s := if m.split = s.map.split then s else s.undefine 0 (hearthBase 0)
    mbDone { s with map := m } 0 []

/-- MAP_SET (R161). -/
def execMapSet (s : State) : Outcome := live s (onMailbox s 0x10 mapSet)

/-! HBM (R184, R185) -/

/-- HBM_CLEAR_MAPOUT (R184): channels leave the map-out list of a stack; they serve again from the next training on. -/
def clearMapout (s : State) : State :=
  let w := fieldAt (mbRequest s) 0 4
  let n := w % 16
  let old := Tbl.get 0 s.ledger.mapout n
  let gone := old &&& bits w 16 16
  let s := { s with ledger := { s.ledger with mapout := Tbl.set s.ledger.mapout n (old - gone) } }
  mbDone ((channelsOf gone).foldl (fun s c => mapoutEntry s n c false) s) 0 []

/-- HBM_CLEAR_MAPOUT (R184). -/
def execHbmClearMapout (s : State) : Outcome := live s (onMailbox s 0x20 clearMapout)

/-- HBM_RETRAIN (R185): MAP_BUSY, or Table 7.2 with the COLD default map and its MAP_SEQ kept. -/
def hbmRetrain (s : State) (reports : List StackReport) : State :=
  if mapBusy s then mbDone s 1 [] else mbDone (refreshReady (trainAll s reports s.map.seq)) 0 []

/-- HBM_RETRAIN (R185): a command with another number of reports than stacks is ill-formed. -/
def execHbmRetrain (reports : List StackReport) (s : State) : Outcome :=
  if reports.length = 16 then live s (onMailbox s 0x21 (fun s => hbmRetrain s reports)) else .fault .noSuchUnit

/-! Firmware (R448 to R450) -/

/-- A slot takes bytes. -/
def setSlotBytes (s : State) (k : Nat) (bs : List Byte) : State :=
  if k = 0 then { s with smc := { s.smc with slotA := bs } } else { s with smc := { s.smc with slotB := bs } }

/-- The slot that FW_STAGE writes (R447, R450): A in RECOVERY, else the one that does not hold the running image. -/
def stageSlot (s : State) : Nat := if recovering s then 0 else 1 - s.rd R.SEC_BOOT_ACTIVE_SLOT 0

/-- A verified image is written to its slot and read back (R450). One that fails leaves undefined bytes there. In RECOVERY the
boot ROM makes slot A the boot record's slot and restarts (R447). -/
def flashImage (s : State) (img : List Byte) (ok : Bool) : State :=
  let k := stageSlot s
  if ok then
    let s := refreshSlots (setSlotBytes s k img)
    if recovering s then
      let t := mbDone { s with smc := { s.smc with bootB := false, staged := false } } 0 []
      (t.wr R.SEC_BOOT_STATE 0 0).wr R.SMC_MB_STS_STATE 0 3
    else mbDone { s with smc := { s.smc with staged := true } } 0 []
  else
    let bs := (List.range img.length).map (Config.freeByte (s.free + 1))
    let s := setSlotBytes { s with free := s.free + 1, smc := { s.smc with staged := false } } k bs
    mbDone (refreshSlots s) 0x16 []

/-- FW_STAGE (R450): the image is read from HOSTW, checked, and written into the slot that does not run. -/
def fwStage (s : State) (image : HostErr ⊕ List Byte) (ok : Bool) : State :=
  let req := mbRequest s
  let a := fieldAt req 0 8
  let n := fieldAt req 8 4
  if a < hostwBase ∨ 2 ^ 48 < a + n then mbDone s 0x17 []
  else if !hostUsable s then mbDone (hostFault s 9 a 5) 0x17 []
  else match image with
  | .inl e => mbDone (hostFault s 9 a (hostCode e)) 0x17 []
  | .inr bs =>
    let img := bs.take n
    let s := s.inc R.HIF_RD_BYTES_BYTES 0 n
    let r := imageResult s img
    if r ≠ 0 then mbDone s r [] else flashImage s img ok

/-- FW_STAGE (R450). -/
def execFwStage (image : HostErr ⊕ List Byte) (flashOk : Bool) (s : State) : Outcome :=
  live s (onMailbox s 0x30 (fun s => fwStage s image flashOk))

/-- FW_ACTIVATE (R450): the staged slot becomes the boot record's slot; with NOW = 1, refused in a slice, the SMC restarts after
the response. -/
def fwActivate (s : State) : State :=
  let now := bitOf (fieldAt (mbRequest s) 0 1) 0
  if !s.smc.staged then mbDone s 0x15 []
  else if now ∧ s.xp.slc.cur.slice ≠ 0 then mbDone s 0x1B []
  else
    let s := mbDone { s with smc := { s.smc with bootB := stageSlot s == 1, staged := false } } 0 []
    if now then smcRestart s else s

/-- FW_ACTIVATE (R450). -/
def execFwActivate (s : State) : Outcome := live s (onMailbox s 0x31 fwActivate)

/-- SVN_COMMIT (R448): the SVN fuses are burnt up to the running image's SVN. -/
def svnCommit (s : State) : State :=
  let svn := s.rd R.SEC_SVN_IMAGE_SVN 0
  if s.on R.SEC_BOOT_FALLBACK 0 then mbDone s 0x1C []
  else if 64 < svn then mbDone s 0x19 []
  else mbDone { s with smc := { s.smc with fuseSvn := max s.smc.fuseSvn svn } } 0 []

/-- SVN_COMMIT (R448). -/
def execSvnCommit (s : State) : Outcome := live s (onMailbox s 0x32 svnCommit)

/-- KEY_REVOKE (R449): the revocation bit of a key slot below the running image's is burnt. -/
def keyRevoke (s : State) : State :=
  let n := bits (fieldAt (mbRequest s) 0 1) 0 2
  if n < s.rd R.SEC_BOOT_KEY_INDEX 0 then mbDone { s with smc := { s.smc with revoked := s.smc.revoked ||| 2 ^ n } } 0 []
  else mbDone s 0x1A []

/-- KEY_REVOKE (R449). -/
def execKeyRevoke (s : State) : Outcome := live s (onMailbox s 0x33 keyRevoke)

end Sys2Proof.Machine
end

