-- ==== Sys2Proof/Machine/Package.lean ====
section
/-! DEFINITION. The package (chapter 18): die-to-die modules that fail in service (R466, R467) and the guest site (R471 to R475). -/

namespace Sys2Proof.Machine

open Sys2Proof

/-! Die-to-die links (R466, R467) -/

/-- Every router computes its routes afresh (R466): an edge has changed state in service. -/
def rerouteAll (s : State) : State :=
  (List.range 10).foldl (fun s d => raise (s.inc R.D2D_ROUTE_CHG_ROUTE_CHG d 1) .D2D d 7) s

/-- Module `m` of edge `e` of die slot `d` leaves service at one end: UP, FAILED and STATE (Table 18.9). -/
def dropModule (s : State) (d e m : Nat) : State :=
  let up := s.rd (R.D2D_EDGE_UP e) d
  let up := up - (up &&& 2 ^ m)
  let s := (s.wr (R.D2D_EDGE_UP e) d up).wr (R.D2D_EDGE_FAILED e) d (s.rd (R.D2D_EDGE_FAILED e) d ||| 2 ^ m)
  s.wr (R.D2D_EDGE_STATE e) d (if up = 0 then 3 else 2)

/-- A die left with no working edge is logged (R467). -/
def logCutOff (s : State) (d e m : Nat) : State :=
  if cutOff s d then logErr s .D2D d 5 .MODULE (16 * e + m) 0 [0, 0, 0] else s

/-- A request whose flits were lost ends with an error completion (R467): FLIT_LOST, and the step fault UNCORRECTABLE. -/
def flitLost (s : State) (d e m id : Nat) : State :=
  match flightOf s id with
  | some f =>
    if f.abandoned || f.lost then s
    else
      let s := logErr s .D2D d 3 (stepClass s .COMMAND) (16 * e + m) 0 [0, 0, 0]
      endFlight (stepFault s .uncorrectable) id 9 1
  | none => s

/-- The last module of an edge has failed (R467): EDGE_FAIL, the flits on it and the requests they belonged to are lost. The number
of flits is not given: a free value. -/
def edgeFails (s : State) (d e m : Nat) (ids : List Nat) : State :=
  let s := logErr (raise s .D2D d 5) .D2D d 2 .CAPACITY (16 * e + m) 0 [0, 0, 0]
  let s := (s.fresh.2).inc R.D2D_LOST_LOST d s.fresh.1
  let s := ids.foldl (fun s id => flitLost s d e m id) s
  match peerOf d e with
  | some p => logCutOff (logCutOff s d e m) p.1 p.2 m
  | none => s

/-- A module has exhausted its retries (R467): it leaves service at both ends; the edge goes on with the others, or fails. -/
def moduleFails (s : State) (d e m : Nat) (ids : List Nat) : State :=
  let old := s.rd (R.D2D_EDGE_STATE e) d
  let s := dropModule s d e m
  let s := match peerOf d e with | some p => dropModule s p.1 p.2 m | none => s
  let s := logErr (raise s .D2D d 4) .D2D d 1 .CAPACITY (16 * e + m) 0 [0, 0, 0]
  let new := s.rd (R.D2D_EDGE_STATE e) d
  let s := if new = 3 then edgeFails s d e m ids else s
  if new = old then s else rerouteAll s

/-- FLIT_CRC_ERROR (R467): a flit is retried; at RETRY_LIMIT its module fails. -/
def flitError (s : State) (d e m retries : Nat) (ids : List Nat) : State :=
  if !bitOf (s.rd (R.D2D_EDGE_UP e) d) m then s
  else
    let s := s.inc R.D2D_RETRY_RETRY d retries
    if retries < max 1 (s.rd R.D2D_CFG_RETRY_LIMIT d) then s else moduleFails s d e m ids

/-- FLIT_CRC_ERROR (R467); the guest edge carries raw blocks and no such flits (Table 18.4). -/
def execFlitCrcError (d edge module retries : Nat) (ids : List Nat) (s : State) : Outcome :=
  if d < 10 ∧ (peerOf d edge).isSome ∧ module < modulesOf d edge then live s (flitError s d edge module retries ids)
  else .fault .noSuchUnit

/-! Admission (R473, R474) -/

/-- The contexts that a guest die commands (R203, R474). -/
def guestCtxs : List Nat := [60, 61, 62, 63]

/-- The modules up of the guest edge on PD0's page (R469); which of two is up alone is not given: a free value. -/
def setGuestEdge (s : State) (modules : Nat) : State :=
  let r := if modules = 1 then (1 + s.fresh.1 % 2, s.fresh.2) else (if 2 ≤ modules then 3 else 0, s)
  let s := (r.2.wr R.GST_STS_MODULES_UP 0 modules).wr (R.D2D_EDGE_UP 2) 8 r.1
  s.wr (R.D2D_EDGE_STATE 2) 8 (if modules = 0 then 0 else if modules = 1 then 2 else 1)

/-- A refusal (R474): the PHYs are disabled, ADMIT_FAIL is raised and logged. -/
def refuseGuest (s : State) (reason : Nat) : State :=
  let s := (setGuestEdge s 0).wr R.GST_STS_STATE 0 4
  logErr (raise (s.wr R.GST_STS_REASON 0 reason) .GST 0 5) .GST 0 1 .CAPACITY reason 0 [0, 0, 0]

/-- GUEST_KEY_HASH of PD0's fuses (Table 18.5). -/
def guestKeyHash : List Byte := (List.range 48).map (fun k => Config.identityFuse 8 (0xD0 + k))

/-- The reason that step 4 of Table 18.7 gives against a descriptor, 0 for none. -/
def descriptorRefusal (d : List Byte) : Nat :=
  let key := (d.drop 0x50).take 96
  let size := fieldAt d 0x10 6
  let w := fieldAt d 0x20 4
  if fieldAt d 0 4 ≠ 0x54534547 ∨ fieldAt d 5 1 ≠ 1 then 3
  else if guestKeyHash.all (· == 0) ∨ sha384 key ≠ guestKeyHash then 4
  else if !ecdsaOk key (sha384 (d.take 0x100)) ((d.drop 0x100).take 96) then 5
  else if size % 2 ^ 21 ≠ 0 ∨ 2 ^ 40 < size ∨ bits w 0 3 < 1 ∨ 4 < bits w 0 3 ∨ 256 < bits w 8 9 then 6
  else 0

/-- Step 5 of Table 18.7. -/
def admitGuest (s : State) (d : List Byte) : State :=
  let s := (s.wr R.GST_DESC_ID_ID 0 (fieldAt d 8 6)).wr R.GST_GX_SIZE_SIZE 0 (fieldAt d 0x10 6)
  let s := (s.wr R.GST_HBM_REQ_SIZE 0 (fieldAt d 0x18 6)).wr R.GST_STS_CONTEXTS 0 (bits (fieldAt d 0x20 4) 0 3)
  let s := ((s.wr R.GST_STS_REASON 0 0).wr R.GST_STS_STATE 0 3).wr R.GST_ADMIT_TIME_TIME 0 s.now
  raise (measChanged { s with guest := { s.guest with descriptor := d } }) .GST 0 4

/-- GUEST_ADMISSION (R474): Table 18.7. -/
def guestAdmission (s : State) (partner : Bool) (modules : Nat) (desc : Option (List Byte)) : State :=
  if !s.guest.admitting then s
  else
    let s := { s with guest := { Guest.reset with admitting := false } }
    if !partner then (s.wr R.GST_STS_STATE 0 0).wr R.GST_STS_REASON 0 0
    else if modules = 0 then refuseGuest s 1
    else
      let s := setGuestEdge s (min 2 modules)
      match desc with
      | none => refuseGuest s 2
      | some d => if descriptorRefusal d = 0 then admitGuest s d else refuseGuest s (descriptorRefusal d)

/-- GUEST_ADMISSION (R474). -/
def execGuestAdmission (partner : Bool) (modules : Nat) (desc : Option (List Byte)) (s : State) : Outcome :=
  live s (guestAdmission s partner modules desc)

/-- GST_CTL.READMIT (R475): taken in ABSENT, REFUSED and WITHDRAWN with contexts 60 to 63 FREE. -/
def readmit (s : State) : State :=
  let st := s.rd R.GST_STS_STATE 0
  if (st = 0 ∨ st = 4 ∨ st = 5) ∧ s.smc.released ∧ guestCtxs.all (fun c => (ctxOf s c).state == .free) then
    { s.wr R.GST_STS_STATE 0 1 with guest := { s.guest with admitting := true } }
  else s

/-- GST_READMIT (R475). -/
def execGstReadmit (s : State) : Outcome := live s (readmit s)

/-! Withdrawal (R475) -/

/-- Whether a record in flight moves data to or from the guest die. -/
def guestFlight (s : State) (f : Flight) : Bool := windowOf s f.src == .gx || windowOf s f.dst == .gx

/-- The requests in flight to the guest die end with GUEST_LOST (R475). -/
def loseGuestFlights (s : State) : State :=
  let ids := (s.flights.filter (fun e => guestFlight s e.2 && !e.2.abandoned && !e.2.lost)).map (·.1)
  if ids.isEmpty then s
  else ids.foldl (fun s id => endFlight s id 9 3) (stepFault s .uncorrectable)

/-- REASON of a withdrawal (Table 18.9). -/
def withdrawReason : WithdrawCause → Nat
  | .guestLink => 7 | .rail => 8 | .host => 9

/-- The guest die is withdrawn (R475). -/
def withdrawGuest (s : State) (reason : Nat) : State :=
  if !guestAdmitted s then s
  else
    let lost := s.flights.any (fun e => guestFlight s e.2 && !e.2.abandoned && !e.2.lost)
    let s := loseGuestFlights s
    let s := guestCtxs.foldl (fun s c => resetCtx s c true) s
    let s := setGuestEdge s 0
    let s := ((s.wr R.GST_STS_STATE 0 5).wr R.GST_STS_REASON 0 reason).wr R.GST_STS_CONTEXTS 0 0
    let s := if lost then logErr s .GST 0 2 .CAPACITY reason 0 [0, 0, 0] else s
    raise (measChanged { s with guest := Guest.reset }) .GST 0 6

/-- WITHDRAW (R475). -/
def execWithdraw (cause : WithdrawCause) (s : State) : Outcome := live s (withdrawGuest s (withdrawReason cause))

/-- GUEST_BLOCK_RESEND (R472): a block unacknowledged after 1 µs is resent; after its eighth resend the guest link fails. -/
def resendBlock (s : State) (seq : Nat) : State :=
  let n := Tbl.get 0 s.guest.resends seq
  if !guestAdmitted s then s
  else if 8 ≤ n then withdrawGuest s 7
  else
    let near := fun (e : Nat × Nat) => decide ((e.1 + 65536 - seq) % 65536 < 64 ∨ (seq + 65536 - e.1) % 65536 < 64)
    { s.inc R.GST_RESENDS_RESENDS 0 1 with
      guest := { s.guest with resends := (Tbl.set s.guest.resends seq (n + 1)).filter near } }

/-- GUEST_BLOCK_RESEND (R472): block sequences have 16 bits. -/
def execGuestBlockResend (seq : Nat) (s : State) : Outcome := onUnit s seq 65536 (resendBlock s seq)

/-! Messages (R472) -/

/-- The bytes of a message are counted; how many it has beside its data is not given: a free value. -/
def countMessage (s : State) (sent : Bool) (n : Nat) : State :=
  (s.fresh.2).inc (if sent then R.GST_TX_BYTES_BYTES else R.GST_RX_BYTES_BYTES) 0 (n + s.fresh.1)

/-- A message of the device to the guest die. -/
def toGuest (s : State) (kind tag addr : Nat) (bs : List Byte) : State :=
  (countMessage s true bs.length).emit (.guest kind tag addr bs)

/-- A completion by the device, its status (0 success, 1 refused or failed; log entry 23) in place of an address. -/
def complete (s : State) (tag status : Nat) (bs : List Byte) : State := toGuest s 2 tag status bs

/-- The device address of `n` bytes at a guest address (R167, R472), if it has one. -/
def guestMap (s : State) (a n : Nat) : Option Nat :=
  if a + n ≤ s.map.guestSize then some (s.map.guest + a)
  else if 0x020000000000 ≤ a ∧ a + n ≤ 2 ^ 48 ∧ !(hearthLocal ≤ a + n - 1 ∧ a < hearthLocal + hearthSize) then some a
  else none

/-- A guest request is refused (R168, R472): counted, raised and logged. -/
def refuseRequest (s : State) : State :=
  logErr (raise (s.inc R.GST_REFUSED_REFUSED 0 1) .GST 0 7) .GST 0 3 .INFO 0 0 [0, 0, 0]

/-- How a guest access of `n` bytes at `a` goes: its device address, or the state after its refusal or failure, or a wait. -/
inductive GuestWay where
  | go (addr : Nat)
  | bad (s : State)
  | wait

/-- The way of a guest access: 64 to 4,096 bytes, mapped and allowed under Table 6.5; a domain in reset fails it (R397). -/
def guestWay (s : State) (write : Bool) (a n : Nat) : GuestWay :=
  if n < 64 ∨ 4096 < n then .bad (refuseRequest s)
  else match guestMap s a n with
  | none => .bad (refuseRequest s)
  | some x =>
    if !accessOk s .guest write x n then .bad (refuseRequest (refuseEffects s .guest write 0x3F x n))
    else match accessBlocked s x n with
    | some d => .bad (logErr s .FLT 0 1 .COMMAND (2 + 256 * d) x [0, 0, 0])
    | none => if waitsHearth s x n || (write && waitsTouch s x n) then .wait else .go x

/-- RD (R472): from the guest, memory is read and returned with CPL; toward it, the device asks. -/
def readMessage (s : State) (dir : GuestDir) (tag addr len : Nat) : State :=
  match dir with
  | .toGuest =>
    if s.guest.open'.contains tag then s
    else toGuest { s with guest := { s.guest with open' := s.guest.open' ++ [tag] } } 0 tag addr (leBytes 2 len)
  | .fromGuest =>
    let t := countMessage s false 0
    match guestWay t false addr len with
    | .wait => s
    | .bad u => complete u tag 1 []
    | .go a => let r := readAny t a len; complete r.2 tag 0 r.1

/-- RD (R472): no message passes without an admitted guest die. -/
def execRd (dir : GuestDir) (tag addr len : Nat) (s : State) : Outcome :=
  live s (if guestAdmitted s then readMessage s dir tag addr len else s)

/-- WR (R472): from the guest, memory is written; toward it, the device writes. -/
def writeMessage (s : State) (dir : GuestDir) (tag addr : Nat) (data : List Byte) : State :=
  match dir with
  | .toGuest => toGuest s 1 tag addr data
  | .fromGuest =>
    let t := countMessage s false data.length
    match guestWay t true addr data.length with
    | .wait => s
    | .bad u => u
    | .go a => writeAny t a data

/-- WR (R472). -/
def execWr (dir : GuestDir) (tag addr : Nat) (data : List Byte) (s : State) : Outcome :=
  live s (if guestAdmitted s then writeMessage s dir tag addr data else s)

/-- CPL (R472): the device's request under this tag is complete. -/
def completionMessage (s : State) (tag : Nat) (data : List Byte) : State :=
  let t := countMessage s false data.length
  { t with guest := { t.guest with open' := t.guest.open'.filter (· != tag) } }

/-- CPL (R472): whatever its status, the request under its tag is over; the record it may belong to ends by a command of its
own. -/
def execCpl (tag _status : Nat) (data : List Byte) (s : State) : Outcome :=
  live s (if guestAdmitted s then completionMessage s tag data else s)

/-- REC (R208, R472): a record of 64 bytes is submitted to a guest context; for any other context the request is refused. -/
def recordMessage (s : State) (c : Nat) (data : List Byte) : State :=
  let t := countMessage s false data.length
  if 60 ≤ c ∧ c < 64 ∧ data.length = 64 then submitTo t c data else refuseRequest t

/-- REC (R472). -/
def execRecMsg (ctx : Nat) (data : List Byte) (s : State) : Outcome :=
  live s (if guestAdmitted s then recordMessage s ctx data else s)

/-- Whether the guest die may access a register: its CTX pages, and to read the DIR and TIME pages (R472). -/
def guestMayAccess (off : Nat) (write : Bool) : Bool :=
  match pageAt (off / 0x1000) with
  | some (.CTX, c) => 60 ≤ c && off < 0x200000
  | some (.DIR, _) | some (.TIME, _) => !write
  | _ => false

/-- What a guest write of CTX_CTL commands (R207, R474): it may create the first CONTEXTS of its contexts. -/
def guestCtl (s : State) (c v : Nat) : State :=
  let s := if bitOf v 0 ∧ c - 60 < s.rd R.GST_STS_CONTEXTS 0 then createCtx s c else s
  let s := if bitOf v 1 then resetCtx s c true else s
  let s := if bitOf v 2 then resetCtx s c false else s
  let s := if bitOf v 3 then preemptCtx s c else s
  let s := if bitOf v 4 then resumeCtx s c else s
  if bitOf v 5 then skipCtx s c else s

/-- The commands that a guest write of a 32-bit offset of a CTX page gives, beside the plain fields it writes. -/
def guestCommand (s : State) (c off v : Nat) : State :=
  let slot := slotOf .CTX c
  match off with
  | 0x08 => if bitOf v 2 then clearLog s slot else s
  | 0x10 => clearEvents s slot v
  | 0x14 => maskEvents s slot v
  | 0x18 => forceEvents s slot v
  | 0x20 => let s := if bitOf v 0 then applyOp s .CTX c else s; if bitOf v 1 then armDiscardOp s .CTX c else s
  | 0x104 => guestCtl s c v
  | _ => s

/-- A guest register write (R472). -/
def guestWrite (s : State) (off width v : Nat) : State :=
  if (width ≠ 32 ∧ width ≠ 64) ∨ off % (width / 8) ≠ 0 then badAccess s
  else
    let c := off / 0x1000 - slotOf .CTX 0
    let o := off % 0x1000
    let s := guestCommand (regWriteOp s .guest off width true v) c o (v % 2 ^ 32)
    if width = 64 then guestCommand s c (o + 4) (v / 2 ^ 32 % 2 ^ 32) else s

/-- A guest register read: bad width or alignment reads zeros (R41). -/
def guestRead (s : State) (off width : Nat) : State :=
  if (width ≠ 32 ∧ width ≠ 64) ∨ off % (width / 8) ≠ 0 then toGuest (badAccess s) 4 0 off (leBytes (width / 8) 0)
  else
    let lo := leBytes 4 (slotWord s (off / 0x1000) (off % 0x1000))
    let hi := if width = 64 then leBytes 4 (slotWord s (off / 0x1000) (off % 0x1000 + 4)) else []
    toGuest s 4 0 off (lo ++ hi)

/-- REG (R472): from the guest, an allowed register is read or written; toward it, the device accesses the guest register
region. -/
def regMessage (s : State) (dir : GuestDir) (off width : Nat) (val : Option Nat) : State :=
  match dir with
  | .toGuest => toGuest s 4 0 off (match val with | some v => leBytes (width / 8) v | none => [])
  | .fromGuest =>
    let t := countMessage s false (match val with | some _ => width / 8 | none => 0)
    if !guestMayAccess off val.isSome then refuseRequest t
    else match val with
    | some v => guestWrite t off width v
    | none => guestRead t off width

/-- REG (R472). -/
def execReg (dir : GuestDir) (off width : Nat) (val : Option Nat) (s : State) : Outcome :=
  live s (if guestAdmitted s then regMessage s dir off width val else s)

end Sys2Proof.Machine
end

