-- ==== Sys2Proof/WellFormed.lean ====
section
/-! DEFINITION. Which commands are well formed: every unit, page, link, flow, slot or context that an operand names exists in the
module (R2, R59, Table 2.5). An ill-formed command is none of the module's: its meaning faults with noSuchUnit. -/

namespace Sys2Proof.Machine

open Sys2Proof

/-- Whether a list names die-to-die modules that the package has, as (die slot, edge, module) (Table 18.3). -/
def modulesExist (l : List (Nat × Nat × Nat)) : Bool :=
  l.all (fun x => decide (x.1 < 10) && (peerOf x.1 x.2.1).isSome && decide (x.2.2 < modulesOf x.1 x.2.1))

/-- Whether the operands of a command name units that exist. -/
def wellFormed (i : Instr) : Bool :=
  match i with
  | .regWrite _ _ _ _ _ => true
  | .apply slot => (pageAt slot).isSome
  | .armDiscard slot => (pageAt slot).isSome
  | .applyTaken slot => (pageAt slot).isSome
  | .errlogClear slot => (pageAt slot).isSome
  | .evtStsClear slot _ => (pageAt slot).isSome
  | .evtForce slot _ => (pageAt slot).isSome
  | .evtMaskWrite slot _ => (pageAt slot).isSome
  | .telemetrySnapshot slot => (pageAt slot).isSome
  | .hold ctx => decide (ctx < 64)
  | .wardHoldAck => true
  | .step ctx => decide (ctx < 64)
  | .temper ctx => decide (ctx < 64)
  | .checkStart => true
  | .voteSend => true
  | .vote plane _ => decide (plane < 32)
  | .result plane _ => decide (plane < 32)
  | .flip => true
  | .replayStart => true
  | .voteTimeout => true
  | .resolveForward => true
  | .resolveDiscard => true
  | .replayResume => true
  | .mma ctx => decide (ctx < 64)
  | .anvTileIssue die unit _ => decide (die < 8) && decide (unit < 40)
  | .anvTileEnd die unit _ _ => decide (die < 8) && decide (unit < 40)
  | .anvIssueWaitEnd die unit => decide (die < 8) && decide (unit < 40)
  | .mmaComplete _ => true
  | .anvClkGate die unit => decide (die < 8) && decide (unit < 40)
  | .bistClaimAnvil die => decide (die < 8)
  | .anvTestEnter die => decide (die < 8)
  | .anvClaimForced die => decide (die < 8)
  | .vec ctx => decide (ctx < 64)
  | .vecBlockStart die unit slot => decide (die < 8) && decide (unit < 8) && decide (slot < 8)
  | .vecBlockCommit die unit slot _ => decide (die < 8) && decide (unit < 8) && decide (slot < 8)
  | .vecComplete _ => true
  | .swgClkGate die unit => decide (die < 8) && decide (unit < 8)
  | .bistClaimSwage die => decide (die < 8)
  | .swgTestEnter die => decide (die < 8)
  | .swgClaimForced die => decide (die < 8)
  | .bistTestEnd die _ _ _ => decide (die < 8)
  | .sparkKat _ => true
  | .hearthScrubRead die bank _ => decide (die < 8) && decide (bank < 128)
  | .hearthInitDone die => decide (die < 8)
  | .halt die _ => decide (die < 8)
  | .hbmTrain reports => reports.length == 16
  | .hbmRead _ _ _ => true
  | .healDone _ _ _ => true
  | .hbmParityError _ _ _ _ => true
  | .hbmRefresh stack pc _ => decide (stack < 16) && decide (pc < 32)
  | .hbmTempRead stack _ => decide (stack < 16)
  | .hbmPatrolScrub stack pc _ => decide (stack < 16) && decide (pc < 32)
  | .gather ctx => decide (ctx < 64)
  | .gatherComplete _ => true
  | .hbmSelfRefreshExit die _ _ => decide (die < 8)
  | .recordSubmit off _ => decide (off / 0x10000 < 64)
  | .create ctx => decide (ctx < 64)
  | .destroy ctx => decide (ctx < 64)
  | .ctxReset ctx => decide (ctx < 64)
  | .quarantineEnd ctx => decide (ctx < 64)
  | .preempt ctx => decide (ctx < 64)
  | .resume ctx => decide (ctx < 64)
  | .skip ctx => decide (ctx < 64)
  | .ctxSave ctx => decide (ctx < 64)
  | .ctxLoad ctx => decide (ctx < 64)
  | .recordIssue die => decide (die < 8)
  | .nop ctx => decide (ctx < 64)
  | .call ctx => decide (ctx < 64)
  | .ret ctx => decide (ctx < 64)
  | .loop ctx => decide (ctx < 64)
  | .copy ctx => decide (ctx < 64)
  | .copyComplete _ => true
  | .signal ctx => decide (ctx < 64)
  | .wait ctx => decide (ctx < 64)
  | .waitWake ctx => decide (ctx < 64)
  | .waitTimeout ctx => decide (ctx < 64)
  | .heat ctx => decide (ctx < 64)
  | .stamp ctx => decide (ctx < 64)
  | .aflags ctx => decide (ctx < 64)
  | .signalOp plane _ => decide (plane < 32)
  | .subscribe plane _ => decide (plane < 32)
  | .notify plane _ => decide (plane < 32)
  | .broken plane _ => decide (plane < 32)
  | .cancel plane _ => decide (plane < 32)
  | .busy plane _ => decide (plane < 32)
  | .subscribeRetry ctx => decide (ctx < 64)
  | .alloc => true
  | .free => true
  | .bind => true
  | .unbind => true
  | .clearBroken => true
  | .periscopeEval => true
  | .linkEnable k => decide (k < 32)
  | .linkDisable k => decide (k < 32)
  | .linkTraining k _ => decide (k < 32)
  | .retrain k => decide (k < 32)
  | .linkRetry k => decide (k < 32)
  | .autoRestore k => decide (k < 32)
  | .codewordRx k _ _ _ _ _ => decide (k < 32)
  | .controlSlotRx k _ => decide (k < 32)
  | .packetTx k => decide (k < 32)
  | .laneFault k lane _ => decide (k < 32) && decide (lane < 4)
  | .serWindowEnd k => decide (k < 32)
  | .degradeReq k _ => decide (k < 32)
  | .degradeAck k _ _ => decide (k < 32)
  | .degradeTimeout k => decide (k < 32)
  | .downNotice k => decide (k < 32)
  | .txeqReq k lane _ => decide (k < 32) && decide (lane < 4)
  | .txeqAck k lane => decide (k < 32) && decide (lane < 4)
  | .txeqWindowEnd k lane => decide (k < 32) && decide (lane < 4)
  | .data plane _ => decide (plane < 32)
  | .read plane _ _ => decide (plane < 32)
  | .write plane _ => decide (plane < 32)
  | .ack plane _ => decide (plane < 32)
  | .ackSend flow => decide (flow < 4096)
  | .flowOpen plane _ => decide (plane < 32)
  | .openAck plane _ => decide (plane < 32)
  | .close plane _ => decide (plane < 32)
  | .packetInject flow => decide (flow < 4096)
  | .resendTimeout flow _ _ => decide (flow < 4096)
  | .readmit d _ => decide (d < 2)
  | .epochSwitch => true
  | .epochRetire => true
  | .drainSet => true
  | .drained => true
  | .drainClear => true
  | .sendCut => true
  | .sendStop => true
  | .copyCur d => decide (d < 2)
  | .rteDataWrite d _ => decide (d < 2)
  | .rteDataRead d => decide (d < 2)
  | .stop plane _ => decide (plane < 32)
  | .stopRepeat => true
  | .cut plane _ => decide (plane < 32)
  | .timeSend => true
  | .time plane _ => decide (plane < 32)
  | .holdover => true
  | .reduceScatter ctx => decide (ctx < 64)
  | .allGather ctx => decide (ctx < 64)
  | .allReduce ctx => decide (ctx < 64)
  | .broadcast ctx => decide (ctx < 64)
  | .mirror ctx => decide (ctx < 64)
  | .collStart _ => true
  | .ready plane _ => decide (plane < 32)
  | .partialSum plane _ _ => decide (plane < 32)
  | .weldGather plane _ => decide (plane < 32)
  | .scatter plane _ => decide (plane < 32)
  | .weldMirror plane _ => decide (plane < 32)
  | .weldHold plane _ => decide (plane < 32)
  | .collComplete _ => true
  | .stall _ => true
  | .tallyTimeout => true
  | .tongsOpen ctx => decide (ctx < 64)
  | .put ctx => decide (ctx < 64)
  | .release ctx => decide (ctx < 64)
  | .fetch ctx => decide (ctx < 64)
  | .tongsClose ctx => decide (ctx < 64)
  | .offloadStart slot => decide (slot < 32)
  | .offloadDone slot => decide (slot < 32)
  | .fetchStart slot => decide (slot < 32)
  | .fetchDone slot => decide (slot < 32)
  | .forceDown _ => true
  | .clearDown _ => true
  | .loupeCheckDone die _ => decide (die < 8)
  | .loupeRerunDone die _ => decide (die < 8)
  | .loupeSettle die _ => decide (die < 8)
  | .tchZeroDone => true
  | .bstStart => true
  | .bstDone _ => true
  | .ldgClear _ => true
  | .ledgerWrite _ => true
  | .pohSave => true
  | .healthDecay => true
  | .score => true
  | .chipResetRequest => true
  | .dieResetRequest => true
  | .portResetRequest => true
  | .resetDone => true
  | .frecAck => true
  | .wdog => true
  | .takeoverLoad => true
  | .takeoverRealign => true
  | .tkoDone _ _ _ _ _ => true
  | .tkoFail _ => true
  | .preCutResult plane _ => decide (plane < 32)
  | .nvmeCompletion _ _ => true
  | .nvmeTimeout => true
  | .postCutResult plane _ => decide (plane < 32)
  | .cutTimeout => true
  | .restore _ _ _ => true
  | .restoreDone _ _ => true
  | .fill => true
  | .fillDone _ _ => true
  | .driveInit => true
  | .powerEval _ _ _ => true
  | .rampEval die _ _ => decide (die < 8)
  | .hintPrepare die => decide (die < 8)
  | .hintWindow die => decide (die < 8)
  | .sensorRead id _ _ => decide (id < 36)
  | .thermalEval _ => true
  | .thermalTrip sensor _ => decide (sensor < 36)
  | .pllUnlock d => decide (d < 10)
  | .dieSleep die => decide (die < 8)
  | .dieWake die _ => decide (die < 8)
  | .powerOn => true
  | .pwrEnFall => true
  | .perst => true
  | .hotReset => true
  | .linkDown => true
  | .hostwRequestError _ _ => true
  | .apertureAccess _ _ _ _ _ => true
  | .msixGapEnd vector => decide (vector < 2048)
  | .msixUnmask vector => decide (vector < 2048)
  | .doorbell => true
  | .getInfo => true
  | .mapSet => true
  | .hbmClearMapout => true
  | .hbmRetrain reports => reports.length == 16
  | .fwStage _ _ => true
  | .fwActivate => true
  | .svnCommit => true
  | .keyRevoke => true
  | .smcBoot failed diff => modulesExist failed && modulesExist diff
  | .getVersion => true
  | .getCapabilities _ => true
  | .negotiateAlgorithms _ _ => true
  | .getDigests => true
  | .getCertificate _ _ _ => true
  | .challenge _ _ => true
  | .getMeasurements _ _ _ => true
  | .entdaa addr => decide (addr < 128)
  | .getEndpointId => true
  | .tripStatus => true
  | .pldmSensorRead _ => true
  | .flitCrcError d edge module _ _ => decide (d < 10) && (peerOf d edge).isSome && decide (module < modulesOf d edge)
  | .guestAdmission _ _ _ => true
  | .gstReadmit => true
  | .withdraw _ => true
  | .guestBlockResend seq => decide (seq < 65536)
  | .rd _ _ _ _ => true
  | .wr _ _ _ _ => true
  | .cpl _ _ _ => true
  | .recMsg _ _ => true
  | .reg _ _ _ _ => true
  | .inputRemoved _ => true
  | .linkUp _ _ => true
  | .configurationRequest _ => true
  | .doeDiscovery _ => true
  | .driveMemoryRequest _ _ _ => true

end Sys2Proof.Machine
end

