-- ==== Sys2Proof/Machine/Startup.lean ====
section
/-! DEFINITION. Power (R461), the boot of the SMC (R447, R451) and the bring-up (R479 to R483). -/

namespace Sys2Proof.Machine

open Sys2Proof

/-! Power (R425, R461) -/

/-- The main regulators go off (R461): the module stops, its memory is lost. -/
def mainOff (s : State) : State :=
  if s.power.on then
    let t := { s with power := { s.power with on := false } }
    (t.undefine 0 (2 ^ 48)).emit (.pin "PWR_GOOD" false)
  else s

/-- PWR_EN_FALL (R461): an unrequested reset; while a trip is latched PWR_EN is ignored. -/
def execPwrEnFall (s : State) : Outcome := .next (if s.power.trip.isSome then s else mainOff s)

/-- The standby rail is lost (R425, R455, R461): the trip latch and the board management address go with it. -/
def standbyOff (s : State) : State :=
  let t := { s with power := { s.power with trip := none }, smc := { s.smc with standby := false, i3c := none } }
  if s.power.trip.isSome then t.emit (.pin "THERMTRIP_N" true) else t

/-- INPUT_REMOVED (R461): the module stops; a removal for at least 1 s also clears a latched trip. -/
def execInputRemoved (long : Bool) (s : State) : Outcome :=
  .next (if long then standbyOff (mainOff s) else mainOff s)

/-- A COLD reset (R372): the flash and the fuses stay. POH resumes from its last save
(R356). -/
def coldReset (s : State) : State :=
  let ledger := { s.ledger with poh := s.ledger.pohSaved, waiting := [] }
  let smc : Smc :=
    { Smc.reset with
      slotA := s.smc.slotA
      slotB := s.smc.slotB
      bootB := s.smc.bootB
      staged := s.smc.staged
      fuseSvn := s.smc.fuseSvn
      revoked := s.smc.revoked }
  { State.reset with pending := s.pending, free := s.free, out := s.out, ledger := ledger, smc := smc }

/-- POWER_ON (R461, R479): ignored while a trip is latched or with the power on. -/
def powerOn (s : State) : State :=
  if s.power.on || s.power.trip.isSome then s else (coldReset s).emit (.pin "PWR_GOOD" true)

/-- POWER_ON (R479). -/
def execPowerOn (s : State) : Outcome := .next (powerOn s)

/-! The boot ROM (R447, R451) -/

/-- The device certificate's key against the derived one (R451). -/
def checkCertificate (s : State) : State :=
  if devicePublic = Config.certificateKey then s.wr R.SEC_BOOT_CERT_BAD 0 0
  else logErr (raise (s.wr R.SEC_BOOT_CERT_BAD 0 1) .SEC 0 5) .SEC 0 2 .INFO 0 0 [0, 0, 0]

/-- The slot that steps 3 to 5 of Table 17.7 choose: the boot record's, else the other. -/
def bootSlotOf (s : State) : Option Nat :=
  let k := if s.smc.bootB then 1 else 0
  if imageResult s (slotBytes s k) = 0 then some k
  else if imageResult s (slotBytes s (1 - k)) = 0 then some (1 - k)
  else none

/-- Slot `k` is loaded and Sahsin starts (R447). -/
def runImage (s : State) (k : Nat) : State :=
  let img := slotBytes s k
  let s := showImage s k img
  let image := img.take (512 + fieldAt img 0x18 4)
  let fallback := k != (if s.smc.bootB then 1 else 0)
  let s := { s with smc := { s.smc with image := image, spdm := 0, spdmVersion := 0 } }
  let s := (s.wr R.SEC_BOOT_FALLBACK 0 (b2n fallback)).wr R.SEC_BOOT_STATE 0 1
  if fallback then logErr (raise s .SEC 0 4) .SEC 0 1 .INFO 0 0 [0, 0, 0] else s

/-- Both slots fail: RECOVERY (R447, R481); the boot ROM answers FW_STAGE (log entry 25). -/
def enterRecovery (s : State) : State :=
  let s := ((s.wr R.SEC_BOOT_STATE 0 2).wr R.SMC_BRINGUP_STAGE 0 7).wr R.SMC_MB_STS_STATE 0 0
  { s with host := { s.host with ready := true } }

/-! Bring-up up to IDENTITY (Table 19.1) -/

/-- Step 5: the ledger is read (R356, R355). -/
def readLedger (s : State) : State :=
  (List.range 8).foldl restoreLoupe ((s.wr R.LDG_STS_READY 0 1).wr R.SMC_BRINGUP_STAGE 0 1)

/-- The modules of an edge whose fused repair entry names a lane (Table 18.5). -/
def fusedRepairs (d e : Nat) : Nat :=
  (List.range (modulesOf d e)).foldl (fun r m =>
    let w := leNat ((List.range 4).map (fun k => Config.identityFuse d (0x10 + 4 * (12 * e + m) + k)))
    if (List.range 4).all (fun k => bits w (7 * k) 7 == 0x7F) then r else r + 2 ^ m) 0

/-- The modules of edge `e` of die slot `d` that a list names at either end, as a mask. -/
def edgeMask (l : List (Nat × Nat × Nat)) (d e : Nat) : Nat :=
  let far := peerOf d e
  (List.range (modulesOf d e)).foldl (fun r m =>
    if l.contains (d, e, m) || (match far with | some p => l.contains (p.1, p.2, m) | none => false) then r + 2 ^ m else r) 0

/-- Whether the module whose repair differs from the fused map uses a spare now, for each module of a mask: free values. -/
def freeMask (s : State) (mask : Nat) : Nat × State := (s.fresh.1 &&& mask, s.fresh.2)

/-- Repair training of one end of an edge (R468, Table 18.9). -/
def trainEdge (failed diff : List (Nat × Nat × Nat)) (s : State) (d e : Nat) : State :=
  match peerOf d e with
  | none => s
  | some p =>
    let all := 2 ^ modulesOf d e - 1
    let bad := edgeMask failed d e
    let differ := diff.foldl (fun r x => if x.1 = d ∧ x.2.1 = e then r ||| 2 ^ x.2.2 else r) 0
    let fused := fusedRepairs d e
    let r := if differ = 0 then (0, s) else freeMask s differ
    let s := (r.2.wr (R.D2D_EDGE_UP e) d (all - bad)).wr (R.D2D_EDGE_FAILED e) d bad
    let s := (s.wr (R.D2D_EDGE_PEER e) d p.1).wr (R.D2D_EDGE_STATE e) d (if bad = 0 then 1 else if bad = all then 3 else 2)
    let s := s.wr (R.D2D_EDGE_REPAIRED e) d (fused - (fused &&& differ) + r.1)
    raiseIf (differ != 0) (s.wr (R.D2D_EDGE_REPAIR_DIFF e) d differ) .D2D d 6

/-- Every edge of every die trains (R468). -/
def trainEdges (s : State) (failed diff : List (Nat × Nat × Nat)) : State :=
  (List.range 10).foldl (fun s d => (List.range 4).foldl (fun s e => trainEdge failed diff s d e) s) s

/-- The release of a die slot: its loop locks unless it has lost lock (R427), and the ANVIL units are promoted (R64). -/
def releaseDie (s : State) (d : Nat) : State :=
  let s := if bitOf s.smc.unlocked d then s else lockDie s d
  if d < 8 then promote s d else s

/-- Step 6: the dies are released and everything of t2 starts (R479): edges, links, guest admission, the ingot drive. -/
def releaseDies (s : State) (failed diff : List (Nat × Nat × Nat)) : State :=
  let s := { s with smc := { s.smc with released := true } }
  let s := (List.range 10).foldl releaseDie (s.wr R.SMC_BRINGUP_STAGE 0 2)
  let s := driveInit (trainLinks (trainLinks (trainEdges s failed diff) 0) 1)
  let s := { s with guest := { s.guest with admitting := true } }
  (s.wr R.GST_STS_STATE 0 1).emit (.pin "CK_PERST_N" true)

/-- Whether the identity block of a die slot passes (R470). -/
def identityOk (d : Nat) : Bool :=
  let b := identityBlock d
  let slot := fieldAt b 0 1 % 16
  crc32c (b.take 0x100) == fieldAt b 0x100 4 && slot == d && fieldAt b 8 8 == fieldAt (identityBlock 8) 8 8

/-- Step 7 for one die (R470). -/
def checkIdentity (s : State) (d : Nat) : State :=
  if identityOk d then s.wr R.D2D_ID_ID_OK d 1
  else logErr (raise s .D2D d 8) .D2D d 4 .MODULE 0 0 [0, 0, 0]

/-- A die that repair training leaves with no working edge is logged (R467). -/
def logUnreachable (s : State) (d : Nat) : State := if cutOff s d then logErr s .D2D d 5 .MODULE 0 0 [0, 0, 0] else s

/-- Steps 5 to 7 (R479), stopping at the first cause found (R482). -/
def bringUp (s : State) (failed diff : List (Nat × Nat × Nat)) : State :=
  let unlocked := s.smc.unlocked
  let s := releaseDies (readLedger s) failed diff
  if unlocked ≠ 0 then haltBringup s 3
  else if (List.range 10).any (cutOff s) then haltBringup ((List.range 10).foldl logUnreachable s) 2
  else
    let s := (List.range 10).foldl checkIdentity s
    if (List.range 10).all identityOk then refreshReady (s.wr R.SMC_BRINGUP_STAGE 0 3) else haltBringup s 1

/-- A restart of the SMC alone (R383, R440, R450): bring-up is where it was; a command cut short ends with RESTARTED, and the
mailbox is IDLE once bring-up is done. -/
def restarted (s : State) : State :=
  let stage := s.rd R.SMC_BRINGUP_STAGE 0
  let s := if stage = 7 then
      s.wr R.SMC_BRINGUP_STAGE 0 (if s.rd R.SMC_BRINGUP_HALT_CAUSE 0 ≠ 0 then 6
        else if (List.range 10).all (readyBit s) then 5 else 3)
    else s
  let done := decide (5 ≤ s.rd R.SMC_BRINGUP_STAGE 0)
  let s := if s.smc.cutShort then mbDone { s with smc := { s.smc with cutShort := false } } 0x18 []
    else if done then s.wr R.SMC_MB_STS_STATE 0 0 else s
  refreshReady (raiseIf done s .SMC 0 5)

/-- SMC_BOOT (R447): the boot ROM runs, then Sahsin brings the module up, or goes on where the module stands. -/
def smcBoot (s : State) (failed diff : List (Nat × Nat × Nat)) : State :=
  let st := s.rd R.SEC_BOOT_STATE 0
  if st = 1 ∨ st = 2 then s
  else
    let s := refreshSlots (checkCertificate s)
    match bootSlotOf s with
    | none => enterRecovery s
    | some k =>
      let s := runImage s k
      if s.smc.released then restarted s else bringUp s failed diff

/-- SMC_BOOT (R447). -/
def execSmcBoot (failed diff : List (Nat × Nat × Nat)) (s : State) : Outcome :=
  if modulesExist failed && modulesExist diff then live s (smcBoot s failed diff) else .fault .noSuchUnit

/-! HBM (R181 to R183) -/

/-- HBM_TRAIN (R181): step 8 of Table 19.1 where it runs in full; with HS0 failed bring-up stops (R183). -/
def hbmTrain (s : State) (reports : List StackReport) : State :=
  if s.rd R.SMC_BRINGUP_STAGE 0 = 3 ∧ sahsinRuns s ∧ s.smc.fullTrain then
    let s := trainAll s reports s.map.seq
    if (stackOf s 0).failed then haltBringup s 4 else refreshReady (s.wr R.SMC_BRINGUP_STAGE 0 4)
  else s

/-- HBM_TRAIN (R181): a command with another number of reports than stacks is ill-formed. -/
def execHbmTrain (reports : List StackReport) (s : State) : Outcome :=
  if reports.length = 16 then live s (hbmTrain s reports) else .fault .noSuchUnit

end Sys2Proof.Machine
end

