-- ==== Sys2Proof/Machine/Takeover.lean ====
section
/-! DEFINITION. The takeover family (R386 to R391): the load, its end, its failure, and the realignment without a load. -/

namespace Sys2Proof.Machine

open Sys2Proof

/-- Source `n` of the working copy in the staged set: its node and whether its INACTIVE bank is read (Table 14.15). -/
def tkoSource (s : State) (n : Nat) : Nat × Bool :=
  (s.stagedOf (R.FLT_TKO_SRC_NODE n) 0, s.stagedOf (R.FLT_TKO_SRC_BANK n) 0 == 1)

/-- Whether a staged takeover with NO_LOAD = 0 is refused (R387). -/
def loadRefused (s : State) : Bool :=
  let n := s.stagedOf R.FLT_TKO_CFG_N_SRC 0
  let badSource := fun (k : Nat) => (tkoSource s k).1 == 0xFFFF || (tkoSource s k).1 == s.xp.slc.cur.own
  !(liveCtxs s).isEmpty || s.tmp.phase != .idle || s.on R.WLD_LEND_CTL_ENFORCE 0
    || (List.range 16).any (fun w => s.on (R.WLD_LEND_VALID w) 0)
    || s.xp.slc.cur.slice == 0 || decide (s.rd R.TMP_RANK_SIZE 0 < 2) || s.map.wcSize == 0 || s.map.msSize == 0
    || n == 0 || decide (8 < n) || (List.range n).any badSource || s.rd R.FLT_TKO_STS_STATE 0 == 1

/-- The reads of Table 14.9 under the set in effect, as (node, packets). -/
def loadReads (s : State) : List (Nat × List OutPkt) :=
  let b := s.on R.FLT_TKO_CFG_BANK 0
  let buddy := s.rd R.TMP_BUDDY_BUDDY_NODE 0
  let ward := s.rd R.TMP_BUDDY_WARD_NODE 0
  let n := s.rd R.FLT_TKO_CFG_N_SRC 0
  let chunk := fun (i : Nat) =>
    let off := i * 2 ^ 26
    let k := i % n
    (s.rd (R.FLT_TKO_SRC_NODE k) 0,
      readPkts (aliasBase (s.rd (R.FLT_TKO_SRC_BANK k) 0) + off) (pairBase s.map 0 b + off) (min (2 ^ 26) (s.map.wcSize - off))
        .takeover false)
  [(buddy, readPkts (aliasBase (4 + s.rd R.FLT_TKO_CFG_MS_SRC 0)) (pairBase s.map 1 b) s.map.msSize .takeover false),
   (ward, readPkts (aliasBase (2 + s.rd R.FLT_TKO_CFG_MR_SRC 0)) (pairBase s.map 2 b) s.map.msSize .takeover false)]
    ++ (List.range (ceilDiv s.map.wcSize (2 ^ 26))).map chunk
    ++ (if s.on R.FLT_TKO_CFG_HOLD 0 then [(buddy, readPkts wardHoldBase s.map.hold 256 .takeover false)] else [])
    ++ (if s.on R.FLT_TKO_CFG_WARD_HOLD 0 then [(ward, readPkts holdBase s.map.wardHold 256 .takeover false)] else [])

/-- The staged takeover with NO_LOAD = 0 is taken: refused with CFG_BAD, or the load starts (R387). -/
def takeoverLoad (s : State) : State :=
  if loadRefused s then refuseApply s .FLT 0 [18]
  else
    let s := commitApply s .FLT 0
    let s := (s.wr R.FLT_TKO_STS_STATE 0 1).wr R.FLT_TKO_STS_CAUSE 0 0
    let s := ((s.wr R.FLT_TKO_STS_HOLD_LOADED 0 0).wr R.FLT_TKO_STS_WARD_HOLD_LOADED 0 0).wr R.FLT_TKO_BYTES_BYTES 0 0
    (loadReads s).foldl (fun s r => queueAll s r.1 r.2) s

/-- TAKEOVER_LOAD (R387). -/
def execTakeoverLoad (s : State) : Outcome :=
  live s (if armPending s .FLT 0 && s.stagedOf R.FLT_TKO_CFG_NO_LOAD 0 == 0 then takeoverLoad s else s)

/-- STEP, TEMPERED and ATT of the set, with REPLAY_COUNT = 0 and LAST_REASON = NONE (R388). -/
def alignTmp (s : State) : State :=
  { s with tmp :=
    { s.tmp with
      step := s.rd R.FLT_TKO_STEP_STEP 0, tempered := s.rd R.FLT_TKO_TEMPERED_TEMPERED 0, att := s.rd R.FLT_TKO_ATT_ATT 0,
      replayCount := 0, lastReason := .none } }

/-- The staged takeover with NO_LOAD = 1 is taken: refused unless PHASE = STOPPED, HOLD_VALID = 1 and BANK = ACTIVE_BANK, or the
step state is realigned (R388). -/
def takeoverRealign (s : State) : State :=
  if s.tmp.phase ≠ .stopped ∨ !s.tmp.holdValid ∨ s.stagedOf R.FLT_TKO_CFG_BANK 0 ≠ b2n s.tmp.activeBank then
    refuseApply s .FLT 0 [18]
  else alignTmp (commitApply s .FLT 0)

/-- TAKEOVER_REALIGN (R388). -/
def execTakeoverRealign (s : State) : Outcome :=
  live s (if armPending s .FLT 0 && s.stagedOf R.FLT_TKO_CFG_NO_LOAD 0 == 1 then takeoverRealign s else s)

/-- A hold image as loaded: none unless it was asked for and present. -/
def loadedHold (s : State) (f : Field) (img : Option (List Byte)) : Option (List Byte) :=
  if s.on f 0 then img.map (fun (bs : List Byte) => bs.take s.map.holdSize) else none

/-- Every loaded byte is visible: the items are written and the state is set in one act (R388). -/
def takeoverDone (s : State) (ms mr wc : List Byte) (hold wardHold : Option (List Byte)) : State :=
  if s.rd R.FLT_TKO_STS_STATE 0 ≠ 1 then s
  else
    let s := abandonPackets s (· == .takeover)
    let b := s.on R.FLT_TKO_CFG_BANK 0
    let h := loadedHold s R.FLT_TKO_CFG_HOLD hold
    let w := loadedHold s R.FLT_TKO_CFG_WARD_HOLD wardHold
    let ms := ms.take s.map.msSize
    let mr := mr.take s.map.msSize
    let wc := wc.take s.map.wcSize
    let s := ((s.store (pairBase s.map 1 b) ms).store (pairBase s.map 2 b) mr).store (pairBase s.map 0 b) wc
    let s := match h with | some bs => s.store s.map.hold bs | none => s
    let s := match w with | some bs => s.store s.map.wardHold bs | none => s
    let bytes := ms.length + mr.length + wc.length + (h.getD []).length + (w.getD []).length
    let s := alignTmp s
    let valid := s.tmp.holdValid || h.isSome
    let s := { s with
      tmp := { s.tmp with
        activeBank := b, holdValid := valid, wardHoldValid := s.tmp.wardHoldValid || w.isSome,
        phase := if valid then .stopped else .idle }
      attempt := { Attempt.fresh with frozen := valid } }
    let s := match h with
      | some bs => (s.wr R.SPK_HOLD_G_HOLD_SEED_G 0 (leNat ((bs.drop 8).take 8))).wr R.SPK_HOLD_U_HOLD_SEED_U 0 (leNat ((bs.drop 16).take 8))
      | none => s
    let s := (s.wr R.FLT_TKO_STS_STATE 0 2).wr R.FLT_TKO_STS_HOLD_LOADED 0 (b2n h.isSome)
    let s := (s.wr R.FLT_TKO_STS_WARD_HOLD_LOADED 0 (b2n w.isSome)).wr R.FLT_TKO_BYTES_BYTES 0 bytes
    raise (s.wr R.FLT_TKO_TIME_TIME 0 s.now) .FLT 0 14

/-- TKO_DONE (R388). -/
def execTkoDone (ms mr wc : List Byte) (hold wardHold : Option (List Byte)) (s : State) : Outcome :=
  live s (takeoverDone s ms mr wc hold wardHold)

/-- The load fails with a cause of Table 14.15; MIRROR_LOST names the buddy, another source node is not given: a free value. -/
def takeoverFails (s : State) (cause : TkoCause) : State :=
  match cause with
  | .mirror => failTakeover s 2 (s.rd R.TMP_BUDDY_BUDDY_NODE 0)
  | .flow => failTakeover s.fresh.2 1 (s.fresh.1 % 2 ^ 16)
  | .reset => failTakeover s.fresh.2 3 (s.fresh.1 % 2 ^ 16)

/-- TKO_FAIL (R389). -/
def execTkoFail (cause : TkoCause) (s : State) : Outcome := live s (takeoverFails s cause)

end Sys2Proof.Machine
end

