-- ==== Sys2Proof/Machine/Apply.lean ====
section
/-! DEFINITION. APPLY_TAKEN: what each page with an ARMED set checks at its work boundary, and what a taken apply changes (R52,
R55). -/

namespace Sys2Proof.Machine

open Sys2Proof

/-! The step and the engines (R16, R98, R99, R129, R153) -/

/-- R16: taken between a flip and the next HOLD only; refused where the buddy or the ward is the module itself or SIZE is below
2. -/
def takeTmp (s : State) : State :=
  let own := s.xp.slc.cur.own
  if s.tmp.phase ≠ .idle then s
  else if s.stagedOf R.TMP_BUDDY_BUDDY_NODE 0 = own ∨ s.stagedOf R.TMP_BUDDY_WARD_NODE 0 = own
      ∨ s.stagedOf R.TMP_RANK_SIZE 0 < 2 then
    logErr (refuseApply s .TMP 0 [4]) .TMP 0 4 .INFO 0 0 [0, 0, 0]
  else commitApply s .TMP 0

/-- R98, R99: taken when every unit of the page is between tiles. -/
def takeAnv (s : State) (i : Nat) : State :=
  if (pageAnvils i).any (fun u => (anvilOf s u.1 u.2).run.isSome) then s else applyAnvMap (commitApply s .ANV i) i

/-- R153: a map of all eight units is refused. -/
def takeSwg (s : State) (i : Nat) : State :=
  if s.stagedOf R.SWG_MAP_MAP_OUT i = 0xFF then refuseApply s .SWG i [] else applySwgMap (commitApply s .SWG i) i

/-- R129: never refused. -/
def takeSpk (s : State) : State := commitApply s .SPK 0

/-! Contexts (R207) -/

/-- The three cases in which an apply of CTX_CFG is refused (R207). -/
def ctxCfgBad (s : State) (c : Nat) : Bool :=
  let st := (ctxOf s c).state
  (st != .free && st != .idle)
    || (s.stagedOf R.CTX_CFG_STEP_ROLE c == 1 && (List.range 64).any (fun k => k != c && s.rd R.CTX_CFG_STEP_ROLE k == 1))
    || s.on R.DIE_STS_IN_RESET (s.stagedOf R.CTX_CFG_DIE c)

/-- R207. -/
def takeCtx (s : State) (c : Nat) : State := if ctxCfgBad s c then refuseApply s .CTX c [] else commitApply s .CTX c

/-! Links and the transport (R259, R293, R294) -/

/-- R259: more than two lanes disabled, or VER_CAP outside 1.0 to 1.2. -/
def lnkTrainBad (s : State) (k : Nat) : Bool :=
  let v := s.stagedOf R.LNK_TRAIN_VER_CAP_MAJOR k * 256 + s.stagedOf R.LNK_TRAIN_VER_CAP_MINOR k
  decide (2 < popCount 4 (s.stagedOf R.LNK_TRAIN_LANE_DISABLE k)) || decide (v < 256) || decide (258 < v)

/-- R259. -/
def takeLnk (s : State) (k : Nat) : State :=
  if lnkTrainBad s k then refuseApply s .LNK k [11]
  else applyLnkTrain (commitApply s .LNK k) k (s.rd R.LNK_TRAIN_LANE_DISABLE k)

/-- R293. -/
def slcBad (s : State) : Bool :=
  let slc := s.xp.slc
  let own := s.stagedOf R.SLC_NEXT_OWN_NODE slcI
  (if s.stagedOf R.SLC_CFG_MODE slcI = 0 then
     slc.next.isSome || slc.prev.isSome || decide (s.stagedOf R.SLC_EPOCH_AT_AT slcI < s.now + 100000)
   else !slc.drained)
    || (decide (0xF000 ≤ own) && own != 0xFFFF) || decide (s.stagedOf R.SLC_NEXT_MC_MCAST_NODE slcI < 0xF000)

/-- R278, R281, R293: an EPOCH apply stages the switch; a DRAIN apply switches and retires at once. -/
def takeSlc (s : State) : State :=
  if slcBad s then refuseApply s .SLC slcI []
  else
    let s := commitApply s .SLC slcI
    let v : SliceVer :=
      ⟨s.rd R.SLC_NEXT_SLICE_ID slcI, s.rd R.SLC_NEXT_OWN_NODE slcI, s.rd R.SLC_NEXT_MC_MCAST_NODE slcI⟩
    if s.on R.SLC_CFG_MODE slcI then retirePrev (switchTables s v s.now)
    else
      let slc : Slc := { s.xp.slc with next := some v, switchAt := s.rd R.SLC_EPOCH_AT_AT slcI }
      { s with xp := { s.xp with slc := slc } }

/-- R294. -/
def timeBad (s : State) : Bool :=
  let set := s.stagedOf R.TIME_SET_SET 0
  set != 0 && (s.tmp.phase != .idle || decide (set < s.now))

/-- The time service after an apply of the TIME set (R282): a new master is LOCKED and follows nobody, one that is no more is
FREE. -/
def timeRole (s : State) (was : Bool) : State :=
  let t := s.xp.time
  if isMaster s then
    let s := raiseIf (t.state != .locked) s .TIME 0 4
    s.setTime { TimeSvc.reset with state := .locked, seq := t.seq }
  else if was then s.setTime { TimeSvc.reset with seq := t.seq }
  else s

/-- R282, R294: with MASTER = 1 a SET other than 0 becomes the fabric time. -/
def takeTime (s : State) : State :=
  if timeBad s then refuseApply s .TIME 0 []
  else
    let was := isMaster s
    let s := timeRole (commitApply s .TIME 0) was
    let set := s.rd R.TIME_SET_SET 0
    if isMaster s ∧ set ≠ 0 then raiseIf (decide (s.now < set)) { s with now := set } .TIME 0 7 else s

/-! Weld and Tongs (R319, R335, R336) -/

/-- The staged VALID lend windows as (base, size). -/
def stagedWindows (s : State) (i : Nat) : List (Nat × Nat) :=
  ((List.range 16).filter (fun n => s.stagedOf (R.WLD_LEND_VALID n) i == 1)).map
    (fun n => (s.stagedOf (R.WLD_LEND_BASE n) i, s.stagedOf (R.WLD_LEND_SIZE n) i))

/-- R319. -/
def wldBad (s : State) (i : Nat) : Bool :=
  let ws := stagedWindows s i
  (s.stagedOf R.WLD_RANKMAP_BASE i != s.rd R.WLD_RANKMAP_BASE i && !s.weld.colls.isEmpty)
    || ws.any (fun w => w.1 % 2 ^ 21 != 0 || w.2 % 2 ^ 21 != 0 || !regionFits s s.map.split w
        || (mapRegions s.map).any (regionsMeet w))
    || anyMeet ws

/-- R319; the rank map counts as applied (R300). -/
def takeWld (s : State) (i : Nat) : State :=
  if wldBad s i then refuseApply s .WLD i [10]
  else
    let s := commitApply s .WLD i
    if i = 0 then { s with weld := { s.weld with mapOk := true } } else s

/-- R335: a slot is open, or the record table of 256 KiB is misaligned or leaves the populated memory. -/
def algBad (s : State) : Bool :=
  let base := s.stagedOf R.ALG_CFG_BASE 0
  !s.slots.isEmpty || base % 2 ^ 16 != 0 || !regionFits s s.map.split (base, 0x40000)

/-- R335, R336. -/
def takeAlg (s : State) : State :=
  if algBad s then refuseApply s .ALG 0 [5] else { commitApply s .ALG 0 with algSet := true }

/-- Whether staged destination `n` is VALID. -/
def stagedValid (s : State) (n : Nat) : Bool := s.stagedOf (R.TNG_DEST_VALID n) 0 == 1

/-- What R335 finds wrong with a VALID staged destination. -/
def destBad (s : State) (n : Nat) : Bool :=
  let base := s.stagedOf (R.TNG_DEST_BASE n) 0
  let size := s.stagedOf (R.TNG_DEST_SIZE n) 0
  let node := s.stagedOf (R.TNG_DEST_NODE n) 0
  let alt := s.stagedOf (R.TNG_DEST_ALT n) 0
  base % 2 ^ 21 != 0 || size % 2 ^ 21 != 0
    || (if s.stagedOf (R.TNG_DEST_KIND n) 0 = 0 then decide (base < hostwBase) || decide (2 ^ 48 < base + size)
        else node == 0xFFFF || node == s.xp.slc.cur.own)
    || (s.stagedOf (R.TNG_DEST_HAS_ALT n) 0 == 1 && (alt == n || !stagedValid s alt))

/-- R335, R336: a taken apply clears every DOWN bit. -/
def takeTng (s : State) : State :=
  if !s.slots.isEmpty || (List.range 8).any (fun n => stagedValid s n && destBad s n) then refuseApply s .TNG 0 [8]
  else (commitApply s .TNG 0).wr R.TNG_DEST_STS_DOWN 0 0

/-! Touchmark and checkpoints (R366, R414) -/

/-- R366. -/
def tchBad (s : State) : Bool :=
  let base := s.stagedOf R.TCH_TABLE_BASE 0
  let len := s.stagedOf R.TCH_LEN_LEN 0
  let table := (base, 32 * ceilDiv len 65536)
  s.tmp.phase != .idle || base % 2 ^ 21 != 0 || !regionFits s s.map.split table || (mapRegions s.map).any (regionsMeet table)
    || len % 64 != 0 || decide (s.map.wcSize < len)

/-- R366. -/
def takeTch (s : State) : State := if tchBad s then refuseApply s .TCH 0 [7] else commitApply s .TCH 0

/-- R414. -/
def takeCkp (s : State) : State := if ckpCfgBad s then refuseApply s .CKP 0 [11] else commitApply s .CKP 0

/-- R387, R388: the takeover set. -/
def takeFlt (s : State) : State :=
  if s.stagedOf R.FLT_TKO_CFG_NO_LOAD 0 = 0 then takeoverLoad s else takeoverRealign s

/-! The command -/

/-- The staged apply of a page at its work boundary (R52). -/
def takeApply (s : State) (p : Page) (i : Nat) : State :=
  if !armPending s p i then s
  else match p with
  | .TMP => takeTmp s
  | .ANV => takeAnv s i
  | .SWG => takeSwg s i
  | .SPK => takeSpk s
  | .CTX => takeCtx s i
  | .SYN => takeSyn s
  | .LNK => takeLnk s i
  | .SLC => takeSlc s
  | .TIME => takeTime s
  | .WLD => takeWld s i
  | .ALG => takeAlg s
  | .TNG => takeTng s
  | .TCH => takeTch s
  | .CKP => takeCkp s
  | .FLT => takeFlt s
  | _ => s

/-- APPLY_TAKEN (R52). -/
def execApplyTaken (slot : Nat) (s : State) : Outcome :=
  match pageAt slot with
  | some (p, i) => live s (takeApply s p i)
  | none => .fault .noSuchUnit

end Sys2Proof.Machine
end

