-- ==== Sys2Proof/Machine/Bench.lean ====
section
/-! DEFINITION. The on-command BIST (R353, Table 13.6). -/

namespace Sys2Proof.Machine

open Sys2Proof

/-- The targets selected, in ascending bit order. -/
def bstTargets (s : State) : List Nat := (List.range 19).filter (bitOf (s.rd R.BST_TARGETS_TARGETS 0))

/-- Whether a run is in progress. -/
def bstRunning (s : State) : Bool := s.rd R.BST_STS_CURRENT 0 != 0x1F

/-- A run ends: PASS and FAIL of its targets, DONE. -/
def bstEnd (s : State) (fails : Nat) : State :=
  let t := s.rd R.BST_TARGETS_TARGETS 0
  let f := fails &&& t
  let s := (s.wr R.BST_PASS_PASS 0 (t - f)).wr R.BST_FAIL_FAIL 0 f
  raise ((s.wr R.BST_STS_CURRENT 0 0x1F).wr R.BST_STS_DONE 0 1) .BST 0 5

/-- BST_CTL.START (R353): refused while a context exists or the module is in a slice; a run without targets ends at once. -/
def bstStart (s : State) : State :=
  if bstRunning s then s
  else if !(liveCtxs s).isEmpty || s.xp.slc.cur.slice != 0 then raise (s.wr R.BST_STS_REFUSED 0 1) .BST 0 6
  else
    let s := (s.wr R.BST_STS_REFUSED 0 0).wr R.BST_STS_DONE 0 0
    match bstTargets s with
    | [] => bstEnd s 0
    | t :: _ => s.wr R.BST_STS_CURRENT 0 t

/-- BST_START (R353). -/
def execBstStart (s : State) : Outcome := live s (bstStart s)

/-- PDd after its test: as after a PORT reset, with both RTE and SLC versions invalid; PD1's checkpoint port retrains. -/
def testPort (s : State) (d : Nat) : State :=
  let s := stopLinks (clearPort (loseColls s) d) d
  let s := prune (resetSlots s (slotsWhere (fun p i => (capsOf p).domain == .port && portOfPage p i == some d)))
  let drop := fun (t : Tbl RteVer) => t.filter (fun e => e.1 != d)
  let s := { s with xp := { s.xp with rteCur := drop s.xp.rteCur, rteNext := drop s.xp.rteNext, slc := Slc.reset } }
  let s := trainLinks s d
  if d = 1 then driveInit s else s

/-- What a test leaves of its target (Table 13.6, column Afterwards). -/
def afterTest (s : State) (t : Nat) : State :=
  let pages := fun (p q : Page) (n : Nat) => slotsWhere (fun x i => (x == p || x == q) && i == n)
  if t < 2 then testPort s t
  else if t < 10 then resetSlots s (pages .DSP .WLC (t - 2))
  else if t < 18 then restoreLoupe (resetSlots s (pages .LPE .LPE (t - 10))) (t - 10)
  else smcRestart s

/-- The unit that a target tests (Table 13.7). -/
def targetUnit (t : Nat) : Nat :=
  if t < 2 then portId t else if t < 10 then dieId (t - 2) else if t < 18 then loupeId (t - 10) else 0x9000

/-- A target fails (R353): the event, its log entry, the ledger entry with the signature found (a free value), and the health
input unless it is the SMC. -/
def testFails (s : State) (t : Nat) : State :=
  let s := logErr (raise s .BST 0 4) .BST 0 1 .CAPACITY t 0 [0, 0, 0]
  let s := ledgerEvent s.fresh.2 (targetUnit t) 5 0 (if t = 18 then 0 else s.rd (R.HLT_W_WEIGHT 13) 0) false [t, s.fresh.1 % 2 ^ 64]
  if t = 18 then s else healthInput s 13 (targetUnit t)

/-- The run ends with the targets of `fails` failing (R353). -/
def bstDone (s : State) (fails : Nat) : State :=
  if !bstRunning s then s
  else
    let ts := bstTargets s
    let s := ts.foldl afterTest s
    let s := (ts.filter (bitOf fails)).foldl testFails s
    bstEnd s fails

/-- BST_DONE (R353). -/
def execBstDone (fails : Nat) (s : State) : Outcome := live s (bstDone s fails)

end Sys2Proof.Machine
end

