-- ==== Sys2Proof/Machine/Dispatch.lean ====
section
/-! DEFINITION. Dispatch: one arm per command, each a direct call of its meaning. -/

namespace Sys2Proof.Machine

open Sys2Proof

/-- The effect of a command on everything but the queue. -/
def exec (i : Instr) (s : State) : Host.Outcome State Fault Refusal :=
  match i with
  | .regWrite who off width full val => Sys2Proof.Machine.execRegWrite who off width full val s
  | .apply slot => Sys2Proof.Machine.execApply slot s
  | .armDiscard slot => Sys2Proof.Machine.execArmDiscard slot s
  | .applyTaken slot => Sys2Proof.Machine.execApplyTaken slot s
  | .errlogClear slot => Sys2Proof.Machine.execErrlogClear slot s
  | .evtStsClear slot mask => Sys2Proof.Machine.execEvtStsClear slot mask s
  | .evtForce slot mask => Sys2Proof.Machine.execEvtForce slot mask s
  | .evtMaskWrite slot mask => Sys2Proof.Machine.execEvtMaskWrite slot mask s
  | .telemetrySnapshot slot => Sys2Proof.Machine.execTelemetrySnapshot slot s
  | .hold ctx => Sys2Proof.Machine.execHold ctx s
  | .wardHoldAck => Sys2Proof.Machine.execWardHoldAck s
  | .step ctx => Sys2Proof.Machine.execStep ctx s
  | .temper ctx => Sys2Proof.Machine.execTemper ctx s
  | .checkStart => Sys2Proof.Machine.execCheckStart s
  | .voteSend => Sys2Proof.Machine.execVoteSend s
  | .vote plane p => Sys2Proof.Machine.execVote plane p s
  | .result plane p => Sys2Proof.Machine.execResult plane p s
  | .flip => Sys2Proof.Machine.execFlip s
  | .replayStart => Sys2Proof.Machine.execReplayStart s
  | .voteTimeout => Sys2Proof.Machine.execVoteTimeout s
  | .resolveForward => Sys2Proof.Machine.execResolveForward s
  | .resolveDiscard => Sys2Proof.Machine.execResolveDiscard s
  | .replayResume => Sys2Proof.Machine.execReplayResume s
  | .mma ctx => Sys2Proof.Machine.execMma ctx s
  | .anvTileIssue die unit par => Sys2Proof.Machine.execAnvTileIssue die unit par s
  | .anvTileEnd die unit par faults => Sys2Proof.Machine.execAnvTileEnd die unit par faults s
  | .anvIssueWaitEnd die unit => Sys2Proof.Machine.execAnvIssueWaitEnd die unit s
  | .mmaComplete id => Sys2Proof.Machine.execMmaComplete id s
  | .anvClkGate die unit => Sys2Proof.Machine.execAnvClkGate die unit s
  | .bistClaimAnvil die => Sys2Proof.Machine.execBistClaimAnvil die s
  | .anvTestEnter die => Sys2Proof.Machine.execAnvTestEnter die s
  | .anvClaimForced die => Sys2Proof.Machine.execAnvClaimForced die s
  | .vec ctx => Sys2Proof.Machine.execVec ctx s
  | .vecBlockStart die unit slot => Sys2Proof.Machine.execVecBlockStart die unit slot s
  | .vecBlockCommit die unit slot par => Sys2Proof.Machine.execVecBlockCommit die unit slot par s
  | .vecComplete id => Sys2Proof.Machine.execVecComplete id s
  | .swgClkGate die unit => Sys2Proof.Machine.execSwgClkGate die unit s
  | .bistClaimSwage die => Sys2Proof.Machine.execBistClaimSwage die s
  | .swgTestEnter die => Sys2Proof.Machine.execSwgTestEnter die s
  | .swgClaimForced die => Sys2Proof.Machine.execSwgClaimForced die s
  | .bistTestEnd die swage sig sig2 => Sys2Proof.Machine.execBistTestEnd die swage sig sig2 s
  | .sparkKat good => Sys2Proof.Machine.execSparkKat good s
  | .hearthScrubRead die bank ecc => Sys2Proof.Machine.execHearthScrubRead die bank ecc s
  | .hearthInitDone die => Sys2Proof.Machine.execHearthInitDone die s
  | .halt die on => Sys2Proof.Machine.execHalt die on s
  | .hbmTrain reports => Sys2Proof.Machine.execHbmTrain reports s
  | .hbmRead addr ecc ctx => Sys2Proof.Machine.execHbmRead addr ecc ctx s
  | .healDone row src readBack => Sys2Proof.Machine.execHealDone row src readBack s
  | .hbmParityError addr write errors ctx => Sys2Proof.Machine.execHbmParityError addr write errors ctx s
  | .hbmRefresh stack pc bank => Sys2Proof.Machine.execHbmRefresh stack pc bank s
  | .hbmTempRead stack temp => Sys2Proof.Machine.execHbmTempRead stack temp s
  | .hbmPatrolScrub stack pc ecc => Sys2Proof.Machine.execHbmPatrolScrub stack pc ecc s
  | .gather ctx => Sys2Proof.Machine.execGather ctx s
  | .gatherComplete id => Sys2Proof.Machine.execGatherComplete id s
  | .hbmSelfRefreshExit die bad0 bad1 => Sys2Proof.Machine.execHbmSelfRefreshExit die bad0 bad1 s
  | .recordSubmit off data => Sys2Proof.Machine.execRecordSubmit off data s
  | .create ctx => Sys2Proof.Machine.execCreate ctx s
  | .destroy ctx => Sys2Proof.Machine.execDestroy ctx s
  | .ctxReset ctx => Sys2Proof.Machine.execCtxReset ctx s
  | .quarantineEnd ctx => Sys2Proof.Machine.execQuarantineEnd ctx s
  | .preempt ctx => Sys2Proof.Machine.execPreempt ctx s
  | .resume ctx => Sys2Proof.Machine.execResume ctx s
  | .skip ctx => Sys2Proof.Machine.execSkip ctx s
  | .ctxSave ctx => Sys2Proof.Machine.execCtxSave ctx s
  | .ctxLoad ctx => Sys2Proof.Machine.execCtxLoad ctx s
  | .recordIssue die => Sys2Proof.Machine.execRecordIssue die s
  | .nop ctx => Sys2Proof.Machine.execNop ctx s
  | .call ctx => Sys2Proof.Machine.execCall ctx s
  | .ret ctx => Sys2Proof.Machine.execRet ctx s
  | .loop ctx => Sys2Proof.Machine.execLoop ctx s
  | .copy ctx => Sys2Proof.Machine.execCopy ctx s
  | .copyComplete id => Sys2Proof.Machine.execCopyComplete id s
  | .signal ctx => Sys2Proof.Machine.execSignal ctx s
  | .wait ctx => Sys2Proof.Machine.execWait ctx s
  | .waitWake ctx => Sys2Proof.Machine.execWaitWake ctx s
  | .waitTimeout ctx => Sys2Proof.Machine.execWaitTimeout ctx s
  | .heat ctx => Sys2Proof.Machine.execHeat ctx s
  | .stamp ctx => Sys2Proof.Machine.execStamp ctx s
  | .aflags ctx => Sys2Proof.Machine.execAflags ctx s
  | .signalOp plane p => Sys2Proof.Machine.execSignalOp plane p s
  | .subscribe plane p => Sys2Proof.Machine.execSubscribe plane p s
  | .notify plane p => Sys2Proof.Machine.execNotify plane p s
  | .broken plane p => Sys2Proof.Machine.execBroken plane p s
  | .cancel plane p => Sys2Proof.Machine.execCancel plane p s
  | .busy plane p => Sys2Proof.Machine.execBusy plane p s
  | .subscribeRetry ctx => Sys2Proof.Machine.execSubscribeRetry ctx s
  | .alloc => Sys2Proof.Machine.execAlloc s
  | .free => Sys2Proof.Machine.execFree s
  | .bind => Sys2Proof.Machine.execBind s
  | .unbind => Sys2Proof.Machine.execUnbind s
  | .clearBroken => Sys2Proof.Machine.execClearBroken s
  | .periscopeEval => Sys2Proof.Machine.execPeriscopeEval s
  | .linkEnable k => Sys2Proof.Machine.execLinkEnable k s
  | .linkDisable k => Sys2Proof.Machine.execLinkDisable k s
  | .linkTraining k rep => Sys2Proof.Machine.execLinkTraining k rep s
  | .retrain k => Sys2Proof.Machine.execRetrain k s
  | .linkRetry k => Sys2Proof.Machine.execLinkRetry k s
  | .autoRestore k => Sys2Proof.Machine.execAutoRestore k s
  | .codewordRx k seq symbols uncorrectable packets slots => Sys2Proof.Machine.execCodewordRx k seq symbols uncorrectable packets slots s
  | .controlSlotRx k cs => Sys2Proof.Machine.execControlSlotRx k cs s
  | .packetTx k => Sys2Proof.Machine.execPacketTx k s
  | .laneFault k lane cause => Sys2Proof.Machine.execLaneFault k lane cause s
  | .serWindowEnd k => Sys2Proof.Machine.execSerWindowEnd k s
  | .degradeReq k lanes => Sys2Proof.Machine.execDegradeReq k lanes s
  | .degradeAck k lanes rep => Sys2Proof.Machine.execDegradeAck k lanes rep s
  | .degradeTimeout k => Sys2Proof.Machine.execDegradeTimeout k s
  | .downNotice k => Sys2Proof.Machine.execDownNotice k s
  | .txeqReq k lane up => Sys2Proof.Machine.execTxeqReq k lane up s
  | .txeqAck k lane => Sys2Proof.Machine.execTxeqAck k lane s
  | .txeqWindowEnd k lane => Sys2Proof.Machine.execTxeqWindowEnd k lane s
  | .data plane p => Sys2Proof.Machine.execData plane p s
  | .read plane p ecc => Sys2Proof.Machine.execRead plane p ecc s
  | .write plane p => Sys2Proof.Machine.execWrite plane p s
  | .ack plane p => Sys2Proof.Machine.execAck plane p s
  | .ackSend flow => Sys2Proof.Machine.execAckSend flow s
  | .flowOpen plane p => Sys2Proof.Machine.execFlowOpen plane p s
  | .openAck plane p => Sys2Proof.Machine.execOpenAck plane p s
  | .close plane p => Sys2Proof.Machine.execClose plane p s
  | .packetInject flow => Sys2Proof.Machine.execPacketInject flow s
  | .resendTimeout flow seq ecc => Sys2Proof.Machine.execResendTimeout flow seq ecc s
  | .readmit d mask => Sys2Proof.Machine.execReadmit d mask s
  | .epochSwitch => Sys2Proof.Machine.execEpochSwitch s
  | .epochRetire => Sys2Proof.Machine.execEpochRetire s
  | .drainSet => Sys2Proof.Machine.execDrainSet s
  | .drained => Sys2Proof.Machine.execDrained s
  | .drainClear => Sys2Proof.Machine.execDrainClear s
  | .sendCut => Sys2Proof.Machine.execSendCut s
  | .sendStop => Sys2Proof.Machine.execSendStop s
  | .copyCur d => Sys2Proof.Machine.execCopyCur d s
  | .rteDataWrite d val => Sys2Proof.Machine.execRteDataWrite d val s
  | .rteDataRead d => Sys2Proof.Machine.execRteDataRead d s
  | .stop plane p => Sys2Proof.Machine.execStop plane p s
  | .stopRepeat => Sys2Proof.Machine.execStopRepeat s
  | .cut plane p => Sys2Proof.Machine.execCut plane p s
  | .timeSend => Sys2Proof.Machine.execTimeSend s
  | .time plane p => Sys2Proof.Machine.execTime plane p s
  | .holdover => Sys2Proof.Machine.execHoldover s
  | .reduceScatter ctx => Sys2Proof.Machine.execReduceScatter ctx s
  | .allGather ctx => Sys2Proof.Machine.execAllGather ctx s
  | .allReduce ctx => Sys2Proof.Machine.execAllReduce ctx s
  | .broadcast ctx => Sys2Proof.Machine.execBroadcast ctx s
  | .mirror ctx => Sys2Proof.Machine.execMirror ctx s
  | .collStart id => Sys2Proof.Machine.execCollStart id s
  | .ready plane p => Sys2Proof.Machine.execReady plane p s
  | .partialSum plane p par => Sys2Proof.Machine.execPartialSum plane p par s
  | .weldGather plane p => Sys2Proof.Machine.execWeldGather plane p s
  | .scatter plane p => Sys2Proof.Machine.execScatter plane p s
  | .weldMirror plane p => Sys2Proof.Machine.execWeldMirror plane p s
  | .weldHold plane p => Sys2Proof.Machine.execWeldHold plane p s
  | .collComplete id => Sys2Proof.Machine.execCollComplete id s
  | .stall id => Sys2Proof.Machine.execStall id s
  | .tallyTimeout => Sys2Proof.Machine.execTallyTimeout s
  | .tongsOpen ctx => Sys2Proof.Machine.execTongsOpen ctx s
  | .put ctx => Sys2Proof.Machine.execPut ctx s
  | .release ctx => Sys2Proof.Machine.execRelease ctx s
  | .fetch ctx => Sys2Proof.Machine.execFetch ctx s
  | .tongsClose ctx => Sys2Proof.Machine.execTongsClose ctx s
  | .offloadStart slot => Sys2Proof.Machine.execOffloadStart slot s
  | .offloadDone slot => Sys2Proof.Machine.execOffloadDone slot s
  | .fetchStart slot => Sys2Proof.Machine.execFetchStart slot s
  | .fetchDone slot => Sys2Proof.Machine.execFetchDone slot s
  | .forceDown mask => Sys2Proof.Machine.execForceDown mask s
  | .clearDown mask => Sys2Proof.Machine.execClearDown mask s
  | .loupeCheckDone die slip => Sys2Proof.Machine.execLoupeCheckDone die slip s
  | .loupeRerunDone die faults => Sys2Proof.Machine.execLoupeRerunDone die faults s
  | .loupeSettle die agrees => Sys2Proof.Machine.execLoupeSettle die agrees s
  | .tchZeroDone => Sys2Proof.Machine.execTchZeroDone s
  | .bstStart => Sys2Proof.Machine.execBstStart s
  | .bstDone fails => Sys2Proof.Machine.execBstDone fails s
  | .ldgClear unit => Sys2Proof.Machine.execLdgClear unit s
  | .ledgerWrite ok => Sys2Proof.Machine.execLedgerWrite ok s
  | .pohSave => Sys2Proof.Machine.execPohSave s
  | .healthDecay => Sys2Proof.Machine.execHealthDecay s
  | .score => Sys2Proof.Machine.execScore s
  | .chipResetRequest => Sys2Proof.Machine.execChipResetRequest s
  | .dieResetRequest => Sys2Proof.Machine.execDieResetRequest s
  | .portResetRequest => Sys2Proof.Machine.execPortResetRequest s
  | .resetDone => Sys2Proof.Machine.execResetDone s
  | .frecAck => Sys2Proof.Machine.execFrecAck s
  | .wdog => Sys2Proof.Machine.execWdog s
  | .takeoverLoad => Sys2Proof.Machine.execTakeoverLoad s
  | .takeoverRealign => Sys2Proof.Machine.execTakeoverRealign s
  | .tkoDone ms mr wc hold wardHold => Sys2Proof.Machine.execTkoDone ms mr wc hold wardHold s
  | .tkoFail cause => Sys2Proof.Machine.execTkoFail cause s
  | .preCutResult plane p => Sys2Proof.Machine.execPreCutResult plane p s
  | .nvmeCompletion status data => Sys2Proof.Machine.execNvmeCompletion status data s
  | .nvmeTimeout => Sys2Proof.Machine.execNvmeTimeout s
  | .postCutResult plane p => Sys2Proof.Machine.execPostCutResult plane p s
  | .cutTimeout => Sys2Proof.Machine.execCutTimeout s
  | .restore imgA imgB imgHost => Sys2Proof.Machine.execRestore imgA imgB imgHost s
  | .restoreDone ms wc => Sys2Proof.Machine.execRestoreDone ms wc s
  | .fill => Sys2Proof.Machine.execFill s
  | .fillDone mr stripes => Sys2Proof.Machine.execFillDone mr stripes s
  | .driveInit => Sys2Proof.Machine.execDriveInit s
  | .powerEval slow pkg input => Sys2Proof.Machine.execPowerEval slow pkg input s
  | .rampEval die heldBack level => Sys2Proof.Machine.execRampEval die heldBack level s
  | .hintPrepare die => Sys2Proof.Machine.execHintPrepare die s
  | .hintWindow die => Sys2Proof.Machine.execHintWindow die s
  | .sensorRead id temp good => Sys2Proof.Machine.execSensorRead id temp good s
  | .thermalEval slow => Sys2Proof.Machine.execThermalEval slow s
  | .thermalTrip sensor temp => Sys2Proof.Machine.execThermalTrip sensor temp s
  | .pllUnlock d => Sys2Proof.Machine.execPllUnlock d s
  | .dieSleep die => Sys2Proof.Machine.execDieSleep die s
  | .dieWake die ns => Sys2Proof.Machine.execDieWake die ns s
  | .powerOn => Sys2Proof.Machine.execPowerOn s
  | .pwrEnFall => Sys2Proof.Machine.execPwrEnFall s
  | .perst => Sys2Proof.Machine.execPerst s
  | .hotReset => Sys2Proof.Machine.execHotReset s
  | .linkDown => Sys2Proof.Machine.execLinkDown s
  | .hostwRequestError who err => Sys2Proof.Machine.execHostwRequestError who err s
  | .apertureAccess off write len data poisoned => Sys2Proof.Machine.execApertureAccess off write len data poisoned s
  | .msixGapEnd vector => Sys2Proof.Machine.execMsixGapEnd vector s
  | .msixUnmask vector => Sys2Proof.Machine.execMsixUnmask vector s
  | .doorbell => Sys2Proof.Machine.execDoorbell s
  | .getInfo => Sys2Proof.Machine.execGetInfo s
  | .mapSet => Sys2Proof.Machine.execMapSet s
  | .hbmClearMapout => Sys2Proof.Machine.execHbmClearMapout s
  | .hbmRetrain reports => Sys2Proof.Machine.execHbmRetrain reports s
  | .fwStage image flashOk => Sys2Proof.Machine.execFwStage image flashOk s
  | .fwActivate => Sys2Proof.Machine.execFwActivate s
  | .svnCommit => Sys2Proof.Machine.execSvnCommit s
  | .keyRevoke => Sys2Proof.Machine.execKeyRevoke s
  | .smcBoot failed diff => Sys2Proof.Machine.execSmcBoot failed diff s
  | .getVersion => Sys2Proof.Machine.execGetVersion s
  | .getCapabilities version => Sys2Proof.Machine.execGetCapabilities version s
  | .negotiateAlgorithms offersEcdsaP384 offersSha384 => Sys2Proof.Machine.execNegotiateAlgorithms offersEcdsaP384 offersSha384 s
  | .getDigests => Sys2Proof.Machine.execGetDigests s
  | .getCertificate slot off len => Sys2Proof.Machine.execGetCertificate slot off len s
  | .challenge slot nonce => Sys2Proof.Machine.execChallenge slot nonce s
  | .getMeasurements index signed nonce => Sys2Proof.Machine.execGetMeasurements index signed nonce s
  | .entdaa addr => Sys2Proof.Machine.execEntdaa addr s
  | .getEndpointId => Sys2Proof.Machine.execGetEndpointId s
  | .tripStatus => Sys2Proof.Machine.execTripStatus s
  | .pldmSensorRead sensor => Sys2Proof.Machine.execPldmSensorRead sensor s
  | .flitCrcError d edge module retries ids => Sys2Proof.Machine.execFlitCrcError d edge module retries ids s
  | .guestAdmission partner modules desc => Sys2Proof.Machine.execGuestAdmission partner modules desc s
  | .gstReadmit => Sys2Proof.Machine.execGstReadmit s
  | .withdraw cause => Sys2Proof.Machine.execWithdraw cause s
  | .guestBlockResend seq => Sys2Proof.Machine.execGuestBlockResend seq s
  | .rd dir tag addr len => Sys2Proof.Machine.execRd dir tag addr len s
  | .wr dir tag addr data => Sys2Proof.Machine.execWr dir tag addr data s
  | .cpl tag status data => Sys2Proof.Machine.execCpl tag status data s
  | .recMsg ctx data => Sys2Proof.Machine.execRecMsg ctx data s
  | .reg dir off width val => Sys2Proof.Machine.execReg dir off width val s
  | .inputRemoved long => Sys2Proof.Machine.execInputRemoved long s
  | .linkUp gen width => Sys2Proof.Machine.execLinkUp gen width s
  | .configurationRequest req => Sys2Proof.Machine.execConfigurationRequest req s
  | .doeDiscovery index => Sys2Proof.Machine.execDoeDiscovery index s
  | .driveMemoryRequest addr len write => Sys2Proof.Machine.execDriveMemoryRequest addr len write s

end Sys2Proof.Machine
end

