-- ==== Sys2Proof/Safety.lean ====
section
/-! DEFINITION. What counts as a safe state and a safe run: the invariant that every step keeps, and the sets of commands that
may change a part of the state. -/

namespace Sys2Proof.Machine

open Sys2Proof

/-- What holds of the address map (R160, R162): it is the COLD default while MAP_VALID is 0, LOCAL_SPLIT is at most 16, bases and
sizes are multiples of 2 MiB, and no two regions meet. -/
structure MapOk (m : AddrMap) : Prop where
  cold : m.valid = false → m = AddrMap.coldDefault m.seq
  split : m.split ≤ 16
  aligned : ∀ r ∈ mapRegions m, r.1 % 2 ^ 21 = 0 ∧ r.2 % 2 ^ 21 = 0
  apart : anyMeet (mapRegions m) = false

/-- The invariant of the module. -/
structure Inv (s : State) : Prop where
  /-- Memory is in its canonical form. -/
  mem : s.mem.wf = true
  /-- The address map is legal. -/
  map : MapOk s.map
  /-- A module whose trip latch holds is off (R425). -/
  tripped : s.power.trip.isSome = true → s.power.on = false
  /-- The SVN counter has 64 fuses (R448). -/
  svn : s.smc.fuseSvn ≤ 64
  /-- There are four revocation bits (R449). -/
  revoked : s.smc.revoked < 16
  /-- Every waiting command names units that exist. -/
  queue : ∀ c ∈ s.pending, wellFormed c = true

/-- `n` steps from a state, as far as none faults or is refused. -/
def stepsFrom : Nat → State → Option State
  | 0, s => some s
  | n + 1, s => match step s with
    | .next t => stepsFrom n t
    | _ => none

/-- The commands that may change ACTIVE_BANK: the flip by FLIP, RESOLVE_FORWARD or a result that arrives late (R21, R26, R30), and what
gives the module another step state: a restore, a takeover, a chip reset and power on. -/
def mayFlip : Instr → Bool
  | .flip | .resolveForward | .voteSend | .vote _ _ | .result _ _ | .restoreDone _ _ | .tkoDone _ _ _ _ _ | .chipResetRequest
  | .perst | .powerOn => true
  | _ => false

/-- The commands that may change STEP, TEMPERED, the flip time or ATT: those that may flip, and the discard of an attempt or the
realigning of a takeover (R28, R225). -/
def mayMoveStep : Instr → Bool
  | .resolveDiscard | .replayResume | .takeoverRealign | .applyTaken _ => true
  | c => mayFlip c

/-- The commands that may change the address map (R160, R162, R185). -/
def maySetMap : Instr → Bool
  | .mapSet | .hbmRetrain _ | .hbmTrain _ | .powerOn => true
  | _ => false

/-- The commands that may change the supply or the trip latch (R425, R461). -/
def maySwitchPower : Instr → Bool
  | .thermalTrip _ _ | .pwrEnFall | .inputRemoved _ | .powerOn => true
  | _ => false

/-- The commands that the supply and the board management bus serve without main power (R461, R454). -/
def servedOff : Instr → Bool
  | .entdaa _ | .getEndpointId | .tripStatus | .pwrEnFall | .inputRemoved _ | .powerOn => true
  | _ => false

/-- The commands with an effect that may write memory or leave a range of it undefined. -/
def writesMemory : Instr → Bool
  | .applyTaken _ | .hold _ | .wardHoldAck | .step _ | .voteSend | .vote _ _ | .result _ _ | .flip | .resolveForward
  | .resolveDiscard | .replayResume | .mma _ | .anvTileIssue _ _ _ | .anvTileEnd _ _ _ _ | .mmaComplete _ | .anvTestEnter _
  | .vec _ | .vecBlockCommit _ _ _ _ | .vecComplete _ | .bistTestEnd _ _ _ _ | .hearthInitDone _ | .hbmTrain _
  | .healDone _ _ _ | .hbmParityError _ _ _ _ | .gather _ | .gatherComplete _ | .recordSubmit _ _ | .destroy _
  | .ctxReset _ | .quarantineEnd _ | .preempt _ | .resume _ | .skip _ | .ctxSave _ | .nop _ | .call _ | .ret _ | .loop _
  | .copy _ | .copyComplete _ | .signal _ | .wait _ | .waitWake _ | .heat _ | .stamp _ | .aflags _ | .data _ _ | .write _ _
  | .ack _ _ | .flowOpen _ _ | .resendTimeout _ _ _ | .reduceScatter _ | .allGather _ | .allReduce _ | .broadcast _
  | .mirror _ | .collStart _ | .partialSum _ _ _ | .weldGather _ _ | .scatter _ _ | .weldMirror _ _ | .weldHold _ _
  | .collComplete _ | .tongsOpen _ | .put _ | .release _ | .fetch _ | .tongsClose _ | .offloadStart _ | .offloadDone _
  | .fetchStart _ | .fetchDone _ | .forceDown _ | .tchZeroDone | .bstDone _ | .chipResetRequest | .dieResetRequest
  | .portResetRequest | .tkoDone _ _ _ _ _ | .tkoFail _ | .preCutResult _ _ | .postCutResult _ _ | .restoreDone _ _
  | .fillDone _ _ | .thermalTrip _ _ | .powerOn | .pwrEnFall | .perst | .hotReset | .linkDown | .hostwRequestError _ _
  | .apertureAccess _ _ _ _ _ | .mapSet | .hbmRetrain _ | .guestAdmission _ _ _ | .withdraw _ | .guestBlockResend _
  | .wr _ _ _ _ | .recMsg _ _ | .reg _ _ _ _ | .inputRemoved _ => true
  | _ => false

/-- Every context but `c` is as it was, apart from the notice that the condition of its WAIT was seen to hold. -/
def othersStand (s t : State) (c : Nat) : Prop := ∀ d, d ≠ c → { ctxOf t d with wait := none } = { ctxOf s d with wait := none }

/-- Where the record stands that a context issues after the one it executes (R234). -/
def nextPc (x : Ctx) : Pc := match x.pc with
  | some a => .mem a
  | none => .ring x.qpos

/-- The state in which the first waiting record of context `c`'s command window, `bs` before `rest`, has its issue turn at the dispatcher
of die `d` (R206). -/
def issued (s : State) (d c : Nat) (bs : List Byte) (rest : List (List Byte)) : State :=
  let x := ctxOf s c
  let u := ({ s with served := Tbl.set s.served d c }).inc R.DSP_RECORDS_RECORDS (homeDie s c) 1
  u.setCtx c { x with state := .running, block := .none, queue := rest, qpos := (x.qpos + 1) % 1024, cur := some ⟨bs, .ring x.qpos⟩ }

/-- A packet of class `c` arrives on a plane whose link carries packets, passes the checks of R270 and is the next of its flow, with
nothing above it delivered and no SIGNAL held. -/
structure Arrives (s : State) (plane : Nat) (c : PClass) (p : Packet) : Prop where
  named : plane < 32
  linked : linkReady s plane = true
  crc : p.crc = packetCrc c p
  version : p.verMajor = 1
  lifetime : (s.now / 1000 % 65536 + 65536 - p.injUs % 65536) % 65536 ≤ lifetimeUs s (planeDie plane)
  slice : p.slice ≠ 0 ∧ p.slice = s.xp.slc.cur.slice
  epoch : p.epoch = b2n s.xp.slc.epoch
  dest : p.dst = s.xp.slc.cur.own ∨ p.dst = s.xp.slc.cur.mcast
  opened : (flowOf s p.flow).state = .opened
  peer : (flowOf s p.flow).peer = p.src
  next : p.seq = (flowOf s p.flow).rxCum
  marks : (flowOf s p.flow).rxMarks = []
  held : (flowOf s p.flow).heldSignals = []

/-- A cut `c` of `s` has ended in `t` as done or as failed (Table 15.3 step 9): STATE = IDLE, counted, with its event, and nothing
of memory, contexts and step changes. -/
structure CutEnds (s t : State) (c : Cut) (done : Bool) : Prop where
  none : t.ckp.cut = none
  idle : t.rd R.CKP_STS_STATE 0 = 0
  count : t.rd (if done then R.CKP_CUTS_DONE else R.CKP_CUTS_FAILED) 0 = min (2 ^ 32 - 1) (s.rd (if done then R.CKP_CUTS_DONE else R.CKP_CUTS_FAILED) 0 + 1)
  event : bitOf (t.hrd R.EVT_STS 6) (if done then 4 else 5) = true
  mem : t.mem = s.mem
  ctxs : t.ctxs = s.ctxs
  tmp : t.tmp = s.tmp

/-- A restore is refused with a code (R409): LAST_CODE and its event, and no other STATE, memory, context or step changes. -/
structure RestoreRefused (s t : State) (code : Nat) : Prop where
  code : t.rd R.CKP_STS_LAST_CODE 0 = code
  event : bitOf (t.hrd R.EVT_STS 6) 7 = true
  state : t.rd R.CKP_STS_STATE 0 = s.rd R.CKP_STS_STATE 0
  ckp : t.ckp = s.ckp
  mem : t.mem = s.mem
  ctxs : t.ctxs = s.ctxs
  tmp : t.tmp = s.tmp

/-- The cap of every die out of reset is the smallest of its terms in `t`, and at least 1 (R417). -/
def CapsFollow (s t : State) : Prop :=
  ∀ n, n < 8 → s.on R.DIE_STS_IN_RESET n = false → t.rd R.BLW_STS_CAP n = max 1 ((capTerms t n).foldl min 64)

/-- A packet of class `c` that no flow sequences arrives on a plane whose link carries packets and passes the checks of R270. -/
structure Comes (s : State) (plane : Nat) (c : PClass) (p : Packet) : Prop where
  named : plane < 32
  linked : linkReady s plane = true
  crc : p.crc = packetCrc c p
  version : p.verMajor = 1
  lifetime : (s.now / 1000 % 65536 + 65536 - p.injUs % 65536) % 65536 ≤ lifetimeUs s (planeDie plane)
  slice : p.slice ≠ 0 ∧ p.slice = s.xp.slc.cur.slice
  epoch : p.epoch = b2n s.xp.slc.epoch
  dest : p.dst = s.xp.slc.cur.own ∨ p.dst = s.xp.slc.cur.mcast

/-- The link as training starts on it: what it held is lost, it waits for signal (R248, R250, R254). -/
def startedLink (s : State) (k : Nat) (fast restoring : Bool) : Link :=
  { (linkOf s k).quiet .detect with
    fast := fast && (linkOf s k).coeffs, restoring := restoring, t0 := s.clock, retryAt := none, goodLanes := 15,
    degradeAcked := false, partnerDegrade := false }

/-- The link as it comes up on lanes with a partner's report (R248, R252). -/
def linkedLink (s : State) (k lanes : Nat) (st : LinkState) (rep : LinkReport) : Link :=
  { (linkOf s k).quiet st with
    coeffs := true, fast := false, restoring := false, degradedAt := s.clock, goodLanes := lanes, degradeAcked := false,
    partnerDegrade := false, credit0 := rep.cap.credit, creditTotal := 0, sent := 0, delays := [] }

/-- Every link but `k` is as it was, apart from packets that wait in its priority queue. -/
def otherLinksStand (s t : State) (k : Nat) : Prop := ∀ j, j ≠ k → { linkOf t j with prio := [] } = { linkOf s j with prio := [] }

/-- The link has FAILED with a reason; full training falls due after RETRY_MS unless the partner is wrong (R251, R261). -/
structure LinkFailed (s t : State) (k why : Nat) : Prop where
  state : (linkOf t k).state = .failed
  reason : t.rd R.LNK_STS_FAIL_REASON k = why
  lanes : t.rd R.LNK_STS_LANES_UP k = 0
  retry : (linkOf t k).retryAt =
    if why = 5 ∨ why = 6 then none else some (s.clock + max 10 (s.rd R.LNK_CFG_RETRY_MS k) * 1000000)
  others : otherLinksStand s t k
  mem : t.mem = s.mem
  ctxs : t.ctxs = s.ctxs
  tmp : t.tmp = s.tmp

end Sys2Proof.Machine
end

