-- ==== Sys2Proof/Certificates/Slice0/Obligations.lean ====
section
/-! DEFINITION. The statements for the provers. -/

open Sys2Proof Sys2Proof.Machine

/-- A step with a command at the front of the queue is that command's effect on the state with the queue's rest. Rests on
98_reader.md. -/
def Obligations.FrontCommandRuns : Prop :=
  ∀ (c : Instr) (q : List Instr) (s : State), step { s with pending := c :: q } = exec c { s with pending := q }

/-- With an empty queue a step advances the always-on clock by one period of its 100 MHz clock, 10 ns, and changes nothing but
the clock, the fabric time and the time service. That a step on an empty queue is a tick is the model's choice (log entry 2).
Rests on 14_faults_resets_spares.md. -/
def Obligations.EmptyQueueTicks : Prop :=
  ∀ s : State, s.pending = [] → ∃ t, step s = .next t ∧ t.clock = s.clock + 10 ∧
    t = { s with clock := t.clock, now := t.now, xp := { s.xp with time := t.xp.time } }

/-- A command whose operands name units of the module is answered by a next state from every state, and one that names a unit
the module does not have faults under that name. Rests on 02_register_pages.md, 18_package_and_dies.md. -/
def Obligations.WellFormedCommandsComplete : Prop :=
  ∀ (c : Instr) (s : State), (wellFormed c = true → ∃ t, exec c s = .next t) ∧
    (wellFormed c = false → exec c s = .fault .noSuchUnit)

/-- From every state whose waiting commands name units that exist, any number of steps ends in a state: no step faults and none
is refused. Rests on 02_register_pages.md. -/
def Obligations.QueueOfWellFormedCommandsNeverStops : Prop :=
  ∀ (n : Nat) (s : State), (∀ c ∈ s.pending, wellFormed c = true) → ∃ t, stepsFrom n s = some t

/-- From every state in which the invariant holds, a step that answers a next state answers one in which it holds: memory in
its canonical form, the address map legal (R160, R162), a tripped module off (R425), at most 64 SVN fuses (R448), four
revocation bits (R449), and a queue of well-formed commands. Rests on 06_hearth_and_address_space.md,
16_power_thermal_clocks.md, 17_host_and_security.md. -/
def Obligations.InvariantKept : Prop :=
  ∀ s t : State, Inv s → step s = .next t → Inv t

/-- The invariant holds in the state after reset. Rests on 19_startup_sequence.md. -/
def Obligations.InvariantAtReset : Prop :=
  Inv State.reset

/-- Every command that completes leaves the waiting commands alone; only FW_STAGE changes an image slot; only SVN_COMMIT
changes the SVN counter, which never falls; only KEY_REVOKE changes the revocation bits, and none is ever cleared. Rests on
17_host_and_security.md, 98_reader.md. -/
def Obligations.CommandsLeaveTheQueueAndTheFlash : Prop :=
  ∀ (c : Instr) (s t : State), exec c s = .next t →
    t.pending = s.pending ∧
    ((∀ i k, c ≠ .fwStage i k) → t.smc.slotA = s.smc.slotA ∧ t.smc.slotB = s.smc.slotB) ∧
    (c ≠ .svnCommit → t.smc.fuseSvn = s.smc.fuseSvn) ∧ s.smc.fuseSvn ≤ t.smc.fuseSvn ∧
    (c ≠ .keyRevoke → t.smc.revoked = s.smc.revoked) ∧ s.smc.revoked ||| t.smc.revoked = t.smc.revoked

/-- A command that completes changes ACTIVE_BANK only if it is FLIP, RESOLVE_FORWARD, or VOTE_SEND, VOTE or RESULT bringing a
result that is already due, or RESTORE_DONE, TKO_DONE, CHIP_RESET_REQUEST, PERST or POWER_ON. It changes STEP, TEMPERED, the
flip time, ATT, REPLAY_COUNT or LATE_FLIPS only if it is one of these, RESOLVE_DISCARD, REPLAY_RESUME, TAKEOVER_REALIGN or an
apply taken. Rests on 01_step_and_temper.md, 14_faults_resets_spares.md, 15_ingot_checkpoints.md. -/
def Obligations.ActiveBankAndStepOnlyMoveByTheirCommands : Prop :=
  ∀ (c : Instr) (s t : State), exec c s = .next t →
    (mayFlip c = false → t.tmp.activeBank = s.tmp.activeBank) ∧
    (mayMoveStep c = false → t.tmp.step = s.tmp.step ∧ t.tmp.tempered = s.tmp.tempered ∧ t.tmp.flipTime = s.tmp.flipTime ∧
      t.tmp.att = s.tmp.att ∧ t.tmp.replayCount = s.tmp.replayCount ∧ t.tmp.lateFlips = s.tmp.lateFlips)

/-- A command that completes changes the address map only if it is MAP_SET, HBM_TRAIN, HBM_RETRAIN or POWER_ON; every reset but
COLD keeps it. Rests on 06_hearth_and_address_space.md, 07_hbm_memory.md. -/
def Obligations.AddressMapOnlyMovesByItsCommands : Prop :=
  ∀ (c : Instr) (s t : State), exec c s = .next t → maySetMap c = false → t.map = s.map

/-- A command that completes changes the supply or the trip latch only if it is THERMAL_TRIP, PWR_EN_FALL, INPUT_REMOVED or
POWER_ON; the latch is cleared only by the loss of the input supply for long enough; no command switches on a module whose
latch holds. Rests on 16_power_thermal_clocks.md, 18_package_and_dies.md. -/
def Obligations.SupplyOnlyMovesByItsCommands : Prop :=
  ∀ (c : Instr) (s t : State), exec c s = .next t →
    (maySwitchPower c = false → t.power.on = s.power.on ∧ t.power.trip = s.power.trip) ∧
    (s.power.trip.isSome = true → c ≠ .inputRemoved true → t.power.trip.isSome = true) ∧
    (s.power.trip.isSome = true → s.power.on = false → t.power.on = false)

/-- While the module has no power, every command that completes leaves the state as it was, but for the commands of the supply,
which the always-on domain serves, and those of the board management bus, which standby power serves. Rests on
16_power_thermal_clocks.md, 18_package_and_dies.md. -/
def Obligations.OffModuleStandsStill : Prop :=
  ∀ (c : Instr) (s t : State), s.power.on = false → servedOff c = false → exec c s = .next t → t = s

/-- Every command that has no store among its effects leaves every byte of memory reading as before. Rests on
06_hearth_and_address_space.md, 08_contexts_commands_sync.md. -/
def Obligations.MemoryUntouchedByCommands : Prop :=
  ∀ (c : Instr) (s t : State), writesMemory c = false → exec c s = .next t → ∀ a, t.mem.byte a = s.mem.byte a

/-- REG_WRITE: a full 32-bit write of an existing page that is not in reset, by Sahsin or by the host to a page it may write,
to a read-write field that has its register to itself in the low half and no row of its own. A LIVE field, or an IDLE field of
a page that is not BUSY, then holds the written bits; an ARMED field's bits go to its shadow and its effective value stays. No
other field changes and no byte of memory. Rests on 02_register_pages.md. -/
def Obligations.RegisterWrites : Prop :=
  ∀ (s : State) (who : Writer) (p : Page) (i v : Nat) (f : Field), s.power.on = true → pageAt (slotOf p i) = some (p, i) →
    pageInReset s p i = false → p ∉ [.MSX, .PBA, .DIR, .HRT, .LDG, .WLD] → (who = .host → (capsOf p).hostWritable = true ∧ p ≠ .CTX) →
    f.page = p → 0 < f.width → 0x100 ≤ f.off → f.off < 0x1000 → f.off % 4 = 0 → f.lo + f.width ≤ 32 →
    (blockFields p).filter (fun g => g.off == f.off) = [f] → f.acc = .RW → hasRow f = false →
    strayBits (blockFields p) f.off (2 ^ 32 - 1) (v % 2 ^ 32) = false → (f.cls = .IDLE → busyOf s p i = false) →
    ∃ t, exec (.regWrite who (slotOf p i * 0x1000 + f.off) 32 true v) s = .next t ∧
      (f.cls ≠ .ARMED → t.rd f i = v / 2 ^ f.lo % 2 ^ f.width ∧ t.shadow = s.shadow ∧
        ∀ g j, g.key j ≠ f.key i → t.rd g j = s.rd g j) ∧
      (f.cls = .ARMED → t.shadowOf f i = v / 2 ^ f.lo % 2 ^ f.width ∧ t.regs = s.regs ∧
        ∀ g j, g.key j ≠ f.key i → t.shadowOf g j = s.shadowOf g j) ∧
      t.mem = s.mem ∧ t.out = s.out

/-- With no apply pending, APPLY copies the shadow of the page's ARMED set into the staged copy and sets ARM_PENDING, and the
effective fields stay. APPLY_TAKEN on a page with a pending apply that passes its check (pages TMP in PHASE = IDLE, SPK, CTX,
CKP and TCH are named here) makes the staged values effective, raises ARM_SEQ by one, sets ARM_TIME to the fabric time and
clears ARM_PENDING. With no apply pending, ARM_DISCARD copies the effective values into the shadow. None of them writes memory.
Rests on 02_register_pages.md. -/
def Obligations.StagedApplies : Prop :=
  ∀ (s : State) (slot i : Nat) (p : Page), s.power.on = true → pageAt slot = some (p, i) → slotOf p i = slot → p ∉ [.MSX, .PBA] →
    ((capsOf p).hasArmed = true → armPending s p i = false →
      ∃ t, exec (.apply slot) s = .next t ∧ armPending t p i = true ∧ t.mem = s.mem ∧
        (∀ f ∈ armedFields p, t.stagedOf f i = s.shadowOf f i) ∧ ∀ g j, g.key j ≠ hkey R.PAGE_STS_ARM_PENDING slot → t.rd g j = s.rd g j) ∧
    (armPending s p i = true →
      (p = .TMP ∧ s.tmp.phase = .idle ∧ s.stagedOf R.TMP_BUDDY_BUDDY_NODE 0 ≠ s.xp.slc.cur.own ∧
          s.stagedOf R.TMP_BUDDY_WARD_NODE 0 ≠ s.xp.slc.cur.own ∧ 2 ≤ s.stagedOf R.TMP_RANK_SIZE 0) ∨ p = .SPK ∨
        (p = .CTX ∧ ctxCfgBad s i = false) ∨ (p = .CKP ∧ ckpCfgBad s = false) ∨ (p = .TCH ∧ tchBad s = false) →
      ∃ t, exec (.applyTaken slot) s = .next t ∧ armPending t p i = false ∧ t.mem = s.mem ∧
        (∀ f ∈ armedFields p, t.rd f i = s.stagedOf f i) ∧
        t.hrd R.ARM_CTL_ARM_SEQ slot = (s.hrd R.ARM_CTL_ARM_SEQ slot + 1) % 2 ^ R.ARM_CTL_ARM_SEQ.width ∧
        t.hrd R.ARM_TIME slot = s.now % 2 ^ 64) ∧
    (armPending s p i = false →
      ∃ t, exec (.armDiscard slot) s = .next t ∧ t.mem = s.mem ∧ t.regs = s.regs ∧ ∀ f ∈ armedFields p, t.shadowOf f i = s.rd f i)

/-- ERRLOG_CLEAR empties the error log of a page. EVT_STS_CLEAR clears the written event bits and no other. EVT_FORCE sets an
event bit that was clear, and sends no notice while the bit is masked. EVT_MASK_WRITE sets the mask, and where no bit that is
set becomes unmasked it sends nothing. TELEMETRY_SNAPSHOT of a page with SHADOWED = 1 copies the page with the fabric time.
None of them writes memory. Rests on 02_register_pages.md. -/
def Obligations.ErrorLogsAndEvents : Prop :=
  ∀ (s : State) (slot : Nat) (p : Page) (i : Nat), s.power.on = true → pageAt slot = some (p, i) →
    (∃ t, exec (.errlogClear slot) s = .next t ∧ Tbl.get [] t.errlog (canonSlot slot) = [] ∧ t.regs = s.regs ∧ t.mem = s.mem ∧
      ∀ k, k ≠ canonSlot slot → Tbl.get [] t.errlog k = Tbl.get [] s.errlog k) ∧
    (∀ mask, ∃ t, exec (.evtStsClear slot mask) s = .next t ∧ t.mem = s.mem ∧ t.out = s.out ∧
      t.hrd R.EVT_STS slot = (s.hrd R.EVT_STS slot - (s.hrd R.EVT_STS slot &&& mask)) % 2 ^ 32 ∧
      ∀ f j, hkey f j ≠ hkey R.EVT_STS slot → t.hrd f j = s.hrd f j) ∧
    (∀ b < 32, bitOf (s.hrd R.EVT_STS slot) b = false → bitOf (s.hrd R.EVT_MASK slot) b = true →
      ∃ t, exec (.evtForce slot (2 ^ b)) s = .next t ∧ t.hrd R.EVT_STS slot = (s.hrd R.EVT_STS slot + 2 ^ b) % 2 ^ 32 ∧ t.out = s.out ∧ t.mem = s.mem) ∧
    (∀ mask, (∀ b < 32, bitOf (s.hrd R.EVT_STS slot) b = true → bitOf mask b = false → bitOf (s.hrd R.EVT_MASK slot) b = false) →
      ∃ t, exec (.evtMaskWrite slot mask) s = .next t ∧ t.hrd R.EVT_MASK slot = mask % 2 ^ 32 ∧ t.out = s.out ∧ t.mem = s.mem ∧
        t.hrd R.EVT_STS slot = s.hrd R.EVT_STS slot) ∧
    ((capsOf p).shadowed = true →
      ∃ t, exec (.telemetrySnapshot slot) s = .next t ∧ Tbl.get ⟨0, []⟩ t.snaps slot = ⟨s.now, pageImage s slot⟩ ∧
        t = { s with snaps := t.snaps })

/-- APPLY on a page whose ARM_PENDING is 1 leaves the staged copy, the shadow, every field of the page's ARMED set and
ARM_PENDING as they are, and the page's event bit WR_BUSY is set. Formalises R54. -/
def Obligations.ApplyWhilePendingIsDropped : Prop :=
  ∀ (s : State) (slot i : Nat) (p : Page), s.power.on = true → pageAt slot = some (p, i) → slotOf p i = slot → (capsOf p).hasArmed = true →
    armPending s p i = true →
    ∃ t, exec (.apply slot) s = .next t ∧ t.staged = s.staged ∧ t.shadow = s.shadow ∧ armPending t p i = true ∧
      (∀ f ∈ armedFields p, t.rd f i = s.rd f i) ∧ bitOf (t.hrd R.EVT_STS slot) 0 = true ∧ t.mem = s.mem

/-- A whole 32-bit write by the host to a register of the block region of a page out of reset with HOST_WRITABLE = 0, and a
whole 64-bit one to a 64-bit register, leave every field of the page, effective, shadow and staged, as it is; the page's event
bit HOST_WR_DROP is set. Formalises R58. -/
def Obligations.HostWritesToReadOnlyPagesAreDropped : Prop :=
  ∀ (s : State) (p : Page) (i o v w : Nat), s.power.on = true → pageAt (slotOf p i) = some (p, i) → pageInReset s p i = false →
    (capsOf p).hostWritable = false → 0x100 ≤ o → o < 0x1000 →
    ((w = 32 ∧ o % 4 = 0 ∧ (regBaseOf (blockFields p) o).isSome = true) ∨ (w = 64 ∧ o % 8 = 0 ∧ is64 (blockFields p) o = true)) →
    ∃ t, exec (.regWrite .host (slotOf p i * 0x1000 + o) w true v) s = .next t ∧ t.shadow = s.shadow ∧ t.staged = s.staged ∧
      (∀ f ∈ blockFields p, t.rd f i = s.rd f i) ∧ bitOf (t.hrd R.EVT_STS (slotOf p i)) 3 = true ∧ t.mem = s.mem

/-- HOLD under a valid hold and STEP, both in PHASE = RUN, complete and leave CTX_RESTART at the record after them with the
frames of that point. HOLD in PHASE = IDLE, with no hold, no cut, a filled module, no STOP held, and a batch it can reach, sets
PHASE = HOLD, writes head and batch at HOLD_BASE and starts the write to the buddy; nothing else of memory changes. Elsewhere
HOLD (with no hold and a step under way) and STEP (outside RUN) wait, and TEMPER waits for the flip. Every other context and
the other fields of the step stay. Rests on 01_step_and_temper.md, 08_contexts_commands_sync.md. -/
def Obligations.StepRecordsComplete : Prop :=
  ∀ (s : State) (c : Nat) (r : Rec), s.power.on = true → c < 64 →
    (blockedRec s c 0x50 .hold = some r → s.tmp.holdValid = true → s.tmp.phase = .run →
      ∃ t, exec (.hold c) s = .next t ∧ t.tmp = s.tmp ∧ t.attempt = s.attempt ∧ (ctxOf t c).cur = none ∧
        (ctxOf t c).restart = some { step := s.tmp.step, pc := nextPc (ctxOf s c), frames := (ctxOf s c).frames } ∧ othersStand s t c) ∧
    (blockedRec s c 0x50 .hold = some r → s.tmp.holdValid = false → s.tmp.phase = .idle → s.rd R.CKP_STS_STATE 0 = 0 →
      s.on R.CKP_STS_FILLED 0 = true → s.attempt.heldStop = none → unservable s c r [(r.addr s c 8, r.batchLen)] = none →
      waitsHearth s (r.addr s c 8) r.batchLen = false →
      ∃ t, exec (.hold c) s = .next t ∧ t.tmp = { s.tmp with phase := .hold } ∧ t.attempt.holdWriting = true ∧
        t.attempt.fault = none ∧ (ctxOf t c).state = .waiting ∧ (ctxOf t c).block = .hold ∧ othersStand s t c ∧
        t.mem = ((readAny s (r.addr s c 8) r.batchLen).2.store s.map.hold
          (holdHead s r ++ (readAny s (r.addr s c 8) r.batchLen).1)).mem) ∧
    (blockedRec s c 0x50 .hold = some r → s.tmp.holdValid = false → s.tmp.phase ≠ .idle →
      ∃ t, exec (.hold c) s = .next t ∧ (ctxOf t c).state = .waiting ∧ (ctxOf t c).block = .hold ∧ t = { s with ctxs := t.ctxs } ∧
        othersStand s t c) ∧
    (blockedRec s c 0x51 .step = some r → s.tmp.phase = .run →
      ∃ t, exec (.step c) s = .next t ∧ t.tmp = s.tmp ∧ t.attempt = s.attempt ∧ (ctxOf t c).cur = none ∧
        (ctxOf t c).restart = some { step := s.tmp.step, pc := nextPc (ctxOf s c), frames := (ctxOf s c).frames } ∧ othersStand s t c) ∧
    (blockedRec s c 0x51 .step = some r → s.tmp.phase ≠ .run →
      ∃ t, exec (.step c) s = .next t ∧ (ctxOf t c).state = .waiting ∧ (ctxOf t c).block = .step ∧ t = { s with ctxs := t.ctxs } ∧
        othersStand s t c) ∧
    (curRec s c 0x52 = some r →
      exec (.temper c) s = .next (s.setCtx c { ctxOf s c with state := .waiting, block := .temper, since := s.clock }))

/-- WARD_HOLD_ACK with the hold's write under way and nothing of it unacknowledged sets HOLD_VALID and PHASE = RUN, and a HOLD
that waited completes with CTX_RESTART after it. CHECK_START in RUN with every step context in TEMPER and no transfer of the
attempt left sets PHASE = CHECK; with a mirror not whole or a hold not acknowledged the attempt then has a step fault,
MIRROR_FAIL if it had none. VOTE_TIMEOUT in VOTE at or after its deadline sets PHASE = IN_DOUBT and neither flips nor discards.
No context but the one that waited changes, and no bank moves. Rests on 01_step_and_temper.md, 11_weld_collectives.md. -/
def Obligations.ChecksFollowTheHold : Prop :=
  ∀ s : State, s.power.on = true →
    (s.tmp.phase = .hold → s.attempt.holdWriting = true → s.attempt.holdWriteLeft = 0 →
      ∃ t, exec .wardHoldAck s = .next t ∧ t.tmp = { s.tmp with phase := .run, holdValid := true } ∧ t.attempt.wardAcked = true ∧
        t.attempt.holdWriting = false ∧ (holdCtx s = none → t.ctxs = s.ctxs ∧ t.mem = s.mem) ∧
        ∀ c r, holdCtx s = some (c, r) → (ctxOf t c).cur = none ∧ othersStand s t c ∧
          (ctxOf t c).restart = some { step := s.tmp.step, pc := nextPc (ctxOf s c), frames := (ctxOf s c).frames }) ∧
    (s.tmp.phase = .run → (stepCtxs s).isEmpty = false → (stepCtxs s).all (inTemper s) = true → workLeft s = false →
      ∃ t, exec .checkStart s = .next t ∧ t.tmp = { s.tmp with phase := .check } ∧ t.attempt.checkStarted = true ∧ t.ctxs = s.ctxs ∧
        (s.attempt.vote = none → (mirrorMarked s ≠ mirrorNeed s ∨ s.attempt.wardAcked = false) →
          t.attempt.fault.isSome = true ∧ (s.attempt.fault = none → t.attempt.fault = some .mirrorFail)) ∧
        (mirrorMarked s = mirrorNeed s → s.attempt.wardAcked = true → touchDue s = false → t.attempt.fault = s.attempt.fault ∧ t.mem = s.mem)) ∧
    (s.tmp.phase = .vote → s.attempt.deadline ≤ s.clock →
      ∃ t, exec .voteTimeout s = .next t ∧ t.tmp = { s.tmp with phase := .inDoubt } ∧ t.ctxs = s.ctxs ∧ t.mem = s.mem ∧ t.flights = s.flights)

/-- FLIP in FLIP_WAIT at or after T_flip, and RESOLVE_FORWARD in IN_DOUBT, exchange the banks, set TEMPERED to the step and
STEP one higher, record the flip time (T_flip, or the fabric time), clear ATT and REPLAY_COUNT, and count a late flip for
RESOLVE_FORWARD alone. The address map stays. Rests on 01_step_and_temper.md. -/
def Obligations.FlipTempersTheStep : Prop :=
  ∀ s : State, s.power.on = true →
    (∀ tf cap, s.tmp.phase = .flipWait → s.attempt.result = some (tf, cap) → tf ≤ s.now →
      ∃ t, exec .flip s = .next t ∧ t.tmp.activeBank = !s.tmp.activeBank ∧ t.tmp.tempered = s.tmp.step ∧
        t.tmp.step = (s.tmp.step + 1) % 2 ^ 64 ∧ t.tmp.flipTime = tf ∧ t.tmp.att = 0 ∧ t.tmp.replayCount = 0 ∧
        t.tmp.lateFlips = s.tmp.lateFlips ∧ t.map = s.map) ∧
    (s.tmp.phase = .inDoubt →
      ∃ t, exec .resolveForward s = .next t ∧ t.tmp.activeBank = !s.tmp.activeBank ∧ t.tmp.tempered = s.tmp.step ∧
        t.tmp.step = (s.tmp.step + 1) % 2 ^ 64 ∧ t.tmp.flipTime = s.now ∧ t.tmp.att = 0 ∧ t.tmp.replayCount = 0 ∧
        t.tmp.lateFlips = min 255 (s.tmp.lateFlips + 1) ∧ t.map = s.map)

/-- RESOLVE_DISCARD in IN_DOUBT raises ATT by one, wrapping at 256, and REPLAY_COUNT by one, saturating at 255; STEP, TEMPERED,
the active bank and the flip time stay. REPLAY_RESUME in STOPPED under a valid hold clears REPLAY_COUNT and leaves STEP,
TEMPERED and the active bank. REPLAY_START at or after the resume time ends the wait of issue and changes nothing else. Rests
on 01_step_and_temper.md. -/
def Obligations.DiscardMovesToTheNextAttempt : Prop :=
  ∀ s : State, s.power.on = true →
    (s.tmp.phase = .inDoubt →
      ∃ t, exec .resolveDiscard s = .next t ∧ t.tmp.att = (s.tmp.att + 1) % 256 ∧ t.tmp.replayCount = min 255 (s.tmp.replayCount + 1) ∧
        t.tmp.step = s.tmp.step ∧ t.tmp.tempered = s.tmp.tempered ∧ t.tmp.activeBank = s.tmp.activeBank ∧
        t.tmp.flipTime = s.tmp.flipTime ∧ t.tmp.lateFlips = s.tmp.lateFlips ∧ t.map = s.map) ∧
    (s.tmp.phase = .stopped → s.tmp.holdValid = true →
      ∃ t, exec .replayResume s = .next t ∧ t.tmp.replayCount = 0 ∧ t.tmp.step = s.tmp.step ∧ t.tmp.tempered = s.tmp.tempered ∧
        t.tmp.activeBank = s.tmp.activeBank ∧ t.tmp.lateFlips = s.tmp.lateFlips ∧ t.map = s.map) ∧
    (∀ u, s.attempt.resumeAt = some u → u ≤ s.now →
      exec .replayStart s = .next { s with attempt := { s.attempt with resumeAt := none } })

/-- VOTE_SEND in CHECK with the checks begun, no vote sent, no heal running and no Loupe holding the vote, at a module that is
not the root of its vote tree, sets PHASE = VOTE and keeps the module's own vote and its deadline. A VOTE packet from a child
of the tree for a reduction that still lacks the module's own record joins that record. A RESULT of the step tree for this STEP
and ATT in PHASE = VOTE that does not fail and whose T_flip is not past sets PHASE = FLIP_WAIT and holds T_flip and CAP. No
context and no byte of memory changes. Rests on 01_step_and_temper.md, 11_weld_collectives.md. -/
def Obligations.VotesAreSentHeldAndAnswered : Prop :=
  ∀ s : State, s.power.on = true →
    (s.tmp.phase = .check → s.attempt.checkStarted = true → s.attempt.vote = none → s.heals.all (·.held) = true →
      loupeHoldsVote s = false → treeParent (sliceSize s) (sliceSize s - 1) (ownRank s) ≠ none →
      ∃ t, exec .voteSend s = .next t ∧ t.tmp = { s.tmp with phase := .vote } ∧
        t.attempt = { s.attempt with vote := some (ownVote s), deadline := s.clock + voteTimeoutNs s } ∧ t.ctxs = s.ctxs ∧ t.mem = s.mem) ∧
    (∀ k p, Arrives s k .WELD p → weldKind p.payload = 5 → (wTag p = none ∨ wTag p = some (s.tmp.step, s.tmp.att)) → fromChild s p = true → wTree p ≠ 1 →
      (entryFor s (wTree p) (recordKey (wTree p) (wData p)).1 (recordKey (wTree p) (wData p)).2).own = none →
      ∃ t, exec (.vote k p) s = .next t ∧ t.tmp = s.tmp ∧ t.attempt = s.attempt ∧ t.ctxs = s.ctxs ∧ t.mem = s.mem ∧
        (flowOf t p.flow).rxCum = (p.seq + 1) % 2 ^ 32 ∧
        (entryFor t (wTree p) (recordKey (wTree p) (wData p)).1 (recordKey (wTree p) (wData p)).2).got.any (fun g => g.1 == wLevel p) = true) ∧
    (∀ k p, Arrives s k .WELD p → weldKind p.payload = 6 → wTag p = none → wTree p = 0 → (wData p).length = 64 → s.tmp.phase = .vote →
      (voteOf (wData p)).stepMin = s.tmp.step → voteAtt (wData p) = s.tmp.att → (voteOf (wData p)).fails = none →
      s.now ≤ (voteOf (wData p)).flipT → s.tmp.step ≤ (voteOf (wData p)).stepMax →
      ∃ t, exec (.result k p) s = .next t ∧ t.tmp = { s.tmp with phase := .flipWait } ∧
        t.attempt = { s.attempt with result := some ((voteOf (wData p)).flipT, (voteOf (wData p)).cap) } ∧ t.ctxs = s.ctxs ∧ t.mem = s.mem)

/-- An MMA record whose parameter block stands 64-byte-aligned in the context's Hearth, may be read, has its reserved bits at 0
and passes the checks of Table 3.3 starts a command: the record is in flight and the context may go on; memory is not written.
A unit that is ACTIVE, without a tile, past its wait, with no apply staged, on a die that runs, gives the next ready chain of
the oldest command a tile; memory is unchanged but for Loupe's capture area when the tile is captured. At the tile's end an
overflow below level 2 replays it at the next level, and otherwise its result is handed on: D, P or the accumulator takes it,
and the unit has no tile. With every tile written MMA_COMPLETE ends the command. No other unit changes. Rests on
03_anvil_matrix_engines.md. -/
def Obligations.MatrixRecordsRunTileByTile : Prop :=
  ∀ (s : State), s.power.on = true →
    (∀ (c : Nat) (r : Rec) (pb : Nat) (bs : List Byte) (p : MmaParams), c < 64 → curRec s c 0x20 = some r →
      pb = localise (homeDie s c) r.pb → bs = s.load pb 128 → p = mmaParams (homeDie s c) bs →
      pb % 64 = 0 → inHearth (homeDie s c) pb 128 = true → accessOk s (reqOf s c) false pb 128 = true →
      unservable s c r [(pb, 128)] = none → pbReserved mmaPbFields bs = false → mmaCheck (homeDie s c) p = 0 →
      refusedRegion s c (mmaRegions p) = none → (ctxOf s c).preempting = false →
      ∃ t, exec (.mma c) s = .next t ∧ (ctxOf t c).cur = none ∧ othersStand s t c ∧ t.mem = s.mem ∧ t.tmp = s.tmp ∧
        t.eng = { s.eng with mmas := s.eng.mmas ++ [(s.nextFlight, { die := homeDie s c, ctx := c, p := p, next := 0, moved := [], parts := [], written := 0 })] } ∧
        t.flights = s.flights ++ [(s.nextFlight, { ctx := c, record := r, work := .mma, step := s.tmp.step, att := s.tmp.att, tagged := tagged s c, left := 1, src := 0, dst := 0, len := 0, host := false, abandoned := false, lost := false })]) ∧
    (∀ (d u id : Nat) (par : AnvParity) (ch : Chain) (x : Mma) (r : TileRun), d < 8 → u < 40 →
      (anvilOf s d u).st = .active → (anvilOf s d u).run = none → (anvilOf s d u).chain = none → (anvilOf s d u).waitUntil ≤ s.clock →
      anvStaged s d u = false → s.on R.DIE_STS_IN_RESET d = false → hearthStalled s d = false → s.rd R.BLW_STS_Q d ≠ 0 →
      takeChain s d = some (ch, id, x) → tileOf x (loadChain s d x ch) = some r →
      ∃ t b, exec (.anvTileIssue d u par) s = .next t ∧
        anvilOf t d u = { anvilOf s d u with run := some { r with sampled := b }, chain := none, gated := false } ∧
        (∀ e v, v < 40 → ¬(e = d ∧ v = u) → anvilOf t e v = anvilOf s e v) ∧ t.eng.mmas = Tbl.set s.eng.mmas id x ∧
        (∀ a, a < hearthBase d + 0x7F600000 ∨ hearthBase d + 0x7F600000 + 0x200000 ≤ a → t.mem.byte a = s.mem.byte a) ∧
        (b = false → t.mem = s.mem) ∧ t.ctxs = s.ctxs ∧ t.flights = s.flights ∧ t.tmp = s.tmp) ∧
    (∀ (d u : Nat) (par : AnvParity) (fs : List (Nat × Nat)) (r : TileRun) (x : Mma) (es : List Elem), d < 8 → u < 40 →
      hearthStalled s d = false → (anvilOf s d u).run = some r → mmaOf s r.chain.flight = some x →
      es = (if r.combine then combineTile s.mem x.p r.level r.chain.tile r.chain.acc
        else runTile s.mem x.p r.level r.chain.tile r.chain.next r.hi r.chain.acc) →
      (es.any (·.ovf) = true → ∃ t n, exec (.anvTileEnd d u par fs) s = .next t ∧
        anvilOf t d u = { anvilOf s d u with run := some { r with level := r.level + 1, cycles := n } } ∧ t.eng.mmas = s.eng.mmas ∧
        (∀ e v, v < 40 → ¬(e = d ∧ v = u) → anvilOf t e v = anvilOf s e v) ∧
        t.mem = s.mem ∧ t.ctxs = s.ctxs ∧ t.flights = s.flights ∧ t.tmp = s.tmp) ∧
      (es.any (·.ovf) = false → ∃ t, exec (.anvTileEnd d u par fs) s = .next t ∧ (anvilOf t d u).run = none ∧
        (anvilOf t d u).chain = (handOn (anvParity s d u par r x) r.chain.flight x r (withFaults (es.map (·.out)) fs)).2.1 ∧
        t.eng.mmas = Tbl.set s.eng.mmas r.chain.flight (handOn (anvParity s d u par r x) r.chain.flight x r (withFaults (es.map (·.out)) fs)).2.2.1 ∧
        (∀ e v, v < 40 → ¬(e = d ∧ v = u) → anvilOf t e v = anvilOf s e v) ∧
        t.mem = (handOn (anvParity s d u par r x) r.chain.flight x r (withFaults (es.map (·.out)) fs)).1.mem ∧
        t.ctxs = s.ctxs ∧ t.flights = s.flights ∧ t.tmp = s.tmp)) ∧
    (∀ (id : Nat) (f : Flight) (x : Mma), flightOf s id = some f → mmaOf s id = some x → x.written = x.p.tiles → f.abandoned = false →
      f.record.sigDone = false → (ctxOf s f.ctx).preempting = false →
      ∃ t, exec (.mmaComplete id) s = .next t ∧ t.eng = { s.eng with mmas := s.eng.mmas.filter (fun e => e.1 != id) } ∧
        t.flights = s.flights.filter (fun e => e.1 != id) ∧ t.mem = s.mem ∧ t.tmp = s.tmp ∧ t.syn = s.syn ∧ othersStand s t f.ctx)

/-- A unit whose wait is over has no wait; an idle unit whose idle time has passed is gated. Where no unit of the die is
claimed and a test is due, the one due longest is claimed now and is in TEST, other units but SPAREs standing. Between tiles, a
claimed Anvil's accumulator goes to its spill area and its chain to the other units; a claimed Swage without blocks enters its
test. 50 ms after the claim the tile is abandoned and its chain starts again elsewhere from the first group of its split; a
Swage's blocks go back to their commands. At the test's end the claim is over, the unit is not in TEST and TESTS has counted; a
right signature counts as one more pass and two wrong ones bring the passes to 0. Memory changes by the spill alone; contexts,
records in flight and the step stay. Rests on 03_anvil_matrix_engines.md, 05_swage_vector_units.md, 13_integrity_checking.md. -/
def Obligations.UnitsWaitGateAndAreTested : Prop :=
  ∀ (s : State) (d : Nat), s.power.on = true → d < 8 →
    (∀ u, u < 40 → (anvilOf s d u).waitUntil ≤ s.clock →
      exec (.anvIssueWaitEnd d u) s = .next (s.setAnvil d u { anvilOf s d u with waitUntil := 0 })) ∧
    (∀ u, u < 40 → (anvilOf s d u).run = none →
      (anvilOf s d u).idleSince + cyclesNs (max 16 (s.rd R.ANV_CFG_CLK_GATE_IDLE (anvPage d u))) ≤ s.clock →
      exec (.anvClkGate d u) s = .next (s.setAnvil d u { anvilOf s d u with gated := true })) ∧
    (∀ u, u < 8 → (swageOf s d u).slots = [] →
      (swageOf s d u).idleSince + cyclesNs (max 16 (s.rd R.SWG_CFG_CLK_GATE_IDLE d)) ≤ s.clock →
      exec (.swgClkGate d u) s = .next (s.setSwage d u { swageOf s d u with gated := true })) ∧
    (∀ m, m < 40 → claimOf s.bist.anvClaim d = none → s.on R.BSR_CFG_ANV_EN d = true → s.on R.DIE_STS_IN_RESET d = false →
      longestDue (dueUnits s d (anvilIds s d)) = some (anvilId d m) →
      ∃ t, exec (.bistClaimAnvil d) s = .next t ∧ claimOf t.bist.anvClaim d = some (m, s.clock, false) ∧ (anvilOf t d m).st = .test ∧
        (∀ v, v ≠ m → (anvilOf s d v).st ≠ .spare → anvilOf t d v = anvilOf s d v) ∧ t.mem = s.mem ∧ t.ctxs = s.ctxs ∧
        t.flights = s.flights ∧ t.tmp = s.tmp) ∧
    (∀ m t0, claimOf s.bist.anvClaim d = some (m, t0, false) → (anvilOf s d m).run = none → (anvilOf s d m).chain = none →
      exec (.anvTestEnter d) s = .next (enterTest (s.setAnvil d m { anvilOf s d m with chain := none }) d m t0)) ∧
    (∀ m t0 c x, claimOf s.bist.anvClaim d = some (m, t0, false) → (anvilOf s d m).run = none → (anvilOf s d m).chain = some c →
      mmaOf s c.flight = some x →
      ∃ t, exec (.anvTestEnter d) s = .next t ∧ t.mem = (s.store (spillAddr d m) (c.acc.flatMap (leBytes 4))).mem ∧
        (anvilOf t d m).chain = none ∧ t.bist.anvClaim = Tbl.set s.bist.anvClaim d (m, t0, true) ∧
        t.eng.mmas = Tbl.set s.eng.mmas c.flight { x with moved := x.moved ++ [{ c with acc := [], spilled := some m }] } ∧
        t.ctxs = s.ctxs ∧ t.flights = s.flights ∧ t.tmp = s.tmp) ∧
    (∀ m t0 r x, claimOf s.bist.anvClaim d = some (m, t0, false) → t0 + 50000000 ≤ s.clock → (anvilOf s d m).run = some r →
      mmaOf s r.chain.flight = some x →
      ∃ t, exec (.anvClaimForced d) s = .next t ∧ (anvilOf t d m).run = none ∧ (anvilOf t d m).chain = none ∧
        t.bist.anvClaim = Tbl.set s.bist.anvClaim d (m, t0, true) ∧
        t.eng.mmas = Tbl.set s.eng.mmas r.chain.flight
          { x with moved := x.moved ++ [{ r.chain with next := x.p.lo r.chain.split, acc := [], spilled := none }] } ∧
        t.mem = s.mem ∧ t.ctxs = s.ctxs ∧ t.flights = s.flights ∧ t.tmp = s.tmp) ∧
    (∀ u, u < 8 → claimOf s.bist.swgClaim d = none → s.on R.BSR_CFG_SWG_EN d = true → s.on R.DIE_STS_IN_RESET d = false →
      longestDue (dueUnits s d (swageIds s d)) = some (swageId d u) →
      ∃ t, exec (.bistClaimSwage d) s = .next t ∧ claimOf t.bist.swgClaim d = some (u, s.clock, false) ∧
        swageOf t d u = { swageOf s d u with st := .test } ∧ (∀ v, v ≠ u → swageOf t d v = swageOf s d v) ∧
        t.mem = s.mem ∧ t.ctxs = s.ctxs ∧ t.flights = s.flights ∧ t.tmp = s.tmp) ∧
    (∀ u t0, claimOf s.bist.swgClaim d = some (u, t0, false) → (swageOf s d u).slots = [] →
      exec (.swgTestEnter d) s = .next (enterSwgTest s d u t0)) ∧
    (∀ u t0 e l, claimOf s.bist.swgClaim d = some (u, t0, false) → t0 + 50000000 ≤ s.clock → (swageOf s d u).slots = e :: l →
      ∃ t, exec (.swgClaimForced d) s = .next t ∧ (swageOf t d u).slots = [] ∧
        t.bist.swgClaim = Tbl.set s.bist.swgClaim d (u, t0, true) ∧
        t.eng.vecs = ((e :: l).foldl (fun t q => rerunBlock t q.2.1 q.2.2) s).eng.vecs ∧
        t.mem = s.mem ∧ t.ctxs = s.ctxs ∧ t.flights = s.flights ∧ t.tmp = s.tmp) ∧
    (∀ m t0 sig sig2, claimOf s.bist.anvClaim d = some (m, t0, true) →
      ∃ t, exec (.bistTestEnd d false sig sig2) s = .next t ∧ claimOf t.bist.anvClaim d = none ∧ (anvilOf t d m).st ≠ .test ∧
        (sig = Config.bistSignature (anvilId d m) % 2 ^ 64 →
          Tbl.get 0 t.bist.passes (anvilId d m) = Tbl.get 0 s.bist.passes (anvilId d m) + 1) ∧
        (sig ≠ Config.bistSignature (anvilId d m) % 2 ^ 64 → sig2 ≠ Config.bistSignature (anvilId d m) % 2 ^ 64 →
          Tbl.get 0 t.bist.passes (anvilId d m) = 0) ∧
        t.mem = s.mem ∧ t.ctxs = s.ctxs ∧ t.flights = s.flights ∧ t.tmp = s.tmp) ∧
    (∀ u t0 sig sig2, claimOf s.bist.swgClaim d = some (u, t0, true) →
      ∃ t, exec (.bistTestEnd d true sig sig2) s = .next t ∧ claimOf t.bist.swgClaim d = none ∧ (swageOf t d u).st ≠ .test ∧
        (sig = Config.bistSignature (swageId d u) % 2 ^ 64 →
          Tbl.get 0 t.bist.passes (swageId d u) = Tbl.get 0 s.bist.passes (swageId d u) + 1) ∧
        (sig ≠ Config.bistSignature (swageId d u) % 2 ^ 64 → sig2 ≠ Config.bistSignature (swageId d u) % 2 ^ 64 →
          Tbl.get 0 t.bist.passes (swageId d u) = 0) ∧
        t.mem = s.mem ∧ t.ctxs = s.ctxs ∧ t.flights = s.flights ∧ t.tmp = s.tmp)

/-- A VEC record whose parameter block stands 64-byte-aligned in the context's Hearth, may be read, has its reserved bits at 0,
whose kernel passes the checks of Table 5.6 and which Spark does not refuse, starts a command. A free slot of an ACTIVE Swage
on a die that runs takes the next block of the oldest command that fits. When a block commits, memory becomes what running its
bundles on it gives, its slot is free and one more block has committed; with every block committed VEC_COMPLETE ends the
command. No other slot or unit changes. The zero-vector check passes with the words of R119. Rests on 05_swage_vector_units.md. -/
def Obligations.VectorRecordsRunBlockByBlock : Prop :=
  ∀ (s : State), s.power.on = true →
    (∀ (c : Nat) (r : Rec) (pb : Nat) (bs : List Byte) (p : VecParams) (bundles : List (List Nat)) (sr : Bool), c < 64 →
      curRec s c 0x21 = some r → pb = localise (homeDie s c) r.pb → bs = s.load pb 512 → p = vecParams (homeDie s c) bs →
      bundles = readKernel s.mem p → sr = (bundles.map (fun b => b.map Insn.ofWord)).flatten.any Insn.isSr →
      pb % 64 = 0 → inHearth (homeDie s c) pb 512 = true → accessOk s (reqOf s c) false pb 512 = true →
      unservable s c r [(pb, 512)] = none → pbReserved vecPbFields bs = false →
      vecCheck (homeDie s c) p (bundles.map (fun b => b.map Insn.ofWord)) = 0 →
      refusedRegion s c (vecRegions p (bundles.map (fun b => b.map Insn.ofWord))) = none → (sr && sparkRefuses s) = false →
      (ctxOf s c).preempting = false →
      ∃ t, exec (.vec c) s = .next t ∧ (ctxOf t c).cur = none ∧ othersStand s t c ∧ t.mem = s.mem ∧ t.tmp = s.tmp ∧
        t.eng = { s.eng with vecs := s.eng.vecs ++ [(s.nextFlight, { die := homeDie s c, ctx := c, p := p, bundles := bundles, sr := sr, seedG := (sparkInputs s).1, seedU := (sparkInputs s).2.1, step := (sparkInputs s).2.2, next := 0, again := [], committed := 0 })] } ∧
        t.flights = s.flights ++ [(s.nextFlight, { ctx := c, record := r, work := .vec, step := s.tmp.step, att := s.tmp.att, tagged := tagged s c, left := 1, src := 0, dst := 0, len := 0, host := false, abandoned := false, lost := false })]) ∧
    (∀ (d u slot id b : Nat) (v : Vec), d < 8 → u < 8 → slot < 8 → (swageOf s d u).st = .active → (swageOf s d u).leaving = false →
      (swageOf s d u).slots.any (fun e => e.1 == slot) = false → s.on R.DIE_STS_IN_RESET d = false → hearthStalled s d = false →
      takeBlock s d (swageOf s d u) = some (id, b, v) →
      exec (.vecBlockStart d u slot) s = .next ((s.setVec id v).setSwage d u
        { swageOf s d u with slots := (swageOf s d u).slots ++ [(slot, (id, b))], gated := false })) ∧
    (∀ (d u slot id b : Nat) (v : Vec) (par : SwgParity), d < 8 → u < 8 → slot < 8 → hearthStalled s d = false →
      (swageOf s d u).slots.find? (fun e => e.1 == slot) = some (slot, (id, b)) → vecOf s id = some v →
      ∃ t, exec (.vecBlockCommit d u slot par) s = .next t ∧
        t.mem = (runBlock { p := v.p, b := b, act := activeLanes v.p b, seedG := v.seedG, seedU := v.seedU, step := v.step, tag := s.free } s.mem v.bundles).mem ∧
        (swageOf t d u).slots = (swageOf s d u).slots.filter (fun q => q.1 != slot) ∧
        (∀ e w, w < 8 → ¬(e = d ∧ w = u) → swageOf t e w = swageOf s e w) ∧
        t.eng.vecs = Tbl.set s.eng.vecs id { v with committed := v.committed + 1 } ∧
        t.ctxs = s.ctxs ∧ t.flights = s.flights ∧ t.tmp = s.tmp) ∧
    (∀ (id : Nat) (f : Flight) (v : Vec), flightOf s id = some f → vecOf s id = some v → v.committed = v.p.blocks → f.abandoned = false →
      f.record.sigDone = false → (ctxOf s f.ctx).preempting = false →
      ∃ t, exec (.vecComplete id) s = .next t ∧ t.eng = { s.eng with vecs := s.eng.vecs.filter (fun e => e.1 != id) } ∧
        t.flights = s.flights.filter (fun e => e.1 != id) ∧ t.mem = s.mem ∧ t.tmp = s.tmp ∧ t.syn = s.syn ∧ othersStand s t f.ctx) ∧
    exec (.sparkKat true) s = .next ((s.wr R.SPK_STS_KAT_DONE 0 1).wr R.SPK_STS_KAT_PASS 0 1) ∧
    (∃ t, exec (.sparkKat false) s = .next t ∧ t.rd R.SPK_STS_KAT_DONE 0 = 1 ∧ t.rd R.SPK_STS_KAT_PASS 0 = 0 ∧
      t.mem = s.mem ∧ t.ctxs = s.ctxs ∧ t.tmp = s.tmp ∧ t.eng = s.eng)

/-- With the scrub enabled on a die that runs, HEARTH_SCRUB_READ moves its bank on by one line and counts a corrected or an
uncorrectable one. HEARTH_INIT_DONE on a released die sets INIT_DONE and makes every Hearth byte 0, HALT sets and clears
HALTED. A clean HBM_READ changes nothing and a corrected one counts CE; an uncorrectable one in a hold range loses that hold,
in an ACTIVE bank starts a heal of its row, and nowhere changes memory. HBM_PARITY_ERROR within the retry limit changes no
memory; beyond it a write leaves its sector alone undefined. HBM_REFRESH, HBM_TEMP_READ, HBM_PATROL_SCRUB and
HBM_SELF_REFRESH_EXIT act on the stacks they name. No context changes. Rests on 06_hearth_and_address_space.md,
07_hbm_memory.md. -/
def Obligations.HearthAndHbmAreReadAndKept : Prop :=
  ∀ (s : State), s.power.on = true →
    (∀ (d b : Nat) (ecc : Ecc), d < 8 → b < 128 → s.on R.HRT_CTL_SCRUB_EN d = true → hearthStalled s d = false → s.on R.DIE_STS_IN_RESET d = false →
      ∃ t, exec (.hearthScrubRead d b ecc) s = .next t ∧ t.hscrub = Tbl.set s.hscrub (128 * d + b) (Tbl.get 0 s.hscrub (128 * d + b) + 1) ∧
        t.rd R.HRT_CE_CE d = (if ecc = .correctable then min (2 ^ 64 - 1) (s.rd R.HRT_CE_CE d + 1) else s.rd R.HRT_CE_CE d) ∧
        t.rd R.HRT_UE_UE d = (if ecc = .uncorrectable then min (2 ^ 64 - 1) (s.rd R.HRT_UE_UE d + 1) else s.rd R.HRT_UE_UE d) ∧
        t.mem = s.mem ∧ t.ctxs = s.ctxs) ∧
    (∀ d, d < 8 → s.on R.HRT_STS_INIT_DONE d = false → s.on R.DIE_STS_IN_RESET d = false → s.smc.released = true →
      ∃ t, exec (.hearthInitDone d) s = .next t ∧ t.rd R.HRT_STS_INIT_DONE d = 1 ∧
        (∀ a, hearthBase d ≤ a → a < hearthBase d + hearthSize → t.mem.byte a = 0) ∧
        (∀ a, a < hearthBase d ∨ hearthBase d + hearthSize ≤ a → t.mem.byte a = s.mem.byte a) ∧ t.ctxs = s.ctxs ∧ t.tmp = s.tmp) ∧
    (∀ d q, d < 8 → exec (.halt d q) s = .next ((s.wr R.HRT_CTL_HALT d (b2n q)).wr R.HRT_STS_HALTED d (b2n q))) ∧
    (∀ a ctx, servedHbm s a = true → exec (.hbmRead a .ok ctx) s = .next s) ∧
    (∀ a ctx, servedHbm s a = true →
      ∃ t, exec (.hbmRead a .correctable ctx) s = .next t ∧
        t.rd R.HBM_CE_CE (pcOf s (direct s a)).1 = min (2 ^ 64 - 1) (s.rd R.HBM_CE_CE (pcOf s (direct s a)).1 + 1) ∧
        t.mem = s.mem ∧ t.ctxs = s.ctxs ∧ t.tmp = s.tmp) ∧
    (∀ a ctx, servedHbm s a = true →
      ∃ t, exec (.hbmRead a .uncorrectable ctx) s = .next t ∧ t.mem = s.mem ∧ t.ctxs = s.ctxs ∧
        ((ueRegion s (direct s a)).1 = 4 → t.tmp.holdValid = false) ∧
        ((ueRegion s (direct s a)).1 = 4 → s.tmp.holdValid = true → s.tmp.phase = .idle → t.tmp.phase = .stopped) ∧
        ((ueRegion s (direct s a)).1 = 5 → t.tmp = { s.tmp with wardHoldValid := false }) ∧
        (s.tmp.phase = .idle → s.attempt.vote = none → s.heals = [] → s.on R.HBM_CTL_HEAL_EN (pcOf s (rowOf (direct s a))).1 = true →
          0 < (ueRegion s (direct s a)).1 → (ueRegion s (direct s a)).1 < 4 → (ueRegion s (direct s a)).2.2 = true →
          t.heals = [⟨rowOf (direct s a), false⟩] ∧ t.tmp = s.tmp) ∧
        (((ueRegion s (direct s a)).1 = 0 ∨ 5 < (ueRegion s (direct s a)).1 ∨
            ((ueRegion s (direct s a)).1 < 4 ∧ (ueRegion s (direct s a)).2.2 = false)) → t.tmp = s.tmp ∧ t.heals = s.heals)) ∧
    (∀ a w n ctx, servedHbm s a = true → 0 < n →
      (n ≤ clampNat 1 7 (s.rd R.HBM_CTL_RETRY_LIMIT (pcOf s (direct s a)).1) →
        ∃ t, exec (.hbmParityError a w n ctx) s = .next t ∧ t.mem = s.mem ∧ t.ctxs = s.ctxs ∧ t.tmp = s.tmp) ∧
      (clampNat 1 7 (s.rd R.HBM_CTL_RETRY_LIMIT (pcOf s (direct s a)).1) < n →
        ∃ t, exec (.hbmParityError a w n ctx) s = .next t ∧ t.ctxs = s.ctxs ∧ (w = false → t.mem = s.mem) ∧
          (∀ b, b < direct s a / 32 * 32 ∨ direct s a / 32 * 32 + 32 ≤ b → t.mem.byte b = s.mem.byte b) ∧
          (2 ≤ (pcOf s (direct s a)).2 → bitOf (stackOf t (pcOf s (direct s a)).1).pending ((pcOf s (direct s a)).2 / 2) = true))) ∧
    (∀ n pc b, n < 16 → pc < 32 → (stackOf s n).trained = true → (stackOf s n).selfRefresh = false →
      exec (.hbmRefresh n pc b) s = .next ((s.fresh.2).inc R.HBM_REF_WAIT_REF_WAIT n s.fresh.1)) ∧
    (∀ n c, n < 16 →
      ∃ t, exec (.hbmTempRead n c) s = .next t ∧ stackOf t n = { stackOf s n with hot := decide (85 < c) } ∧
        t.rd R.HBM_TEMP_TEMP n = min 255 c % 256 ∧ (∀ m, m ≠ n → stackOf t m = stackOf s m) ∧ t.mem = s.mem ∧ t.ctxs = s.ctxs ∧ t.tmp = s.tmp) ∧
    (∀ n pc ecc, n < 16 → pc < 32 → s.on R.HBM_CTL_SCRUB_EN n = true → (stackOf s n).trained = true → (stackOf s n).selfRefresh = false →
      pcUsable s n pc = true →
      ∃ t, exec (.hbmPatrolScrub n pc ecc) s = .next t ∧
        stackOf t n = { stackOf s n with scrub := Tbl.set (stackOf s n).scrub pc (Tbl.get 0 (stackOf s n).scrub pc + 1) } ∧
        (∀ m, m ≠ n → stackOf t m = stackOf s m) ∧ t.mem = s.mem ∧ t.ctxs = s.ctxs) ∧
    (∀ d b0 b1, d < 8 → s.on R.DIE_STS_IN_RESET d = false → s.smc.released = true →
      ∃ t, exec (.hbmSelfRefreshExit d b0 b1) s = .next t ∧ (stackOf t (2 * d)).selfRefresh = false ∧ (stackOf t (2 * d + 1)).selfRefresh = false ∧
        (∀ m, m ≠ 2 * d → m ≠ 2 * d + 1 → stackOf t m = stackOf s m) ∧ t.mem = s.mem ∧ t.ctxs = s.ctxs ∧ t.tmp = s.tmp)

/-- A heal in progress whose source row arrives whole and reads back without an uncorrectable error has written that row and is
over; without the source, or with an uncorrectable read back, the heal is over and the module is STOPPED. A GATHER record that
R195 does not refuse is in flight with its indices and frees its context; at its completion its sectors are in the Hearth and
it is in flight no more. HBM_TRAIN at STAGE 3 of a full bring-up leaves the COLD default map, no heals, and 0 in every HBM byte
and the Hearths untouched; with HS0 failed the bring-up halts with cause 4. Rests on 07_hbm_memory.md. -/
def Obligations.HealsGathersAndTraining : Prop :=
  ∀ (s : State), s.power.on = true →
    (∀ (row : Nat) (bs : List Byte) (b : Ecc), s.heals.any (fun h => h.row == row && !h.held) = true → accessBlocked s row 4096 = none →
      bs.length = 4096 → b ≠ .uncorrectable →
      ∃ t, exec (.healDone row (some bs) b) s = .next t ∧ t.mem = (s.store row bs).mem ∧ t.heals = s.heals.filter (fun h => h.row != row) ∧
        t.tmp = s.tmp ∧ t.ctxs = s.ctxs ∧
        (b = .ok → t.rd R.HBM_HEAL_HEALED (pcOf s row).1 = min (2 ^ 32 - 1) (s.rd R.HBM_HEAL_HEALED (pcOf s row).1 + 1))) ∧
    (∀ (row : Nat) (b : Ecc), s.heals.any (fun h => h.row == row && !h.held) = true →
      ∃ t, exec (.healDone row none b) s = .next t ∧ t.mem = s.mem ∧ t.heals = s.heals.filter (fun h => h.row != row) ∧
        t.tmp.phase = .stopped ∧ t.ctxs = s.ctxs) ∧
    (∀ (row : Nat) (bs : List Byte), s.heals.any (fun h => h.row == row && !h.held) = true → accessBlocked s row 4096 = none →
      ∃ t, exec (.healDone row (some bs) .uncorrectable) s = .next t ∧ t.mem = (s.store row (bs.take 4096)).mem ∧
        t.heals = s.heals.filter (fun h => h.row != row) ∧ t.tmp.phase = .stopped ∧ t.ctxs = s.ctxs) ∧
    (∀ (c : Nat) (r : Rec) (base limit count index dest : Nat), c < 64 → curRec s c 0x12 = some r → base = r.op64 8 → limit = r.op32 0x10 + 1 →
      count = bits (r.op32 0x14) 0 20 + 1 → index = r.addr s c 0x18 → dest = r.addr s c 0x20 →
      gatherRefused s c (homeDie s c) base limit index count dest = none →
      unservable s c r ((index, 4 * count) :: (dest, 32 * count) :: (gatherIndex s.mem index count).map (fun i => (base + 32 * i, 32))) = none →
      (ctxOf s c).preempting = false →
      ∃ t, exec (.gather c) s = .next t ∧ (ctxOf t c).cur = none ∧ othersStand s t c ∧ t.mem = s.mem ∧ t.tmp = s.tmp ∧
        t.gathers = s.gathers ++ [(s.nextFlight, gatherIndex s.mem index count)] ∧
        t.flights = s.flights ++ [(s.nextFlight, { ctx := c, record := r, work := .gather, step := s.tmp.step, att := s.tmp.att, tagged := tagged s c, left := 1, src := direct s base, dst := dest, len := count, host := false, abandoned := false, lost := false })]) ∧
    (∀ (id : Nat) (f : Flight) (is : List Nat), flightOf s id = some f → is = Tbl.get [] s.gathers id → f.abandoned = false → f.lost = false →
      f.work = .gather → waitsHearth s f.dst (32 * f.len) = false →
      (is.map (fun i => (f.src + 32 * i, 32)) ++ [(f.dst, 32 * f.len)]).findSome? (fun (a : Nat × Nat) => (accessBlocked s a.1 a.2).map (·, a.1)) = none →
      f.record.sigDone = false → (ctxOf s f.ctx).preempting = false →
      ∃ t, exec (.gatherComplete id) s = .next t ∧ t.mem = (moveGather s f.src f.dst is).mem ∧
        t.gathers = s.gathers.filter (fun e => e.1 != id) ∧ t.flights = s.flights.filter (fun e => e.1 != id) ∧ t.tmp = s.tmp ∧
        t.syn = s.syn ∧ othersStand s t f.ctx) ∧
    (∀ (rs : List StackReport), rs.length = 16 → s.rd R.SMC_BRINGUP_STAGE 0 = 3 → sahsinRuns s = true → s.smc.fullTrain = true →
      (stackOf (trainAll s rs s.map.seq) 0).failed = false →
      ∃ t, exec (.hbmTrain rs) s = .next t ∧ t.map = AddrMap.coldDefault s.map.seq ∧ t.heals = [] ∧
        t.hbmStacks = (trainAll s rs s.map.seq).hbmStacks ∧ (∀ a, a < hearthBase 0 → t.mem.byte a = 0) ∧
        (∀ a, hearthBase 0 ≤ a → t.mem.byte a = s.mem.byte a) ∧ t.tmp = s.tmp ∧ t.ctxs = s.ctxs) ∧
    (∀ (rs : List StackReport), rs.length = 16 → s.rd R.SMC_BRINGUP_STAGE 0 = 3 → sahsinRuns s = true → s.smc.fullTrain = true →
      (stackOf (trainAll s rs s.map.seq) 0).failed = true →
      ∃ t, exec (.hbmTrain rs) s = .next t ∧ t.rd R.SMC_BRINGUP_STAGE 0 = 6 ∧ t.rd R.SMC_BRINGUP_HALT_CAUSE 0 = 4 ∧
        t.mem = s.mem ∧ t.tmp = s.tmp ∧ t.ctxs = s.ctxs)

/-- RECORD_SUBMIT of 64 aligned bytes to an existing context that is not a guest's, with room in its queue, appends the record;
to a FREE, QUARANTINE or full one it is lost and CTX_OVF counts it. CREATE of a FREE context under a valid map makes it IDLE
and empty with CTX_ERR cleared. CTX_LOAD of a READY context with a slot free makes it resident and counts it; CTX_SAVE of an
IDLE resident context with nothing in flight takes the slot and makes only its save area undefined. PREEMPT of a RUNNING
context with a record marks it, of an IDLE or READY one with nothing in flight ends in PREEMPTED without a slot. Every other
context stays. Rests on 08_contexts_commands_sync.md. -/
def Obligations.ContextsAreFedAndSchedulable : Prop :=
  ∀ (s : State) (c : Nat), s.power.on = true → c < 64 →
    (∀ off bs, off / 0x10000 = c → bs.length = 64 → off % 64 = 0 → isGuestCtx s c = false →
      ((ctxOf s c).state ≠ .free → (ctxOf s c).state ≠ .quarantine → (ctxOf s c).queue.length < 1024 →
        ∃ t, exec (.recordSubmit off bs) s = .next t ∧ (ctxOf t c).queue = (ctxOf s c).queue ++ [bs] ∧ (ctxOf t c).cur = (ctxOf s c).cur ∧
          othersStand s t c ∧ t.tmp = s.tmp ∧ t.flights = s.flights ∧ ((ctxOf s c).preempting = false → t.mem = s.mem)) ∧
      (((ctxOf s c).state = .free ∨ (ctxOf s c).state = .quarantine ∨ 1024 ≤ (ctxOf s c).queue.length) →
        ∃ t, exec (.recordSubmit off bs) s = .next t ∧ t.ctxs = s.ctxs ∧ t.mem = s.mem ∧
          t.rd R.CTX_OVF_OVF c = min (2 ^ R.CTX_OVF_OVF.width - 1) (s.rd R.CTX_OVF_OVF c + 1))) ∧
    ((ctxOf s c).state = .free → s.map.valid = true →
      ∃ t, exec (.create c) s = .next t ∧ ctxOf t c = { Ctx.freed with state := .idle, since := s.clock } ∧ othersStand s t c ∧
        t.rd R.CTX_ERR_VALID c = 0 ∧ t.mem = s.mem ∧ t.tmp = s.tmp) ∧
    ((ctxOf s c).state = .ready → (ctxOf s c).resident = false → (residents s).length < 16 →
      ∃ t, exec (.ctxLoad c) s = .next t ∧ ctxOf t c = { ctxOf s c with resident := true } ∧ othersStand s t c ∧ t.mem = s.mem ∧
        t.rd R.DSP_LOADS_LOADS (homeDie s c) = min (2 ^ R.DSP_LOADS_LOADS.width - 1) (s.rd R.DSP_LOADS_LOADS (homeDie s c) + 1)) ∧
    ((ctxOf s c).state = .idle → (ctxOf s c).resident = true → flightsOf s c = [] →
      ∃ t, exec (.ctxSave c) s = .next t ∧ ctxOf t c = { ctxOf s c with resident := false } ∧ othersStand s t c ∧
        t.mem = (s.undefine (saveArea s c) 0x12000).mem ∧
        t.rd R.DSP_SAVES_SAVES (homeDie s c) = min (2 ^ R.DSP_SAVES_SAVES.width - 1) (s.rd R.DSP_SAVES_SAVES (homeDie s c) + 1)) ∧
    ((ctxOf s c).state = .running → (ctxOf s c).cur.isSome = true →
      exec (.preempt c) s = .next (s.setCtx c { ctxOf s c with preempting := true })) ∧
    (((ctxOf s c).state = .idle ∨ (ctxOf s c).state = .ready) → (ctxOf s c).cur = none → flightsOf s c = [] →
      ∃ t, exec (.preempt c) s = .next t ∧ (ctxOf t c).state = .preempted ∧ (ctxOf t c).resident = false ∧
        (ctxOf t c).preempting = false ∧ (ctxOf t c).queue = (ctxOf s c).queue ∧ othersStand s t c)

/-- RESUME of a FAULTED context issues the failed record again, before all others, and SKIP leaves it behind; both clear
CTX_ERR and a context with more to issue is READY. RESUME of a PREEMPTED one with no error or WAIT kept back goes on. CTX_RESET
and DESTROY of a context that owns no counter, while no step is under way, empty it and put it into QUARANTINE. QUARANTINE_END,
with nothing of the context in flight, ends in IDLE, or after DESTROY in FREE without bindings. Every other context stays.
Rests on 08_contexts_commands_sync.md. -/
def Obligations.ContextsRecoverAndEnd : Prop :=
  ∀ (s : State) (c : Nat), s.power.on = true → c < 64 →
    (∀ r, (ctxOf s c).state = .faulted → (ctxOf s c).failed = some r → r.fetched = true → (ctxOf s c).cur = none →
      (ctxOf s c).preempting = false →
      (∃ t, exec (.resume c) s = .next t ∧ (ctxOf t c).state = .ready ∧ (ctxOf t c).failed = none ∧
        (ctxOf t c).reissue = r :: (ctxOf s c).reissue ∧ t.rd R.CTX_ERR_VALID c = 0 ∧ othersStand s t c ∧ t.mem = s.mem ∧ t.tmp = s.tmp) ∧
      (∃ t, exec (.skip c) s = .next t ∧ (ctxOf t c).failed = none ∧ (ctxOf t c).reissue = (ctxOf s c).reissue ∧
        (ctxOf t c).pc = (ctxOf s c).pc ∧ t.rd R.CTX_ERR_VALID c = 0 ∧ othersStand s t c ∧ t.mem = s.mem ∧ t.tmp = s.tmp)) ∧
    ((ctxOf s c).state = .preempted → (ctxOf s c).deferredErr = false → (ctxOf s c).wait = none → (ctxOf s c).cur = none →
      (ctxOf s c).preempting = false → hasNext (ctxOf s c) = true → (ctxOf s c).block ≠ .fence →
      exec (.resume c) s = .next (s.setCtx c { ctxOf s c with state := .ready, block := .none })) ∧
    ((ctxOf s c).state ≠ .free → (ctxOf s c).state ≠ .quarantine → stepUnderWay s = false → s.syn.counters.filter (fun e => e.2.owner == c) = [] →
      (∃ t, exec (.ctxReset c) s = .next t ∧ (ctxOf t c).state = .quarantine ∧ (ctxOf t c).queue = [] ∧ (ctxOf t c).cur = none ∧
        (ctxOf t c).destroying = false ∧ othersStand s t c ∧ t.tmp = s.tmp) ∧
      (∃ t, exec (.destroy c) s = .next t ∧ (ctxOf t c).state = .quarantine ∧ (ctxOf t c).queue = [] ∧ (ctxOf t c).cur = none ∧
        (ctxOf t c).destroying = true ∧ othersStand s t c ∧ t.tmp = s.tmp)) ∧
    ((ctxOf s c).state = .quarantine → ctxDraining (prune s) c = false →
      ((ctxOf s c).destroying = false → ∃ t, exec (.quarantineEnd c) s = .next t ∧
        ctxOf t c = { ctxOf s c with state := .idle, since := s.clock } ∧ othersStand s t c ∧ t.mem = s.mem) ∧
      ((ctxOf s c).destroying = true → ∃ t, exec (.quarantineEnd c) s = .next t ∧ ctxOf t c = Ctx.freed ∧ othersStand s t c ∧
        t.syn.bindings = s.syn.bindings.filter (fun b => b.1.1 != c) ∧ t.mem = s.mem))

/-- RECORD_ISSUE at a dispatcher whose next context takes the first record of its command window, not held by a FENCE and free
of every error of Table 8.5, makes that record the one it executes, RUNNING, and moves its queue on by one. NOP completes and,
without SIG_DONE, CTX_RETIRED rises by one; CALL goes on in the buffer with a new frame; RET goes back to the record after the
CALL; LOOP goes BACK records before with its index one higher while that is below COUNT, and else drops its index and goes on.
The step, the flights and every other context stay, and no byte of memory changes unless the context is being pre-empted. Rests
on 08_contexts_commands_sync.md. -/
def Obligations.RecordsIssueAndControlFlow : Prop :=
  ∀ (s : State) (c : Nat), s.power.on = true → c < 64 →
    (∀ d bs rest, d < 8 → s.on R.DIE_STS_IN_RESET d = false → nextCtx s d = some c → (ctxOf s c).reissue = [] → (ctxOf s c).pc = none →
      (ctxOf s c).queue = bs :: rest → fenced s c bs = false → recCheck (issued s d c bs rest) c ⟨bs, .ring (ctxOf s c).qpos⟩ = 0 →
      ∃ t, exec (.recordIssue d) s = .next t ∧ (ctxOf t c).state = .running ∧ (ctxOf t c).cur = some ⟨bs, .ring (ctxOf s c).qpos⟩ ∧
        (ctxOf t c).queue = rest ∧ (ctxOf t c).qpos = ((ctxOf s c).qpos + 1) % 1024 ∧ othersStand s t c ∧ t.mem = s.mem ∧ t.tmp = s.tmp ∧
        t.flights = s.flights ∧ Tbl.get 64 t.served d = c) ∧
    (∀ r, curRec s c 0x00 = some r →
      ∃ t, exec (.nop c) s = .next t ∧ (ctxOf t c).cur = none ∧ (ctxOf t c).pc = (ctxOf s c).pc ∧ (ctxOf t c).frames = (ctxOf s c).frames ∧
        (ctxOf t c).queue = (ctxOf s c).queue ∧ othersStand s t c ∧ t.tmp = s.tmp ∧ t.flights = s.flights ∧
        ((ctxOf s c).preempting = false → t.mem = s.mem ∧ (r.sigDone = false → t.syn = s.syn ∧ t.rd R.CTX_RETIRED_RETIRED c =
          min (2 ^ R.CTX_RETIRED_RETIRED.width - 1) (s.rd R.CTX_RETIRED_RETIRED c + 1)))) ∧
    (∀ r, curRec s c 0x08 = some r →
      ∃ t, exec (.call c) s = .next t ∧ (ctxOf t c).cur = none ∧ (ctxOf t c).pc = some (r.op64 8) ∧
        (ctxOf t c).frames = ⟨r.op64 8, nextPc (ctxOf s c), []⟩ :: (ctxOf s c).frames ∧ (ctxOf t c).queue = (ctxOf s c).queue ∧
        othersStand s t c ∧ t.tmp = s.tmp ∧ t.flights = s.flights ∧ ((ctxOf s c).preempting = false → t.mem = s.mem)) ∧
    (∀ r f fs, curRec s c 0x09 = some r → (ctxOf s c).frames = f :: fs →
      ∃ t, exec (.ret c) s = .next t ∧ (ctxOf t c).cur = none ∧ (∀ a, f.back = .mem a → (ctxOf t c).pc = some a) ∧
        (∀ q, f.back = .ring q → (ctxOf t c).pc = none) ∧ (ctxOf t c).frames = fs ∧ (ctxOf t c).queue = (ctxOf s c).queue ∧
        othersStand s t c ∧ t.tmp = s.tmp ∧ t.flights = s.flights ∧ ((ctxOf s c).preempting = false → t.mem = s.mem)) ∧
    (∀ r a f fs, curRec s c 0x0A = some r → r.at' = .mem a → (ctxOf s c).frames = f :: fs →
      ∃ t, exec (.loop c) s = .next t ∧ (ctxOf t c).cur = none ∧ (ctxOf t c).queue = (ctxOf s c).queue ∧
        (Tbl.get 0 f.loops a + 1 < r.count → (ctxOf t c).pc = some (a - 64 * r.back) ∧
          (∃ g, (ctxOf t c).frames = g :: fs ∧ g.start = f.start ∧ g.back = f.back ∧ Tbl.get 0 g.loops a = Tbl.get 0 f.loops a + 1)) ∧
        (r.count ≤ Tbl.get 0 f.loops a + 1 → (ctxOf t c).pc = (ctxOf s c).pc ∧
          (ctxOf t c).frames = { f with loops := f.loops.filter (fun l => l.1 != a) } :: fs) ∧
        othersStand s t c ∧ t.tmp = s.tmp ∧ t.flights = s.flights ∧ ((ctxOf s c).preempting = false → t.mem = s.mem))

/-- A local COPY of at least one byte whose ranges can be served goes into flight between the direct addresses that its aliases
name then, and the context goes on; no byte moves. COPY_COMPLETE of a local copy not abandoned, with both ranges served, writes
exactly the source's bytes at the destination and the flight is over. STAMP writes the fabric time and AFLAGS the context's
arithmetic flags as 8 bytes at ADDR and complete. Every other byte stays unless the context is being pre-empted, and every
other context stays but for what wakes its WAIT. Rests on 08_contexts_commands_sync.md, 07_hbm_memory.md. -/
def Obligations.CopiesAndStampsReachMemory : Prop :=
  ∀ (s : State), s.power.on = true →
    (∀ c r, c < 64 → curRec s c 0x10 = some r → r.remote = false → r.len ≠ 0 →
      unservable s c r [(r.addr s c 8, r.len), (r.addr s c 0x10, r.len)] = none →
      ∃ t, exec (.copy c) s = .next t ∧ (ctxOf t c).cur = none ∧ othersStand s t c ∧ t.tmp = s.tmp ∧
        (∃ f, t.flights = s.flights ++ [(s.nextFlight, f)] ∧ f.ctx = c ∧ f.record = r ∧ f.work = .copyLocal ∧
          f.src = direct s (r.addr s c 8) ∧ f.dst = direct s (r.addr s c 0x10) ∧ f.len = r.len ∧ f.tagged = tagged s c ∧ f.abandoned = false) ∧
        ((ctxOf s c).preempting = false → t.mem = s.mem)) ∧
    (∀ id f, flightOf s id = some f → f.abandoned = false → f.lost = false → f.work = .copyLocal → accessBlocked s f.src f.len = none →
      accessBlocked s f.dst f.len = none → (f.host = true → hostUsable s = true) → waitsTouch s f.dst f.len = false →
      waitsHearth s f.src f.len = false → waitsHearth s f.dst f.len = false →
      ∃ t, exec (.copyComplete id) s = .next t ∧ t.flights = s.flights.filter (fun e => e.1 != id) ∧ t.tmp = s.tmp ∧
        othersStand s t f.ctx ∧ ((ctxOf s f.ctx).preempting = false →
          t.mem = (writeAny (readAny s f.src f.len).2 f.dst (readAny s f.src f.len).1).mem)) ∧
    (∀ c r, c < 64 → curRec s c 0x58 = some r → waitsTouch s (r.addr s c 8) 8 = false → unservable s c r [(r.addr s c 8, 8)] = none →
      ∃ t, exec (.stamp c) s = .next t ∧ (ctxOf t c).cur = none ∧ othersStand s t c ∧ t.tmp = s.tmp ∧ t.flights = s.flights ∧
        ((ctxOf s c).preempting = false → t.mem = (writeAny s (r.addr s c 8) (leBytes 8 s.now)).mem)) ∧
    (∀ c r, c < 64 → curRec s c 0x59 = some r → waitsTouch s (r.addr s c 8) 8 = false → unservable s c r [(r.addr s c 8, 8)] = none →
      ∃ t, exec (.aflags c) s = .next t ∧ (ctxOf t c).cur = none ∧ othersStand s t c ∧ t.tmp = s.tmp ∧ t.flights = s.flights ∧
        ((ctxOf s c).preempting = false → t.mem = (writeAny s (r.addr s c 8) (leBytes 8 (aflags s c))).mem))

/-- A local SIGNAL on a counter that is bound and not BROKEN gives it the value that ADD, SET or MAX makes and completes. A
WAIT on a local counter completes at once where its condition holds, and else waits with its deadline T after now. WAIT_WAKE
ends the WAIT of a context whose condition was seen to hold and that is not being pre-empted. WAIT_TIMEOUT at or after the
deadline of a local WAIT, with no step under way, ends it as a command error: the context is FAULTED in that record and CTX_ERR
is valid. Memory stays unless the context is being pre-empted. Rests on 08_contexts_commands_sync.md. -/
def Obligations.SignalsAndWaits : Prop :=
  ∀ (s : State) (c : Nat), s.power.on = true → c < 64 →
    (∀ r k x, curRec s c 0x40 = some r → r.remote = false → recCounter s c r = some k → counterOf s k = some x → x.broken = false →
      r.sigDone = false →
      ∃ t, exec (.signal c) s = .next t ∧ counterOf t k = some { x with value := counterApply r.sigOp x.value (r.op64 0x10) } ∧
        (∀ j, j ≠ k → counterOf t j = counterOf s j) ∧ (ctxOf t c).cur = none ∧ othersStand s t c ∧ t.tmp = s.tmp ∧
        ((ctxOf s c).preempting = false → t.mem = s.mem)) ∧
    (∀ r k x, curRec s c 0x41 = some r → r.remote = false → recCounter s c r = some k → counterOf s k = some x → (ctxOf s c).wait = none →
      (condHolds (r.cond == 1) x.value (r.op64 0x10) = true →
        ∃ t, exec (.wait c) s = .next t ∧ (ctxOf t c).cur = none ∧ (ctxOf t c).wait = none ∧ othersStand s t c ∧ t.tmp = s.tmp) ∧
      (condHolds (r.cond == 1) x.value (r.op64 0x10) = false → (ctxOf s c).preempting = false →
        ∃ t w, exec (.wait c) s = .next t ∧ t = s.setCtx c { ctxOf s c with state := .waiting, block := .wait, since := s.clock, wait := some w } ∧
          w.record = r ∧ w.remote = none ∧ w.phys = k ∧ w.value = r.op64 0x10 ∧ w.deadline = s.clock + waitTime r.timeCode ∧ w.notified = none)) ∧
    (∀ w r v, (ctxOf s c).state = .waiting → (ctxOf s c).wait = some w → (ctxOf s c).cur = some r → w.notified = some v →
      (ctxOf s c).preempting = false →
      ∃ t, exec (.waitWake c) s = .next t ∧ (ctxOf t c).cur = none ∧ (ctxOf t c).wait = none ∧ othersStand s t c ∧ t.tmp = s.tmp ∧ t.mem = s.mem) ∧
    (∀ w, (ctxOf s c).state = .waiting → (ctxOf s c).wait = some w → w.remote = none → w.notified = none → w.deadline ≤ s.clock →
      s.tmp.phase = .idle →
      ∃ t, exec (.waitTimeout c) s = .next t ∧ (ctxOf t c).state = .faulted ∧ (ctxOf t c).failed = some w.record ∧ (ctxOf t c).wait = none ∧
        t.rd R.CTX_ERR_CODE c = 0x0B ∧ t.rd R.CTX_ERR_VALID c = 1 ∧ othersStand s t c ∧ t.tmp = s.tmp ∧ t.mem = s.mem)

/-- A SIGNAL packet that passes the checks of R270 in its turn moves its flow's CUM on by one. Of KIND OP, untagged, on a
counter that allows it and is not BROKEN, it gives the counter the value that ADD, SET or MAX makes; tagged for the successor
of this (STEP, ATT) on a STEP counter, with room, it is deferred. Of KIND SUBSCRIBE on such a counter whose condition does not
hold, with room, it leaves a subscription; of KIND CANCEL it takes its own subscription away. No context and no byte of memory
changes, but for the notice to a local waiter. Rests on 08_contexts_commands_sync.md, 10_fabric_transport.md. -/
def Obligations.SignalsFromOtherModules : Prop :=
  ∀ (s : State) (k : Nat) (p : Packet), s.power.on = true → Arrives s k .SIGNAL p →
    (∀ x, sigKind p = 0 → remoteCounter s (sigPhys p) = some x → x.broken = false → fieldAt p.payload 0 2 / 8 % 4 ≠ 3 →
      (bitOf (fieldAt p.payload 0 2) 8 && x.stepFlag) = false →
      ∃ t, exec (.signalOp k p) s = .next t ∧ counterOf t (sigPhys p) =
          some { x with value := counterApply (fieldAt p.payload 0 2 / 8 % 4) x.value (sigValue p) } ∧
        (∀ j, j ≠ sigPhys p → counterOf t j = counterOf s j) ∧ t.mem = s.mem ∧ t.tmp = s.tmp ∧
        ∀ d, { ctxOf t d with wait := none } = { ctxOf s d with wait := none }) ∧
    (∀ x, sigKind p = 0 → remoteCounter s (sigPhys p) = some x → fieldAt p.payload 0 2 / 8 % 4 ≠ 3 →
      (bitOf (fieldAt p.payload 0 2) 8 && x.stepFlag) = true → tagOrder s (fieldAt p.payload 0x10 8) (fieldAt p.payload 4 1) = .successor →
      s.syn.deferred.length < 256 →
      ∃ t, exec (.signalOp k p) s = .next t ∧ t.syn.deferred = s.syn.deferred ++
          [⟨sigPhys p, fieldAt p.payload 0 2 / 8 % 4, sigValue p, fieldAt p.payload 0x10 8, fieldAt p.payload 4 1⟩] ∧
        t.syn.counters = s.syn.counters ∧ t.ctxs = s.ctxs ∧ t.mem = s.mem ∧ (flowOf t p.flow).rxCum = (p.seq + 1) % 2 ^ 32) ∧
    (∀ x, sigKind p = 1 → remoteCounter s (sigPhys p) = some x → x.broken = false →
      condHolds (fieldAt p.payload 0 2 / 32 % 8 == 1) x.value (sigValue p) = false → s.syn.subs.length < 4096 →
      ∃ t, exec (.subscribe k p) s = .next t ∧ t.syn.subs = s.syn.subs ++ [⟨sigPhys p, p.src, sigCtx p, sigSub p, fieldAt p.payload 0 2 / 32 % 8 == 1, sigValue p⟩] ∧
        t.syn.counters = s.syn.counters ∧ t.ctxs = s.ctxs ∧ t.mem = s.mem ∧ (flowOf t p.flow).rxCum = (p.seq + 1) % 2 ^ 32) ∧
    (sigKind p = 4 →
      ∃ t, exec (.cancel k p) s = .next t ∧ t.syn.subs = s.syn.subs.filter (fun b =>
          !(b.phys == sigPhys p && b.node == p.src && b.ctx == sigCtx p && b.subId == sigSub p)) ∧
        t.syn.counters = s.syn.counters ∧ t.ctxs = s.ctxs ∧ t.mem = s.mem ∧ (flowOf t p.flow).rxCum = (p.seq + 1) % 2 ^ 32)

/-- A SIGNAL packet that passes the checks of R270 in its turn and answers a context's remote WAIT: NOTIFY records that its
condition held with the value, BUSY sets the time of the next subscription 10 µs later, and BROKEN, with no step under way,
ends the WAIT as a command error with code SYNC_BROKEN. SUBSCRIBE_RETRY at or after that time clears it. Every other context,
the step and memory stay. Rests on 08_contexts_commands_sync.md, 10_fabric_transport.md. -/
def Obligations.NoticesEndRemoteWaits : Prop :=
  ∀ (s : State) (k : Nat) (p : Packet) (w : WaitState), s.power.on = true →
    (Arrives s k .SIGNAL p → waiterOf s p = some w →
      (sigKind p = 2 → ∃ t, exec (.notify k p) s = .next t ∧ ctxOf t (sigCtx p) =
          { ctxOf s (sigCtx p) with wait := some { w with notified := some (sigValue p), lastValue := sigValue p } } ∧
        (∀ d, d ≠ sigCtx p → ctxOf t d = ctxOf s d) ∧ t.mem = s.mem ∧ t.tmp = s.tmp ∧ (flowOf t p.flow).rxCum = (p.seq + 1) % 2 ^ 32) ∧
      (sigKind p = 5 → ∃ t, exec (.busy k p) s = .next t ∧ ctxOf t (sigCtx p) =
          { ctxOf s (sigCtx p) with wait := some { w with busyUntil := some (s.clock + 10000) } } ∧
        (∀ d, d ≠ sigCtx p → ctxOf t d = ctxOf s d) ∧ t.mem = s.mem ∧ t.tmp = s.tmp ∧ (flowOf t p.flow).rxCum = (p.seq + 1) % 2 ^ 32) ∧
      (sigKind p = 3 → (ctxOf s (sigCtx p)).state = .waiting → s.tmp.phase = .idle →
        ∃ t, exec (.broken k p) s = .next t ∧ (ctxOf t (sigCtx p)).state = .faulted ∧ (ctxOf t (sigCtx p)).failed = some w.record ∧
          (ctxOf t (sigCtx p)).wait = none ∧ t.rd R.CTX_ERR_CODE (sigCtx p) = 0x0A ∧ t.rd R.CTX_ERR_VALID (sigCtx p) = 1 ∧
          (∀ d, d ≠ sigCtx p → ctxOf t d = ctxOf s d) ∧ t.mem = s.mem ∧ t.tmp = s.tmp)) ∧
    (∀ c u, c < 64 → (ctxOf s c).wait = some w → w.busyUntil = some u → u ≤ s.clock →
      ∃ t, exec (.subscribeRetry c) s = .next t ∧ ctxOf t c = { ctxOf s c with wait := some { w with busyUntil := none } } ∧
        (∀ d, d ≠ c → ctxOf t d = ctxOf s d) ∧ t.mem = s.mem ∧ t.tmp = s.tmp ∧ t.syn = s.syn)

/-- A staged SYN apply of the command's OP is taken: ALLOC of an unallocated counter for a context that exists makes it with
the staged initial value, owner and flags; FREE of a counter without binding, waiter or subscriber takes it away; BIND of an
unbound name binds it, UNBIND of a bound one undoes that, CLEAR_BROKEN clears the mark. Each ends the pending apply.
PERISCOPE_EVAL while enabled sets COUNT to the number of held contexts, and DEADLOCK to 0 where the graph is not dead; where it
is dead and was not declared, DEADLOCK to 1. No context and no byte of memory changes. Rests on 08_contexts_commands_sync.md,
02_register_pages.md. -/
def Obligations.TheCounterTable : Prop :=
  ∀ s : State, s.power.on = true →
    (armPending s .SYN 0 = true →
      (s.stagedOf R.SYN_OP_OP 0 = 1 → counterOf s (s.stagedOf R.SYN_PHYS_PHYS 0) = none → (ctxOf s (s.stagedOf R.SYN_FLAGS_OWNER 0)).state ≠ .free →
        ∃ t, exec .alloc s = .next t ∧ counterOf t (s.stagedOf R.SYN_PHYS_PHYS 0) = some
            { value := s.stagedOf R.SYN_INIT_INIT 0, init := s.stagedOf R.SYN_INIT_INIT 0, owner := s.stagedOf R.SYN_FLAGS_OWNER 0,
              remoteOk := s.stagedOf R.SYN_FLAGS_REMOTE_OK 0 == 1, stepFlag := s.stagedOf R.SYN_FLAGS_STEP 0 == 1, broken := false } ∧
          (∀ j, j ≠ s.stagedOf R.SYN_PHYS_PHYS 0 → counterOf t j = counterOf s j) ∧ armPending t .SYN 0 = false ∧ t.ctxs = s.ctxs ∧ t.mem = s.mem) ∧
      (∀ x, s.stagedOf R.SYN_OP_OP 0 = 2 → counterOf s (s.stagedOf R.SYN_PHYS_PHYS 0) = some x →
        s.syn.bindings.any (fun b => b.2 == s.stagedOf R.SYN_PHYS_PHYS 0) = false → waitersOf s (s.stagedOf R.SYN_PHYS_PHYS 0) = [] →
        s.syn.subs.any (fun b => b.phys == s.stagedOf R.SYN_PHYS_PHYS 0) = false →
        ∃ t, exec .free s = .next t ∧ t.syn = { s.syn with counters := s.syn.counters.filter (fun e => e.1 != s.stagedOf R.SYN_PHYS_PHYS 0) } ∧
          armPending t .SYN 0 = false ∧ t.ctxs = s.ctxs ∧ t.mem = s.mem) ∧
      (∀ x, s.stagedOf R.SYN_OP_OP 0 = 3 → counterOf s (s.stagedOf R.SYN_PHYS_PHYS 0) = some x →
        s.syn.bindings.any (fun b => b.1 == (s.stagedOf R.SYN_BIND_CTX 0, s.stagedOf R.SYN_BIND_VID 0)) = false → s.syn.bindings.length < 131072 →
        ∃ t, exec .bind s = .next t ∧ t.syn = { s.syn with bindings := s.syn.bindings ++
            [((s.stagedOf R.SYN_BIND_CTX 0, s.stagedOf R.SYN_BIND_VID 0), s.stagedOf R.SYN_PHYS_PHYS 0)] } ∧
          armPending t .SYN 0 = false ∧ t.ctxs = s.ctxs ∧ t.mem = s.mem) ∧
      (s.stagedOf R.SYN_OP_OP 0 = 4 → s.syn.bindings.any (fun b => b.1 == (s.stagedOf R.SYN_BIND_CTX 0, s.stagedOf R.SYN_BIND_VID 0)) = true →
        ∃ t, exec .unbind s = .next t ∧ t.syn = { s.syn with bindings := s.syn.bindings.filter (fun b =>
            b.1 != (s.stagedOf R.SYN_BIND_CTX 0, s.stagedOf R.SYN_BIND_VID 0)) } ∧
          armPending t .SYN 0 = false ∧ t.ctxs = s.ctxs ∧ t.mem = s.mem) ∧
      (∀ x, s.stagedOf R.SYN_OP_OP 0 = 5 → counterOf s (s.stagedOf R.SYN_PHYS_PHYS 0) = some x →
        ∃ t, exec .clearBroken s = .next t ∧ counterOf t (s.stagedOf R.SYN_PHYS_PHYS 0) = some { x with broken := false } ∧
          (∀ j, j ≠ s.stagedOf R.SYN_PHYS_PHYS 0 → counterOf t j = counterOf s j) ∧ armPending t .SYN 0 = false ∧ t.ctxs = s.ctxs ∧ t.mem = s.mem)) ∧
    (s.on R.PSC_CTL_EN 0 = true →
      (pscDead s = false → exec .periscopeEval s = .next ((s.wr R.PSC_STS_COUNT 0
        ((List.range 64).filter (fun c => (pscHeld s c).isSome)).length).wr R.PSC_STS_DEADLOCK 0 0)) ∧
      (pscDead s = true → s.on R.PSC_STS_DEADLOCK 0 = false →
        ∃ t, exec .periscopeEval s = .next t ∧ t.rd R.PSC_STS_DEADLOCK 0 = 1 ∧ t.rd R.PSC_TIME_TIME 0 = s.now % 2 ^ 64 ∧
          t.rd R.PSC_DECLARED_DECLARED 0 = min (2 ^ 32 - 1) (s.rd R.PSC_DECLARED_DECLARED 0 + 1) ∧ t.ctxs = s.ctxs ∧ t.mem = s.mem))

/-- LINK_ENABLE of a DOWN link that may train, RETRAIN unless DOWN or realigning, a due LINK_RETRY, AUTO_RESTORE after ten
minutes DEGRADED in IDLE, and the partner's DOWN_NOTICE start training: the link is in DETECT and has lost what it held.
LINK_DISABLE sends DOWN_NOTICE and the link is DOWN. A training with signal, alignment and a partner that suits on four lanes
brings the link UP, without signal it FAILED with reason 1. A lane fault of an UP link that may degrade starts the realignment
and sends DEGRADE_REQ, of a DEGRADED one fails it; DEGRADE_REQ and DEGRADE_ACK bring the link through RETRAIN_X2 to DEGRADED,
and without an answer in time it FAILED with reason 7. No other link, memory, context or step changes, but for packets queued
on other links. Rests on 09_fabric_links.md. -/
def Obligations.LinksTrainDegradeAndFail : Prop :=
  ∀ (s : State) (k : Nat), s.power.on = true → k < 32 →
    ((linkOf s k).state = .down → s.on R.PDC_STS_IN_RESET (k / 16) = false → s.smc.released = true →
      ∃ t, exec (.linkEnable k) s = .next t ∧ t.hrd R.PAGE_CTL_ENABLE (slotOf .LNK k) = 1 ∧ linkOf t k = startedLink s k true false ∧
        (∀ j, j ≠ k → linkOf t j = linkOf s j) ∧ t.mem = s.mem ∧ t.ctxs = s.ctxs ∧ t.tmp = s.tmp) ∧
    ((linkOf s k).state ≠ .down → exec (.linkEnable k) s = .next (s.hwr R.PAGE_CTL_ENABLE (slotOf .LNK k) 1)) ∧
    (∃ t, exec (.linkDisable k) s = .next t ∧ linkOf t k = (linkOf s k).quiet .down ∧ t.hrd R.PAGE_CTL_ENABLE (slotOf .LNK k) = 0 ∧
      (linkLive (linkOf s k) = true → OutMsg.control k 3 0 0 ∈ t.out) ∧
      (∀ j, j ≠ k → linkOf t j = linkOf s j) ∧ t.mem = s.mem ∧ t.ctxs = s.ctxs ∧ t.tmp = s.tmp) ∧
    (∀ rep : LinkReport, linkTraining (linkOf s k) = true → rep.signal = true → rep.aligned = true → rep.goodLanes % 16 = 15 →
      s.rd R.LNK_TRAIN_LANE_DISABLE k = 0 → (negotiate s k rep.cap).1 = 0 →
      ∃ t, exec (.linkTraining k rep) s = .next t ∧ linkOf t k = linkedLink s k 15 .up rep ∧ t.rd R.LNK_STS_LANES_UP k = 15 ∧
        (∀ j, j ≠ k → linkOf t j = linkOf s j) ∧ t.mem = s.mem ∧ t.ctxs = s.ctxs ∧ t.tmp = s.tmp) ∧
    (∀ rep : LinkReport, linkTraining (linkOf s k) = true → rep.signal = false →
      ∃ t, exec (.linkTraining k rep) s = .next t ∧ LinkFailed s t k 1) ∧
    ((linkOf s k).state ≠ .down → (linkOf s k).state ≠ .retrainX2 →
      ∃ t, exec (.retrain k) s = .next t ∧ linkOf t k = startedLink s k true false ∧
        (∀ j, j ≠ k → linkOf t j = linkOf s j) ∧ t.mem = s.mem ∧ t.ctxs = s.ctxs ∧ t.tmp = s.tmp) ∧
    (∀ d, (linkOf s k).state = .failed → (linkOf s k).retryAt = some d → d ≤ s.clock → linkEnabled s k = true →
      ∃ t, exec (.linkRetry k) s = .next t ∧ linkOf t k = startedLink s k false false ∧
        (∀ j, j ≠ k → linkOf t j = linkOf s j) ∧ t.mem = s.mem ∧ t.ctxs = s.ctxs ∧ t.tmp = s.tmp) ∧
    ((linkOf s k).state = .degraded → s.on R.LNK_CFG_AUTO_RESTORE k = true → (linkOf s k).degradedAt + 600000000000 ≤ s.clock →
      s.tmp.phase = .idle →
      ∃ t, exec (.autoRestore k) s = .next t ∧ linkOf t k = startedLink s k true true ∧
        (∀ j, j ≠ k → linkOf t j = linkOf s j) ∧ t.mem = s.mem ∧ t.ctxs = s.ctxs ∧ t.tmp = s.tmp) ∧
    (linkLive (linkOf s k) = true →
      ∃ t, exec (.downNotice k) s = .next t ∧ linkOf t k = startedLink s k true false ∧
        (∀ j, j ≠ k → linkOf t j = linkOf s j) ∧ t.mem = s.mem ∧ t.ctxs = s.ctxs ∧ t.tmp = s.tmp) ∧
    (∀ (lane : Nat) (cause : LaneCause), lane < 4 → (linkOf s k).state = .up → s.rd R.LNK_STS_LANES_UP k = 15 →
      s.on R.LNK_CFG_DEGRADE_EN k = true → 257 ≤ lnkVersion s k →
      ∃ t, exec (.laneFault k lane cause) s = .next t ∧ (linkOf t k).state = .retrainX2 ∧ (linkOf t k).goodLanes = 15 - 2 ^ lane ∧
        OutMsg.control k 1 0 (lowestTwo (15 - 2 ^ lane)) ∈ t.out ∧ otherLinksStand s t k ∧ t.mem = s.mem ∧ t.ctxs = s.ctxs ∧ t.tmp = s.tmp) ∧
    (∀ (lane : Nat) (cause : LaneCause), lane < 4 → (linkOf s k).state = .degraded → (2 ^ lane &&& s.rd R.LNK_STS_LANES_UP k) ≠ 0 →
      ∃ t, exec (.laneFault k lane cause) s = .next t ∧ LinkFailed s t k 2) ∧
    (∀ lanes, (linkOf s k).state = .up → 257 ≤ lnkVersion s k → 2 ≤ popCount 4 (fromPartner s k lanes) →
      ∃ t, exec (.degradeReq k lanes) s = .next t ∧ (linkOf t k).state = .retrainX2 ∧ (linkOf t k).goodLanes = fromPartner s k lanes ∧
        (linkOf t k).partnerDegrade = true ∧ OutMsg.control k 2 0 (fromPartner s k lanes) ∈ t.out ∧
        otherLinksStand s t k ∧ t.mem = s.mem ∧ t.ctxs = s.ctxs ∧ t.tmp = s.tmp) ∧
    (∀ (lanes : Nat) (rep : LinkReport), (linkOf s k).state = .retrainX2 → 2 ≤ popCount 4 ((linkOf s k).goodLanes &&& fromPartner s k lanes) →
      rep.signal = true → rep.aligned = true → (negotiate s k rep.cap).1 = 0 →
      ((negotiate s k rep.cap).2.rd R.LNK_PARTNER_PLANE k, (negotiate s k rep.cap).2.rd R.LNK_PARTNER_PORT k, lnkVersion (negotiate s k rep.cap).2 k) =
        (s.rd R.LNK_PARTNER_PLANE k, s.rd R.LNK_PARTNER_PORT k, lnkVersion s k) →
      ∃ t, exec (.degradeAck k lanes rep) s = .next t ∧ (linkOf t k).state = .degraded ∧
        t.rd R.LNK_STS_LANES_UP k = lowestTwo ((linkOf s k).goodLanes &&& fromPartner s k lanes) ∧
        (∀ j, j ≠ k → linkOf t j = linkOf s j) ∧ t.mem = s.mem ∧ t.ctxs = s.ctxs ∧ t.tmp = s.tmp) ∧
    ((linkOf s k).state = .retrainX2 → (linkOf s k).t0 + 350000 ≤ s.clock →
      ∃ t, exec (.degradeTimeout k) s = .next t ∧ LinkFailed s t k 7)

/-- On a link that carries packets: a correctable codeword in sequence frees its slots and counts them, an uncorrectable one
frees none and is dropped, either is the last one received; a control slot gives the partner's credits; the packet at the head
of the priority queue, else of the egress queue, goes on the wire and spends its slots where the credits cover them, and stays
where they do not. A symbol window ends with its counts kept as the window before, and an UP link with a lane beyond the
threshold is UP no more. The partner's coefficient step is applied and answered, an answered step notes the window before it,
and a step that made a lane worse is asked to be undone. Memory, contexts and the step stay. Rests on 09_fabric_links.md. -/
def Obligations.LinksCarryCodewordsAndCredits : Prop :=
  ∀ (s : State) (k : Nat), s.power.on = true → k < 32 →
    (linkLive (linkOf s k) = true →
      (∀ (q : Nat) (sy : List Nat) (n m : Nat), (∀ p, (linkOf s k).rxSeq = some p → q % 60 = (p + 1) % 60) →
        ∃ t, exec (.codewordRx k q sy false n m) s = .next t ∧ (linkOf t k).rxSeq = some (q % 60) ∧
          (linkOf t k).rxFreed = ((linkOf s k).rxFreed + m) % 2 ^ 32 ∧ (linkOf t k).state = (linkOf s k).state ∧
          t.rd R.LNK_RX_SLOTS_RX_SLOTS k = min (2 ^ 64 - 1) (s.rd R.LNK_RX_SLOTS_RX_SLOTS k + m) ∧
          (∀ j, j ≠ k → linkOf t j = linkOf s j) ∧ t.mem = s.mem ∧ t.ctxs = s.ctxs ∧ t.tmp = s.tmp) ∧
      (∀ (q : Nat) (sy : List Nat) (n m : Nat),
        ∃ t, exec (.codewordRx k q sy true n m) s = .next t ∧ (linkOf t k).rxSeq = some (q % 60) ∧ (linkOf t k).rxFreed = (linkOf s k).rxFreed ∧
          (linkOf t k).state = (linkOf s k).state ∧ t.rd R.LNK_RX_SLOTS_RX_SLOTS k = s.rd R.LNK_RX_SLOTS_RX_SLOTS k ∧
          otherLinksStand s t k ∧ t.mem = s.mem ∧ t.ctxs = s.ctxs ∧ t.tmp = s.tmp) ∧
      (∀ cs : ControlSlot,
        ∃ t, exec (.controlSlotRx k cs) s = .next t ∧ (linkOf t k).creditTotal = cs.credit ∧ (linkOf t k).lastTx = cs.txTime ∧
          (linkOf t k).lastRxAt = s.now ∧ (linkOf t k).sent = (linkOf s k).sent ∧ (linkOf t k).prio = (linkOf s k).prio ∧
          (linkOf t k).egress = (linkOf s k).egress ∧ t = { s with links := t.links, regs := t.regs } ∧ (∀ j, j ≠ k → linkOf t j = linkOf s j)) ∧
      (∀ (x : PClass × Packet) (l : List (PClass × Packet)), (linkOf s k).prio = x :: l → slotsOf x.2 ≤ creditsLeft (linkOf s k) →
        exec (.packetTx k) s = .next (((s.setLink k { linkOf s k with prio := l, sent := ((linkOf s k).sent + slotsOf x.2) % 2 ^ 32 }).inc
          R.LNK_TX_SLOTS_TX_SLOTS k (slotsOf x.2)).emit (.wire k x.1 x.2))) ∧
      (∀ (x : PClass × Packet) (l : List (PClass × Packet)), (linkOf s k).prio = [] → (linkOf s k).egress = x :: l →
        slotsOf x.2 ≤ creditsLeft (linkOf s k) →
        exec (.packetTx k) s = .next (((s.setLink k { linkOf s k with egress := l, egressSlots := (linkOf s k).egressSlots - slotsOf x.2, sent := ((linkOf s k).sent + slotsOf x.2) % 2 ^ 32 }).inc R.LNK_TX_SLOTS_TX_SLOTS k (slotsOf x.2)).emit (.wire k x.1 x.2))) ∧
      (∀ (x : PClass × Packet) (l : List (PClass × Packet)), (linkOf s k).prio = x :: l → creditsLeft (linkOf s k) < slotsOf x.2 →
        exec (.packetTx k) s = .next ((s.fresh.2).inc R.LNK_CREDIT_STALL_CREDIT_STALL k s.fresh.1)) ∧
      ((∀ i, i < 4 → Tbl.get 0 (linkOf s k).window i ≤ 2 ^ clampNat 8 20 (s.rd R.LNK_CFG_SER_EXP k)) →
        ∃ t, exec (.serWindowEnd k) s = .next t ∧ (linkOf t k).window = [] ∧ (linkOf t k).windowPrev = (linkOf s k).window ∧
          (linkOf t k).state = (linkOf s k).state ∧ (∀ j, j ≠ k → linkOf t j = linkOf s j) ∧ t.mem = s.mem ∧ t.ctxs = s.ctxs ∧ t.tmp = s.tmp)) ∧
    (∀ i, i < 4 → (linkOf s k).state = .up → s.rd R.LNK_STS_LANES_UP k = 15 →
      2 ^ clampNat 8 20 (s.rd R.LNK_CFG_SER_EXP k) < Tbl.get 0 (linkOf s k).window i →
      ∃ t, exec (.serWindowEnd k) s = .next t ∧ ((linkOf t k).state = .retrainX2 ∨ (linkOf t k).state = .failed) ∧ otherLinksStand s t k ∧
        t.mem = s.mem ∧ t.ctxs = s.ctxs ∧ t.tmp = s.tmp) ∧
    (∀ lane up, lane < 4 → adapting s k = true →
      exec (.txeqReq k lane up) s = .next (sendControl (s.setLink k (stepCoef (linkOf s k) lane up)) k 6 (2 ^ lane) (b2n up))) ∧
    (∀ lane e, lane < 4 → (linkOf s k).asks.find? (fun e => e.1 == lane) = some (lane, e) →
      exec (.txeqAck k lane) s = .next (s.setLink k { linkOf s k with asks := Tbl.set (linkOf s k).asks lane { e with acked := true, before := Tbl.get 0 (linkOf s k).windowPrev lane } })) ∧
    (∀ lane e, lane < 4 → (linkOf s k).asks.find? (fun e => e.1 == lane) = some (lane, e) → e.acked = true →
      (Tbl.get 0 (linkOf s k).windowPrev lane ≤ e.before → exec (.txeqWindowEnd k lane) s =
        .next (s.setLink k { linkOf s k with asks := Tbl.set (linkOf s k).asks lane { e with acked := false } })) ∧
      (e.before < Tbl.get 0 (linkOf s k).windowPrev lane → exec (.txeqWindowEnd k lane) s =
        .next (sendControl (s.setLink k { linkOf s k with asks := Tbl.set (linkOf s k).asks lane { e with acked := false } }) k 5 (2 ^ lane) (b2n (!e.up)))))

/-- Bytes that a context, an engine or a peer writes stand at the direct address that theirs names and nowhere else: every
address outside them and outside the table into which Touchmark's taps fold them reads as before, and each of them reads back
unless the table lies over it. A write to HOSTW or GX changes no byte of the module. Rests on 06_hearth_and_address_space.md,
13_integrity_checking.md. -/
def Obligations.WritesReachExactlyTheirBytes : Prop :=
  ∀ (s : State) (a : Nat) (bs : List Byte),
    ((windowOf s a = .hostw ∨ windowOf s a = .gx) → (writeAny s a bs).mem = s.mem) ∧
    (windowOf s a ≠ .hostw → windowOf s a ≠ .gx → ∀ x,
      (x < s.rd R.TCH_TABLE_BASE 0 ∨ s.rd R.TCH_TABLE_BASE 0 + 32 * ((s.rd R.TCH_LEN_LEN 0 + 65535) / 65536) ≤ x) →
      ((x < direct s a ∨ direct s a + bs.length ≤ x) → (writeAny s a bs).mem.byte x = s.mem.byte x) ∧
      (∀ i (h : i < bs.length), x = direct s a + i → (writeAny s a bs).mem.byte x = bs[i]))

/-- A WRITE, or a DATA that answers no READ, that arrives in its turn, that its sender may make and that can be served, writes
exactly its payload at ADDR and moves its flow's CUM on by one. A DATA that answers a READ of a COPY does so under the rights
of its context, takes the READ off the flow and leaves the record one packet less to go; one that answers an abandoned READ is
acknowledged and not written. A READ that may be made and read clean queues the DATA of its range on the flow to its sender. A
WRITE that may not be made writes nothing and leaves CUM. ACK_SEND on an open flow with deliveries to acknowledge puts the ACK
with CUM and SACK on the next plane. No context and no field of TMP changes. Rests on 10_fabric_transport.md,
06_hearth_and_address_space.md. -/
def Obligations.DataReadsAndWritesFromPeers : Prop :=
  ∀ (s : State) (k : Nat) (p : Packet), s.power.on = true →
    (Arrives s k .WRITE p → accessOk s (.fabric p.src) true p.addr p.payload.length = true → accessBlocked s p.addr p.payload.length = none →
      waitsHearth s p.addr p.payload.length = false → waitsTouch s p.addr p.payload.length = false →
      ∃ t, exec (.write k p) s = .next t ∧ t.mem = (writeAny s p.addr p.payload).mem ∧ (flowOf t p.flow).rxCum = (p.seq + 1) % 2 ^ 32 ∧
        (∀ f, f ≠ p.flow → flowOf t f = flowOf s f) ∧ t.flights = s.flights ∧ t.ctxs = s.ctxs ∧ t.tmp = s.tmp ∧ t.links = s.links) ∧
    (Arrives s k .WRITE p → accessOk s (.fabric p.src) true p.addr p.payload.length = false → hitsActive s p.addr p.payload.length = false →
      ∃ t, exec (.write k p) s = .next t ∧ t.mem = s.mem ∧ (∀ f, flowOf t f = flowOf s f) ∧ t.flights = s.flights ∧ t.ctxs = s.ctxs ∧ t.tmp = s.tmp) ∧
    (Arrives s k .DATA p → (flowOf s p.flow).reads.find? (fun r => r.dst == p.addr) = none →
      accessOk s (.fabric p.src) true p.addr p.payload.length = true → accessBlocked s p.addr p.payload.length = none →
      waitsHearth s p.addr p.payload.length = false → waitsTouch s p.addr p.payload.length = false →
      ∃ t, exec (.data k p) s = .next t ∧ t.mem = (writeAny s p.addr p.payload).mem ∧ (flowOf t p.flow).rxCum = (p.seq + 1) % 2 ^ 32 ∧
        (∀ f, f ≠ p.flow → flowOf t f = flowOf s f) ∧ t.flights = s.flights ∧ t.ctxs = s.ctxs ∧ t.tmp = s.tmp ∧ t.links = s.links) ∧
    (∀ r id f, Arrives s k .DATA p → (flowOf s p.flow).reads.find? (fun r => r.dst == p.addr) = some r → r.abandoned = false →
      r.owner = .flight id → flightOf s id = some f → accessOk s (reqOf s f.ctx) true p.addr p.payload.length = true →
      accessBlocked s p.addr p.payload.length = none → (touchesHost p.addr p.payload.length && !hostUsable s) = false →
      waitsHearth s p.addr p.payload.length = false → waitsTouch s p.addr p.payload.length = false →
      ∃ t, exec (.data k p) s = .next t ∧ t.mem = (writeAny s p.addr p.payload).mem ∧ (flowOf t p.flow).rxCum = (p.seq + 1) % 2 ^ 32 ∧
        (flowOf t p.flow).reads = (flowOf s p.flow).reads.erase r ∧ flightOf t id = some { f with left := f.left - 1 } ∧
        (∀ g, g ≠ p.flow → flowOf t g = flowOf s g) ∧ t.ctxs = s.ctxs ∧ t.tmp = s.tmp ∧ t.links = s.links) ∧
    (∀ r, Arrives s k .DATA p → (flowOf s p.flow).reads.find? (fun r => r.dst == p.addr) = some r → r.abandoned = true →
      ∃ t, exec (.data k p) s = .next t ∧ t.mem = s.mem ∧ (flowOf t p.flow).rxCum = (p.seq + 1) % 2 ^ 32 ∧
        (flowOf t p.flow).reads = (flowOf s p.flow).reads.erase r ∧ (∀ g, g ≠ p.flow → flowOf t g = flowOf s g) ∧
        t.ctxs = s.ctxs ∧ t.tmp = s.tmp ∧ t.links = s.links) ∧
    (∀ g, Arrives s k .READ p → accessOk s (.fabric p.src) false p.addr (fieldAt p.payload 8 8) = true →
      waitsHearth s p.addr (fieldAt p.payload 8 8) = false → accessBlocked s p.addr (fieldAt p.payload 8 8) = none → flowTo s p.src = some g →
      ∃ t, exec (.read k p .ok) s = .next t ∧
        (flowOf t g).waiting = (flowOf s g).waiting ++ [⟨.DATA, fieldAt p.payload 0 6, [], some (direct s p.addr, fieldAt p.payload 8 8), .reply, p.stepTag, false⟩] ∧
        (flowOf t p.flow).rxCum = (p.seq + 1) % 2 ^ 32 ∧ (∀ h, h ≠ p.flow → h ≠ g → flowOf t h = flowOf s h) ∧
        t.mem = s.mem ∧ t.flights = s.flights ∧ t.ctxs = s.ctxs ∧ t.tmp = s.tmp ∧ t.links = s.links) ∧
    (∀ f q, f < 4096 → (flowOf s f).state = .opened → 0 < (flowOf s f).ackDue →
      nextPlane (effPlanes s (flowOf s f).peer) (flowOf s f).lastPlane = some q →
      ∃ t, exec (.ackSend f) s = .next t ∧ flowOf t f = { flowOf s f with ackDue := 0 } ∧ (∀ g, g ≠ f → flowOf t g = flowOf s g) ∧
        (linkOf t q).prio = (linkOf s q).prio ++ [(.ACK, mkPacket s .ACK s.xp.slc.cur.slice (flowOf s f).peer (flowOf s f).peerFlow 0 0 0 false
          (ackPayload (flowOf s f).rxCum (sackOf (flowOf s f)) 0 0))] ∧ otherLinksStand s t q ∧
        t.mem = s.mem ∧ t.flights = s.flights ∧ t.ctxs = s.ctxs ∧ t.tmp = s.tmp)

/-- A CTRL OPEN from a node without a flow takes the free entry, which is OPEN with the peer's flow ID. OPEN_ACK opens the
opener's flow. CLOSE by the peer of an idle open flow frees its entry. PACKET_INJECT on a flow that may inject takes the first
waiting packet with the next SEQ to the next plane of the mask that is not skipped, and its payload is read as it leaves. An
ACK without a NAK releases every SEQ below CUM and those of SACK; a WRITE of a record released so leaves the record one packet
less to go. RESEND_TIMEOUT of a try whose time has passed sends the packet again on the next plane, its tries one more. Every
other flow stays, and no byte, no context and no field of TMP changes. Rests on 10_fabric_transport.md. -/
def Obligations.FlowsOpenSendAndClose : Prop :=
  ∀ (s : State) (k : Nat) (p : Packet), s.power.on = true →
    (∀ f, Comes s k .CTRL p → ctrlKind p = 0 → flowTo s p.src = none → freeFlow s = some f →
      ∃ t, exec (.flowOpen k p) s = .next t ∧
        flowOf t f = { Flow.freed with state := .opened, peer := p.src, peerFlow := ctrlFlow p, lastUse := s.clock } ∧
        (∀ g, g ≠ f → flowOf t g = flowOf s g) ∧ t.mem = s.mem ∧ t.ctxs = s.ctxs ∧ t.tmp = s.tmp) ∧
    (Comes s k .CTRL p → ctrlKind p = 1 → (flowOf s p.flow).state = .opening → (flowOf s p.flow).peer = p.src →
      ∃ t, exec (.openAck k p) s = .next t ∧
        flowOf t p.flow = { flowOf s p.flow with state := .opened, peerFlow := ctrlFlow p, lastUse := s.clock } ∧
        (∀ g, g ≠ p.flow → flowOf t g = flowOf s g) ∧ t.mem = s.mem ∧ t.ctxs = s.ctxs ∧ t.tmp = s.tmp ∧ t.links = s.links) ∧
    (Comes s k .CTRL p → ctrlKind p = 2 → (flowOf s p.flow).state = .opened → (flowOf s p.flow).peer = p.src →
      (flowOf s p.flow).unacked = [] → (flowOf s p.flow).waiting = [] → s.xp.needPeers = [] →
      ∃ t, exec (.close k p) s = .next t ∧ flowOf t p.flow = Flow.freed ∧ (∀ g, g ≠ p.flow → flowOf t g = flowOf s g) ∧
        t.mem = s.mem ∧ t.ctxs = s.ctxs ∧ t.tmp = s.tmp ∧ t.links = s.links) ∧
    (∀ f o rest q bs, f < 4096 → (flowOf s f).waiting = o :: rest → mayInject s f o = true → s.xp.slc.cur.slice ≠ 0 → sourceFails s o = none →
      nextPlane ((effPlanes s (flowOf s f).peer).filter (fun k => !planeSkipped s k)) (flowOf s f).lastPlane = some q → payloadOf s o = some bs →
      ∃ t, exec (.packetInject f) s = .next t ∧
        flowOf t f = { flowOf s f with txNext := ((flowOf s f).txNext + 1) % 2 ^ 32, waiting := rest, reads := (flowOf s f).reads ++ readOutOf o, unacked := (flowOf s f).unacked ++ [⟨(flowOf s f).txNext, s.tmp.att, o, 1, some q, s.clock⟩], lastPlane := q, lastUse := s.clock, throttled := false } ∧
        (linkOf t q).egress = (linkOf s q).egress ++ [(o.cls, mkPacket s o.cls s.xp.slc.cur.slice (flowOf s f).peer (flowOf s f).peerFlow 0
          (flowOf s f).txNext o.addr o.stepTag bs)] ∧
        (∀ g, g ≠ f → flowOf t g = flowOf s g) ∧ (∀ j, j ≠ q → linkOf t j = linkOf s j) ∧ t.mem = s.mem ∧ t.ctxs = s.ctxs ∧ t.tmp = s.tmp) ∧
    (Comes s k .ACK p → (flowOf s p.flow).peer = p.src → (flowOf s p.flow).state = .opened → fieldAt p.payload 0x14 4 % 16 = 0 →
      s.ckp.loads = [] → s.xp.needPeers = [] → (∀ u ∈ (flowOf s p.flow).unacked, u.pkt.owner = .reply) →
      ∃ t, exec (.ack k p) s = .next t ∧
        (flowOf t p.flow).unacked = (flowOf s p.flow).unacked.filter (fun u => !acks (fieldAt p.payload 0 4) (fieldAt p.payload 8 8) u.seq) ∧
        (flowOf t p.flow).waiting = (flowOf s p.flow).waiting ∧ (∀ g, g ≠ p.flow → flowOf t g = flowOf s g) ∧
        t.mem = s.mem ∧ t.ctxs = s.ctxs ∧ t.tmp = s.tmp ∧ t.links = s.links) ∧
    (∀ u id fl, Comes s k .ACK p → (flowOf s p.flow).peer = p.src → (flowOf s p.flow).state = .opened → fieldAt p.payload 0x14 4 % 16 = 0 →
      s.ckp.loads = [] → s.xp.needPeers = [] → (flowOf s p.flow).unacked = [u] → u.pkt.cls = .WRITE → u.pkt.abandoned = false →
      u.pkt.owner = .flight id → flightOf s id = some fl → fl.work ≠ .signal → fl.abandoned = false →
      acks (fieldAt p.payload 0 4) (fieldAt p.payload 8 8) u.seq = true →
      ∃ t, exec (.ack k p) s = .next t ∧ (flowOf t p.flow).unacked = [] ∧ flightOf t id = some { fl with left := fl.left - 1 } ∧
        t.mem = s.mem ∧ t.ctxs = s.ctxs ∧ t.tmp = s.tmp ∧ t.links = s.links) ∧
    (∀ f q u bs ecc, f < 4096 → (flowOf s f).state = .opened → (flowOf s f).unacked.find? (fun u => u.seq == q) = some u →
      u.at' + resendNs s (flowDie f) ≤ s.clock → u.tries < triesOf s (flowDie f) → u.pkt.src = none → u.pkt.head = bs →
      ∀ s1 q1, s1 = (match u.plane with
        | some k => planeTimeout (s.inc R.XPT_TIMEOUTS_TIMEOUTS (flowDie f) 1) k (flowOf s f).peer
        | none => s.inc R.XPT_TIMEOUTS_TIMEOUTS (flowDie f) 1) →
      nextPlane (effPlanes s1 (flowOf s f).peer) (u.plane.getD (flowOf s f).lastPlane) = some q1 →
      ∃ t, exec (.resendTimeout f q ecc) s = .next t ∧
        (flowOf t f).unacked = (flowOf s f).unacked.map (fun v => if v.seq = u.seq then { u with tries := u.tries + 1, plane := some q1, at' := s.clock } else v) ∧
        (∀ g, g ≠ f → flowOf t g = flowOf s g) ∧ t.mem = s.mem ∧ t.ctxs = s.ctxs ∧ t.tmp = s.tmp)

/-- RTE_DATA_WRITE, while no switch is staged and no former version stands, sets the selected entry of the next version from
the written word's 17 bits and moves NODE on where AUTO_INC is 1; COPY_CUR then copies the current version into the next;
neither touches the current version. RTE_DATA_READ answers the selected entry. EPOCH_SWITCH at its time makes the staged slice
entry and the next routing versions current, keeps the former ones and inverts EPOCH; EPOCH_RETIRE at its time forgets the
former slice entry. DRAIN_SET starts a drain, DRAINED ends it once nothing is unacknowledged and the lifetime has passed,
DRAIN_CLEAR lets injection resume. READMIT clears exactly the SUSPECT marks of its mask on its port die. Rests on
10_fabric_transport.md. -/
def Obligations.TablesEpochsAndDrains : Prop :=
  ∀ (s : State), s.power.on = true →
    (∀ d val, d < 2 → tableLocked s d = false → val < 2 ^ 17 →
      ∃ t, exec (.rteDataWrite d val) s = .next t ∧
        Tbl.get (0, false) (Tbl.get [] t.xp.rteNext d) (s.rd R.RTE_IDX_NODE d) = (val % 2 ^ 16, bitOf val 16) ∧
        (∀ n, n ≠ s.rd R.RTE_IDX_NODE d → Tbl.get (0, false) (Tbl.get [] t.xp.rteNext d) n = Tbl.get (0, false) (Tbl.get [] s.xp.rteNext d) n) ∧
        t.rd R.RTE_IDX_NODE d = (if s.on R.RTE_IDX_AUTO_INC d then (s.rd R.RTE_IDX_NODE d + 1) % 2 ^ 16 else s.rd R.RTE_IDX_NODE d) ∧
        t.xp.rteCur = s.xp.rteCur ∧ t.xp.slc = s.xp.slc ∧ t.xp.flows = s.xp.flows ∧ t.mem = s.mem ∧ t.ctxs = s.ctxs) ∧
    (∀ d val, d < 2 → tableLocked s d = true → val < 2 ^ 17 →
      ∃ t, exec (.rteDataWrite d val) s = .next t ∧ t.xp = s.xp ∧ t.mem = s.mem ∧ bitOf (t.hrd R.EVT_STS (slotOf .RTE d)) 4 = true) ∧
    (∀ d, d < 2 → tableLocked s d = false →
      exec (.copyCur d) s = .next { s with xp := { s.xp with rteNext := Tbl.set s.xp.rteNext d (Tbl.get [] s.xp.rteCur d) } }) ∧
    (∀ d, d < 2 →
      ∃ t, exec (.rteDataRead d) s = .next t ∧ t.xp = s.xp ∧ t.mem = s.mem ∧ t.ctxs = s.ctxs ∧
        t.out = .regData (slotOf .RTE d) R.RTE_DATA_PLANES.off (readField s R.RTE_DATA_PLANES d + 2 ^ 16 * readField s R.RTE_DATA_VALID d) :: s.out ∧
        t.rd R.RTE_IDX_NODE d = (if s.on R.RTE_IDX_AUTO_INC d then (s.rd R.RTE_IDX_NODE d + 1) % 2 ^ 16 else s.rd R.RTE_IDX_NODE d)) ∧
    (∀ v, s.xp.slc.next = some v → s.xp.slc.switchAt ≤ s.now →
      ∃ t, exec .epochSwitch s = .next t ∧ t.xp.slc.cur = v ∧ t.xp.slc.prev = some s.xp.slc.cur ∧ t.xp.slc.next = none ∧
        t.xp.slc.epoch = !s.xp.slc.epoch ∧ t.xp.slc.retireAt = s.xp.slc.switchAt + retireNs s ∧
        t.xp.rteCur = s.xp.rteNext ∧ t.xp.flows = s.xp.flows ∧ t.mem = s.mem ∧ t.ctxs = s.ctxs ∧ t.tmp = s.tmp) ∧
    (∀ v, s.xp.slc.prev = some v → s.xp.slc.retireAt ≤ s.now →
      ∃ t, exec .epochRetire s = .next t ∧ t.xp = { s.xp with slc := { s.xp.slc with prev := none } } ∧ t.mem = s.mem ∧ t.ctxs = s.ctxs ∧ t.tmp = s.tmp) ∧
    (s.xp.slc.draining = false →
      exec .drainSet s = .next { s with xp := { s.xp with slc := { s.xp.slc with draining := true, drainSince := s.clock } } }) ∧
    (s.xp.slc.draining = true → s.xp.slc.drained = false → (∀ e ∈ s.xp.flows, e.2.unacked = []) →
      s.xp.slc.drainSince + max (lifetimeUs s 0) (lifetimeUs s 1) * 1000 ≤ s.clock →
      ∃ t, exec .drained s = .next t ∧ t.xp = { s.xp with slc := { s.xp.slc with drained := true } } ∧ t.mem = s.mem ∧ t.ctxs = s.ctxs ∧
        bitOf (t.hrd R.EVT_STS (slotOf .SLC slcI)) 6 = true) ∧
    exec .drainClear s = .next { s with xp := { s.xp with slc := { s.xp.slc with draining := false, drained := false } } } ∧
    (∀ d mask, d < 2 →
      ∃ t, exec (.readmit d mask) s = .next t ∧ { t.xp with suspect := 0 } = { s.xp with suspect := 0 } ∧ t.mem = s.mem ∧ t.links = s.links ∧
        ∀ k, bitOf t.xp.suspect k = (bitOf s.xp.suspect k && !(decide (16 * d ≤ k) && decide (k < 16 * d + 16) && bitOf mask (k - 16 * d))))

/-- A STOP not handled before stops the attempt that its tag names: PHASE becomes CHECK, the attempt is frozen and its tagged
flights are abandoned; one of a successor tag is held; one of any other tag is counted as stale and changes nothing else.
SEND_STOP of an attempt that has sent none notes that it is sent, starts a burst and stops the attempt. A CUT of a step not yet
tempered, with no cut pending, makes that step the pending cut with its CAUSE; SEND_CUT asks for a cut of the current step,
deferred in CHECK, VOTE, FLIP_WAIT and IN_DOUBT. STOP_REPEAT sends one due burst on every READY plane and moves it to its next
repeat. TIME_SEND by the master puts a TIME packet on every READY plane and counts SEQ on. A TIME packet of the master
followed, on the plane in use and within 20 ns, keeps a LOCKED module LOCKED and notes its offset. HOLDOVER after ten periods
without TIME puts a follower in HOLDOVER. No byte of memory and no context changes. Rests on 10_fabric_transport.md,
01_step_and_temper.md. -/
def Obligations.StopsCutsAndFabricTime : Prop :=
  ∀ (s : State) (k : Nat) (p : Packet), s.power.on = true →
    (Comes s k .STOP p → seenBefore s .STOP p.payload = false → tagOrder s (fieldAt p.payload 0 8) (fieldAt p.payload 8 1) = .equal → attemptLive s = true →
      ∃ t, exec (.stop k p) s = .next t ∧ t.tmp.phase = .check ∧ t.tmp.step = s.tmp.step ∧ t.tmp.att = s.tmp.att ∧ t.tmp.activeBank = s.tmp.activeBank ∧
        t.attempt.frozen = true ∧ t.flights = s.flights.map (fun e => if e.2.tagged then (e.1, { e.2 with abandoned := true }) else e) ∧
        t.mem = s.mem ∧ t.ctxs = s.ctxs) ∧
    (Comes s k .STOP p → seenBefore s .STOP p.payload = false → tagOrder s (fieldAt p.payload 0 8) (fieldAt p.payload 8 1) = .successor →
      s.attempt.heldStop = none →
      ∃ t, exec (.stop k p) s = .next t ∧ t.tmp = s.tmp ∧
        t.attempt = { s.attempt with heldStop := some (fieldAt p.payload 0 8, fieldAt p.payload 8 1, fieldAt p.payload 9 1) } ∧
        t.flights = s.flights ∧ t.mem = s.mem ∧ t.ctxs = s.ctxs) ∧
    (Comes s k .STOP p → seenBefore s .STOP p.payload = false → tagOrder s (fieldAt p.payload 0 8) (fieldAt p.payload 8 1) = .other →
      ∃ t, exec (.stop k p) s = .next t ∧ t.tmp = s.tmp ∧ t.attempt = s.attempt ∧ t.flights = s.flights ∧ t.mem = s.mem ∧ t.ctxs = s.ctxs ∧
        t.rd R.SLC_STALE_STALE slcI = min (2 ^ R.SLC_STALE_STALE.width - 1) (s.rd R.SLC_STALE_STALE slcI + 1)) ∧
    (s.attempt.stopSent = false → s.xp.slc.cur.slice ≠ 0 → attemptLive s = true →
      ∃ t, exec .sendStop s = .next t ∧ t.tmp.phase = .check ∧ t.attempt.frozen = true ∧ t.attempt.stopSent = true ∧ t.tmp.step = s.tmp.step ∧
        t.xp.bursts = s.xp.bursts ++ [⟨.STOP, stopPayload s Reason.stopReceived.code, s.xp.slc.cur.mcast, 1, s.clock + 10000⟩] ∧
        t.flights = s.flights.map (fun e => if e.2.tagged then (e.1, { e.2 with abandoned := true }) else e) ∧ t.mem = s.mem ∧ t.ctxs = s.ctxs) ∧
    (Comes s k .CUT p → seenBefore s .CUT p.payload = false → s.tmp.tempered < fieldAt p.payload 0 8 → s.xp.slc.cutPending = none →
      ∃ t, exec (.cut k p) s = .next t ∧ t.xp.slc.cutPending = some (fieldAt p.payload 0 8) ∧ t.xp.slc.cutCause = bits (fieldAt p.payload 8 8) 0 2 ∧
        t.xp.flows = s.xp.flows ∧ t.tmp = s.tmp ∧ t.mem = s.mem ∧ t.ctxs = s.ctxs) ∧
    ((s.tmp.phase = .check ∨ s.tmp.phase = .vote ∨ s.tmp.phase = .flipWait ∨ s.tmp.phase = .inDoubt) →
      exec .sendCut s = .next { s with xp := { s.xp with slc := { s.xp.slc with cutDeferred := some 0 } } }) ∧
    ((s.tmp.phase = .idle ∨ s.tmp.phase = .hold ∨ s.tmp.phase = .run ∨ s.tmp.phase = .stopped) → s.xp.slc.cutPending = none → s.xp.slc.cur.slice ≠ 0 →
      ∃ t, exec .sendCut s = .next t ∧ t.xp.slc.cutPending = some s.tmp.step ∧ t.xp.slc.cutCause = 0 ∧
        t.xp.bursts = s.xp.bursts ++ [⟨.CUT, cutPayload s.tmp.step 0, s.xp.slc.cur.mcast, 1, s.clock + 10000⟩] ∧
        t.tmp = s.tmp ∧ t.mem = s.mem ∧ t.ctxs = s.ctxs) ∧
    (∀ b, s.xp.bursts = [b] → b.due ≤ s.clock →
      ∃ t, exec .stopRepeat s = .next t ∧ t.xp.bursts = (if b.idx < 2 then [{ b with idx := b.idx + 1, due := b.due + 10000 }] else []) ∧
        (∀ q, q < 32 → linkReady s q = true → (linkOf t q).prio = (linkOf s q).prio ++ [(b.cls, mkPacket s b.cls s.xp.slc.cur.slice b.dst 0 0 b.idx 0 false b.payload)]) ∧
        (∀ q, { linkOf t q with prio := [] } = { linkOf s q with prio := [] }) ∧ t.tmp = s.tmp ∧ t.mem = s.mem ∧ t.ctxs = s.ctxs) ∧
    (isMaster s = true →
      ∃ t, exec .timeSend s = .next t ∧ t.xp = { s.xp with time := { s.xp.time with seq := (s.xp.time.seq + 1) % 2 ^ 32 } } ∧
        (∀ q, q < 32 → linkReady s q = true → (linkOf t q).prio = (linkOf s q).prio ++ [(.TIME, mkPacket s .TIME 0 0xFFFF 0 0 0 0 false (timePayload s))]) ∧
        (∀ q, { linkOf t q with prio := [] } = { linkOf s q with prio := [] }) ∧ t.tmp = s.tmp ∧ t.mem = s.mem ∧ t.ctxs = s.ctxs) ∧
    (planeOpen s k = true → p.crc = packetCrc .TIME p → p.verMajor = 1 → isMaster s = false → s.xp.time.state = .locked →
      fieldAt p.payload 0x10 2 = s.xp.time.master → k = s.xp.time.srcPlane → bitOf s.xp.suspect k = false → (timeOffset s k p).natAbs ≤ 20 →
      ∃ t, exec (.time k p) s = .next t ∧ t.xp.time.state = .locked ∧ t.xp.time.offset = timeOffset s k p ∧ t.xp.time.lastRx = s.clock ∧
        t.xp.time.srcPlane = k ∧ t.xp.time.master = s.xp.time.master ∧ t.xp.time.count = s.xp.time.count + 1 ∧ t.now = s.now ∧
        t.xp.flows = s.xp.flows ∧ t.xp.slc = s.xp.slc ∧ t.tmp = s.tmp ∧ t.mem = s.mem ∧ t.ctxs = s.ctxs) ∧
    (isMaster s = false → (s.xp.time.state = .acquire ∨ s.xp.time.state = .locked) → s.xp.time.lastRx + 10 * s.xp.time.period * 1000 ≤ s.clock →
      ∃ t, exec .holdover s = .next t ∧ t.xp = { s.xp with time := { s.xp.time with state := .holdover } } ∧
        bitOf (t.hrd R.EVT_STS (slotOf .TIME 0)) 5 = true ∧ t.now = s.now ∧ t.mem = s.mem ∧ t.ctxs = s.ctxs)

/-- A check whose tile passes ends the capture; one that fails or slips opens the settlement with the rerun unit chosen. A
rerun on an ACTIVE unit records whether it gave the same bits and whether it passes; on a unit that is not ACTIVE any more the
next unit is chosen. A settlement with its rerun done, or with no unit to rerun on, ends the capture with the outcome of R342
in LPE_LAST and counted, fails the attempt with ANVIL_FAULT exactly when the tile belongs to the running attempt and the Loupe
was not the one that was wrong, and changes no memory, no context and no field of TMP. No capture of another die changes. Rests
on 13_integrity_checking.md. -/
def Obligations.LoupeChecksAndSettles : Prop :=
  ∀ (s : State) (die : Nat) (c : Capture), s.power.on = true → die < 8 → captureOf s die = some c →
    (c.ended = true → c.settling = false → tilePasses c c.res = true →
      ∃ t, exec (.loupeCheckDone die false) s = .next t ∧ captureOf t die = none ∧
        t.rd R.LPE_SAMPLED_SAMPLED die = min (2 ^ 64 - 1) (s.rd R.LPE_SAMPLED_SAMPLED die + 1) ∧
        (∀ d, d ≠ die → captureOf t d = captureOf s d) ∧ t.mem = s.mem ∧ t.ctxs = s.ctxs ∧ t.tmp = s.tmp ∧ t.attempt = s.attempt) ∧
    (∀ slip, c.ended = true → c.settling = false → (tilePasses c c.res = false ∨ slip = true) →
      ∃ t, exec (.loupeCheckDone die slip) s = .next t ∧
        captureOf t die = some { c with settling := true, slip := slip, u2 := rerunUnit s die c.u1, rerun := none } ∧
        t.rd R.LPE_SAMPLED_SAMPLED die = min (2 ^ 64 - 1) (s.rd R.LPE_SAMPLED_SAMPLED die + 1) ∧
        (∀ d, d ≠ die → captureOf t d = captureOf s d) ∧ t.mem = s.mem ∧ t.ctxs = s.ctxs ∧ t.tmp = s.tmp ∧ t.attempt = s.attempt) ∧
    (∀ faults m, c.settling = true → c.rerun = none → c.u2 = some m → (anvilOf s die m).st = .active →
      ∃ t, exec (.loupeRerunDone die faults) s = .next t ∧
        captureOf t die = some { c with rerun := some (withFaults c.good faults == c.res, !c.slip && tilePasses c (withFaults c.good faults)) } ∧
        (∀ d, d ≠ die → captureOf t d = captureOf s d) ∧ t.regs = s.regs ∧ t.mem = s.mem ∧ t.ctxs = s.ctxs ∧ t.tmp = s.tmp ∧ t.attempt = s.attempt) ∧
    (∀ faults m, c.settling = true → c.rerun = none → c.u2 = some m → (anvilOf s die m).st ≠ .active →
      ∃ t, exec (.loupeRerunDone die faults) s = .next t ∧ captureOf t die = some { c with u2 := rerunUnit s die c.u1 } ∧
        (∀ d, d ≠ die → captureOf t d = captureOf s d) ∧ t.regs = s.regs ∧ t.mem = s.mem ∧ t.ctxs = s.ctxs ∧ t.tmp = s.tmp ∧ t.attempt = s.attempt) ∧
    (∀ agrees out, c.settling = true → (c.u2 = none ∨ c.rerun.isSome = true) → settleOutcome c.rerun agrees = out →
      ∃ t, exec (.loupeSettle die agrees) s = .next t ∧ captureOf t die = none ∧ t.rd R.LPE_LAST_OUTCOME die = out ∧
        t.rd R.LPE_LAST_U1 die = c.u1 % 64 ∧
        (out = 1 → t.rd R.LPE_OUTCOMES_ANVIL_WRONG die = min 65535 (s.rd R.LPE_OUTCOMES_ANVIL_WRONG die + 1)) ∧
        (out = 2 → t.rd R.LPE_OUTCOMES_LOUPE_WRONG die = min 65535 (s.rd R.LPE_OUTCOMES_LOUPE_WRONG die + 1)) ∧
        (out = 3 → t.rd R.LPE_OUTCOMES_UNRESOLVED die = min 65535 (s.rd R.LPE_OUTCOMES_UNRESOLVED die + 1)) ∧
        t.attempt = (if (out != 2 && captureLive s c) = true ∧ s.attempt.fault = none then { s.attempt with fault := some .anvilFault } else s.attempt) ∧
        (∀ d, d ≠ die → captureOf t d = captureOf s d) ∧ t.mem = s.mem ∧ t.ctxs = s.ctxs ∧ t.tmp = s.tmp)

/-- A tally without a result in time is UNKNOWN; TCH_ZERO_DONE leaves the table zero and nothing else changed. LDG_CLEAR
forgets the events and PERMANENT of its unit alone; a ledger write moves the oldest waiting entry to the log under the next
sequence number, or on a failure sets WRITE_FAIL and moves nothing; POH_SAVE saves the power-on time; HEALTH_DECAY lowers every
score by one second's decay; SCORE writes one entry for every unit with a point or more. BST_START begins the run at its lowest
target, is over at once without one, and is refused with a context or in a slice; a run that is over leaves every target in
exactly one of PASS and FAIL. FORCE_DOWN sets the DOWN bits of its mask, CLEAR_DOWN clears them, and neither touches another
destination's. Rests on 13_integrity_checking.md, 12_tongs_and_offload.md. -/
def Obligations.LedgerHealthAndSelfTests : Prop :=
  ∀ s : State, s.power.on = true →
    (∀ step att deadline, s.weld.tally = some (step, att, deadline) → deadline ≤ s.clock →
      writtenThisHour s + s.ledger.waiting.length < 1024 →
      ∃ t, exec .tallyTimeout s = .next t ∧ t.weld.tally = none ∧ t.rd R.TCH_STS_ODD_OUTCOME 0 = 3 ∧ t.rd R.TCH_STS_ODD_SELF 0 = 0 ∧
        t.ledger.waiting = s.ledger.waiting ++ [⟨0, moduleId, 0x0C, 0, s.now, s.tmp.step, pohNow s, 1, 0, [step, att, 3, 0]⟩] ∧
        t.mem = s.mem ∧ t.ctxs = s.ctxs ∧ t.tmp = s.tmp ∧ t.health = s.health) ∧
    (s.tchZeroing = true →
      ∃ t, exec .tchZeroDone s = .next t ∧ t.tchZeroing = false ∧
        (∀ x, s.rd R.TCH_TABLE_BASE 0 ≤ x → x < s.rd R.TCH_TABLE_BASE 0 + 32 * touchBlocks s → t.mem.byte x = 0) ∧
        (∀ x, (x < s.rd R.TCH_TABLE_BASE 0 ∨ s.rd R.TCH_TABLE_BASE 0 + 32 * touchBlocks s ≤ x) → t.mem.byte x = s.mem.byte x) ∧
        t.regs = s.regs ∧ t.ctxs = s.ctxs ∧ t.tmp = s.tmp) ∧
    (∀ unit, unit < 65536 →
      ∃ t, exec (.ldgClear unit) s = .next t ∧ t.ledger.permanent = s.ledger.permanent.filter (· != unit) ∧
        Tbl.get [] t.ledger.stamps unit = [] ∧ (∀ u, u ≠ unit → Tbl.get [] t.ledger.stamps u = Tbl.get [] s.ledger.stamps u) ∧
        (∀ d, d < 8 → unit = loupeId d → t.rd R.LPE_STS_RETIRED d = 0) ∧ t.ledger.log = s.ledger.log ∧
        t.mem = s.mem ∧ t.ctxs = s.ctxs ∧ t.tmp = s.tmp ∧ t.health = s.health) ∧
    (∀ e rest, s.ledger.waiting = e :: rest → writtenThisHour s < 1024 → s.ledger.log.length < logCapacity →
      exec (.ledgerWrite true) s = .next { s with ledger := { s.ledger with waiting := rest, seq := (s.ledger.seq + 1) % 2 ^ 32, log := { e with seq := (s.ledger.seq + 1) % 2 ^ 32 } :: s.ledger.log, written := writtenThisHour s + 1, hour := pohNow s / 3600 } }) ∧
    (∀ e rest, s.ledger.waiting = e :: rest → writtenThisHour s < 1024 → logCapacity ≤ s.ledger.log.length →
      ∃ t, exec (.ledgerWrite true) s = .next t ∧ t.ledger.waiting = rest ∧ t.ledger.seq = (s.ledger.seq + 1) % 2 ^ 32 ∧
        t.ledger.log = { e with seq := (s.ledger.seq + 1) % 2 ^ 32 } :: s.ledger.log.take 1043456 ∧
        t.regs = s.regs ∧ t.mem = s.mem ∧ t.ctxs = s.ctxs ∧ t.tmp = s.tmp ∧ t.health = s.health) ∧
    (∀ e rest, s.ledger.waiting = e :: rest → writtenThisHour s < 1024 →
      ∃ t, exec (.ledgerWrite false) s = .next t ∧ t.rd R.LDG_STS_WRITE_FAIL 0 = 1 ∧ bitOf (t.hrd R.EVT_STS 0x0C) 5 = true ∧
        t.ledger = s.ledger ∧ t.mem = s.mem ∧ t.ctxs = s.ctxs ∧ t.tmp = s.tmp ∧ t.health = s.health) ∧
    exec .pohSave s = .next { s with ledger := { s.ledger with pohSaved := pohNow s } } ∧
    (∃ t, exec .healthDecay s = .next t ∧
      t.health.score = s.health.score.map (fun e => (e.1, decayed (s.rd R.HLT_CFG_HALF_LIFE_H 0) 1 e.2)) ∧
      t.mem = s.mem ∧ t.ctxs = s.ctxs ∧ t.tmp = s.tmp) ∧
    (writtenThisHour s + s.ledger.waiting.length + s.health.score.length ≤ 1024 →
      exec .score s = .next { s with ledger := { s.ledger with waiting := s.ledger.waiting ++ (s.health.score.filter (fun e => decide (64 ≤ e.2))).map (fun e => ⟨0, e.1, 0x0D, 0, s.now, s.tmp.step, pohNow s, 1, 0, [e.2]⟩) } }) ∧
    (∀ n rest, bstRunning s = false → liveCtxs s = [] → s.xp.slc.cur.slice = 0 → bstTargets s = n :: rest →
      ∃ t, exec .bstStart s = .next t ∧ t.rd R.BST_STS_CURRENT 0 = n ∧ t.rd R.BST_STS_DONE 0 = 0 ∧ t.rd R.BST_STS_REFUSED 0 = 0 ∧
        t.mem = s.mem ∧ t.ctxs = s.ctxs ∧ t.tmp = s.tmp) ∧
    (bstRunning s = false → liveCtxs s = [] → s.xp.slc.cur.slice = 0 → bstTargets s = [] →
      ∃ t, exec .bstStart s = .next t ∧ bstRunning t = false ∧ t.rd R.BST_STS_DONE 0 = 1 ∧ t.mem = s.mem ∧ t.ctxs = s.ctxs ∧ t.tmp = s.tmp) ∧
    (bstRunning s = false → (liveCtxs s ≠ [] ∨ s.xp.slc.cur.slice ≠ 0) →
      ∃ t, exec .bstStart s = .next t ∧ bstRunning t = false ∧ t.rd R.BST_STS_REFUSED 0 = 1 ∧ bitOf (t.hrd R.EVT_STS 0x14) 6 = true ∧
        t.mem = s.mem ∧ t.ctxs = s.ctxs ∧ t.tmp = s.tmp) ∧
    (∀ fails, bstRunning s = true →
      ∃ t, exec (.bstDone fails) s = .next t ∧ bstRunning t = false ∧ t.rd R.BST_STS_DONE 0 = 1 ∧
        bitOf (t.hrd R.EVT_STS 0x14) 5 = true ∧
        (∀ n, n < 19 → bitOf (t.rd R.BST_FAIL_FAIL 0) n = (bitOf (t.rd R.BST_TARGETS_TARGETS 0) n && bitOf fails n) ∧
          bitOf (t.rd R.BST_PASS_PASS 0) n = (bitOf (t.rd R.BST_TARGETS_TARGETS 0) n && !bitOf fails n))) ∧
    (∀ mask, ∃ t, exec (.forceDown mask) s = .next t ∧
        (∀ d, d < 8 → bitOf (t.rd R.TNG_DEST_STS_DOWN 0) d = (bitOf (s.rd R.TNG_DEST_STS_DOWN 0) d || bitOf mask d)) ∧
        t.ctxs = s.ctxs ∧ t.tmp.step = s.tmp.step ∧ (s.tmp.phase = .idle → t.tmp = s.tmp)) ∧
    (∀ mask, ∃ t, exec (.clearDown mask) s = .next t ∧
        (∀ d, d < 8 → bitOf (t.rd R.TNG_DEST_STS_DOWN 0) d = (bitOf (s.rd R.TNG_DEST_STS_DOWN 0) d && !bitOf mask d)) ∧
        t.mem = s.mem ∧ t.ctxs = s.ctxs ∧ t.tmp = s.tmp)

/-- While FLT is BUSY each reset request changes nothing but raising WR_BUSY, and with a DOMAIN or TARGET outside Table 14.5
nothing but GO_REFUSED. A CHIP reset leaves no context, flight, slot or engine work, TMP at its reset values, the host link not
up, the SMC not released and P and L at 64; power and the sequence number of the record's reset stay. A DIE reset empties the
engines of its die, clears READY and notes the time; a PORT reset does so for the flows of its port. RESET_DONE ends BUSY once
the domain is ready. PERST ends a requested reset, WDOG stops the mailbox and is raised, and FREC_ACK clears FREC_PENDING
alone. Rests on 14_faults_resets_spares.md, 17_host_and_security.md. -/
def Obligations.ResetsWatchdogAndRecord : Prop :=
  ∀ s : State, s.power.on = true →
    (∀ c ∈ [Instr.chipResetRequest, .dieResetRequest, .portResetRequest], busyOf s .FLT 0 = true → exec c s = .next (raise s .FLT 0 0)) ∧
    (∀ c ∈ [Instr.chipResetRequest, .dieResetRequest, .portResetRequest], busyOf s .FLT 0 = false →
      (s.rd R.FLT_RST_DOMAIN 0 = 0 ∨ 3 < s.rd R.FLT_RST_DOMAIN 0 ∨ (s.rd R.FLT_RST_DOMAIN 0 = 3 ∧ 1 < s.rd R.FLT_RST_TARGET 0)) →
      exec c s = .next (raise s .FLT 0 17)) ∧
    (∀ p b, (raise s p 0 b).mem = s.mem ∧ (raise s p 0 b).ctxs = s.ctxs ∧ (raise s p 0 b).tmp = s.tmp ∧ (raise s p 0 b).seq = s.seq) ∧
    (busyOf s .FLT 0 = false → s.rd R.FLT_RST_DOMAIN 0 = 1 →
      ∃ t, exec .chipResetRequest s = .next t ∧ t.ctxs = [] ∧ t.tmp = Tmp.reset ∧ t.attempt = Attempt.fresh ∧ t.flights = [] ∧ t.slots = [] ∧
        t.eng = State.reset.eng ∧ t.host = HostLink.reset ∧ t.weld = Weld.reset ∧ t.syn = State.reset.syn ∧ t.guest = Guest.reset ∧
        t.smc.released = false ∧ t.power = s.power ∧ t.seq = ⟨some (1, 0)⟩ ∧ t.now = s.now ∧ t.pending = s.pending ∧
        t.rd R.PWR_STS_P 0 = 64 ∧ t.rd R.PWR_STS_L 0 = 64 ∧ OutMsg.pin "CK_PERST_N" false ∈ t.out) ∧
    (∀ n, n < 8 → busyOf s .FLT 0 = false → s.rd R.FLT_RST_DOMAIN 0 = 2 → s.rd R.FLT_RST_TARGET 0 = n →
      ∃ t, exec .dieResetRequest s = .next t ∧ (∀ e ∈ t.eng.swages, e.1 / 8 ≠ n) ∧ (∀ e ∈ t.eng.mmas, e.2.die ≠ n) ∧
        (∀ e ∈ t.eng.vecs, e.2.die ≠ n) ∧ t.rd R.DIE_STS_READY n = 0 ∧ t.rd R.DIE_LAST_RESET_TIME n = s.now % 2 ^ 64 ∧
        t.seq = ⟨some (2, n)⟩ ∧ t.power = s.power ∧ t.now = s.now ∧ t.pending = s.pending) ∧
    (∀ d, d < 2 → busyOf s .FLT 0 = false → s.rd R.FLT_RST_DOMAIN 0 = 3 → s.rd R.FLT_RST_TARGET 0 = d →
      ∃ t, exec .portResetRequest s = .next t ∧ (∀ e ∈ t.xp.flows, e.1 / 2048 ≠ d) ∧ (∀ r ∈ t.weld.held, r.die ≠ d) ∧
        t.rd R.PDC_STS_READY d = 0 ∧ t.rd R.PDC_LAST_RESET_TIME d = s.now % 2 ^ 64 ∧
        t.seq = ⟨some (3, d)⟩ ∧ t.power = s.power ∧ t.now = s.now ∧ t.pending = s.pending) ∧
    (∀ r, s.seq.requested = some r → domainReady (refreshReady s) r = true →
      ∃ t, exec .resetDone s = .next t ∧ t.seq = ⟨none⟩ ∧ t.rd R.FLT_STS_RESETTING 0 = 0 ∧ bitOf (t.hrd R.EVT_STS (slotOf .FLT 0)) 11 = true ∧
        t.mem = s.mem ∧ t.ctxs = s.ctxs ∧ t.tmp = s.tmp) ∧
    (∀ r, s.seq.requested = some r → domainReady (refreshReady s) r = false → exec .resetDone s = .next (refreshReady s)) ∧
    exec .frecAck s = .next (s.wr R.FLT_STS_FREC_PENDING 0 0) ∧
    (∃ t, exec .wdog s = .next t ∧ t.rd R.SEC_BOOT_STATE 0 = 3 ∧ t.rd R.SMC_MB_STS_STATE 0 = 3 ∧ bitOf (t.hrd R.EVT_STS (slotOf .FLT 0)) 16 = true ∧
      t.rd R.FLT_RESET_CNT_WDOG 0 = min (2 ^ R.FLT_RESET_CNT_WDOG.width - 1) (s.rd R.FLT_RESET_CNT_WDOG 0 + 1) ∧ t.rd R.FLT_STS_LAST_CAUSE 0 = 3 ∧
      t.mem = s.mem ∧ t.ctxs = s.ctxs ∧ t.tmp = s.tmp ∧ t.eng = s.eng) ∧
    (s.rd R.FLT_TKO_STS_STATE 0 ≠ 1 →
      ∃ t, exec .perst s = .next t ∧ t.ctxs = [] ∧ t.tmp = Tmp.reset ∧ t.flights = [] ∧ t.host = HostLink.reset ∧ t.seq = ⟨none⟩ ∧ t.smc.released = false ∧
        t.power = s.power ∧ t.ledger.waiting = [] ∧ OutMsg.pin "CK_PERST_N" false ∈ t.out ∧
        (∀ a, (a < hearthBase 0 ∨ hearthBase 0 + 8 * hearthSize ≤ a) → t.mem.byte a = s.mem.byte a))

/-- A pre-cut result whose CUT_STEP differs over the slice ends the cut as failed; one that agrees, with a usable drive and
space for the image, chooses the slot of R401 and issues the first command of the cut's plan. A post-cut result with OK and one
step begins the confirm record, any other ends the cut as failed, and so does a result that does not come in time. A completed
command counts its bytes and issues the next; the last command of a confirm record sets CONFIRMED_STEP and ends the cut as
done; a command that fails or does not complete in 2 s stops the plan with DRIVE. A memory request of the drive gets the bytes
of the command in progress and no others. DRIVE_INIT begins the initialisation in IDLE and is ignored otherwise. No memory, no
context and no field of TMP changes. Rests on 15_ingot_checkpoints.md, 11_weld_collectives.md. -/
def Obligations.CutsRunTheirRecordsAndTheDrive : Prop :=
  ∀ s : State, s.power.on = true →
    (∀ k p c, Arrives s k .WELD p → weldKind p.payload = 6 → wTag p = none → wTree p = 2 → (wData p).length = 64 → s.ckp.cut = some c → c.stage = .pre →
      fieldAt (wData p) 0 8 ≠ fieldAt (wData p) 8 8 →
      ∃ t, exec (.preCutResult k p) s = .next t ∧ CutEnds s t c false) ∧
    (∀ k p c, Arrives s k .WELD p → weldKind p.payload = 6 → wTag p = none → wTree p = 2 → (wData p).length = 64 → s.ckp.cut = some c → c.stage = .pre →
      fieldAt (wData p) 0 8 = fieldAt (wData p) 8 8 → s.rd R.CKP_STS_DRIVE_READY 0 = 1 → imageSize s ≤ s.rd R.CKP_SLOT_SIZE 0 →
      ∃ t op rest, exec (.preCutResult k p) s = .next t ∧ t.ckp.cut = some { c with slot := (chooseSlot s (fieldAt (wData p) 0x10 8)).1, stage := .drive } ∧
        t.ckp.plan = op :: rest ∧ op.isCommand = true ∧ op.message ∈ t.out ∧ t.ckp.issued = s.clock ∧
        ((chooseSlot s (fieldAt (wData p) 0x10 8)).2 = true → op :: rest = confirmPlan s (fieldAt (wData p) 0x10 8) ++ writePlan s { c with slot := (chooseSlot s (fieldAt (wData p) 0x10 8)).1, stage := .drive }) ∧
        ((chooseSlot s (fieldAt (wData p) 0x10 8)).2 = false → op :: rest = writePlan s { c with slot := (chooseSlot s (fieldAt (wData p) 0x10 8)).1, stage := .drive }) ∧
        t.mem = s.mem ∧ t.ctxs = s.ctxs ∧ t.tmp = s.tmp) ∧
    (∀ k p c, Arrives s k .WELD p → weldKind p.payload = 6 → wTag p = none → wTree p = 3 → (wData p).length = 64 → s.ckp.cut = some c → c.stage = .post →
      fieldAt (wData p) 0x10 8 = 1 → fieldAt (wData p) 0 8 = fieldAt (wData p) 8 8 →
      ∃ t, exec (.postCutResult k p) s = .next t ∧ t.ckp.cut = some { c with stage := .confirm } ∧
        t.ckp.plan = confirmPlan s c.step ++ [.cutDone] ∧ t.ckp.issued = s.clock ∧ t.mem = s.mem ∧ t.ctxs = s.ctxs ∧ t.tmp = s.tmp) ∧
    (∀ k p c, Arrives s k .WELD p → weldKind p.payload = 6 → wTag p = none → wTree p = 3 → (wData p).length = 64 → s.ckp.cut = some c → c.stage = .post →
      (fieldAt (wData p) 0x10 8 ≠ 1 ∨ fieldAt (wData p) 0 8 ≠ fieldAt (wData p) 8 8) →
      ∃ t, exec (.postCutResult k p) s = .next t ∧ CutEnds s t c false) ∧
    (∀ c, s.ckp.cut = some c → (c.stage = .pre ∨ c.stage = .post) → c.deadline ≤ s.clock →
      ∃ t, exec .cutTimeout s = .next t ∧ CutEnds s t c false ∧ t.rd R.CKP_STS_LAST_CODE 0 = 7) ∧
    (∀ off bs op rest data, s.ckp.plan = .write off bs :: op :: rest → op.isCommand = true →
      ∃ t, exec (.nvmeCompletion 0 data) s = .next t ∧ t.ckp.plan = op :: rest ∧ t.ckp.issued = s.clock ∧ op.message ∈ t.out ∧
        t.rd R.CKP_WR_BYTES_BYTES 0 = min (2 ^ 64 - 1) (s.rd R.CKP_WR_BYTES_BYTES 0 + bs.length) ∧
        t.mem = s.mem ∧ t.ctxs = s.ctxs ∧ t.tmp = s.tmp ∧ t.ckp.cut = s.ckp.cut) ∧
    (∀ c step seq copy data, s.ckp.plan = [.flush, .confirmed step seq copy, .cutDone] → s.ckp.cut = some c → step < 2 ^ 64 →
      ∃ t, exec (.nvmeCompletion 0 data) s = .next t ∧ CutEnds s t c true ∧ t.rd R.CKP_CONFIRMED_STEP 0 = step ∧ t.ckp.confirm = some (copy, seq) ∧ t.ckp.plan = []) ∧
    (∀ op rest status data, s.ckp.plan = op :: rest → status ≠ 0 → s.ckp.cut = none →
      ∃ t, exec (.nvmeCompletion status data) s = .next t ∧ t.ckp.plan = [] ∧ t.rd R.CKP_STS_LAST_CODE 0 = 6 ∧ bitOf (t.hrd R.EVT_STS 6) 10 = true ∧
        t.mem = s.mem ∧ t.ctxs = s.ctxs ∧ t.tmp = s.tmp) ∧
    (s.ckp.plan ≠ [] → s.ckp.issued + 2000000000 ≤ s.clock → s.ckp.cut = none →
      ∃ t, exec .nvmeTimeout s = .next t ∧ t.ckp.plan = [] ∧ t.rd R.CKP_STS_LAST_CODE 0 = 6 ∧ bitOf (t.hrd R.EVT_STS 6) 10 = true ∧
        t.mem = s.mem ∧ t.ctxs = s.ctxs ∧ t.tmp = s.tmp) ∧
    (∀ a n w bs, driveBytes s a n w = some bs → exec (.driveMemoryRequest a n w) s = .next (s.emit (.driveData true bs))) ∧
    (∀ a n w, driveBytes s a n w = none →
      ∃ t, exec (.driveMemoryRequest a n w) s = .next t ∧ OutMsg.driveData false [] ∈ t.out ∧ t.rd R.CKP_STS_LAST_CODE 0 = 6 ∧ t.ckp = s.ckp ∧
        t.mem = s.mem ∧ t.ctxs = s.ctxs ∧ t.tmp = s.tmp) ∧
    (s.rd R.CKP_STS_STATE 0 = 0 →
      ∃ t, exec .driveInit s = .next t ∧ t.rd R.CKP_STS_DRIVE_READY 0 = 0 ∧ t.rd R.CKP_CONFIRMED_STEP 0 = 0 ∧ t.ckp.confirm = none ∧
        t.ckp.plan.head? = some (.identify 1) ∧ t.ckp.issued = s.clock ∧ (DriveOp.identify 1).message ∈ t.out ∧ t.mem = s.mem ∧ t.ctxs = s.ctxs ∧ t.tmp = s.tmp) ∧
    (s.rd R.CKP_STS_STATE 0 ≠ 0 → exec .driveInit s = .next s)

/-- RESTORE in IDLE with no context and a step in IDLE or STOPPED, and a sealed image that fits, sets STATE = RESTORING and
nothing else; without a sealed image it is refused with code 1, for an image that may not be loaded with that image's code,
where it may not run with code 8, and a refusal changes no step state. RESTORE_DONE puts the mutable state and the stripe into
bank A and nowhere else but in Touchmark's table, and in one act names the image's STEP as the last tempered, begins the one
after it, and makes bank A active; a restore whose data cannot be read leaves the step state. FILL begins in IDLE; FILL_DONE
puts the mirror into bank A and sets FILLED, or reports code 9 and changes no byte. Both commands are ignored in another STATE,
and no context changes. Rests on 15_ingot_checkpoints.md, 13_integrity_checking.md. -/
def Obligations.RestoreAndFill : Prop :=
  ∀ s : State, s.power.on = true →
    (∀ a b h unit img, s.rd R.CKP_STS_STATE 0 = 0 → liveCtxs s = [] → (s.tmp.phase = .idle ∨ s.tmp.phase = .stopped) →
      (s.on R.CKP_RESTORE_SOURCE 0 = true ∨ s.on R.CKP_STS_DRIVE_READY 0 = true) → selectImage s a b h = some (unit, img) → imageCode s img = 0 →
      ∃ t, exec (.restore a b h) s = .next t ∧ t.rd R.CKP_STS_STATE 0 = 3 ∧ t.ckp.restoring = some { source := unit, step := fieldAt img 8 8 } ∧
        t.mem = s.mem ∧ t.ctxs = s.ctxs ∧ t.tmp = s.tmp) ∧
    (∀ a b h, s.rd R.CKP_STS_STATE 0 = 0 → liveCtxs s = [] → (s.tmp.phase = .idle ∨ s.tmp.phase = .stopped) →
      (s.on R.CKP_RESTORE_SOURCE 0 = true ∨ s.on R.CKP_STS_DRIVE_READY 0 = true) → selectImage s a b h = none →
      ∃ t, exec (.restore a b h) s = .next t ∧ RestoreRefused s t 1) ∧
    (∀ a b h unit img, s.rd R.CKP_STS_STATE 0 = 0 → liveCtxs s = [] → (s.tmp.phase = .idle ∨ s.tmp.phase = .stopped) →
      (s.on R.CKP_RESTORE_SOURCE 0 = true ∨ s.on R.CKP_STS_DRIVE_READY 0 = true) → selectImage s a b h = some (unit, img) → imageCode s img ≠ 0 →
      ∃ t, exec (.restore a b h) s = .next t ∧ RestoreRefused s t (imageCode s img)) ∧
    (∀ a b h, s.rd R.CKP_STS_STATE 0 = 0 →
      (liveCtxs s ≠ [] ∨ (s.tmp.phase ≠ .idle ∧ s.tmp.phase ≠ .stopped) ∨ (s.on R.CKP_RESTORE_SOURCE 0 = false ∧ s.on R.CKP_STS_DRIVE_READY 0 = false)) →
      ∃ t, exec (.restore a b h) s = .next t ∧ RestoreRefused s t 8) ∧
    (∀ a b h, s.rd R.CKP_STS_STATE 0 ≠ 0 → exec (.restore a b h) s = .next s) ∧
    (∀ r m w, s.ckp.restoring = some r → m.length = s.map.msSize → w.length = (ownWcPart s).2 →
      ∃ t, exec (.restoreDone (some m) (some w)) s = .next t ∧ t.ckp.restoring = none ∧
        t.tmp.activeBank = false ∧ t.tmp.tempered = r.step ∧ t.tmp.step = r.step + 1 ∧ t.tmp.att = 0 ∧ t.tmp.replayCount = 0 ∧ t.tmp.phase = .idle ∧
        t.rd R.CKP_STS_STATE 0 = 0 ∧ t.rd R.CKP_STS_RESTORED 0 = 1 ∧ t.rd R.CKP_STS_FILLED 0 = 0 ∧ bitOf (t.hrd R.EVT_STS 6) 6 = true ∧ t.ctxs = s.ctxs ∧
        (∀ x, (x < s.rd R.TCH_TABLE_BASE 0 ∨ s.rd R.TCH_TABLE_BASE 0 + 32 * ((s.rd R.TCH_LEN_LEN 0 + 65535) / 65536) ≤ x) →
          (∀ i (hi : i < w.length), x = s.map.wcA + (ownWcPart s).1 + i → t.mem.byte x = w[i]) ∧
          ((x < s.map.wcA + (ownWcPart s).1 ∨ s.map.wcA + (ownWcPart s).1 + w.length ≤ x) →
            (∀ i (hi : i < m.length), x = s.map.msA + i → t.mem.byte x = m[i]) ∧
            ((x < s.map.msA ∨ s.map.msA + m.length ≤ x) → t.mem.byte x = s.mem.byte x)))) ∧
    (∀ r ms wc, s.ckp.restoring = some r → (ms = none ∨ wc = none) →
      ∃ t, exec (.restoreDone ms wc) s = .next t ∧ t.ckp.restoring = none ∧ t.rd R.CKP_STS_STATE 0 = 0 ∧ bitOf (t.hrd R.EVT_STS 6) 7 = true ∧
        t.tmp = s.tmp ∧ t.ctxs = s.ctxs ∧
        (∀ x, (x < s.map.wcA ∨ s.map.wcA + s.map.wcSize ≤ x) → (x < s.map.msA ∨ s.map.msA + s.map.msSize ≤ x) → t.mem.byte x = s.mem.byte x)) ∧
    (s.rd R.CKP_STS_STATE 0 = 0 →
      ∃ t, exec .fill s = .next t ∧ t.rd R.CKP_STS_STATE 0 = 4 ∧ t.mem = s.mem ∧ t.ctxs = s.ctxs ∧ t.tmp = s.tmp) ∧
    (s.rd R.CKP_STS_STATE 0 ≠ 0 → exec .fill s = .next s) ∧
    (∀ m stripes, s.rd R.CKP_STS_STATE 0 = 4 → s.rd R.CKP_CFG_WC_MODE 0 ≠ 1 → m.length = s.map.mrSize →
      ∃ t, exec (.fillDone (some m) stripes) s = .next t ∧ t.rd R.CKP_STS_STATE 0 = 0 ∧ t.rd R.CKP_STS_FILLED 0 = 1 ∧ bitOf (t.hrd R.EVT_STS 6) 8 = true ∧
        (∀ x, (x < s.rd R.TCH_TABLE_BASE 0 ∨ s.rd R.TCH_TABLE_BASE 0 + 32 * ((s.rd R.TCH_LEN_LEN 0 + 65535) / 65536) ≤ x) →
          (∀ i (hi : i < m.length), x = s.map.mrA + i → t.mem.byte x = m[i]) ∧
          ((x < s.map.mrA ∨ s.map.mrA + m.length ≤ x) → t.mem.byte x = s.mem.byte x)) ∧
        t.ckp.loads = [] ∧ t.ctxs = s.ctxs ∧ t.tmp = s.tmp) ∧
    (∀ stripes, s.rd R.CKP_STS_STATE 0 = 4 →
      ∃ t, exec (.fillDone none stripes) s = .next t ∧ t.rd R.CKP_STS_STATE 0 = 0 ∧ t.rd R.CKP_STS_LAST_CODE 0 = 9 ∧ bitOf (t.hrd R.EVT_STS 6) 9 = true ∧
        t.ckp.loads = [] ∧ t.mem = s.mem ∧ t.ctxs = s.ctxs ∧ t.tmp = s.tmp) ∧
    (∀ mr stripes, s.rd R.CKP_STS_STATE 0 ≠ 4 → exec (.fillDone mr stripes) s = .next s)

/-- A fast power evaluation above the limit lowers P in proportion and never below 1, at or below it leaves P; a slow one
raises P by one with the margin of R418 and no fall since the last. RAMP_EVAL moves Q as R419 says. After each of them the cap
of every die concerned that is out of reset is the smallest of CAP_MAX, P, T, L and Q, and at least 1. HEAT completes on issue
and leaves TARGET and t_h with each die that DIES names and no other die, the window opens at t_h and ends 200 us later;
HINT_PREPARE changes nothing that a register shows. A sleeping die loses its AWAKE bit, a waking one gains it and starts at Q =
0, and no other die's bit moves. Rests on 16_power_thermal_clocks.md, 08_contexts_commands_sync.md. -/
def Obligations.PowerLoopRampAndHints : Prop :=
  ∀ s : State, s.power.on = true →
    (∀ pkg input, s.rd R.PWR_STS_P 0 ≤ 64 →
      ∃ t, exec (.powerEval false pkg input) s = .next t ∧
        (pkgLimit s < pkg → t.rd R.PWR_STS_P 0 = max 1 (s.rd R.PWR_STS_P 0 * pkgLimit s / pkg)) ∧
        (pkg ≤ pkgLimit s → t.rd R.PWR_STS_P 0 = s.rd R.PWR_STS_P 0) ∧ CapsFollow s t ∧ t.mem = s.mem ∧ t.ctxs = s.ctxs ∧ t.tmp = s.tmp) ∧
    (∀ pkg input, s.rd R.PWR_STS_P 0 ≤ 64 →
      ∃ t, exec (.powerEval true pkg input) s = .next t ∧
        (pkg + max 10 (s.rd R.PWR_CFG_HYST_W 0) < pkgLimit s → s.power.fell = false → t.rd R.PWR_STS_P 0 = min 64 (s.rd R.PWR_STS_P 0 + 1)) ∧
        ((pkgLimit s ≤ pkg + max 10 (s.rd R.PWR_CFG_HYST_W 0) ∨ s.power.fell = true) → t.rd R.PWR_STS_P 0 = s.rd R.PWR_STS_P 0) ∧
        t.rd R.PWR_PKG_PKG_W 0 = min 65535 pkg ∧ t.rd R.PWR_PKG_IN_W 0 = min 65535 input ∧ t.power.fell = false ∧ CapsFollow s t ∧
        t.mem = s.mem ∧ t.ctxs = s.ctxs ∧ t.tmp = s.tmp) ∧
    (∀ n held level, n < 8 → s.on R.DIE_STS_IN_RESET n = false → s.rd R.BLW_STS_Q n ≤ 64 → s.rd R.BLW_HINT_TARGET n ≤ 64 →
      ∃ t, exec (.rampEval n held level) s = .next t ∧ t.rd R.BLW_STS_LEVEL n = min 64 level ∧
        (held = false → t.rd R.BLW_STS_Q n = min 64 level) ∧
        (held = true → (s.on R.BLW_HINT_WINDOW n = false ∨ s.rd R.BLW_HINT_TARGET n ≤ s.rd R.BLW_STS_Q n) → t.rd R.BLW_STS_Q n = min 64 (s.rd R.BLW_STS_Q n + 1)) ∧
        (held = true → s.on R.BLW_HINT_WINDOW n = true → s.rd R.BLW_STS_Q n < s.rd R.BLW_HINT_TARGET n →
          t.rd R.BLW_STS_Q n = min (s.rd R.BLW_HINT_TARGET n) (s.rd R.BLW_STS_Q n + 8)) ∧
        t.rd R.BLW_STS_CAP n = max 1 ((capTerms t n).foldl min 64) ∧ t.mem = s.mem ∧ t.ctxs = s.ctxs ∧ t.tmp = s.tmp) ∧
    (∀ n held level, n < 8 → s.on R.DIE_STS_IN_RESET n = true → exec (.rampEval n held level) s = .next s) ∧
    (∀ c r, c < 64 → curRec s c 0x53 = some r → (ctxOf s c).preempting = false → r.sigDone = false →
      ∃ t, exec (.heat c) s = .next t ∧ (ctxOf t c).cur = none ∧ othersStand s t c ∧ t.tmp = s.tmp ∧ t.mem = s.mem ∧ t.flights = s.flights ∧
        (∀ n, n < 8 → bitOf (r.op32 8) (8 + n) = true → s.on R.DIE_STS_IN_RESET n = false → 40 ≤ bits (r.op32 0xC) 0 16 →
          t.rd R.BLW_HINT_TARGET n = clampNat 1 64 (bits (r.op32 8) 0 7) ∧ t.rd R.BLW_HINT_TIME_T_H n = (s.now + bits (r.op32 0xC) 0 16 * 1000) % 2 ^ 64 ∧
          t.rd R.BLW_HINT_PENDING n = 1 ∧ t.rd R.BLW_HINT_WINDOW n = 0) ∧
        (∀ n, n < 8 → (bitOf (r.op32 8) (8 + n) = false ∨ s.on R.DIE_STS_IN_RESET n = true ∨ bits (r.op32 0xC) 0 16 < 40) →
          t.rd R.BLW_HINT_TARGET n = s.rd R.BLW_HINT_TARGET n ∧ t.rd R.BLW_HINT_TIME_T_H n = s.rd R.BLW_HINT_TIME_T_H n ∧
          t.rd R.BLW_HINT_PENDING n = s.rd R.BLW_HINT_PENDING n ∧ t.rd R.BLW_HINT_WINDOW n = s.rd R.BLW_HINT_WINDOW n)) ∧
    (∀ n, n < 8 → exec (.hintPrepare n) s = .next s) ∧
    (∀ n, n < 8 → s.on R.BLW_HINT_PENDING n = true → s.rd R.BLW_HINT_TIME_T_H n ≤ s.now →
      ∃ t, exec (.hintWindow n) s = .next t ∧ t.rd R.BLW_HINT_PENDING n = 0 ∧ t.rd R.BLW_HINT_WINDOW n = 1 ∧ t.mem = s.mem ∧ t.ctxs = s.ctxs ∧ t.tmp = s.tmp) ∧
    (∀ n, n < 8 → s.on R.BLW_HINT_PENDING n = false → s.on R.BLW_HINT_WINDOW n = true → s.rd R.BLW_HINT_TIME_T_H n + 200000 ≤ s.now →
      ∃ t, exec (.hintWindow n) s = .next t ∧ t.rd R.BLW_HINT_WINDOW n = 0 ∧ t.mem = s.mem ∧ t.ctxs = s.ctxs ∧ t.tmp = s.tmp) ∧
    (∀ n, n < 8 → s.on R.CLK_CFG_SLEEP_EN 0 = true → dieIdle s n = true → bitOf (s.rd R.CLK_STS_AWAKE 0) n = true →
      ∃ t, exec (.dieSleep n) s = .next t ∧ (∀ m, m < 8 → bitOf (t.rd R.CLK_STS_AWAKE 0) m = (bitOf (s.rd R.CLK_STS_AWAKE 0) m && decide (m ≠ n))) ∧
        t.mem = s.mem ∧ t.ctxs = s.ctxs ∧ t.tmp = s.tmp) ∧
    (∀ n ns, n < 8 → bitOf (s.rd R.CLK_STS_AWAKE 0) n = false → s.on R.DIE_STS_IN_RESET n = false →
      ∃ t, exec (.dieWake n ns) s = .next t ∧ (∀ m, m < 8 → bitOf (t.rd R.CLK_STS_AWAKE 0) m = (bitOf (s.rd R.CLK_STS_AWAKE 0) m || decide (m = n))) ∧
        t.rd R.BLW_STS_Q n = 0 ∧ t.rd R.BLW_STS_CAP n = 1 ∧ t.rd R.CLK_WAKES_WAKES 0 = min (2 ^ 64 - 1) (s.rd R.CLK_WAKES_WAKES 0 + 1) ∧
        t.mem = s.mem ∧ t.ctxs = s.ctxs ∧ t.tmp = s.tmp)

/-- A reading that passes its self-check counts and TEMP of its die shows the highest reading of its working sensors, one that
fails takes the sensor out and leaves a compute die without a sensor at T = 1. The thermal terms fall by one in a fast
evaluation of a hot die and rise by one in a slow evaluation of a cool one, and the caps follow. A working sensor at 110
degrees or more trips: the module stops, the trip is latched and THERMTRIP_N falls; below that nothing changes. A loop that
loses lock clears its lock bit alone, and stops a bring-up under way. PWR_EN falling and the input removed stop the module, a
latched trip is cleared by a long removal only; POWER_ON begins a COLD reset that keeps the flash, the fuses and the saved
ledger, and is ignored while the module runs or a trip is latched. Rests on 16_power_thermal_clocks.md, 18_package_and_dies.md,
19_startup_sequence.md. -/
def Obligations.TemperatureClocksAndSupply : Prop :=
  ∀ s : State,
    (∀ id temp, s.power.on = true → id < 36 →
      ∃ t T, exec (.sensorRead id temp true) s = .next t ∧ dieTemp t (sensorPlace id).1 = some T ∧ temp ≤ T ∧ t.rd (tempField (sensorPlace id).1) 0 = min 255 T ∧
        Tbl.get 0 t.power.temps id = temp ∧ bitOf (t.rd (okField (sensorPlace id).1) 0) (sensorPlace id).2 = true ∧
        t.mem = s.mem ∧ t.ctxs = s.ctxs ∧ t.tmp = s.tmp) ∧
    (∀ id temp, s.power.on = true → id < 36 → bitOf (s.rd (okField (sensorPlace id).1) 0) (sensorPlace id).2 = true →
      ∃ t, exec (.sensorRead id temp false) s = .next t ∧ bitOf (t.rd (okField (sensorPlace id).1) 0) (sensorPlace id).2 = false ∧
        t.power.temps = s.power.temps ∧ (id < 32 → dieTemp t (id / 4) = none → t.rd (R.THM_DIE_T (id / 4)) 0 = 1) ∧
        t.mem = s.mem ∧ t.ctxs = s.ctxs ∧ t.tmp = s.tmp) ∧
    (∀ slow, s.power.on = true →
      ∃ t, exec (.thermalEval slow) s = .next t ∧
        (∀ n, n < 8 → s.rd (R.THM_DIE_T n) 0 ≤ 64 →
          (dieTemp s n = none → t.rd (R.THM_DIE_T n) 0 = 1) ∧
          (dieTemp s n ≠ none → slow = false → tooHot s n = true → t.rd (R.THM_DIE_T n) 0 = max 1 (s.rd (R.THM_DIE_T n) 0 - 1)) ∧
          (dieTemp s n ≠ none → slow = true → coolAgain s n = true → t.rd (R.THM_DIE_T n) 0 = min 64 (s.rd (R.THM_DIE_T n) 0 + 1)) ∧
          (dieTemp s n ≠ none → ((slow = false ∧ tooHot s n = false) ∨ (slow = true ∧ coolAgain s n = false)) → t.rd (R.THM_DIE_T n) 0 = s.rd (R.THM_DIE_T n) 0)) ∧
        CapsFollow s t ∧ t.mem = s.mem ∧ t.ctxs = s.ctxs ∧ t.tmp = s.tmp) ∧
    (∀ id temp, s.power.on = true → id < 36 → 110 ≤ temp → bitOf (s.rd (okField (sensorPlace id).1) 0) (sensorPlace id).2 = true →
      ∃ t, exec (.thermalTrip id temp) s = .next t ∧ t.power.on = false ∧ t.power.trip = some (id, temp, s.now) ∧ OutMsg.pin "THERMTRIP_N" false ∈ t.out ∧
        t.mem = s.mem.blankRange 0 (2 ^ 48) (some (s.free + 1)) ∧ t.regs = s.regs) ∧
    (∀ id temp, s.power.on = true → id < 36 → temp < 110 → exec (.thermalTrip id temp) s = .next s) ∧
    (∀ d, s.power.on = true → d < 10 →
      ∃ t, exec (.pllUnlock d) s = .next t ∧ t.smc.unlocked = s.smc.unlocked ||| 2 ^ d ∧ bitOf (t.hrd R.EVT_STS 9) 4 = true ∧
        (∀ k, k < 8 → bitOf (t.rd R.CLK_STS_CD_LOCK 0) k = (bitOf (s.rd R.CLK_STS_CD_LOCK 0) k && decide (k ≠ d))) ∧
        (∀ k, k < 2 → bitOf (t.rd R.CLK_STS_PD_LOCK 0) k = (bitOf (s.rd R.CLK_STS_PD_LOCK 0) k && decide (k + 8 ≠ d))) ∧
        (s.rd R.SMC_BRINGUP_STAGE 0 ≠ 0 → s.rd R.SMC_BRINGUP_STAGE 0 < 5 → t.rd R.SMC_BRINGUP_STAGE 0 = 6 ∧ t.rd R.SMC_BRINGUP_HALT_CAUSE 0 = 3) ∧
        ((s.rd R.SMC_BRINGUP_STAGE 0 = 0 ∨ 5 ≤ s.rd R.SMC_BRINGUP_STAGE 0) → t.rd R.SMC_BRINGUP_STAGE 0 = s.rd R.SMC_BRINGUP_STAGE 0) ∧
        t.mem = s.mem ∧ t.ctxs = s.ctxs ∧ t.tmp = s.tmp) ∧
    (s.power.on = true → s.power.trip = none →
      ∃ t, exec .pwrEnFall s = .next t ∧ t.power = { s.power with on := false } ∧ OutMsg.pin "PWR_GOOD" false ∈ t.out ∧
        t.mem = s.mem.blankRange 0 (2 ^ 48) (some (s.free + 1)) ∧ t.smc = s.smc ∧ t.ledger = s.ledger) ∧
    (s.power.trip ≠ none → exec .pwrEnFall s = .next s) ∧
    (∃ t, exec (.inputRemoved true) s = .next t ∧ t.power.on = false ∧ t.power.trip = none ∧ t.smc.i3c = none ∧
        (s.power.on = true → OutMsg.pin "PWR_GOOD" false ∈ t.out) ∧ (s.power.trip ≠ none → OutMsg.pin "THERMTRIP_N" true ∈ t.out) ∧ t.ledger = s.ledger) ∧
    (∃ t, exec (.inputRemoved false) s = .next t ∧ t.power.on = false ∧ t.power.trip = s.power.trip ∧ t.smc = s.smc ∧ t.ledger = s.ledger) ∧
    (s.power.on = false → s.power.trip = none →
      ∃ t, exec .powerOn s = .next t ∧ t.power = Power.reset ∧ t.regs = [] ∧ t.ctxs = [] ∧ t.tmp = Tmp.reset ∧ t.pending = s.pending ∧
        t.smc.slotA = s.smc.slotA ∧ t.smc.slotB = s.smc.slotB ∧ t.smc.fuseSvn = s.smc.fuseSvn ∧ t.smc.revoked = s.smc.revoked ∧
        t.ledger.log = s.ledger.log ∧ t.ledger.permanent = s.ledger.permanent ∧ t.ledger.poh = s.ledger.pohSaved ∧ t.ledger.waiting = [] ∧
        OutMsg.pin "PWR_GOOD" true ∈ t.out) ∧
    ((s.power.on = true ∨ s.power.trip ≠ none) → exec .powerOn s = .next s)
end

