-- ==== Sys2Proof/Laws/Kept.lean ====
section
/-! SUPPORT. What almost every command leaves alone: the queue, the clock, the address map, the progress of the steps, the fuses, the image slots, the
latched trip and whether the module has power, as one projection of the state, with its lemmas for record updates and for folds. -/

namespace Sys2Proof.Machine

open Sys2Proof

/-- How far the steps have come: ACTIVE_BANK, STEP, TEMPERED, FLIP_TIME, ATT, REPLAY_COUNT and LATE_FLIPS; PHASE, LAST_REASON and
the validity of the holds are left out. -/
def Tmp.progress (t : Tmp) : Tmp := { t with phase := .idle, lastReason := .none, holdValid := false, wardHoldValid := false }

@[simp] theorem progress_mk (p : Phase) (b h w : Bool) (c : Nat) (r : Reason) (l n t f a : Nat) :
    (Tmp.mk p b h w c r l n t f a).progress = Tmp.mk .idle b false false c .none l n t f a := rfl

@[simp] theorem progress_eta (t : Tmp) :
    Tmp.mk .idle t.activeBank false false t.replayCount .none t.lateFlips t.step t.tempered t.flipTime t.att = t.progress := rfl

/-- The parts of the state that only a few commands change. -/
structure Kept where
  pending : List Instr
  clock : Nat
  map : AddrMap
  bank : Bool
  prog : Tmp
  slotA : List Byte
  slotB : List Byte
  fuseSvn : Nat
  revoked : Nat
  trip : Option (Nat × Nat × Nat)
  on : Bool

/-- Those parts of a state. -/
def State.kept (s : State) : Kept :=
  ⟨s.pending, s.clock, s.map, s.tmp.activeBank, s.tmp.progress, s.smc.slotA, s.smc.slotB, s.smc.fuseSvn, s.smc.revoked, s.power.trip, s.power.on⟩

/-- The state that a check of a packet leaves. -/
def Checked.state : Checked → State
  | .drop t => t
  | .retired t => t
  | .pass t => t

@[simp] theorem kept_mk (pending : List Instr) (now : Nat) (clock : Nat) (free : Nat) (out : List OutMsg) (regs : Store) (shadow : Store) (staged : Store) (errlog : Tbl (List ErrEntry)) (snaps : Tbl Snapshot) (mem : Memory) (map : AddrMap) (tmp : Tmp) (attempt : Attempt) (ctxs : Tbl Ctx) (served : Tbl Nat) (flights : Tbl Flight) (nextFlight : Nat) (syn : Syn) (xp : Xport) (links : Tbl Link) (ledger : Ledger) (health : Health) (host : HostLink) (hbmStacks : Tbl Stack) (eng : Engines) (bist : Bist) (heals : List Heal) (hscrub : Tbl Nat) (gathers : Tbl (List Nat)) (weld : Weld) (slots : Tbl SeqSlot) (algSet : Bool) (tchZeroing : Bool) (ckp : Ckp) (power : Power) (seq : Sequencer) (smc : Smc) (guest : Guest) :
    (State.mk pending now clock free out regs shadow staged errlog snaps mem map tmp attempt ctxs served flights nextFlight syn xp links ledger health host hbmStacks eng bist heals hscrub gathers weld slots algSet tchZeroing ckp power seq smc guest).kept =
      ⟨pending, clock, map, tmp.activeBank, tmp.progress, smc.slotA, smc.slotB, smc.fuseSvn, smc.revoked, power.trip, power.on⟩ := rfl

@[simp] theorem kept_eta (s : State) :
    (⟨s.pending, s.clock, s.map, s.tmp.activeBank, s.tmp.progress, s.smc.slotA, s.smc.slotB, s.smc.fuseSvn, s.smc.revoked, s.power.trip, s.power.on⟩ : Kept)
      = s.kept := rfl

@[simp] theorem kept_ite (c : Prop) [Decidable c] (a b : State) : (if c then a else b).kept = if c then a.kept else b.kept := by
  split <;> rfl

@[simp] theorem foldl_kept {α : Type} (g : State → α → State) (h : ∀ s x, (g s x).kept = s.kept) (l : List α) :
    ∀ s : State, (l.foldl g s).kept = s.kept := by
  induction l with
  | nil => intro s; rfl
  | cons x t ih => intro s; simp only [List.foldl_cons]; rw [ih, h]

@[simp] theorem foldl_fst_kept {α β : Type} (g : State × β → α → State × β) (h : ∀ x a, (g x a).1.kept = x.1.kept) (l : List α) :
    ∀ x : State × β, (l.foldl g x).1.kept = x.1.kept := by
  induction l with
  | nil => intro x; rfl
  | cons a t ih => intro x; simp only [List.foldl_cons]; rw [ih, h]

end Sys2Proof.Machine
end

