-- ==== Sys2Proof/Laws/KeptUnits.lean ====
section
/-! SUPPORT. Frames of the operations up to the engines and memory: what `State.kept` collects is unchanged by each. -/

namespace Sys2Proof.Machine

open Sys2Proof

@[simp] theorem wr_kept (s : State) (f : Field) (i v : Nat) :
    (State.wr s f i v).kept = s.kept := by
  simp [State.wr]

@[simp] theorem inc_kept (s : State) (f : Field) (i n : Nat) :
    (State.inc s f i n).kept = s.kept := by
  simp [State.inc]

@[simp] theorem hwr_kept (s : State) (f : Field) (slot v : Nat) :
    (State.hwr s f slot v).kept = s.kept := by
  simp [State.hwr]

@[simp] theorem emit_kept (s : State) (m : OutMsg) :
    (State.emit s m).kept = s.kept := by
  simp [State.emit]

@[simp] theorem fresh_kept (s : State) :
    (State.fresh s).2.kept = s.kept := by
  simp [State.fresh]

@[simp] theorem msixSend_kept (s : State) (v : Nat) :
    (msixSend s v).kept = s.kept := by
  simp [msixSend]

@[simp] theorem msixRequest_kept (s : State) (v : Nat) :
    (msixRequest s v).kept = s.kept := by
  simp [msixRequest]

@[simp] theorem notice_kept (s : State) (slot b : Nat) :
    (notice s slot b).kept = s.kept := by
  simp [notice]

@[simp] theorem raiseSlot_kept (s : State) (slot b : Nat) :
    (raiseSlot s slot b).kept = s.kept := by
  simp [raiseSlot]

@[simp] theorem raise_kept (s : State) (p : Page) (i b : Nat) :
    (raise s p i b).kept = s.kept := by
  simp [raise]

@[simp] theorem raiseIf_kept (c : Bool) (s : State) (p : Page) (i b : Nat) :
    (raiseIf c s p i b).kept = s.kept := by
  simp [raiseIf]

@[simp] theorem countClass_kept (s : State) (p : Page) (i : Nat) (c : EClass) :
    (countClass s p i c).kept = s.kept := by
  unfold countClass
  repeat' (first | (simp; done) | split)

@[simp] theorem logErr_kept (s : State) (p : Page) (i code : Nat) (c : EClass) (unit addr : Nat) (detail : List Nat) :
    (logErr s p i code c unit addr detail).kept = s.kept := by
  simp [logErr]

@[simp] theorem stepFault_kept (s : State) (r : Reason) :
    (stepFault s r).kept = s.kept := by
  simp [stepFault]

@[simp] theorem setLink_kept (s : State) (k : Nat) (l : Link) :
    (State.setLink s k l).kept = s.kept := by
  simp [State.setLink]

@[simp] theorem sendPrio_kept (s : State) (k : Nat) (c : PClass) (p : Packet) :
    (sendPrio s k c p).kept = s.kept := by
  simp [sendPrio]

@[simp] theorem sendEgress_kept (s : State) (k : Nat) (c : PClass) (p : Packet) :
    (sendEgress s k c p).kept = s.kept := by
  simp [sendEgress]

@[simp] theorem sendCopies_kept (s : State) (b : Burst) :
    (sendCopies s b).kept = s.kept := by
  simp [sendCopies]

@[simp] theorem startBurst_kept (s : State) (c : PClass) (payload : List Byte) :
    (startBurst s c payload).kept = s.kept := by
  simp [startBurst]

@[simp] theorem stopApply_kept (s : State) :
    (stopApply s).kept = s.kept := by
  simp [stopApply]

@[simp] theorem sendStopBurst_kept (s : State) (r : Reason) :
    (sendStopBurst s r).kept = s.kept := by
  simp [sendStopBurst]

@[simp] theorem stepFaultStop_kept (s : State) (r : Reason) :
    (stepFaultStop s r).kept = s.kept := by
  simp [stepFaultStop]

@[simp] theorem cutBurst_kept (s : State) (step cause : Nat) :
    (cutBurst s step cause).kept = s.kept := by
  simp [cutBurst]

@[simp] theorem setCutPending_kept (s : State) (step cause : Nat) :
    (setCutPending s step cause).kept = s.kept := by
  simp [setCutPending]

@[simp] theorem takeCut_kept (s : State) (step cause : Nat) :
    (takeCut s step cause).kept = s.kept := by
  unfold takeCut
  repeat' (first | (simp; done) | split)

@[simp] theorem requestCut_kept (s : State) (cause : Nat) :
    (requestCut s cause).kept = s.kept := by
  unfold requestCut
  split <;> simp

@[simp] theorem ledgerAdd_kept (s : State) (unit kind cls weight : Nat) (detail : List Nat) :
    (ledgerAdd s unit kind cls weight detail).kept = s.kept := by
  simp [ledgerAdd]

@[simp] theorem ledgerEvent_kept (s : State) (unit kind cls weight : Nat) (odd : Bool) (detail : List Nat) :
    (ledgerEvent s unit kind cls weight odd detail).kept = s.kept := by
  simp [ledgerEvent]

@[simp] theorem warnCut_kept (s : State) (unit : Nat) :
    (warnCut s unit).kept = s.kept := by
  simp [warnCut]

@[simp] theorem levelRise_kept (s : State) (unit old lv : Nat) :
    (levelRise s unit old lv).kept = s.kept := by
  simp [levelRise]

@[simp] theorem updateLevel_kept (s : State) (unit : Nat) :
    (updateLevel s unit).kept = s.kept := by
  simp [updateLevel]

@[simp] theorem healthInput_kept (s : State) (n unit : Nat) :
    (healthInput s n unit).kept = s.kept := by
  simp [healthInput]

@[simp] theorem parityEvent_kept (s : State) (unit page code : Nat) :
    (parityEvent s unit page code).kept = s.kept := by
  simp [parityEvent]

@[simp] theorem setCtx_kept (s : State) (c : Nat) (x : Ctx) :
    (State.setCtx s c x).kept = s.kept := by
  simp [State.setCtx]

@[simp] theorem setAnvil_kept (s : State) (die m : Nat) (a : Anvil) :
    (State.setAnvil s die m a).kept = s.kept := by
  simp [State.setAnvil]

@[simp] theorem setSwage_kept (s : State) (die m : Nat) (x : Swage) :
    (State.setSwage s die m x).kept = s.kept := by
  simp [State.setSwage]

@[simp] theorem store_kept (s : State) (a : Nat) (bs : List Byte) :
    (State.store s a bs).kept = s.kept := by
  simp [State.store]

@[simp] theorem undefine_kept (s : State) (lo len : Nat) :
    (State.undefine s lo len).kept = s.kept := by
  simp [State.undefine]

@[simp] theorem zero_kept (s : State) (lo len : Nat) :
    (State.zero s lo len).kept = s.kept := by
  simp [State.zero]

@[simp] theorem setStack_kept (s : State) (n : Nat) (x : Stack) :
    (State.setStack s n x).kept = s.kept := by
  simp [State.setStack]

@[simp] theorem refuseEffects_kept (s : State) (r : Req) (write : Bool) (ctx a n : Nat) :
    (refuseEffects s r write ctx a n).kept = s.kept := by
  unfold refuseEffects
  repeat' (first | (simp; done) | split)

@[simp] theorem domainBlocked_kept (s : State) (die : Nat) (a : Nat) :
    (domainBlocked s die a).kept = s.kept := by
  simp [domainBlocked]

@[simp] theorem countBytes_kept (s : State) (write : Bool) (a n : Nat) :
    (countBytes s write a n).kept = s.kept := by
  unfold countBytes
  split <;> simp

@[simp] theorem readAny_kept (s : State) (a n : Nat) :
    (readAny s a n).2.kept = s.kept := by
  unfold readAny
  split <;> simp

@[simp] theorem writeAny_kept (s : State) (a : Nat) (bs : List Byte) :
    (writeAny s a bs).kept = s.kept := by
  unfold writeAny
  split <;> simp

@[simp] theorem rebuildScores_kept (s : State) :
    (rebuildScores s).kept = s.kept := by
  simp [rebuildScores]

@[simp] theorem refreshDie_kept (s : State) (d : Nat) :
    (refreshDie s d).kept = s.kept := by
  simp [refreshDie]

@[simp] theorem bringupEnd_kept (s : State) :
    (bringupEnd s).kept = s.kept := by
  simp [bringupEnd]

@[simp] theorem chipTrained_kept (s : State) :
    (chipTrained s).kept = s.kept := by
  simp [chipTrained]

@[simp] theorem bringupDone_kept (s : State) :
    (bringupDone s).kept = s.kept := by
  simp [bringupDone]

@[simp] theorem refreshReady_kept (s : State) :
    (refreshReady s).kept = s.kept := by
  simp [refreshReady]

@[simp] theorem haltBringup_kept (s : State) (cause : Nat) :
    (haltBringup s cause).kept = s.kept := by
  simp [haltBringup]

@[simp] theorem orAflags_kept (s : State) (c v : Nat) :
    (orAflags s c v).kept = s.kept := by
  simp [orAflags]

@[simp] theorem clearAflags_kept (s : State) (c : Nat) :
    (clearAflags s c).kept = s.kept := by
  simp [clearAflags]

@[simp] theorem badAccess_kept (s : State) :
    (badAccess s).kept = s.kept := by
  simp [badAccess]

@[simp] theorem writeField_kept (s : State) (f : Field) (i : Nat) (mask val : Nat) :
    (writeField s f i mask val).kept = s.kept := by
  unfold writeField
  repeat' (first | (simp; done) | split)

@[simp] theorem writeBlockReg_kept (s : State) (who : Writer) (p : Page) (i base mask val : Nat) :
    (writeBlockReg s who p i base mask val).kept = s.kept := by
  simp [writeBlockReg]

@[simp] theorem writeHeaderReg_kept (s : State) (p : Page) (i base mask val : Nat) :
    (writeHeaderReg s p i base mask val).kept = s.kept := by
  simp [writeHeaderReg]

@[simp] theorem writeHalf_kept (s : State) (who : Writer) (p : Page) (i off val : Nat) :
    (writeHalf s who p i off val).kept = s.kept := by
  unfold writeHalf
  repeat' (first | (simp; done) | split)

@[simp] theorem writeSlot_kept (s : State) (who : Writer) (slot off width val : Nat) :
    (writeSlot s who slot off width val).kept = s.kept := by
  unfold writeSlot
  split <;> simp

@[simp] theorem regWriteOp_kept (s : State) (who : Writer) (off width : Nat) (full : Bool) (val : Nat) :
    (regWriteOp s who off width full val).kept = s.kept := by
  simp [regWriteOp]

@[simp] theorem applyOp_kept (s : State) (p : Page) (i : Nat) :
    (applyOp s p i).kept = s.kept := by
  simp [applyOp]

@[simp] theorem commitApply_kept (s : State) (p : Page) (i : Nat) :
    (commitApply s p i).kept = s.kept := by
  simp [commitApply]

@[simp] theorem refuseApply_kept (s : State) (p : Page) (i : Nat) (causes : List Nat) :
    (refuseApply s p i causes).kept = s.kept := by
  simp [refuseApply]

@[simp] theorem armDiscardOp_kept (s : State) (p : Page) (i : Nat) :
    (armDiscardOp s p i).kept = s.kept := by
  simp [armDiscardOp]

@[simp] theorem clearLog_kept (s : State) (slot : Nat) :
    (clearLog s slot).kept = s.kept := by
  simp [clearLog]

@[simp] theorem clearEvents_kept (s : State) (slot mask : Nat) :
    (clearEvents s slot mask).kept = s.kept := by
  simp [clearEvents]

@[simp] theorem forceEvents_kept (s : State) (slot mask : Nat) :
    (forceEvents s slot mask).kept = s.kept := by
  simp [forceEvents]

@[simp] theorem maskEvents_kept (s : State) (slot mask : Nat) :
    (maskEvents s slot mask).kept = s.kept := by
  simp [maskEvents]

@[simp] theorem setFlow_kept (s : State) (f : Nat) (x : Flow) :
    (State.setFlow s f x).kept = s.kept := by
  simp [State.setFlow]

@[simp] theorem sendCtrl_kept (s : State) (node kind flowField flowId last : Nat) :
    (sendCtrl s node kind flowField flowId last).1.kept = s.kept := by
  unfold sendCtrl
  split <;> simp

@[simp] theorem openFlow_kept (s : State) (f node : Nat) (w : List OutPkt) :
    (openFlow s f node w).kept = s.kept := by
  simp [openFlow]

@[simp] theorem closeFlow_kept (s : State) (f : Nat) :
    (closeFlow s f).kept = s.kept := by
  simp [closeFlow]

@[simp] theorem queuePkt_kept (s : State) (node : Nat) (p : OutPkt) :
    (queuePkt s node p).kept = s.kept := by
  unfold queuePkt
  repeat' (first | (simp; done) | split)

@[simp] theorem queueAll_kept (s : State) (node : Nat) (ps : List OutPkt) :
    (queueAll s node ps).kept = s.kept := by
  simp [queueAll]

@[simp] theorem sendAckTo_kept (s : State) (node flowField last : Nat) (payload : List Byte) :
    (sendAckTo s node flowField last payload).kept = s.kept := by
  unfold sendAckTo
  split <;> simp

@[simp] theorem sendFlowAck_kept (s : State) (f : Nat) :
    (sendFlowAck s f).kept = s.kept := by
  simp [sendFlowAck]

@[simp] theorem sendFlowNak_kept (s : State) (f seq reason : Nat) :
    (sendFlowNak s f seq reason).kept = s.kept := by
  simp [sendFlowNak]

@[simp] theorem sendNoFlowNak_kept (s : State) (node seq reason : Nat) :
    (sendNoFlowNak s node seq reason).kept = s.kept := by
  simp [sendNoFlowNak]

@[simp] theorem abandonPackets_kept (s : State) (mine : Owner → Bool) :
    (abandonPackets s mine).kept = s.kept := by
  simp [abandonPackets]

@[simp] theorem fillBegin_kept (s : State) (xx : List Load) :
    (fillBegin s xx).kept = s.kept := by
  induction xx generalizing s with
  | nil => rfl
  | cons l t ih =>
    unfold fillBegin
    split
    · rw [ih]; simp
    · rfl

@[simp] theorem fillAdvance_kept (s : State) :
    (fillAdvance s).kept = s.kept := by
  simp [fillAdvance]

@[simp] theorem setFlight_kept (s : State) (id : Nat) (f : Flight) :
    (State.setFlight s id f).kept = s.kept := by
  simp [State.setFlight]

@[simp] theorem dropFlight_kept (s : State) (id : Nat) :
    (State.dropFlight s id).kept = s.kept := by
  simp [State.dropFlight]

@[simp] theorem launch_kept (s : State) (c : Nat) (r : Rec) (w : Work) (left src dst len : Nat) (host : Bool) :
    (launch s c r w left src dst len host).2.kept = s.kept := by
  simp [launch]

@[simp] theorem saveCtx_kept (s : State) (c : Nat) :
    (saveCtx s c).kept = s.kept := by
  simp [saveCtx]

@[simp] theorem settle_kept (s : State) (c : Nat) :
    (settle s c).kept = s.kept := by
  unfold settle
  repeat' (first
    | with_reducible rfl
    | (with_reducible refine (foldl_kept _ (fun s x => ?_) _ _).trans ?_)
    | (simp; done)
    | split
    | (dsimp only; split))

@[simp] theorem setCounter_kept (s : State) (k : Nat) (x : Counter) :
    (State.setCounter s k x).kept = s.kept := by
  simp [State.setCounter]

@[simp] theorem wakeLocal_kept (s : State) (k value : Nat) :
    (wakeLocal s k value).kept = s.kept := by
  unfold wakeLocal
  repeat' (first
    | with_reducible rfl
    | (with_reducible refine (foldl_kept _ (fun s x => ?_) _ _).trans ?_)
    | (simp; done)
    | split
    | (dsimp only; split))

@[simp] theorem notifySubs_kept (s : State) (k value : Nat) (stepFlag : Bool) :
    (notifySubs s k value stepFlag).kept = s.kept := by
  simp [notifySubs]

@[simp] theorem counterSet_kept (s : State) (k : Nat) (x : Counter) (v : Nat) :
    (counterSet s k x v).kept = s.kept := by
  simp [counterSet]

@[simp] theorem counterOp_kept (s : State) (k op v : Nat) :
    (counterOp s k op v).kept = s.kept := by
  unfold counterOp
  split <;> simp

@[simp] theorem fillErr_kept (s : State) (c source code : Nat) (at' : Pc) (e : SyncErr) :
    (fillErr s c source code at' e).kept = s.kept := by
  simp [fillErr]

@[simp] theorem clearErr_kept (s : State) (c : Nat) :
    (clearErr s c).kept = s.kept := by
  simp [clearErr]

@[simp] theorem cmdErrorAt_kept (s : State) (c source code : Nat) (r : Rec) (e : SyncErr) :
    (cmdErrorAt s c source code r e).kept = s.kept := by
  unfold cmdErrorAt
  repeat' (first
    | with_reducible rfl
    | (with_reducible refine (foldl_kept _ (fun s x => ?_) _ _).trans ?_)
    | (simp; done)
    | split
    | (dsimp only; split))

@[simp] theorem cmdError_kept (s : State) (c : Nat) (r : Rec) (source code : Nat) :
    (cmdError s c r source code).kept = s.kept := by
  simp [cmdError]

@[simp] theorem completeRec_kept (s : State) (c : Nat) (r : Rec) :
    (completeRec s c r).kept = s.kept := by
  unfold completeRec
  repeat' (first
    | with_reducible rfl
    | (with_reducible refine (foldl_kept _ (fun s x => ?_) _ _).trans ?_)
    | (simp; done)
    | split
    | (dsimp only; split))

@[simp] theorem finishCur_kept (s : State) (c : Nat) (r : Rec) :
    (finishCur s c r).kept = s.kept := by
  simp [finishCur]

@[simp] theorem releaseCur_kept (s : State) (c : Nat) :
    (releaseCur s c).kept = s.kept := by
  simp [releaseCur]

@[simp] theorem completeFlight_kept (s : State) (id : Nat) (f : Flight) :
    (completeFlight s id f).kept = s.kept := by
  simp [completeFlight]

@[simp] theorem failFlight_kept (s : State) (id : Nat) (f : Flight) (source code : Nat) :
    (failFlight s id f source code).kept = s.kept := by
  simp [failFlight]

@[simp] theorem brokenWake_kept (s : State) (c : Nat) (w : WaitState) (value : Nat) :
    (brokenWake s c w value).kept = s.kept := by
  simp [brokenWake]

@[simp] theorem breakCounter_kept (s : State) (k : Nat) :
    (breakCounter s k).kept = s.kept := by
  unfold breakCounter
  split
  · rfl
  · split
    · rfl
    · dsimp only
      rw [foldl_kept _ (fun s x => by simp)]
      simp only [kept_mk, kept_eta]
      rw [foldl_kept _ (fun s x => by split <;> simp)]
      simp

@[simp] theorem breakOwned_kept (s : State) (c : Nat) :
    (breakOwned s c).kept = s.kept := by
  simp [breakOwned]

@[simp] theorem cancelSub_kept (s : State) (c : Nat) :
    (cancelSub s c).kept = s.kept := by
  unfold cancelSub
  repeat' (first | (simp; done) | split)

@[simp] theorem prune_kept (s : State) :
    (prune s).kept = s.kept := by
  simp [prune]

@[simp] theorem abandonFlights_kept (s : State) (ids : List Nat) :
    (abandonFlights s ids).kept = s.kept := by
  simp [abandonFlights]

@[simp] theorem hostFault_kept (s : State) (unit addr code : Nat) :
    (hostFault s unit addr code).kept = s.kept := by
  simp [hostFault]

@[simp] theorem unreachable_kept (s : State) (c : Nat) (r : Rec) :
    (unreachable s c r).kept = s.kept := by
  simp [unreachable]

theorem unservable_kept {s : State} {c : Nat} {r : Rec} {accs : List (Nat × Nat)} {t : State} (h : unservable s c r accs = some t) : t.kept = s.kept := by
  unfold unservable at h
  revert h
  repeat' (first
    | (simp; done)
    | (intro h; cases h; simp; done)
    | (intro h; simp at h; subst h; simp; done)
    | split
    | (dsimp only; split))

@[simp] theorem submitTo_kept (s : State) (c : Nat) (data : List Byte) :
    (submitTo s c data).kept = s.kept := by
  simp [submitTo]

@[simp] theorem createCtx_kept (s : State) (c : Nat) :
    (createCtx s c).kept = s.kept := by
  simp [createCtx]

@[simp] theorem preemptCtx_kept (s : State) (c : Nat) :
    (preemptCtx s c).kept = s.kept := by
  unfold preemptCtx
  repeat' (first
    | with_reducible rfl
    | (with_reducible refine (foldl_kept _ (fun s x => ?_) _ _).trans ?_)
    | (simp; done)
    | (with_reducible exact unservable_kept ‹_›)
    | split
    | (dsimp only; split))

@[simp] theorem resumePreempted_kept (s : State) (c : Nat) :
    (resumePreempted s c).kept = s.kept := by
  unfold resumePreempted
  repeat' (first
    | with_reducible rfl
    | (with_reducible refine (foldl_kept _ (fun s x => ?_) _ _).trans ?_)
    | (simp; done)
    | (with_reducible exact unservable_kept ‹_›)
    | split
    | (dsimp only; split))

@[simp] theorem resumeCtx_kept (s : State) (c : Nat) :
    (resumeCtx s c).kept = s.kept := by
  unfold resumeCtx
  repeat' (first
    | with_reducible rfl
    | (with_reducible refine (foldl_kept _ (fun s x => ?_) _ _).trans ?_)
    | (simp; done)
    | (with_reducible exact unservable_kept ‹_›)
    | split
    | (dsimp only; split))

@[simp] theorem skipCtx_kept (s : State) (c : Nat) :
    (skipCtx s c).kept = s.kept := by
  simp [skipCtx]

@[simp] theorem saveOp_kept (s : State) (c : Nat) :
    (saveOp s c).kept = s.kept := by
  simp [saveOp]

@[simp] theorem loadOp_kept (s : State) (c : Nat) :
    (loadOp s c).kept = s.kept := by
  simp [loadOp]

@[simp] theorem acceptRec_kept (s : State) (c : Nat) (r : Rec) :
    (acceptRec s c r).kept = s.kept := by
  unfold acceptRec
  repeat' (first
    | with_reducible rfl
    | (with_reducible refine (foldl_kept _ (fun s x => ?_) _ _).trans ?_)
    | (simp; done)
    | (with_reducible exact unservable_kept ‹_›)
    | split
    | (dsimp only; split))

@[simp] theorem blockFence_kept (s : State) (c : Nat) :
    (blockFence s c).kept = s.kept := by
  simp [blockFence]

@[simp] theorem issueFrom_kept (s : State) (c : Nat) :
    (issueFrom s c).kept = s.kept := by
  unfold issueFrom
  repeat' (first
    | with_reducible rfl
    | (with_reducible refine (foldl_kept _ (fun s x => ?_) _ _).trans ?_)
    | (simp; done)
    | (with_reducible exact unservable_kept ‹_›)
    | split
    | (dsimp only; split))

@[simp] theorem issueTurn_kept (s : State) (die : Nat) :
    (issueTurn s die).kept = s.kept := by
  unfold issueTurn
  repeat' (first | (simp; done) | split)

@[simp] theorem callRec_kept (s : State) (c : Nat) (r : Rec) :
    (callRec s c r).kept = s.kept := by
  simp [callRec]

@[simp] theorem retRec_kept (s : State) (c : Nat) (r : Rec) :
    (retRec s c r).kept = s.kept := by
  unfold retRec
  repeat' (first
    | with_reducible rfl
    | (with_reducible refine (foldl_kept _ (fun s x => ?_) _ _).trans ?_)
    | (simp; done)
    | (with_reducible exact unservable_kept ‹_›)
    | split
    | (dsimp only; split))

@[simp] theorem loopRec_kept (s : State) (c : Nat) (r : Rec) :
    (loopRec s c r).kept = s.kept := by
  unfold loopRec
  repeat' (first
    | with_reducible rfl
    | (with_reducible refine (foldl_kept _ (fun s x => ?_) _ _).trans ?_)
    | (simp; done)
    | (with_reducible exact unservable_kept ‹_›)
    | split
    | (dsimp only; split))

@[simp] theorem copyRec_kept (s : State) (c : Nat) (r : Rec) :
    (copyRec s c r).kept = s.kept := by
  unfold copyRec
  repeat' (first
    | with_reducible rfl
    | (with_reducible refine (foldl_kept _ (fun s x => ?_) _ _).trans ?_)
    | (simp; done)
    | (with_reducible exact unservable_kept ‹_›)
    | split
    | (dsimp only; split))

@[simp] theorem endCopy_kept (s : State) (id : Nat) (f : Flight) :
    (endCopy s id f).kept = s.kept := by
  unfold endCopy
  repeat' (first | (simp; done) | split)

@[simp] theorem signalRec_kept (s : State) (c : Nat) (r : Rec) :
    (signalRec s c r).kept = s.kept := by
  unfold signalRec
  repeat' (first | (simp; done) | split)

@[simp] theorem sendSubscribe_kept (s : State) (c : Nat) (w : WaitState) :
    (sendSubscribe s c w).kept = s.kept := by
  simp [sendSubscribe]

@[simp] theorem waitRec_kept (s : State) (c : Nat) (r : Rec) :
    (waitRec s c r).kept = s.kept := by
  unfold waitRec
  repeat' (first
    | with_reducible rfl
    | (with_reducible refine (foldl_kept _ (fun s x => ?_) _ _).trans ?_)
    | (simp; done)
    | (with_reducible exact unservable_kept ‹_›)
    | split
    | (dsimp only; split))

@[simp] theorem wakeCtx_kept (s : State) (c : Nat) :
    (wakeCtx s c).kept = s.kept := by
  unfold wakeCtx
  repeat' (first
    | with_reducible rfl
    | (with_reducible refine (foldl_kept _ (fun s x => ?_) _ _).trans ?_)
    | (simp; done)
    | (with_reducible exact unservable_kept ‹_›)
    | split
    | (dsimp only; split))

@[simp] theorem timeoutCtx_kept (s : State) (c : Nat) :
    (timeoutCtx s c).kept = s.kept := by
  unfold timeoutCtx
  repeat' (first
    | with_reducible rfl
    | (with_reducible refine (foldl_kept _ (fun s x => ?_) _ _).trans ?_)
    | (simp; done)
    | (with_reducible exact unservable_kept ‹_›)
    | split
    | (dsimp only; split))

@[simp] theorem retrySub_kept (s : State) (c : Nat) :
    (retrySub s c).kept = s.kept := by
  unfold retrySub
  repeat' (first
    | with_reducible rfl
    | (with_reducible refine (foldl_kept _ (fun s x => ?_) _ _).trans ?_)
    | (simp; done)
    | (with_reducible exact unservable_kept ‹_›)
    | split
    | (dsimp only; split))

theorem write8_kept {s : State} {c : Nat} {r : Rec} {v : Nat} {t : State} (h : write8 s c r v = some t) : t.kept = s.kept := by
  unfold write8 at h
  revert h
  repeat' (first
    | (simp; done)
    | (intro h; cases h; simp; done)
    | (intro h; simp at h; subst h; simp; done)
    | split
    | (dsimp only; split))

@[simp] theorem stampRec_kept (s : State) (c : Nat) (r : Rec) :
    (stampRec s c r).kept = s.kept := by
  unfold stampRec
  split
  · rfl
  · split
    · rename_i h
      simp [write8_kept h]
    · cases h : unservable s c r [(Rec.addr s c r 8, 8)] with
      | none => rfl
      | some t => simpa using unservable_kept h

@[simp] theorem aflagsRec_kept (s : State) (c : Nat) (r : Rec) :
    (aflagsRec s c r).kept = s.kept := by
  unfold aflagsRec
  split
  · rfl
  · split
    · rename_i h
      simp [write8_kept h]
    · cases h : unservable s c r [(Rec.addr s c r 8, 8)] with
      | none => rfl
      | some t => simpa using unservable_kept h

@[simp] theorem synOp_kept (s : State) (op : Nat) :
    (synOp s op).2.kept = s.kept := by
  unfold synOp
  repeat' (first
    | with_reducible rfl
    | (with_reducible refine (foldl_kept _ (fun s x => ?_) _ _).trans ?_)
    | (simp; done)
    | (with_reducible exact unservable_kept ‹_›)
    | (with_reducible exact write8_kept ‹_›)
    | split
    | (dsimp only; split))

@[simp] theorem takeSyn_kept (s : State) :
    (takeSyn s).kept = s.kept := by
  simp [takeSyn]

@[simp] theorem takeSynOp_kept (s : State) (op : Nat) :
    (takeSynOp s op).kept = s.kept := by
  simp [takeSynOp]

@[simp] theorem writeEdge_kept (s : State) (c : Nat) :
    (writeEdge s c).kept = s.kept := by
  unfold writeEdge
  split <;> simp

@[simp] theorem evalWaits_kept (s : State) :
    (evalWaits s).kept = s.kept := by
  simp [evalWaits]

@[simp] theorem refuseAccess_kept (s : State) (c : Nat) (r : Rec) (a : Bool × Nat × Nat) :
    (refuseAccess s c r a).kept = s.kept := by
  simp [refuseAccess]

@[simp] theorem bankWriteFault_kept (s : State) (rs : List (Bool × Nat × Nat × Nat × Nat)) :
    (bankWriteFault s rs).kept = s.kept := by
  simp [bankWriteFault]

@[simp] theorem mmaRec_kept (s : State) (c : Nat) (r : Rec) :
    (mmaRec s c r).kept = s.kept := by
  unfold mmaRec
  repeat' (first
    | with_reducible rfl
    | (with_reducible refine (foldl_kept _ (fun s x => ?_) _ _).trans ?_)
    | (simp; done)
    | (with_reducible exact unservable_kept ‹_›)
    | (with_reducible exact write8_kept ‹_›)
    | split
    | (dsimp only; split))

@[simp] theorem writeTile_kept (s : State) (p : MmaParams) (t : Nat) (res : List Nat) :
    (writeTile s p t res).1.kept = s.kept := by
  unfold writeTile
  rw [foldl_fst_kept _ (fun x a => by dsimp only; split <;> simp)]

@[simp] theorem setMma_kept (s : State) (id : Nat) (m : Mma) :
    (State.setMma s id m).kept = s.kept := by
  simp [State.setMma]

@[simp] theorem capacityCheck_kept (old s : State) (die : Nat) :
    (capacityCheck old s die).kept = s.kept := by
  simp [capacityCheck]

@[simp] theorem promote_kept (s : State) (die : Nat) :
    (promote s die).kept = s.kept := by
  simp [promote]

@[simp] theorem anvParity_kept (s : State) (die m : Nat) (par : AnvParity) (r : TileRun) (x : Mma) :
    (anvParity s die m par r x).kept = s.kept := by
  simp [anvParity]

@[simp] theorem loupeSelect_kept (s : State) (die : Nat) :
    (loupeSelect s die).2.kept = s.kept := by
  unfold loupeSelect
  repeat' (first
    | with_reducible rfl
    | (with_reducible refine (foldl_kept _ (fun s x => ?_) _ _).trans ?_)
    | (simp; done)
    | (with_reducible exact unservable_kept ‹_›)
    | (with_reducible exact write8_kept ‹_›)
    | split
    | (dsimp only; split))

@[simp] theorem captureArea_kept (s : State) (die : Nat) :
    (captureArea s die).kept = s.kept := by
  simp [captureArea]

@[simp] theorem beginCapture_kept (s : State) (die u : Nat) (x : Mma) (r : TileRun) :
    (beginCapture s die u x r).kept = s.kept := by
  simp [beginCapture]

@[simp] theorem startTile_kept (s : State) (die u : Nat) (par : AnvParity) (x : Mma) (c : Chain) :
    (startTile s die u par x c).kept = s.kept := by
  unfold startTile
  split <;> simp

@[simp] theorem issueTile_kept (s : State) (die u : Nat) (par : AnvParity) :
    (issueTile s die u par).kept = s.kept := by
  unfold issueTile
  repeat' (first
    | with_reducible rfl
    | (with_reducible refine (foldl_kept _ (fun s x => ?_) _ _).trans ?_)
    | (simp; done)
    | (with_reducible exact unservable_kept ‹_›)
    | (with_reducible exact write8_kept ‹_›)
    | split
    | (dsimp only; split))

@[simp] theorem endCapture_kept (s : State) (die : Nat) (x : Mma) (r : TileRun) (good res : List Nat) (sat : Bool) :
    (endCapture s die x r good res sat).kept = s.kept := by
  unfold endCapture
  split <;> simp

@[simp] theorem satTile_kept (s : State) (i u : Nat) (x : Mma) (r : TileRun) :
    (satTile s i u x r).kept = s.kept := by
  simp [satTile]

@[simp] theorem handOn_kept (s : State) (id : Nat) (x : Mma) (r : TileRun) (res : List Nat) :
    (handOn s id x r res).1.kept = s.kept := by
  unfold handOn
  repeat' (first
    | with_reducible rfl
    | (with_reducible refine (foldl_kept _ (fun s x => ?_) _ _).trans ?_)
    | (simp; done)
    | (with_reducible exact unservable_kept ‹_›)
    | (with_reducible exact write8_kept ‹_›)
    | split
    | (dsimp only; split))

@[simp] theorem tileCounters_kept (s : State) (i cycles level : Nat) (nan : Bool) :
    (tileCounters s i cycles level nan).kept = s.kept := by
  simp [tileCounters]

@[simp] theorem endTile_kept (s : State) (die u : Nat) (par : AnvParity) (faults : List (Nat × Nat)) (r : TileRun) (x : Mma) :
    (endTile s die u par faults r x).kept = s.kept := by
  simp [endTile]

@[simp] theorem endWait_kept (s : State) (die u : Nat) :
    (endWait s die u).kept = s.kept := by
  simp [endWait]

@[simp] theorem completeMma_kept (s : State) (id : Nat) :
    (completeMma s id).kept = s.kept := by
  unfold completeMma
  split <;> simp

@[simp] theorem gateAnvil_kept (s : State) (die u : Nat) :
    (gateAnvil s die u).kept = s.kept := by
  simp [gateAnvil]

@[simp] theorem claimAnvil_kept (s : State) (die : Nat) :
    (claimAnvil s die).kept = s.kept := by
  unfold claimAnvil
  repeat' (first | (simp; done) | split)

@[simp] theorem enterTest_kept (s : State) (die m t0 : Nat) :
    (enterTest s die m t0).kept = s.kept := by
  simp [enterTest]

@[simp] theorem moveChain_kept (s : State) (c : Chain) :
    (moveChain s c).kept = s.kept := by
  unfold moveChain
  split <;> simp

@[simp] theorem testEnter_kept (s : State) (die : Nat) :
    (testEnter s die).kept = s.kept := by
  unfold testEnter
  repeat' (first
    | with_reducible rfl
    | (with_reducible refine (foldl_kept _ (fun s x => ?_) _ _).trans ?_)
    | (simp; done)
    | (with_reducible exact unservable_kept ‹_›)
    | (with_reducible exact write8_kept ‹_›)
    | split
    | (dsimp only; split))

@[simp] theorem abandonCapture_kept (s : State) (die u : Nat) :
    (abandonCapture s die u).kept = s.kept := by
  unfold abandonCapture
  split <;> simp

@[simp] theorem claimForced_kept (s : State) (die : Nat) :
    (claimForced s die).kept = s.kept := by
  unfold claimForced
  repeat' (first
    | with_reducible rfl
    | (with_reducible refine (foldl_kept _ (fun s x => ?_) _ _).trans ?_)
    | (simp; done)
    | (with_reducible exact unservable_kept ‹_›)
    | (with_reducible exact write8_kept ‹_›)
    | split
    | (dsimp only; split))

@[simp] theorem abandonAnvils_kept (s : State) (ids : List Nat) (log : Bool) :
    (abandonAnvils s ids log).kept = s.kept := by
  simp [abandonAnvils]

@[simp] theorem applyAnvMap_kept (s : State) (i : Nat) :
    (applyAnvMap s i).kept = s.kept := by
  unfold applyAnvMap
  simp only [capacityCheck_kept, promote_kept]
  refine foldl_kept _ (fun t u => ?_) _ _
  repeat' (first
    | (simp; done)
    | split)

@[simp] theorem refuseVec_kept (s : State) (c : Nat) (r : Rec) (code : Nat) :
    (refuseVec s c r code).kept = s.kept := by
  simp [refuseVec]

@[simp] theorem refuseSpark_kept (s : State) (c : Nat) (r : Rec) :
    (refuseSpark s c r).kept = s.kept := by
  simp [refuseSpark]

@[simp] theorem startVec_kept (s : State) (c : Nat) (r : Rec) (die : Nat) (p : VecParams) (bundles : List (List Nat)) (sr : Bool) :
    (startVec s c r die p bundles sr).kept = s.kept := by
  simp [startVec]

@[simp] theorem vecRec_kept (s : State) (c : Nat) (r : Rec) :
    (vecRec s c r).kept = s.kept := by
  unfold vecRec
  repeat' (first
    | with_reducible rfl
    | (with_reducible refine (foldl_kept _ (fun s x => ?_) _ _).trans ?_)
    | (simp; done)
    | (with_reducible exact unservable_kept ‹_›)
    | (with_reducible exact write8_kept ‹_›)
    | split
    | (dsimp only; split))

@[simp] theorem setVec_kept (s : State) (id : Nat) (v : Vec) :
    (State.setVec s id v).kept = s.kept := by
  simp [State.setVec]

@[simp] theorem startBlock_kept (s : State) (die u slot : Nat) :
    (startBlock s die u slot).kept = s.kept := by
  unfold startBlock
  repeat' (first
    | with_reducible rfl
    | (with_reducible refine (foldl_kept _ (fun s x => ?_) _ _).trans ?_)
    | (simp; done)
    | (with_reducible exact unservable_kept ‹_›)
    | (with_reducible exact write8_kept ‹_›)
    | split
    | (dsimp only; split))

@[simp] theorem swgParity_kept (s : State) (die u : Nat) (par : SwgParity) (ctx b : Nat) :
    (swgParity s die u par ctx b).kept = s.kept := by
  simp [swgParity]

@[simp] theorem swgCapacity_kept (old s : State) (die : Nat) :
    (swgCapacity old s die).kept = s.kept := by
  simp [swgCapacity]

@[simp] theorem drainSwage_kept (s : State) (die u : Nat) :
    (drainSwage s die u).kept = s.kept := by
  simp [drainSwage]

@[simp] theorem commitBlock_kept (s : State) (die u slot id b : Nat) (v : Vec) (par : SwgParity) :
    (commitBlock s die u slot id b v par).kept = s.kept := by
  simp [commitBlock]

@[simp] theorem completeVec_kept (s : State) (id : Nat) :
    (completeVec s id).kept = s.kept := by
  unfold completeVec
  split <;> simp

@[simp] theorem gateSwage_kept (s : State) (die u : Nat) :
    (gateSwage s die u).kept = s.kept := by
  simp [gateSwage]

@[simp] theorem claimSwage_kept (s : State) (die : Nat) :
    (claimSwage s die).kept = s.kept := by
  unfold claimSwage
  repeat' (first | (simp; done) | split)

@[simp] theorem enterSwgTest_kept (s : State) (die u t0 : Nat) :
    (enterSwgTest s die u t0).kept = s.kept := by
  simp [enterSwgTest]

@[simp] theorem swgEnter_kept (s : State) (die : Nat) :
    (swgEnter s die).kept = s.kept := by
  unfold swgEnter
  split <;> simp

@[simp] theorem rerunBlock_kept (s : State) (id b : Nat) :
    (rerunBlock s id b).kept = s.kept := by
  unfold rerunBlock
  split <;> simp

@[simp] theorem swgForced_kept (s : State) (die : Nat) :
    (swgForced s die).kept = s.kept := by
  unfold swgForced
  repeat' (first
    | with_reducible rfl
    | (with_reducible refine (foldl_kept _ (fun s x => ?_) _ _).trans ?_)
    | (simp; done)
    | (with_reducible exact unservable_kept ‹_›)
    | (with_reducible exact write8_kept ‹_›)
    | split
    | (dsimp only; split))

@[simp] theorem abandonSwages_kept (s : State) (ids : List Nat) (log : Bool) :
    (abandonSwages s ids log).kept = s.kept := by
  unfold abandonSwages
  repeat' (first
    | with_reducible rfl
    | (with_reducible refine (foldl_kept _ (fun s x => ?_) _ _).trans ?_)
    | (simp; done)
    | (with_reducible exact unservable_kept ‹_›)
    | (with_reducible exact write8_kept ‹_›)
    | split
    | (dsimp only; split))

@[simp] theorem applySwgMap_kept (s : State) (die : Nat) :
    (applySwgMap s die).kept = s.kept := by
  unfold applySwgMap
  repeat' (first
    | with_reducible rfl
    | (with_reducible refine (foldl_kept _ (fun s x => ?_) _ _).trans ?_)
    | (simp; done)
    | (with_reducible exact unservable_kept ‹_›)
    | (with_reducible exact write8_kept ‹_›)
    | split
    | (dsimp only; split))

@[simp] theorem sparkKatOp_kept (s : State) (good : Bool) :
    (sparkKatOp s good).kept = s.kept := by
  simp [sparkKatOp]

@[simp] theorem hearthCe_kept (s : State) (die bank addr ctx : Nat) :
    (hearthCe s die bank addr ctx).kept = s.kept := by
  simp [hearthCe]

@[simp] theorem hearthUe_kept (s : State) (die bank addr ctx : Nat) :
    (hearthUe s die bank addr ctx).kept = s.kept := by
  simp [hearthUe]

@[simp] theorem hearthScrub_kept (s : State) (die bank : Nat) (ecc : Ecc) :
    (hearthScrub s die bank ecc).kept = s.kept := by
  unfold hearthScrub
  repeat' (first | (simp; done) | split)

@[simp] theorem hearthInit_kept (s : State) (die : Nat) :
    (hearthInit s die).kept = s.kept := by
  simp [hearthInit]

@[simp] theorem enterStopped_kept (s : State) (r : Reason) :
    (enterStopped s r).kept = s.kept := by
  simp [enterStopped]

@[simp] theorem mapoutEntry_kept (s : State) (stack ch : Nat) (on : Bool) :
    (mapoutEntry s stack ch on).kept = s.kept := by
  simp [mapoutEntry]

@[simp] theorem listMapout_kept (s : State) (stack m : Nat) :
    (listMapout s stack m).kept = s.kept := by
  simp [listMapout]

@[simp] theorem trainStack_kept (s : State) (n : Nat) (r : StackReport) :
    (trainStack s n r).kept = s.kept := by
  simp [trainStack]

@[simp] theorem reportUe_kept (s : State) (a ctx : Nat) :
    (reportUe s a ctx).kept = s.kept := by
  simp [reportUe]

@[simp] theorem holdLost_kept (s : State) (a ctx : Nat) (c : EClass) :
    (holdLost s a ctx c).kept = s.kept := by
  simp [holdLost]

@[simp] theorem loseHold_kept (s : State) (a ctx : Nat) :
    (loseHold s a ctx).kept = s.kept := by
  simp [loseHold]

@[simp] theorem loseWardHold_kept (s : State) (a ctx : Nat) :
    (loseWardHold s a ctx).kept = s.kept := by
  simp [loseWardHold]

@[simp] theorem failHeal_kept (s : State) (row : Nat) :
    (failHeal s row).kept = s.kept := by
  simp [failHeal]

@[simp] theorem startHeal_kept (s : State) (row : Nat) :
    (startHeal s row).kept = s.kept := by
  unfold startHeal
  repeat' (first
    | with_reducible rfl
    | (with_reducible refine (foldl_kept _ (fun s x => ?_) _ _).trans ?_)
    | (simp; done)
    | (with_reducible exact unservable_kept ‹_›)
    | (with_reducible exact write8_kept ‹_›)
    | split
    | (dsimp only; split))

@[simp] theorem healOrHold_kept (s : State) (a : Nat) :
    (healOrHold s a).kept = s.kept := by
  simp [healOrHold]

@[simp] theorem ueAction_kept (s : State) (a ctx : Nat) :
    (ueAction s a ctx).kept = s.kept := by
  unfold ueAction
  split <;> simp

@[simp] theorem hbmUe_kept (s : State) (a ctx : Nat) :
    (hbmUe s a ctx).kept = s.kept := by
  simp [hbmUe]

@[simp] theorem hbmCe_kept (s : State) (a : Nat) :
    (hbmCe s a).kept = s.kept := by
  simp [hbmCe]

@[simp] theorem hbmOutcome_kept (s : State) (a ctx : Nat) (ecc : Ecc) :
    (hbmOutcome s a ctx ecc).kept = s.kept := by
  unfold hbmOutcome
  split <;> simp

@[simp] theorem endHeal_kept (s : State) (row : Nat) (src : Option (List Byte)) (back : Ecc) :
    (endHeal s row src back).kept = s.kept := by
  unfold endHeal
  repeat' (first | (simp; done) | split)

@[simp] theorem startHeldHeals_kept (s : State) :
    (startHeldHeals s).kept = s.kept := by
  simp [startHeldHeals]

@[simp] theorem dropHeldHeals_kept (s : State) :
    (dropHeldHeals s).kept = s.kept := by
  simp [dropHeldHeals]

@[simp] theorem flagChannel_kept (s : State) (stack ch : Nat) :
    (flagChannel s stack ch).kept = s.kept := by
  simp [flagChannel]

@[simp] theorem parityError_kept (s : State) (a : Nat) (write : Bool) (errors ctx : Nat) :
    (parityError s a write errors ctx).kept = s.kept := by
  simp [parityError]

@[simp] theorem readTemp_kept (s : State) (stack temp : Nat) :
    (readTemp s stack temp).kept = s.kept := by
  simp [readTemp]

@[simp] theorem patrolScrub_kept (s : State) (stack pc : Nat) (ecc : Ecc) :
    (patrolScrub s stack pc ecc).kept = s.kept := by
  simp [patrolScrub]

@[simp] theorem gatherRec_kept (s : State) (c : Nat) (r : Rec) :
    (gatherRec s c r).kept = s.kept := by
  unfold gatherRec
  repeat' (first
    | with_reducible rfl
    | (with_reducible refine (foldl_kept _ (fun s x => ?_) _ _).trans ?_)
    | (simp; done)
    | (with_reducible exact unservable_kept ‹_›)
    | (with_reducible exact write8_kept ‹_›)
    | split
    | (dsimp only; split))

@[simp] theorem moveGather_kept (s : State) (src dst : Nat) (is : List Nat) :
    (moveGather s src dst is).kept = s.kept := by
  simp [moveGather]

@[simp] theorem endGather_kept (s : State) (id : Nat) :
    (endGather s id).kept = s.kept := by
  unfold endGather
  repeat' (first
    | with_reducible rfl
    | (with_reducible refine (foldl_kept _ (fun s x => ?_) _ _).trans ?_)
    | (simp; done)
    | (with_reducible exact unservable_kept ‹_›)
    | (with_reducible exact write8_kept ‹_›)
    | split
    | (dsimp only; split))

@[simp] theorem exitSelfRefresh_kept (s : State) (n bad : Nat) :
    (exitSelfRefresh s n bad).kept = s.kept := by
  simp [exitSelfRefresh]

@[simp] theorem exitDie_kept (s : State) (die bad0 bad1 : Nat) :
    (exitDie s die bad0 bad1).kept = s.kept := by
  simp [exitDie]

end Sys2Proof.Machine
end

