-- ==== Sys2Proof/Laws/KeptFabric.lean ====
section
/-! SUPPORT. Frames of the operations of the fabric, the collectives, the step and the checkpoints: what `State.kept` collects is unchanged by each. -/

namespace Sys2Proof.Machine

open Sys2Proof

@[simp] theorem sendControl_kept (s : State) (k cmd lanes arg : Nat) :
    (sendControl s k cmd lanes arg).kept = s.kept := by
  simp [sendControl]

@[simp] theorem linkLeave_kept (s : State) (k : Nat) (st : LinkState) :
    (linkLeave s k st).kept = s.kept := by
  simp [linkLeave]

@[simp] theorem startTraining_kept (s : State) (k : Nat) (fast restoring : Bool) :
    (startTraining s k fast restoring).kept = s.kept := by
  simp [startTraining]

@[simp] theorem enableLink_kept (s : State) (k : Nat) :
    (enableLink s k).kept = s.kept := by
  simp [enableLink]

@[simp] theorem disableLink_kept (s : State) (k : Nat) :
    (disableLink s k).kept = s.kept := by
  simp [disableLink]

@[simp] theorem failLink_kept (s : State) (k reason : Nat) :
    (failLink s k reason).kept = s.kept := by
  simp [failLink]

@[simp] theorem linkUpOn_kept (s : State) (k lanes : Nat) (up : Bool) (rep : LinkReport) :
    (linkUpOn s k lanes up rep).kept = s.kept := by
  simp [linkUpOn]

@[simp] theorem negotiate_kept (s : State) (k : Nat) (cap : CapBlock) :
    (negotiate s k cap).2.kept = s.kept := by
  simp [negotiate]

@[simp] theorem endTraining_kept (s : State) (k : Nat) (rep : LinkReport) :
    (endTraining s k rep).kept = s.kept := by
  simp [endTraining]

@[simp] theorem endDegrade_kept (s : State) (k lanes : Nat) (rep : LinkReport) :
    (endDegrade s k lanes rep).kept = s.kept := by
  simp [endDegrade]

@[simp] theorem trainLink_kept (s : State) (k : Nat) (rep : LinkReport) :
    (trainLink s k rep).kept = s.kept := by
  simp [trainLink]

@[simp] theorem retrainLink_kept (s : State) (k : Nat) :
    (retrainLink s k).kept = s.kept := by
  unfold retrainLink
  split <;> simp

@[simp] theorem retryLink_kept (s : State) (k : Nat) :
    (retryLink s k).kept = s.kept := by
  unfold retryLink
  repeat' (first
    | with_reducible rfl
    | (with_reducible refine (foldl_kept _ (fun s x => ?_) _ _).trans ?_)
    | (simp; done)
    | (with_reducible exact unservable_kept ‹_›)
    | (with_reducible exact write8_kept ‹_›)
    | split
    | (dsimp only; split))

@[simp] theorem restoreLink_kept (s : State) (k : Nat) :
    (restoreLink s k).kept = s.kept := by
  simp [restoreLink]

@[simp] theorem enterX2_kept (s : State) (k good : Nat) (partner : Bool) :
    (enterX2 s k good partner).kept = s.kept := by
  simp [enterX2]

@[simp] theorem faultLanes_kept (s : State) (k bad : Nat) :
    (faultLanes s k bad).kept = s.kept := by
  unfold faultLanes
  repeat' (first
    | with_reducible rfl
    | (with_reducible refine (foldl_kept _ (fun s x => ?_) _ _).trans ?_)
    | (simp; done)
    | (with_reducible exact unservable_kept ‹_›)
    | (with_reducible exact write8_kept ‹_›)
    | split
    | (dsimp only; split))

@[simp] theorem degradeAsked_kept (s : State) (k lanes : Nat) :
    (degradeAsked s k lanes).kept = s.kept := by
  unfold degradeAsked
  repeat' (first
    | with_reducible rfl
    | (with_reducible refine (foldl_kept _ (fun s x => ?_) _ _).trans ?_)
    | (simp; done)
    | (with_reducible exact unservable_kept ‹_›)
    | (with_reducible exact write8_kept ‹_›)
    | split
    | (dsimp only; split))

@[simp] theorem degradeAnswered_kept (s : State) (k lanes : Nat) (rep : LinkReport) :
    (degradeAnswered s k lanes rep).kept = s.kept := by
  simp [degradeAnswered]

@[simp] theorem degradeLate_kept (s : State) (k : Nat) :
    (degradeLate s k).kept = s.kept := by
  simp [degradeLate]

@[simp] theorem noticeDown_kept (s : State) (k : Nat) :
    (noticeDown s k).kept = s.kept := by
  simp [noticeDown]

@[simp] theorem receiveCodeword_kept (s : State) (k seq : Nat) (symbols : List Nat) (bad : Bool) (packets slots : Nat) :
    (receiveCodeword s k seq symbols bad packets slots).kept = s.kept := by
  simp [receiveCodeword]

@[simp] theorem receiveControl_kept (s : State) (k : Nat) (cs : ControlSlot) :
    (receiveControl s k cs).kept = s.kept := by
  simp [receiveControl]

@[simp] theorem transmit_kept (s : State) (k : Nat) :
    (transmit s k).kept = s.kept := by
  unfold transmit
  repeat' (first
    | with_reducible rfl
    | (with_reducible refine (foldl_kept _ (fun s x => ?_) _ _).trans ?_)
    | (simp; done)
    | (with_reducible exact unservable_kept ‹_›)
    | (with_reducible exact write8_kept ‹_›)
    | split
    | (dsimp only; split))

@[simp] theorem askStep_kept (s : State) (k lane : Nat) :
    (askStep s k lane).kept = s.kept := by
  simp [askStep]

@[simp] theorem endWindow_kept (s : State) (k : Nat) :
    (endWindow s k).kept = s.kept := by
  simp [endWindow]

@[simp] theorem stepAsked_kept (s : State) (k lane : Nat) (up : Bool) :
    (stepAsked s k lane up).kept = s.kept := by
  simp [stepAsked]

@[simp] theorem stepAnswered_kept (s : State) (k lane : Nat) :
    (stepAnswered s k lane).kept = s.kept := by
  unfold stepAnswered
  repeat' (first
    | with_reducible rfl
    | (with_reducible refine (foldl_kept _ (fun s x => ?_) _ _).trans ?_)
    | (simp; done)
    | (with_reducible exact unservable_kept ‹_›)
    | (with_reducible exact write8_kept ‹_›)
    | split
    | (dsimp only; split))

@[simp] theorem judgeStep_kept (s : State) (k lane : Nat) :
    (judgeStep s k lane).kept = s.kept := by
  unfold judgeStep
  repeat' (first
    | with_reducible rfl
    | (with_reducible refine (foldl_kept _ (fun s x => ?_) _ _).trans ?_)
    | (simp; done)
    | (with_reducible exact unservable_kept ‹_›)
    | (with_reducible exact write8_kept ‹_›)
    | split
    | (dsimp only; split))

@[simp] theorem applyLnkTrain_kept (s : State) (k old : Nat) :
    (applyLnkTrain s k old).kept = s.kept := by
  simp [applyLnkTrain]

@[simp] theorem stopLinks_kept (s : State) (d : Nat) :
    (stopLinks s d).kept = s.kept := by
  simp [stopLinks]

@[simp] theorem trainLinks_kept (s : State) (d : Nat) :
    (trainLinks s d).kept = s.kept := by
  simp [trainLinks]

@[simp] theorem dropColl_kept (s : State) (id : Nat) :
    (dropColl s id).kept = s.kept := by
  simp [dropColl]

@[simp] theorem setColl_kept (s : State) (id : Nat) (c : Coll) :
    (State.setColl s id c).kept = s.kept := by
  simp [State.setColl]

@[simp] theorem endFlight_kept (s : State) (id source code : Nat) :
    (endFlight s id source code).kept = s.kept := by
  unfold endFlight
  split <;> simp

@[simp] theorem failColl_kept (s : State) (id code addr peer : Nat) :
    (failColl s id code addr peer).kept = s.kept := by
  unfold failColl
  split <;> simp

@[simp] theorem setSlot_kept (s : State) (n : Nat) (x : SeqSlot) :
    (State.setSlot s n x).kept = s.kept := by
  simp [State.setSlot]

@[simp] theorem setRec_kept (s : State) (slot layer : Nat) (r : LayerRec) :
    (setRec s slot layer r).kept = s.kept := by
  unfold setRec
  split <;> simp

@[simp] theorem loseRec_kept (s : State) (slot layer : Nat) (r : LayerRec) (owner : Nat) :
    (loseRec s slot layer r owner).kept = s.kept := by
  simp [loseRec]

@[simp] theorem loseSlot_kept (s : State) (d n : Nat) (x : SeqSlot) :
    (loseSlot s d n x).kept = s.kept := by
  simp [loseSlot]

@[simp] theorem destDown_kept (s : State) (d : Nat) :
    (destDown s d).kept = s.kept := by
  simp [destDown]

@[simp] theorem failHoldWrite_kept (s : State) (cause : Nat) :
    (failHoldWrite s cause).kept = s.kept := by
  unfold failHoldWrite
  repeat' (first
    | with_reducible rfl
    | (with_reducible refine (foldl_kept _ (fun s x => ?_) _ _).trans ?_)
    | (simp; done)
    | (with_reducible exact unservable_kept ‹_›)
    | (with_reducible exact write8_kept ‹_›)
    | split
    | (dsimp only; split))

@[simp] theorem failOwner_kept (s : State) (cause : Nat) (xx : Owner) :
    (failOwner s cause xx).kept = s.kept := by
  unfold failOwner
  repeat' (first | (simp; done) | split)

@[simp] theorem serveNeeds_kept (s : State) :
    (serveNeeds s).kept = s.kept := by
  simp [serveNeeds]

@[simp] theorem noteDrain_kept (s : State) :
    (noteDrain s).kept = s.kept := by
  simp [noteDrain]

@[simp] theorem flowFail_kept (s : State) (f cause : Nat) :
    (flowFail s f cause).kept = s.kept := by
  simp [flowFail]

@[simp] theorem noteDelivery_kept (s : State) (f q : Nat) :
    (noteDelivery s f q).kept = s.kept := by
  simp [noteDelivery]

theorem checkPacket_kept (s : State) (k : Nat) (c : PClass) (p : Packet) : (checkPacket s k c p).state.kept = s.kept := by
  unfold checkPacket
  repeat' (first
    | (simp [Checked.state]; done)
    | split
    | (dsimp only; split))

theorem checkPacket_drop_kept {s t : State} {k : Nat} {c : PClass} {p : Packet} (h : checkPacket s k c p = .drop t) :
    t.kept = s.kept := by
  have := checkPacket_kept s k c p
  rwa [h] at this

theorem checkPacket_retired_kept {s t : State} {k : Nat} {c : PClass} {p : Packet} (h : checkPacket s k c p = .retired t) :
    t.kept = s.kept := by
  have := checkPacket_kept s k c p
  rwa [h] at this

theorem checkPacket_pass_kept {s t : State} {k : Nat} {c : PClass} {p : Packet} (h : checkPacket s k c p = .pass t) :
    t.kept = s.kept := by
  have := checkPacket_kept s k c p
  rwa [h] at this

@[simp] theorem applyVerdict_kept (s : State) (plane f q : Nat) (xx : Verdict) :
    (applyVerdict s plane f q xx).kept = s.kept := by
  unfold applyVerdict
  split <;> simp

@[simp] theorem signalDenied_kept (s : State) :
    (signalDenied s).1.kept = s.kept := by
  simp [signalDenied]

@[simp] theorem taggedOp_kept (s : State) (k op v step att : Nat) :
    (taggedOp s k op v step att).kept = s.kept := by
  unfold taggedOp
  split <;> simp

@[simp] theorem deliverOp_kept  (s : State) (ff : Nat) (pp : Packet) :
    (deliverOp s ff pp).1.kept = s.kept := by
  unfold deliverOp
  repeat' (first
    | with_reducible rfl
    | (with_reducible refine (foldl_kept _ (fun s x => ?_) _ _).trans ?_)
    | (simp; done)
    | (with_reducible exact unservable_kept ‹_›)
    | (with_reducible exact write8_kept ‹_›)
    | split
    | (dsimp only; split))

@[simp] theorem deliverSubscribe_kept  (s : State) (ff : Nat) (pp : Packet) :
    (deliverSubscribe s ff pp).1.kept = s.kept := by
  unfold deliverSubscribe
  repeat' (first
    | with_reducible rfl
    | (with_reducible refine (foldl_kept _ (fun s x => ?_) _ _).trans ?_)
    | (simp; done)
    | (with_reducible exact unservable_kept ‹_›)
    | (with_reducible exact write8_kept ‹_›)
    | split
    | (dsimp only; split))

@[simp] theorem deliverNotify_kept  (s : State) (ff : Nat) (pp : Packet) :
    (deliverNotify s ff pp).1.kept = s.kept := by
  unfold deliverNotify
  split <;> simp

@[simp] theorem deliverBroken_kept  (s : State) (ff : Nat) (pp : Packet) :
    (deliverBroken s ff pp).1.kept = s.kept := by
  unfold deliverBroken
  split <;> simp

@[simp] theorem deliverCancel_kept  (s : State) (ff : Nat) (pp : Packet) :
    (deliverCancel s ff pp).1.kept = s.kept := by
  simp [deliverCancel]

@[simp] theorem deliverBusy_kept  (s : State) (ff : Nat) (pp : Packet) :
    (deliverBusy s ff pp).1.kept = s.kept := by
  unfold deliverBusy
  split <;> simp

@[simp] theorem deliverSignal_kept  (s : State) (ff : Nat) (pp : Packet) :
    (deliverSignal s ff pp).1.kept = s.kept := by
  unfold deliverSignal
  split <;> simp

@[simp] theorem runHeld_kept (s : State) (plane f : Nat) (xx : Nat) :
    (runHeld s plane f xx).kept = s.kept := by
  induction xx generalizing s with
  | zero => rfl
  | succ n ih =>
    unfold runHeld
    dsimp only
    split
    · rw [ih]; simp
    · rfl

@[simp] theorem receiveSeq_kept (s : State) (plane : Nat) (c : PClass) (p : Packet) (deliver : Delivery) (hdeliver : ∀ s f p, (deliver s f p).1.kept = s.kept) :
    (receiveSeq s plane c p deliver).kept = s.kept := by
  unfold receiveSeq
  repeat' (first
    | with_reducible rfl
    | (with_reducible refine (foldl_kept _ (fun s x => ?_) _ _).trans ?_)
    | (simp [hdeliver]; done)
    | (rw [sendFlowNak_kept]; exact checkPacket_retired_kept (by assumption))
    | (rw [sendNoFlowNak_kept]; exact checkPacket_retired_kept (by assumption))
    | (rw [sendNoFlowNak_kept]; exact checkPacket_pass_kept (by assumption))
    | exact checkPacket_drop_kept (by assumption)
    | exact checkPacket_pass_kept (by assumption)
    | (rw [sendFlowAck_kept, inc_kept]; exact checkPacket_pass_kept (by assumption))
    | (rw [setFlow_kept]; exact checkPacket_pass_kept (by assumption))
    | (dsimp only; rw [runHeld_kept, applyVerdict_kept, hdeliver]; exact checkPacket_pass_kept (by assumption))
    | split
    | (dsimp only; split))

@[simp] theorem receiveSignal_kept (s : State) (plane kind : Nat) (p : Packet) (deliver : Delivery) (hdeliver : ∀ s f p, (deliver s f p).1.kept = s.kept) :
    (receiveSignal s plane kind p deliver).kept = s.kept := by
  unfold receiveSignal
  repeat' (first
    | with_reducible rfl
    | (with_reducible refine (foldl_kept _ (fun s x => ?_) _ _).trans ?_)
    | (simp [*]; done)
    | (with_reducible exact unservable_kept ‹_›)
    | (with_reducible exact write8_kept ‹_›)
    | split
    | (dsimp only; split))

@[simp] theorem writeFor_kept (s : State) (r : Req) (ctx : Nat) (p : Packet) :
    (writeFor s r ctx p).1.kept = s.kept := by
  unfold writeFor
  repeat' (first
    | with_reducible rfl
    | (with_reducible refine (foldl_kept _ (fun s x => ?_) _ _).trans ?_)
    | (simp; done)
    | (with_reducible exact unservable_kept ‹_›)
    | (with_reducible exact write8_kept ‹_›)
    | split
    | (dsimp only; split))

@[simp] theorem deliverWrite_kept  (s : State) (ff : Nat) (pp : Packet) :
    (deliverWrite s ff pp).1.kept = s.kept := by
  simp [deliverWrite]

@[simp] theorem readOutcome_kept (s : State) (a ctx : Nat) (ecc : Ecc) :
    (readOutcome s a ctx ecc).kept = s.kept := by
  unfold readOutcome
  split <;> simp

@[simp] theorem deliverRead_kept (ecc : Ecc) (s : State) (ff : Nat) (pp : Packet) :
    (deliverRead ecc s ff pp).1.kept = s.kept := by
  unfold deliverRead
  repeat' (first
    | with_reducible rfl
    | (with_reducible refine (foldl_kept _ (fun s x => ?_) _ _).trans ?_)
    | (simp; done)
    | (with_reducible exact unservable_kept ‹_›)
    | (with_reducible exact write8_kept ‹_›)
    | split
    | (dsimp only; split))

@[simp] theorem countDown_kept (s : State) (o : Owner) :
    (countDown s o).kept = s.kept := by
  unfold countDown
  repeat' (first | (simp; done) | split)

@[simp] theorem holdRest_kept (s : State) (p : Packet) :
    (holdRest s p).kept = s.kept := by
  simp [holdRest]

@[simp] theorem dataFor_kept (s : State) (o : Owner) (p : Packet) :
    (dataFor s o p).1.kept = s.kept := by
  unfold dataFor
  repeat' (first
    | with_reducible rfl
    | (with_reducible refine (foldl_kept _ (fun s x => ?_) _ _).trans ?_)
    | (simp; done)
    | (with_reducible exact unservable_kept ‹_›)
    | (with_reducible exact write8_kept ‹_›)
    | split
    | (dsimp only; split))

@[simp] theorem deliverData_kept  (s : State) (ff : Nat) (pp : Packet) :
    (deliverData s ff pp).1.kept = s.kept := by
  unfold deliverData
  repeat' (first
    | with_reducible rfl
    | (with_reducible refine (foldl_kept _ (fun s x => ?_) _ _).trans ?_)
    | (simp; done)
    | (with_reducible exact unservable_kept ‹_›)
    | (with_reducible exact write8_kept ‹_›)
    | split
    | (dsimp only; split))

@[simp] theorem ackOwner_kept (s : State) (p : OutPkt) :
    (ackOwner s p).kept = s.kept := by
  unfold ackOwner
  repeat' (first | (simp; done) | split)

@[simp] theorem releaseAcked_kept (s : State) (f cum sack : Nat) :
    (releaseAcked s f cum sack).kept = s.kept := by
  simp [releaseAcked]

@[simp] theorem setUnacked_kept (s : State) (f : Nat) (u : Unacked) :
    (State.setUnacked s f u).kept = s.kept := by
  simp [State.setUnacked]

@[simp] theorem sourceRead_kept (s : State) (p : OutPkt) :
    (sourceRead s p).kept = s.kept := by
  unfold sourceRead
  split <;> simp

@[simp] theorem sendData_kept (s : State) (k : Nat) (c : PClass) (p : Packet) :
    (sendData s k c p).kept = s.kept := by
  simp [sendData]

@[simp] theorem sendTry_kept (s : State) (f k seq att tries : Nat) (p : OutPkt) (payload : List Byte) :
    (sendTry s f k seq att tries p payload).kept = s.kept := by
  simp [sendTry]

@[simp] theorem resend_kept (s : State) (f : Nat) (u : Unacked) (ecc : Ecc) :
    (resend s f u ecc).kept = s.kept := by
  unfold resend
  repeat' (first
    | with_reducible rfl
    | (with_reducible refine (foldl_kept _ (fun s x => ?_) _ _).trans ?_)
    | (simp; done)
    | (with_reducible exact unservable_kept ‹_›)
    | (with_reducible exact write8_kept ‹_›)
    | split
    | (dsimp only; split))

@[simp] theorem retry_kept (s : State) (f : Nat) (u : Unacked) (ecc : Ecc) :
    (retry s f u ecc).kept = s.kept := by
  simp [retry]

@[simp] theorem mirrorRefused_kept (s : State) (u : Unacked) :
    (mirrorRefused s u).kept = s.kept := by
  simp [mirrorRefused]

@[simp] theorem applyNak_kept (s : State) (f reason : Nat) (u : Unacked) :
    (applyNak s f reason u).kept = s.kept := by
  unfold applyNak
  split <;> simp

@[simp] theorem retryOpen_kept (s : State) (f : Nat) :
    (retryOpen s f).kept = s.kept := by
  simp [retryOpen]

@[simp] theorem receiveAck_kept (s : State) (p : Packet) :
    (receiveAck s p).kept = s.kept := by
  unfold receiveAck
  repeat' (first
    | with_reducible rfl
    | (with_reducible refine (foldl_kept _ (fun s x => ?_) _ _).trans ?_)
    | (simp; done)
    | (with_reducible exact unservable_kept ‹_›)
    | (with_reducible exact write8_kept ‹_›)
    | split
    | (dsimp only; split))

@[simp] theorem receivePlain_kept (s : State) (plane : Nat) (c : PClass) (p : Packet) (act : State → State) (hact : ∀ s, (act s).kept = s.kept) :
    (receivePlain s plane c p act).kept = s.kept := by
  unfold receivePlain
  split
  · rfl
  · split
    · exact checkPacket_drop_kept (by assumption)
    · exact checkPacket_retired_kept (by assumption)
    · rw [hact]; exact checkPacket_pass_kept (by assumption)

@[simp] theorem ackTurn_kept (s : State) (f : Nat) :
    (ackTurn s f).kept = s.kept := by
  simp [ackTurn]

@[simp] theorem answerOpen_kept (s : State) (node peerFlow f : Nat) :
    (answerOpen s node peerFlow f).kept = s.kept := by
  simp [answerOpen]

@[simp] theorem openedWith_kept (s : State) (f peerFlow : Nat) :
    (openedWith s f peerFlow).kept = s.kept := by
  simp [openedWith]

@[simp] theorem acceptOpen_kept (s : State) (node peerFlow : Nat) :
    (acceptOpen s node peerFlow).kept = s.kept := by
  unfold acceptOpen
  repeat' (first | (simp; done) | split)

@[simp] theorem receiveOpen_kept (s : State) (p : Packet) :
    (receiveOpen s p).kept = s.kept := by
  unfold receiveOpen
  split <;> simp

@[simp] theorem receiveOpenAck_kept (s : State) (p : Packet) :
    (receiveOpenAck s p).kept = s.kept := by
  simp [receiveOpenAck]

@[simp] theorem receiveClose_kept (s : State) (p : Packet) :
    (receiveClose s p).kept = s.kept := by
  simp [receiveClose]

@[simp] theorem injectOn_kept (s : State) (f : Nat) (k : Option Nat) (p : OutPkt) (rest : List OutPkt) :
    (injectOn s f k p rest).kept = s.kept := by
  unfold injectOn
  repeat' (first
    | with_reducible rfl
    | (with_reducible refine (foldl_kept _ (fun s x => ?_) _ _).trans ?_)
    | (simp; done)
    | (with_reducible exact unservable_kept ‹_›)
    | (with_reducible exact write8_kept ‹_›)
    | split
    | (dsimp only; split))

theorem sourceFails_kept {s : State} {p : OutPkt} {t : State} (h : sourceFails s p = some t) : t.kept = s.kept := by
  unfold sourceFails at h
  revert h
  repeat' (first
    | (simp; done)
    | (intro h; cases h; simp; done)
    | (intro h; simp at h; subst h; simp; done)
    | split
    | (dsimp only; split))

@[simp] theorem injectNext_kept (s : State) (f : Nat) :
    (injectNext s f).kept = s.kept := by
  unfold injectNext
  repeat' (first
    | with_reducible rfl
    | (with_reducible refine (foldl_kept _ (fun s x => ?_) _ _).trans ?_)
    | (simp; done)
    | (with_reducible exact unservable_kept ‹_›)
    | (with_reducible exact write8_kept ‹_›)
    | (with_reducible exact sourceFails_kept ‹_›)
    | split
    | (dsimp only; split))

@[simp] theorem planeTimeout_kept (s : State) (k peer : Nat) :
    (planeTimeout s k peer).kept = s.kept := by
  simp [planeTimeout]

@[simp] theorem tryTimeout_kept (s : State) (f seq : Nat) (ecc : Ecc) :
    (tryTimeout s f seq ecc).kept = s.kept := by
  unfold tryTimeout
  repeat' (first
    | with_reducible rfl
    | (with_reducible refine (foldl_kept _ (fun s x => ?_) _ _).trans ?_)
    | (simp; done)
    | (with_reducible exact unservable_kept ‹_›)
    | (with_reducible exact write8_kept ‹_›)
    | (with_reducible exact sourceFails_kept ‹_›)
    | split
    | (dsimp only; split))

@[simp] theorem readmitPlanes_kept (s : State) (d mask : Nat) :
    (readmitPlanes s d mask).kept = s.kept := by
  simp [readmitPlanes]

@[simp] theorem leftSlice_kept (s : State) (old : Nat) :
    (leftSlice s old).kept = s.kept := by
  simp [leftSlice]

@[simp] theorem measChanged_kept (s : State) :
    (measChanged s).kept = s.kept := by
  simp [measChanged]

@[simp] theorem switchTables_kept (s : State) (v : SliceVer) (retireAt : Nat) :
    (switchTables s v retireAt).kept = s.kept := by
  simp [switchTables]

@[simp] theorem epochDue_kept (s : State) :
    (epochDue s).kept = s.kept := by
  unfold epochDue
  split <;> simp

@[simp] theorem retirePrev_kept (s : State) :
    (retirePrev s).kept = s.kept := by
  unfold retirePrev
  split <;> simp

@[simp] theorem drainEnds_kept (s : State) :
    (drainEnds s).kept = s.kept := by
  simp [drainEnds]

@[simp] theorem copyCurrent_kept (s : State) (d : Nat) :
    (copyCurrent s d).kept = s.kept := by
  simp [copyCurrent]

@[simp] theorem advanceNode_kept (s : State) (d : Nat) :
    (advanceNode s d).kept = s.kept := by
  simp [advanceNode]

@[simp] theorem writeRoute_kept (s : State) (d val : Nat) :
    (writeRoute s d val).kept = s.kept := by
  simp [writeRoute]

@[simp] theorem readRoute_kept (s : State) (d : Nat) :
    (readRoute s d).kept = s.kept := by
  simp [readRoute]

@[simp] theorem sendStopNow_kept (s : State) :
    (sendStopNow s).kept = s.kept := by
  simp [sendStopNow]

@[simp] theorem noteSeen_kept (s : State) (c : PClass) (bs : List Byte) :
    (noteSeen s c bs).kept = s.kept := by
  simp [noteSeen]

@[simp] theorem stopByTag_kept (s : State) (step att reason : Nat) :
    (stopByTag s step att reason).kept = s.kept := by
  unfold stopByTag
  repeat' (first | (simp; done) | split)

@[simp] theorem handleStop_kept (s : State) (p : Packet) :
    (handleStop s p).kept = s.kept := by
  simp [handleStop]

@[simp] theorem repeatBursts_kept (s : State) :
    (repeatBursts s).kept = s.kept := by
  simp [repeatBursts]

@[simp] theorem handleCut_kept (s : State) (p : Packet) :
    (handleCut s p).kept = s.kept := by
  simp [handleCut]

@[simp] theorem sendTime_kept (s : State) :
    (sendTime s).kept = s.kept := by
  simp [sendTime]

@[simp] theorem slewFor_kept (s : State) (off : Int) :
    (slewFor s off).2.kept = s.kept := by
  unfold slewFor
  split <;> simp

@[simp] theorem setTime_kept (s : State) (t : TimeSvc) :
    (State.setTime s t).kept = s.kept := by
  simp [State.setTime]

@[simp] theorem slewTime_kept (s : State) (off : Int) :
    (slewTime s off).kept = s.kept := by
  simp [slewTime]

@[simp] theorem acquireTime_kept (s : State) (off : Int) :
    (acquireTime s off).kept = s.kept := by
  simp [acquireTime]

@[simp] theorem followTime_kept (s : State) (plane : Nat) (p : Packet) :
    (followTime s plane p).kept = s.kept := by
  unfold followTime
  repeat' (first
    | with_reducible rfl
    | (with_reducible refine (foldl_kept _ (fun s x => ?_) _ _).trans ?_)
    | (simp; done)
    | (with_reducible exact unservable_kept ‹_›)
    | (with_reducible exact write8_kept ‹_›)
    | (with_reducible exact sourceFails_kept ‹_›)
    | split
    | (dsimp only; split))

@[simp] theorem handleTime_kept (s : State) (plane : Nat) (p : Packet) :
    (handleTime s plane p).kept = s.kept := by
  simp [handleTime]

@[simp] theorem enterHoldover_kept (s : State) :
    (enterHoldover s).kept = s.kept := by
  simp [enterHoldover]

@[simp] theorem sendWeld_kept (s : State) (id node k : Nat) (p : OutPkt) :
    (sendWeld s id node k p).kept = s.kept := by
  unfold sendWeld
  split <;> simp

@[simp] theorem setChunk_kept (s : State) (id : Nat) (x : Chunk) :
    (setChunk s id x).kept = s.kept := by
  unfold setChunk
  split <;> simp

@[simp] theorem sendDown_kept (s : State) (id : Nat) (c : Coll) (x : Chunk) :
    (sendDown s id c x).kept = s.kept := by
  simp [sendDown]

@[simp] theorem weldWrite_kept (s : State) (c : Coll) (a : Nat) (bs : List Byte) :
    (weldWrite s c a bs).kept = s.kept := by
  simp [weldWrite]

@[simp] theorem gatherOwn_kept (s : State) (id : Nat) :
    (gatherOwn s id).kept = s.kept := by
  unfold gatherOwn
  split <;> simp

@[simp] theorem finishReduce_kept (s : State) (id : Nat) (c : Coll) (x : Chunk) :
    (finishReduce s id c x).kept = s.kept := by
  unfold finishReduce
  split <;> simp

@[simp] theorem advanceReduce_kept (s : State) (id : Nat) (c : Coll) (x : Chunk) :
    (advanceReduce s id c x).kept = s.kept := by
  simp [advanceReduce]

@[simp] theorem sendReady_kept (s : State) (id : Nat) (c : Coll) :
    (sendReady s id c).kept = s.kept := by
  simp [sendReady]

@[simp] theorem firstData_kept (s : State) (id : Nat) (c : Coll) :
    (firstData s id c).kept = s.kept := by
  simp [firstData]

@[simp] theorem sendMirror_kept (s : State) (id : Nat) (c : Coll) :
    (sendMirror s id c).kept = s.kept := by
  simp [sendMirror]

@[simp] theorem takeHeld_kept (s : State) (id : Nat) (c : Coll) :
    (takeHeld s id c).kept = s.kept := by
  unfold takeHeld
  repeat' (first
    | with_reducible rfl
    | (with_reducible refine (foldl_kept _ (fun s x => ?_) _ _).trans ?_)
    | (simp; done)
    | (with_reducible exact unservable_kept ‹_›)
    | (with_reducible exact write8_kept ‹_›)
    | (with_reducible exact sourceFails_kept ‹_›)
    | split
    | (dsimp only; split))

@[simp] theorem beginColl_kept (s : State) (id : Nat) (f : Flight) (p : WeldParams) (pb : List Byte) :
    (beginColl s id f p pb).kept = s.kept := by
  unfold beginColl
  repeat' (first
    | with_reducible rfl
    | (with_reducible refine (foldl_kept _ (fun s x => ?_) _ _).trans ?_)
    | (simp; done)
    | (with_reducible exact unservable_kept ‹_›)
    | (with_reducible exact write8_kept ‹_›)
    | (with_reducible exact sourceFails_kept ‹_›)
    | split
    | (dsimp only; split))

@[simp] theorem startColl_kept (s : State) (id : Nat) (f : Flight) :
    (startColl s id f).kept = s.kept := by
  unfold startColl
  repeat' (first
    | with_reducible rfl
    | (with_reducible refine (foldl_kept _ (fun s x => ?_) _ _).trans ?_)
    | (simp; done)
    | (with_reducible exact unservable_kept ‹_›)
    | (with_reducible exact write8_kept ‹_›)
    | (with_reducible exact sourceFails_kept ‹_›)
    | split
    | (dsimp only; split))

@[simp] theorem weldRec_kept (s : State) (c : Nat) (r : Rec) :
    (weldRec s c r).kept = s.kept := by
  unfold weldRec
  repeat' (first
    | with_reducible rfl
    | (with_reducible refine (foldl_kept _ (fun s x => ?_) _ _).trans ?_)
    | (simp; done)
    | (with_reducible exact unservable_kept ‹_›)
    | (with_reducible exact write8_kept ‹_›)
    | (with_reducible exact sourceFails_kept ‹_›)
    | split
    | (dsimp only; split))

@[simp] theorem endColl_kept (s : State) (id : Nat) :
    (endColl s id).kept = s.kept := by
  unfold endColl
  split <;> simp

@[simp] theorem stallColl_kept (s : State) (id : Nat) :
    (stallColl s id).kept = s.kept := by
  unfold stallColl
  split <;> simp

@[simp] theorem weldTag_kept (s : State) (f : Nat) (p : Packet) (pass : State → State × Verdict) (hpass : ∀ s, (pass s).1.kept = s.kept) :
    (weldTag s f p pass).1.kept = s.kept := by
  unfold weldTag
  repeat' (first
    | with_reducible rfl
    | (with_reducible refine (foldl_kept _ (fun s x => ?_) _ _).trans ?_)
    | (simp [*]; done)
    | exact hpass s
    | split
    | (dsimp only; split))

@[simp] theorem receiveWeld_kept (s : State) (plane kind : Nat) (p : Packet) (deliver : Delivery) (hdeliver : ∀ s f p, (deliver s f p).1.kept = s.kept) :
    (receiveWeld s plane kind p deliver).kept = s.kept := by
  unfold receiveWeld
  repeat' (first
    | with_reducible rfl
    | (with_reducible refine (foldl_kept _ (fun s x => ?_) _ _).trans ?_)
    | (simp [*]; done)
    | (with_reducible exact unservable_kept ‹_›)
    | (with_reducible exact write8_kept ‹_›)
    | (with_reducible exact sourceFails_kept ‹_›)
    | split
    | (dsimp only; split))

@[simp] theorem onColl_kept (s : State) (p : Packet) (act : Nat → Coll → State × Verdict) (hact : ∀ id c, (act id c).1.kept = s.kept) :
    (onColl s p act).1.kept = s.kept := by
  unfold onColl
  repeat' (first
    | with_reducible rfl
    | (with_reducible refine (foldl_kept _ (fun s x => ?_) _ _).trans ?_)
    | (simp [*]; done)
    | exact hact _ _
    | split
    | (dsimp only; split))

@[simp] theorem releaseQueued_kept (s : State) (id node : Nat) :
    (releaseQueued s id node).kept = s.kept := by
  unfold releaseQueued
  split <;> simp

@[simp] theorem deliverReady_kept  (s : State) (ff : Nat) (pp : Packet) :
    (deliverReady s ff pp).1.kept = s.kept := by
  unfold deliverReady
  repeat' (first
    | with_reducible rfl
    | (with_reducible refine (foldl_kept _ (fun s x => ?_) _ _).trans ?_)
    | (simp; done)
    | (with_reducible exact unservable_kept ‹_›)
    | (with_reducible exact write8_kept ‹_›)
    | (with_reducible exact sourceFails_kept ‹_›)
    | split
    | (dsimp only; split))

@[simp] theorem combParity_kept (s : State) (die : Nat) :
    (combParity s die).kept = s.kept := by
  simp [combParity]

@[simp] theorem deliverPartial_kept (par : Bool) (s : State) (ff : Nat) (pp : Packet) :
    (deliverPartial par s ff pp).1.kept = s.kept := by
  unfold deliverPartial
  rw [onColl_kept]
  intro id c
  split
  · dsimp only
    split <;> simp
  · rfl

@[simp] theorem deliverGather_kept  (s : State) (ff : Nat) (pp : Packet) :
    (deliverGather s ff pp).1.kept = s.kept := by
  unfold deliverGather
  rw [onColl_kept]
  intro id c
  split
  · dsimp only
    split <;> simp
  · rfl

@[simp] theorem deliverMirror_kept  (s : State) (ff : Nat) (pp : Packet) :
    (deliverMirror s ff pp).1.kept = s.kept := by
  simp [deliverMirror]

@[simp] theorem deliverHold_kept  (s : State) (ff : Nat) (pp : Packet) :
    (deliverHold s ff pp).1.kept = s.kept := by
  unfold deliverHold
  repeat' (first
    | with_reducible rfl
    | (with_reducible refine (foldl_kept _ (fun s x => ?_) _ _).trans ?_)
    | (simp; done)
    | (with_reducible exact unservable_kept ‹_›)
    | (with_reducible exact write8_kept ‹_›)
    | (with_reducible exact sourceFails_kept ‹_›)
    | split
    | (dsimp only; split))

@[simp] theorem refuseTongs_kept (s : State) (c : Nat) (r : Rec) (p : TongsParams) (code : Nat) :
    (refuseTongs s c r p code).kept = s.kept := by
  simp [refuseTongs]

@[simp] theorem openSlot_kept (s : State) (c : Nat) (p : TongsParams) :
    (openSlot s c p).kept = s.kept := by
  unfold openSlot
  dsimp only
  rw [store_kept]
  rfl

@[simp] theorem putLayer_kept (s : State) (p : TongsParams) (x : SeqSlot) :
    (putLayer s p x).kept = s.kept := by
  simp [putLayer]

@[simp] theorem releaseLayer_kept (s : State) (p : TongsParams) (x : SeqSlot) :
    (releaseLayer s p x).kept = s.kept := by
  simp [releaseLayer]

@[simp] theorem fetchLayer_kept (s : State) (p : TongsParams) (x : SeqSlot) :
    (fetchLayer s p x).kept = s.kept := by
  simp [fetchLayer]

@[simp] theorem closeSlot_kept (s : State) (p : TongsParams) :
    (closeSlot s p).kept = s.kept := by
  simp [closeSlot]

@[simp] theorem tongsAct_kept (s : State) (c : Nat) (p : TongsParams) :
    (tongsAct s c p).kept = s.kept := by
  unfold tongsAct
  split <;> simp

@[simp] theorem tongsRec_kept (s : State) (c : Nat) (r : Rec) :
    (tongsRec s c r).kept = s.kept := by
  unfold tongsRec
  repeat' (first
    | with_reducible rfl
    | (with_reducible refine (foldl_kept _ (fun s x => ?_) _ _).trans ?_)
    | (simp; done)
    | (with_reducible exact unservable_kept ‹_›)
    | (with_reducible exact write8_kept ‹_›)
    | (with_reducible exact sourceFails_kept ‹_›)
    | split
    | (dsimp only; split))

@[simp] theorem offloadStart_kept (s : State) (n : Nat) :
    (offloadStart s n).kept = s.kept := by
  unfold offloadStart
  repeat' (first | (simp; done) | split)

@[simp] theorem addVid_kept (s : State) (c vid : Nat) :
    (addVid s c vid).kept = s.kept := by
  unfold addVid
  split <;> simp

@[simp] theorem hostMoveFails_kept (s : State) (d addr code : Nat) :
    (hostMoveFails s d addr code).kept = s.kept := by
  simp [hostMoveFails]

@[simp] theorem offloadDone_kept (s : State) (n : Nat) :
    (offloadDone s n).kept = s.kept := by
  unfold offloadDone
  repeat' (first | (simp; done) | split)

@[simp] theorem fetchStart_kept (s : State) (n : Nat) :
    (fetchStart s n).kept = s.kept := by
  unfold fetchStart
  repeat' (first | (simp; done) | split)

@[simp] theorem fetchDone_kept (s : State) (n : Nat) :
    (fetchDone s n).kept = s.kept := by
  unfold fetchDone
  repeat' (first | (simp; done) | split)

@[simp] theorem closeSlots_kept (s : State) :
    (closeSlots s).kept = s.kept := by
  simp [closeSlots]

@[simp] theorem failHostMoves_kept (s : State) (code : Nat) :
    (failHostMoves s code).kept = s.kept := by
  unfold failHostMoves
  repeat' (first
    | with_reducible rfl
    | (with_reducible refine (foldl_kept _ (fun s x => ?_) _ _).trans ?_)
    | (simp; done)
    | (with_reducible exact unservable_kept ‹_›)
    | (with_reducible exact write8_kept ‹_›)
    | (with_reducible exact sourceFails_kept ‹_›)
    | split
    | (dsimp only; split))

@[simp] theorem abandonWork_kept (s : State) (ids : List Nat) (log : Bool) :
    (abandonWork s ids log).kept = s.kept := by
  simp [abandonWork]

@[simp] theorem abandonSlots_kept (s : State) (c : Nat) :
    (abandonSlots s c).kept = s.kept := by
  simp [abandonSlots]

@[simp] theorem abandonHoldWrite_kept (s : State) :
    (abandonHoldWrite s).kept = s.kept := by
  simp [abandonHoldWrite]

@[simp] theorem resetCtx_kept (s : State) (c : Nat) (destroy : Bool) :
    (resetCtx s c destroy).kept = s.kept := by
  unfold resetCtx
  repeat' (first
    | with_reducible rfl
    | (with_reducible refine (foldl_kept _ (fun s x => ?_) _ _).trans ?_)
    | (simp; done)
    | (with_reducible exact unservable_kept ‹_›)
    | (with_reducible exact write8_kept ‹_›)
    | (with_reducible exact sourceFails_kept ‹_›)
    | split
    | (dsimp only; split))

@[simp] theorem resetCfg_kept (s : State) (c : Nat) :
    (resetCfg s c).kept = s.kept := by
  simp [resetCfg]

@[simp] theorem endQuarantine_kept (s : State) (c : Nat) :
    (endQuarantine s c).kept = s.kept := by
  simp [endQuarantine]

@[simp] theorem suspectAnvil_kept (s : State) (die m : Nat) :
    (suspectAnvil s die m).kept = s.kept := by
  simp [suspectAnvil]

@[simp] theorem suspectSwage_kept (s : State) (die u : Nat) :
    (suspectSwage s die u).kept = s.kept := by
  simp [suspectSwage]

@[simp] theorem clearAnvilSuspect_kept (s : State) (die m : Nat) :
    (clearAnvilSuspect s die m).kept = s.kept := by
  simp [clearAnvilSuspect]

@[simp] theorem clearSwageSuspect_kept (s : State) (die u : Nat) :
    (clearSwageSuspect s die u).kept = s.kept := by
  simp [clearSwageSuspect]

@[simp] theorem setCapture_kept (s : State) (die : Nat) (c : Capture) :
    (State.setCapture s die c).kept = s.kept := by
  simp [State.setCapture]

@[simp] theorem dropCapture_kept (s : State) (die : Nat) :
    (dropCapture s die).kept = s.kept := by
  simp [dropCapture]

@[simp] theorem loupeCheck_kept (s : State) (die : Nat) (slip : Bool) :
    (loupeCheck s die slip).kept = s.kept := by
  unfold loupeCheck
  split <;> simp

@[simp] theorem loupeRerun_kept (s : State) (die : Nat) (faults : List (Nat × Nat)) :
    (loupeRerun s die faults).kept = s.kept := by
  unfold loupeRerun
  repeat' (first | (simp; done) | split)

@[simp] theorem settleUnits_kept (s : State) (die : Nat) (c : Capture) (out : Nat) :
    (settleUnits s die c out).kept = s.kept := by
  unfold settleUnits
  repeat' (first | (simp; done) | split)

@[simp] theorem settleRegs_kept (s : State) (die : Nat) (c : Capture) (out : Nat) (cls : EClass) :
    (settleRegs s die c out cls).kept = s.kept := by
  simp [settleRegs]

@[simp] theorem loupeSettle_kept (s : State) (die : Nat) (agrees : Bool) :
    (loupeSettle s die agrees).kept = s.kept := by
  unfold loupeSettle
  split <;> simp

@[simp] theorem foldTouch_kept (s : State) :
    (foldTouch s).kept = s.kept := by
  unfold foldTouch
  repeat' (first
    | with_reducible rfl
    | (with_reducible refine (foldl_kept _ (fun s x => ?_) _ _).trans ?_)
    | (simp; done)
    | (with_reducible exact unservable_kept ‹_›)
    | (with_reducible exact write8_kept ‹_›)
    | (with_reducible exact sourceFails_kept ‹_›)
    | split
    | (dsimp only; split))

@[simp] theorem tchZero_kept (s : State) :
    (tchZero s).kept = s.kept := by
  simp [tchZero]

@[simp] theorem tallyDone_kept (s : State) (step att : Nat) (out cls rank : Nat) :
    (tallyDone s step att out cls rank).kept = s.kept := by
  simp [tallyDone]

@[simp] theorem tallyTimeout_kept (s : State) :
    (tallyTimeout s).kept = s.kept := by
  unfold tallyTimeout
  split <;> simp

@[simp] theorem bistFail_kept (s : State) (die m : Nat) (swage pers : Bool) (id sig : Nat) :
    (bistFail s die m swage pers id sig).kept = s.kept := by
  simp [bistFail]

@[simp] theorem bistPass_kept (s : State) (die m : Nat) (swage : Bool) (id : Nat) :
    (bistPass s die m swage id).kept = s.kept := by
  simp [bistPass]

@[simp] theorem bistReturn_kept (s : State) (die m : Nat) (swage : Bool) (id : Nat) :
    (bistReturn s die m swage id).kept = s.kept := by
  simp [bistReturn]

@[simp] theorem bistTestEnd_kept (s : State) (die : Nat) (swage : Bool) (sig sig2 : Nat) :
    (bistTestEnd s die swage sig sig2).kept = s.kept := by
  unfold bistTestEnd
  split <;> simp

@[simp] theorem ldgClear_kept (s : State) (unit : Nat) :
    (ldgClear s unit).kept = s.kept := by
  simp [ldgClear]

@[simp] theorem ledgerWrite_kept (s : State) (ok : Bool) :
    (ledgerWrite s ok).kept = s.kept := by
  unfold ledgerWrite
  split <;> simp

@[simp] theorem savePoh_kept (s : State) :
    (savePoh s).kept = s.kept := by
  simp [savePoh]

@[simp] theorem healthDecay_kept (s : State) :
    (healthDecay s).kept = s.kept := by
  simp [healthDecay]

@[simp] theorem scoreEntries_kept (s : State) :
    (scoreEntries s).kept = s.kept := by
  simp [scoreEntries]

@[simp] theorem sendTree_kept (s : State) (node : Nat) (p : OutPkt) :
    (sendTree s node p).kept = s.kept := by
  simp [sendTree]

@[simp] theorem sendResult_kept (s : State) (tree : Nat) (bs : List Byte) :
    (sendResult s tree bs).kept = s.kept := by
  simp [sendResult]

@[simp] theorem dropEntry_kept (s : State) (tree step att : Nat) :
    (dropEntry s tree step att).kept = s.kept := by
  simp [dropEntry]

@[simp] theorem contribute_kept (s : State) (tree : Nat) (level : Option Nat) (bs : List Byte) :
    (contribute s tree level bs).1.kept = s.kept := by
  unfold contribute
  repeat' (first
    | with_reducible rfl
    | (with_reducible refine (foldl_kept _ (fun s x => ?_) _ _).trans ?_)
    | (simp; done)
    | (with_reducible exact unservable_kept ‹_›)
    | (with_reducible exact write8_kept ‹_›)
    | (with_reducible exact sourceFails_kept ‹_›)
    | split
    | (dsimp only; split))

theorem contribute_eq_kept {s t : State} {a : Nat} {l : Option Nat} {bs : List Byte} {o : Option (List Byte)}
    (h : contribute s a l bs = (t, o)) : t.kept = s.kept := by
  have := contribute_kept s a l bs
  rwa [h] at this

@[simp] theorem tallyResult_kept (s : State) (bs : List Byte) :
    (tallyResult s bs).kept = s.kept := by
  unfold tallyResult
  split <;> simp

@[simp] theorem startTally_kept (s : State) (v : Vote) (step att : Nat) (valid : Bool) (touch : Nat) :
    (startTally s v step att valid touch).kept = s.kept := by
  unfold startTally
  dsimp only
  split <;> (rename_i h; simp [contribute_eq_kept h])

@[simp] theorem setCkpState_kept (s : State) (v : Nat) :
    (setCkpState s v).kept = s.kept := by
  simp [setCkpState]

@[simp] theorem setCut_kept (s : State) (c : Option Cut) :
    (State.setCut s c).kept = s.kept := by
  simp [State.setCut]

@[simp] theorem clearPending_kept (s : State) :
    (clearPending s).kept = s.kept := by
  unfold clearPending
  repeat' (first
    | with_reducible rfl
    | (with_reducible refine (foldl_kept _ (fun s x => ?_) _ _).trans ?_)
    | (simp; done)
    | (with_reducible exact unservable_kept ‹_›)
    | (with_reducible exact write8_kept ‹_›)
    | (with_reducible exact sourceFails_kept ‹_›)
    | split
    | (dsimp only; split))

@[simp] theorem clearOwnPending_kept (s : State) (step : Nat) :
    (clearOwnPending s step).kept = s.kept := by
  simp [clearOwnPending]

@[simp] theorem endCut_kept (s : State) (ok : Bool) :
    (endCut s ok).kept = s.kept := by
  unfold endCut
  split <;> simp

@[simp] theorem postCutActs_kept (s : State) (bs : List Byte) :
    (postCutActs s bs).1.kept = s.kept := by
  unfold postCutActs
  repeat' (first | (simp; done) | split)

@[simp] theorem sendPost_kept (s : State) (ok : Bool) :
    (sendPost s ok).1.kept = s.kept := by
  unfold sendPost
  split
  · dsimp only
    split <;> (rename_i h; simp [contribute_eq_kept h])
  · rfl

@[simp] theorem driveMark_kept (s : State) (xx : DriveOp) :
    (driveMark s xx).1.kept = s.kept := by
  unfold driveMark
  repeat' (first | (simp; done) | split)

@[simp] theorem issueFirst_kept (s : State) (plan : List DriveOp) :
    (issueFirst s plan).kept = s.kept := by
  unfold issueFirst
  split <;> simp

@[simp] theorem goOn_kept (r : State × List DriveOp) : (goOn r).kept = r.1.kept := by
  unfold goOn
  split <;> simp

@[simp] theorem driveRun_kept (s : State) (xx : List DriveOp) :
    (driveRun s xx).kept = s.kept := by
  induction xx generalizing s with
  | nil => rfl
  | cons op t ih =>
    unfold driveRun
    split
    · simp
    · dsimp only
      split
      · simp
      · rw [ih]; simp

@[simp] theorem logDrive_kept (s : State) (slot addr status : Nat) :
    (logDrive s slot addr status).kept = s.kept := by
  simp [logDrive]

@[simp] theorem driveFails_kept (s : State) (status : Nat) :
    (driveFails s status).kept = s.kept := by
  unfold driveFails
  dsimp only
  split
  · split
    · rw [goOn_kept, sendPost_kept]; simp
    · simp
  · simp

theorem driveData_kept {s : State} {op : DriveOp} {bs : List Byte} {t : State} (h : driveData s op bs = some t) : t.kept = s.kept := by
  unfold driveData at h
  revert h
  repeat' (first
    | (simp; done)
    | (intro h; cases h; simp; done)
    | (intro h; simp at h; subst h; simp; done)
    | split
    | (dsimp only; split))

@[simp] theorem driveCount_kept (s : State) (xx : DriveOp) :
    (driveCount s xx).kept = s.kept := by
  unfold driveCount
  split <;> simp

@[simp] theorem driveCompletes_kept (s : State) (status : Nat) (bs : List Byte) :
    (driveCompletes s status bs).kept = s.kept := by
  unfold driveCompletes
  repeat' (first
    | with_reducible rfl
    | (with_reducible refine (foldl_kept _ (fun s x => ?_) _ _).trans ?_)
    | (simp; done)
    | (rw [driveRun_kept, driveData_kept (by assumption)]; simp; done)
    | split
    | (dsimp only; split))

@[simp] theorem driveTimeout_kept (s : State) :
    (driveTimeout s).kept = s.kept := by
  simp [driveTimeout]

@[simp] theorem driveInit_kept (s : State) :
    (driveInit s).kept = s.kept := by
  simp [driveInit]

@[simp] theorem driveRequest_kept (s : State) (a n : Nat) (write : Bool) :
    (driveRequest s a n write).kept = s.kept := by
  unfold driveRequest
  split <;> simp

@[simp] theorem preCutResult_kept (s : State) (bs : List Byte) :
    (preCutResult s bs).kept = s.kept := by
  unfold preCutResult
  split
  · split
    · rfl
    · split
      · simp
      · dsimp only
        split
        · rw [goOn_kept, sendPost_kept]; simp
        · split
          · rw [goOn_kept, sendPost_kept]; simp
          · simp
  · rfl

@[simp] theorem postCutResult_kept (s : State) (bs : List Byte) :
    (postCutResult s bs).kept = s.kept := by
  unfold postCutResult goOn
  split <;> simp

@[simp] theorem startCut_kept (s : State) (flipTime : Nat) :
    (startCut s flipTime).kept = s.kept := by
  unfold startCut
  split
  · split
    · rfl
    · dsimp only
      split <;> (rename_i h; simp [contribute_eq_kept h])
  · rfl

@[simp] theorem cutTimeout_kept (s : State) :
    (cutTimeout s).kept = s.kept := by
  unfold cutTimeout
  split <;> simp

@[simp] theorem refuseRestore_kept (s : State) (unit code : Nat) :
    (refuseRestore s unit code).kept = s.kept := by
  simp [refuseRestore]

@[simp] theorem restoreOp_kept (s : State) (a b host : List Byte) :
    (restoreOp s a b host).kept = s.kept := by
  unfold restoreOp
  repeat' (first | (simp; done) | split)

@[simp] theorem restoreFails_kept (s : State) (r : Restoring) :
    (restoreFails s r).kept = s.kept := by
  simp [restoreFails]

@[simp] theorem fillOp_kept (s : State) :
    (fillOp s).kept = s.kept := by
  simp [fillOp]

@[simp] theorem putStripes_kept (s : State) (stripes : List (Nat × List Byte)) :
    (putStripes s stripes).kept = s.kept := by
  simp [putStripes]

@[simp] theorem fillDone_kept (s : State) (mr : Option (List Byte)) (stripes : List (Nat × List Byte)) :
    (fillDone s mr stripes).kept = s.kept := by
  unfold fillDone
  repeat' (first | (simp; done) | split)

@[simp] theorem refreshCap_kept (s : State) (n : Nat) :
    (refreshCap s n).kept = s.kept := by
  simp [refreshCap]

@[simp] theorem refreshCaps_kept (s : State) :
    (refreshCaps s).kept = s.kept := by
  simp [refreshCaps]

@[simp] theorem lockAt_kept (s : State) (cap : Nat) :
    (lockAt s cap).kept = s.kept := by
  simp [lockAt]

@[simp] theorem powerFast_kept (s : State) (pkg : Nat) :
    (powerFast s pkg).kept = s.kept := by
  simp [powerFast]

@[simp] theorem powerSlow_kept (s : State) (pkg input : Nat) :
    (powerSlow s pkg input).kept = s.kept := by
  simp [powerSlow]

@[simp] theorem rampEval_kept (s : State) (n : Nat) (held : Bool) (level : Nat) :
    (rampEval s n held level).kept = s.kept := by
  simp [rampEval]

@[simp] theorem hintDie_kept (s : State) (n target lead : Nat) :
    (hintDie s n target lead).kept = s.kept := by
  simp [hintDie]

@[simp] theorem heatRec_kept (s : State) (c : Nat) (r : Rec) :
    (heatRec s c r).kept = s.kept := by
  simp [heatRec]

@[simp] theorem hintWindow_kept (s : State) (n : Nat) :
    (hintWindow s n).kept = s.kept := by
  simp [hintWindow]

@[simp] theorem updateTemp_kept (s : State) (d : Nat) :
    (updateTemp s d).kept = s.kept := by
  unfold updateTemp
  split <;> simp

@[simp] theorem sensorRead_kept (s : State) (id temp : Nat) (good : Bool) :
    (sensorRead s id temp good).kept = s.kept := by
  unfold sensorRead
  dsimp only
  rw [updateTemp_kept]
  split
  · rw [kept_mk]; exact wr_kept _ _ _ _
  · split <;> simp

@[simp] theorem thermalEval_kept (s : State) (slow : Bool) :
    (thermalEval s slow).kept = s.kept := by
  simp [thermalEval]

@[simp] theorem pllUnlock_kept (s : State) (d : Nat) :
    (pllUnlock s d).kept = s.kept := by
  simp [pllUnlock]

@[simp] theorem dieSleep_kept (s : State) (n : Nat) :
    (dieSleep s n).kept = s.kept := by
  simp [dieSleep]

@[simp] theorem dieWake_kept (s : State) (n ns : Nat) :
    (dieWake s n ns).kept = s.kept := by
  simp [dieWake]

@[simp] theorem blockOn_kept (s : State) (c : Nat) (b : Block) :
    (blockOn s c b).kept = s.kept := by
  simp [blockOn]

@[simp] theorem markRestart_kept (s : State) (c : Nat) (r : Rec) :
    (markRestart s c r).kept = s.kept := by
  simp [markRestart]

@[simp] theorem sendHold_kept (s : State) :
    (sendHold s).kept = s.kept := by
  simp [sendHold]

@[simp] theorem applyHeldStop_kept (s : State) :
    (applyHeldStop s).kept = s.kept := by
  unfold applyHeldStop
  repeat' (first | (simp; done) | split)

@[simp] theorem beginHold_kept (s : State) (c : Nat) (r : Rec) :
    (beginHold s c r).kept = s.kept := by
  simp [beginHold]

@[simp] theorem holdRec_kept (s : State) (c : Nat) (r : Rec) :
    (holdRec s c r).kept = s.kept := by
  unfold holdRec
  repeat' (first
    | with_reducible rfl
    | (with_reducible refine (foldl_kept _ (fun s x => ?_) _ _).trans ?_)
    | (simp; done)
    | (with_reducible exact unservable_kept ‹_›)
    | (with_reducible exact write8_kept ‹_›)
    | (with_reducible exact sourceFails_kept ‹_›)
    | (with_reducible exact driveData_kept ‹_›)
    | split
    | (dsimp only; split))

@[simp] theorem wardHoldAcked_kept (s : State) :
    (wardHoldAcked s).kept = s.kept := by
  unfold wardHoldAcked
  repeat' (first
    | with_reducible rfl
    | (with_reducible refine (foldl_kept _ (fun s x => ?_) _ _).trans ?_)
    | (simp; done)
    | (with_reducible exact unservable_kept ‹_›)
    | (with_reducible exact write8_kept ‹_›)
    | (with_reducible exact sourceFails_kept ‹_›)
    | (with_reducible exact driveData_kept ‹_›)
    | split
    | (dsimp only; split))

@[simp] theorem stepRec_kept (s : State) (c : Nat) (r : Rec) :
    (stepRec s c r).kept = s.kept := by
  simp [stepRec]

@[simp] theorem startChecks_kept (s : State) :
    (startChecks s).kept = s.kept := by
  simp [startChecks]

@[simp] theorem undefineInactive_kept (s : State) :
    (undefineInactive s).kept = s.kept := by
  simp [undefineInactive]

@[simp] theorem resetStepCounters_kept (s : State) :
    (resetStepCounters s).kept = s.kept := by
  simp [resetStepCounters]

@[simp] theorem applyDeferred_kept (s : State) :
    (applyDeferred s).kept = s.kept := by
  unfold applyDeferred
  repeat' (first
    | with_reducible rfl
    | (with_reducible refine (foldl_kept _ (fun s x => ?_) _ _).trans ?_)
    | (simp; done)
    | (with_reducible exact unservable_kept ‹_›)
    | (with_reducible exact write8_kept ‹_›)
    | (with_reducible exact sourceFails_kept ‹_›)
    | (with_reducible exact driveData_kept ‹_›)
    | split
    | (dsimp only; split))

@[simp] theorem endAttempt_kept (s : State) :
    (endAttempt s).kept = s.kept := by
  simp [endAttempt]

@[simp] theorem sendDeferredCut_kept (s : State) :
    (sendDeferredCut s).kept = s.kept := by
  unfold sendDeferredCut
  split <;> simp

@[simp] theorem rewindCtx_kept (s : State) (c : Nat) :
    (rewindCtx s c).kept = s.kept := by
  have hh : ∀ s c x, (rewindCtx.rewindHeld s c x).kept = s.kept := by
    intro s c x
    unfold rewindCtx.rewindHeld
    split
    · dsimp only
      split <;> simp
    · rfl
  unfold rewindCtx
  dsimp only
  repeat' (first
    | exact hh _ _ _
    | (simp; done)
    | split)

@[simp] theorem rewindStep_kept (s : State) :
    (rewindStep s).kept = s.kept := by
  simp [rewindStep]

@[simp] theorem exhaust_kept (s : State) :
    (exhaust s).kept = s.kept := by
  simp [exhaust]

@[simp] theorem startReplay_kept (s : State) (resume : Nat) :
    (startReplay s resume).kept = s.kept := by
  simp [startReplay]

@[simp] theorem resumeIssue_kept (s : State) :
    (resumeIssue s).kept = s.kept := by
  unfold resumeIssue
  split <;> simp

@[simp] theorem voteLate_kept (s : State) :
    (voteLate s).kept = s.kept := by
  simp [voteLate]

end Sys2Proof.Machine
end

