-- ==== Sys2Proof/Laws/KeptModule.lean ====
section
/-! SUPPORT. Frames of the operations of resets, host, security, package and start-up: what `State.kept` collects is unchanged by each. -/

namespace Sys2Proof.Machine

open Sys2Proof

@[simp] theorem placeFrec_kept (s : State) (off : Nat) (bs : List Byte) :
    (placeFrec s off bs).kept = s.kept := by
  simp [placeFrec]

@[simp] theorem frecSection_kept (s : State) (off : Nat) (bs : List Byte) :
    (frecSection s off bs).1.kept = s.kept := by
  simp [frecSection]

@[simp] theorem frecOpen_kept (s : State) (off len : Nat) :
    (frecOpen s off len).1.kept = s.kept := by
  simp [frecOpen]

@[simp] theorem ctxSection_kept (s : State) :
    (ctxSection s).1.kept = s.kept := by
  unfold ctxSection
  dsimp only
  simp only [kept_mk, kept_eta]
  rw [foldl_kept _ (fun s x => by simp only [kept_mk, kept_eta])]
  simp only [placeFrec_kept]

@[simp] theorem frecSections_kept (s : State) :
    (frecSections s).1.kept = s.kept := by
  unfold frecSections
  dsimp only
  simp only [placeFrec_kept, frecOpen_kept, frecSection_kept, ctxSection_kept]

@[simp] theorem writeRecord_kept (s : State) :
    (writeRecord s).kept = s.kept := by
  simp [writeRecord]

@[simp] theorem faultRecord_kept (s : State) (dom target : Nat) :
    (faultRecord s dom target).kept = s.kept := by
  simp [faultRecord]

@[simp] theorem resetSlots_kept (s : State) (slots : List Nat) :
    (resetSlots s slots).kept = s.kept := by
  simp [resetSlots]

@[simp] theorem loseColls_kept (s : State) :
    (loseColls s).kept = s.kept := by
  simp [loseColls]

@[simp] theorem loseFlights_kept (s : State) :
    (loseFlights s).kept = s.kept := by
  simp [loseFlights]

@[simp] theorem holdStack_kept (s : State) (n : Nat) :
    (holdStack s n).kept = s.kept := by
  simp [holdStack]

@[simp] theorem restoreLoupe_kept (s : State) (n : Nat) :
    (restoreLoupe s n).kept = s.kept := by
  simp [restoreLoupe]

@[simp] theorem lockDie_kept (s : State) (d : Nat) :
    (lockDie s d).kept = s.kept := by
  simp [lockDie]

@[simp] theorem clearDie_kept (s : State) (n : Nat) :
    (clearDie s n).kept = s.kept := by
  simp [clearDie]

@[simp] theorem dieReset_kept (s : State) (n : Nat) :
    (dieReset s n).kept = s.kept := by
  simp [dieReset]

@[simp] theorem clearPort_kept (s : State) (d : Nat) :
    (clearPort s d).kept = s.kept := by
  simp [clearPort]

@[simp] theorem portReset_kept (s : State) (d : Nat) :
    (portReset s d).kept = s.kept := by
  simp [portReset]

@[simp] theorem noteReset_kept (s : State) (dom target cause : Nat) :
    (noteReset s dom target cause).kept = s.kept := by
  simp [noteReset]

@[simp] theorem flushStops_kept (s : State) :
    (flushStops s).kept = s.kept := by
  simp [flushStops]

@[simp] theorem beforeReset_kept (s : State) (dom target : Nat) :
    (beforeReset s dom target).kept = s.kept := by
  simp [beforeReset]

@[simp] theorem request_kept (s : State) (dom : Nat) (count : Field) (f : State → Nat → State) (hf : ∀ s x0, (f s x0).kept = s.kept) :
    (request s dom count f).kept = s.kept := by
  unfold request
  repeat' (first
    | with_reducible rfl
    | (with_reducible refine (foldl_kept _ (fun s x => ?_) _ _).trans ?_)
    | (simp [*]; done)
    | (with_reducible exact unservable_kept ‹_›)
    | (with_reducible exact write8_kept ‹_›)
    | (with_reducible exact sourceFails_kept ‹_›)
    | (with_reducible exact driveData_kept ‹_›)
    | split
    | (dsimp only; split))

@[simp] theorem flushLedger_kept (s : State) :
    (flushLedger s).kept = s.kept := by
  simp [flushLedger]

@[simp] theorem resetDone_kept (s : State) :
    (resetDone s).kept = s.kept := by
  unfold resetDone
  split <;> simp

@[simp] theorem failTakeover_kept (s : State) (cause node : Nat) :
    (failTakeover s cause node).kept = s.kept := by
  unfold failTakeover
  split
  · rfl
  · dsimp only
    refine (logErr_kept _ _ _ _ _ _ _ _).trans ((raise_kept _ _ _ _).trans ?_)
    have h (b : Bool) := (foldl_kept (fun s p => s.undefine (pairBase s.map p b) (pairSize s.map p)) (fun s p => undefine_kept _ _ _) [0, 1, 2]
      (abandonPackets s (· == .takeover))).trans (abandonPackets_kept s _)
    replace h := h ((abandonPackets s (· == .takeover)).on R.FLT_TKO_CFG_BANK 0)
    generalize List.foldl _ _ [0, 1, 2] = v at h ⊢
    exact h

@[simp] theorem smcRestart_kept (s : State) :
    (smcRestart s).kept = s.kept := by
  simp [smcRestart]

@[simp] theorem wdog_kept (s : State) :
    (wdog s).kept = s.kept := by
  simp [wdog]

@[simp] theorem hostFlightFails_kept (s : State) (id code : Nat) :
    (hostFlightFails s id code).kept = s.kept := by
  unfold hostFlightFails
  split <;> simp

@[simp] theorem tongsHostFails_kept (s : State) (slot : Nat) (fetch : Bool) (code : Nat) :
    (tongsHostFails s slot fetch code).kept = s.kept := by
  unfold tongsHostFails
  repeat' (first | (simp; done) | split)

@[simp] theorem holdReadFails_kept (s : State) (c code : Nat) :
    (holdReadFails s c code).kept = s.kept := by
  unfold holdReadFails
  split <;> simp

@[simp] theorem hostRequestFails_kept (s : State) (who : HostAsk) (err : HostErr) :
    (hostRequestFails s who err).kept = s.kept := by
  unfold hostRequestFails
  split <;> simp

@[simp] theorem flushPending_kept (s : State) :
    (flushPending s).kept = s.kept := by
  unfold flushPending
  repeat' (first
    | with_reducible rfl
    | (with_reducible refine (foldl_kept _ (fun s x => ?_) _ _).trans ?_)
    | (simp; done)
    | (with_reducible exact unservable_kept ‹_›)
    | (with_reducible exact write8_kept ‹_›)
    | (with_reducible exact sourceFails_kept ‹_›)
    | (with_reducible exact driveData_kept ‹_›)
    | split
    | (dsimp only; split))

@[simp] theorem gapEnds_kept (s : State) (v : Nat) :
    (gapEnds s v).kept = s.kept := by
  simp [gapEnds]

@[simp] theorem unmask_kept (s : State) (v : Nat) :
    (unmask s v).kept = s.kept := by
  simp [unmask]

@[simp] theorem hostDown_kept (s : State) :
    (hostDown s).kept = s.kept := by
  simp [hostDown]

@[simp] theorem configDefaults_kept (s : State) :
    (configDefaults s).kept = s.kept := by
  simp [configDefaults]

@[simp] theorem hostUp_kept (s : State) (gen width : Nat) :
    (hostUp s gen width).kept = s.kept := by
  simp [hostUp]

@[simp] theorem setHost_kept (s : State) (h : HostLink) :
    (State.setHost s h).kept = s.kept := by
  simp [State.setHost]

@[simp] theorem configWord_kept (s : State) (off : Nat) :
    (configWord s off).2.kept = s.kept := by
  unfold configWord
  repeat' (first
    | with_reducible rfl
    | (with_reducible refine (foldl_kept _ (fun s x => ?_) _ _).trans ?_)
    | (simp; done)
    | (with_reducible exact unservable_kept ‹_›)
    | (with_reducible exact write8_kept ‹_›)
    | (with_reducible exact sourceFails_kept ‹_›)
    | (with_reducible exact driveData_kept ‹_›)
    | split
    | (dsimp only; split))

@[simp] theorem configure_kept (s : State) (req : CfgWrite) :
    (configure s req).kept = s.kept := by
  unfold configure
  split <;> simp

@[simp] theorem configRequest_kept (s : State) (req : CfgWrite) :
    (configRequest s req).kept = s.kept := by
  simp [configRequest]

@[simp] theorem storeParts_kept (s : State) (bs : List Byte) (xx : List (Nat × Nat)) :
    (storeParts s bs xx).kept = s.kept := by
  induction xx generalizing s bs with
  | nil => rfl
  | cons p t ih => unfold storeParts; rw [ih]; simp

@[simp] theorem loadParts_kept (s : State) (xx : List (Nat × Nat)) :
    (loadParts s xx).2.kept = s.kept := by
  induction xx generalizing s with
  | nil => rfl
  | cons p t ih => unfold loadParts; dsimp only; rw [ih]; simp

@[simp] theorem apertureRefused_kept (s : State) (write : Bool) (n : Nat) :
    (apertureRefused s write n).kept = s.kept := by
  simp [apertureRefused]

@[simp] theorem aperture_kept (s : State) (off : Nat) (write : Bool) (n : Nat) (bs : List Byte) (poisoned : Bool) :
    (aperture s off write n bs poisoned).kept = s.kept := by
  unfold aperture
  repeat' (first
    | with_reducible rfl
    | (with_reducible refine (foldl_kept _ (fun s x => ?_) _ _).trans ?_)
    | (simp; done)
    | (with_reducible exact unservable_kept ‹_›)
    | (with_reducible exact write8_kept ‹_›)
    | (with_reducible exact sourceFails_kept ‹_›)
    | (with_reducible exact driveData_kept ‹_›)
    | split
    | (dsimp only; split))

@[simp] theorem refreshSlots_kept (s : State) :
    (refreshSlots s).kept = s.kept := by
  simp [refreshSlots]

@[simp] theorem showImage_kept (s : State) (k : Nat) (img : List Byte) :
    (showImage s k img).kept = s.kept := by
  simp [showImage]

@[simp] theorem spdmAnswer_kept (s : State) (code : Nat) (bs : List Byte) :
    (spdmAnswer s code bs).kept = s.kept := by
  simp [spdmAnswer]

@[simp] theorem spdmError_kept (s : State) (code : Nat) :
    (spdmError s code).kept = s.kept := by
  simp [spdmError]

@[simp] theorem onSpdm_kept (s : State) (need : Nat) (f : State → State) (hf : ∀ s, (f s).kept = s.kept) :
    (onSpdm s need f).kept = s.kept := by
  unfold onSpdm
  repeat' (first
    | with_reducible rfl
    | (with_reducible refine (foldl_kept _ (fun s x => ?_) _ _).trans ?_)
    | (simp [*]; done)
    | (with_reducible exact unservable_kept ‹_›)
    | (with_reducible exact write8_kept ‹_›)
    | (with_reducible exact sourceFails_kept ‹_›)
    | (with_reducible exact driveData_kept ‹_›)
    | split
    | (dsimp only; split))

@[simp] theorem setSpdm_kept (s : State) (n v : Nat) :
    (State.setSpdm s n v).kept = s.kept := by
  simp [State.setSpdm]

@[simp] theorem identitySign_kept (s : State) (msg : List Byte) :
    (identitySign s msg).2.kept = s.kept := by
  simp [identitySign]

@[simp] theorem sensorAnswer_kept (s : State) (n : Nat) :
    (sensorAnswer s n).kept = s.kept := by
  unfold sensorAnswer
  repeat' (first | (simp; done) | split)

@[simp] theorem writeResponse_kept (s : State) (bs : List Byte) :
    (writeResponse s bs).kept = s.kept := by
  simp [writeResponse]

@[simp] theorem mbDone_kept (s : State) (result : Nat) (rsp : List Byte) :
    (mbDone s result rsp).kept = s.kept := by
  simp [mbDone]

@[simp] theorem doorbell_kept (s : State) :
    (doorbell s).kept = s.kept := by
  simp [doorbell]

@[simp] theorem onMailbox_kept (s : State) (op : Nat) (f : State → State) (hf : ∀ s, (f s).kept = s.kept) :
    (onMailbox s op f).kept = s.kept := by
  unfold onMailbox
  repeat' (first
    | with_reducible rfl
    | (with_reducible refine (foldl_kept _ (fun s x => ?_) _ _).trans ?_)
    | (simp [*]; done)
    | (with_reducible exact unservable_kept ‹_›)
    | (with_reducible exact write8_kept ‹_›)
    | (with_reducible exact sourceFails_kept ‹_›)
    | (with_reducible exact driveData_kept ‹_›)
    | split
    | (dsimp only; split))

@[simp] theorem getInfo_kept (s : State) :
    (getInfo s).kept = s.kept := by
  simp [getInfo]

@[simp] theorem clearMapout_kept (s : State) :
    (clearMapout s).kept = s.kept := by
  simp [clearMapout]

@[simp] theorem fwActivate_kept (s : State) :
    (fwActivate s).kept = s.kept := by
  simp [fwActivate]

@[simp] theorem rerouteAll_kept (s : State) :
    (rerouteAll s).kept = s.kept := by
  simp [rerouteAll]

@[simp] theorem dropModule_kept (s : State) (d e m : Nat) :
    (dropModule s d e m).kept = s.kept := by
  simp [dropModule]

@[simp] theorem logCutOff_kept (s : State) (d e m : Nat) :
    (logCutOff s d e m).kept = s.kept := by
  simp [logCutOff]

@[simp] theorem flitLost_kept (s : State) (d e m id : Nat) :
    (flitLost s d e m id).kept = s.kept := by
  unfold flitLost
  split <;> simp

@[simp] theorem edgeFails_kept (s : State) (d e m : Nat) (ids : List Nat) :
    (edgeFails s d e m ids).kept = s.kept := by
  unfold edgeFails
  split <;> simp

@[simp] theorem moduleFails_kept (s : State) (d e m : Nat) (ids : List Nat) :
    (moduleFails s d e m ids).kept = s.kept := by
  unfold moduleFails
  split <;> simp

@[simp] theorem flitError_kept (s : State) (d e m retries : Nat) (ids : List Nat) :
    (flitError s d e m retries ids).kept = s.kept := by
  simp [flitError]

@[simp] theorem setGuestEdge_kept (s : State) (modules : Nat) :
    (setGuestEdge s modules).kept = s.kept := by
  unfold setGuestEdge
  split <;> simp

@[simp] theorem refuseGuest_kept (s : State) (reason : Nat) :
    (refuseGuest s reason).kept = s.kept := by
  simp [refuseGuest]

@[simp] theorem admitGuest_kept (s : State) (d : List Byte) :
    (admitGuest s d).kept = s.kept := by
  simp [admitGuest]

@[simp] theorem guestAdmission_kept (s : State) (partner : Bool) (modules : Nat) (desc : Option (List Byte)) :
    (guestAdmission s partner modules desc).kept = s.kept := by
  unfold guestAdmission
  repeat' (first | (simp; done) | split)

@[simp] theorem readmit_kept (s : State) :
    (readmit s).kept = s.kept := by
  simp [readmit]

@[simp] theorem loseGuestFlights_kept (s : State) :
    (loseGuestFlights s).kept = s.kept := by
  simp [loseGuestFlights]

@[simp] theorem withdrawGuest_kept (s : State) (reason : Nat) :
    (withdrawGuest s reason).kept = s.kept := by
  simp [withdrawGuest]

@[simp] theorem resendBlock_kept (s : State) (seq : Nat) :
    (resendBlock s seq).kept = s.kept := by
  simp [resendBlock]

@[simp] theorem countMessage_kept (s : State) (sent : Bool) (n : Nat) :
    (countMessage s sent n).kept = s.kept := by
  simp [countMessage]

@[simp] theorem toGuest_kept (s : State) (kind tag addr : Nat) (bs : List Byte) :
    (toGuest s kind tag addr bs).kept = s.kept := by
  simp [toGuest]

@[simp] theorem complete_kept (s : State) (tag status : Nat) (bs : List Byte) :
    (complete s tag status bs).kept = s.kept := by
  simp [complete]

@[simp] theorem refuseRequest_kept (s : State) :
    (refuseRequest s).kept = s.kept := by
  simp [refuseRequest]

theorem guestWay_bad_kept {s u : State} {w : Bool} {a n : Nat} (h : guestWay s w a n = .bad u) : u.kept = s.kept := by
  unfold guestWay at h
  split at h
  · cases h
    simp
  · split at h
    · cases h
      simp
    · split at h
      · cases h
        simp
      · split at h
        · cases h
          simp
        · split at h <;> cases h

@[simp] theorem readMessage_kept (s : State) (dir : GuestDir) (tag addr len : Nat) :
    (readMessage s dir tag addr len).kept = s.kept := by
  unfold readMessage
  repeat' (first
    | with_reducible rfl
    | (with_reducible refine (foldl_kept _ (fun s x => ?_) _ _).trans ?_)
    | (simp; done)
    | (rw [complete_kept, guestWay_bad_kept (by assumption)]; simp; done)
    | split
    | (dsimp only; split))

@[simp] theorem writeMessage_kept (s : State) (dir : GuestDir) (tag addr : Nat) (data : List Byte) :
    (writeMessage s dir tag addr data).kept = s.kept := by
  unfold writeMessage
  repeat' (first
    | with_reducible rfl
    | (with_reducible refine (foldl_kept _ (fun s x => ?_) _ _).trans ?_)
    | (simp; done)
    | (rw [guestWay_bad_kept (by assumption)]; simp; done)
    | split
    | (dsimp only; split))

@[simp] theorem completionMessage_kept (s : State) (tag : Nat) (data : List Byte) :
    (completionMessage s tag data).kept = s.kept := by
  simp [completionMessage]

@[simp] theorem recordMessage_kept (s : State) (c : Nat) (data : List Byte) :
    (recordMessage s c data).kept = s.kept := by
  simp [recordMessage]

@[simp] theorem guestCtl_kept (s : State) (c v : Nat) :
    (guestCtl s c v).kept = s.kept := by
  simp [guestCtl]

@[simp] theorem guestCommand_kept (s : State) (c off v : Nat) :
    (guestCommand s c off v).kept = s.kept := by
  unfold guestCommand
  split <;> simp

@[simp] theorem guestWrite_kept (s : State) (off width v : Nat) :
    (guestWrite s off width v).kept = s.kept := by
  simp [guestWrite]

@[simp] theorem guestRead_kept (s : State) (off width : Nat) :
    (guestRead s off width).kept = s.kept := by
  simp [guestRead]

@[simp] theorem regMessage_kept (s : State) (dir : GuestDir) (off width : Nat) (val : Option Nat) :
    (regMessage s dir off width val).kept = s.kept := by
  unfold regMessage
  repeat' (first | (simp; done) | split)

@[simp] theorem checkCertificate_kept (s : State) :
    (checkCertificate s).kept = s.kept := by
  simp [checkCertificate]

@[simp] theorem runImage_kept (s : State) (k : Nat) :
    (runImage s k).kept = s.kept := by
  simp [runImage]

@[simp] theorem enterRecovery_kept (s : State) :
    (enterRecovery s).kept = s.kept := by
  simp [enterRecovery]

@[simp] theorem readLedger_kept (s : State) :
    (readLedger s).kept = s.kept := by
  simp [readLedger]

@[simp] theorem freeMask_kept (s : State) (mask : Nat) :
    (freeMask s mask).2.kept = s.kept := by
  simp [freeMask]

@[simp] theorem trainEdge_kept (failed diff : List (Nat × Nat × Nat)) (s : State) (d e : Nat) :
    (trainEdge failed diff s d e).kept = s.kept := by
  unfold trainEdge
  repeat' (first
    | with_reducible rfl
    | (with_reducible refine (foldl_kept _ (fun s x => ?_) _ _).trans ?_)
    | (simp; done)
    | (with_reducible exact unservable_kept ‹_›)
    | (with_reducible exact write8_kept ‹_›)
    | (with_reducible exact sourceFails_kept ‹_›)
    | (with_reducible exact driveData_kept ‹_›)
    | split
    | (dsimp only; split))

@[simp] theorem trainEdges_kept (s : State) (failed diff : List (Nat × Nat × Nat)) :
    (trainEdges s failed diff).kept = s.kept := by
  simp [trainEdges]

@[simp] theorem releaseDie_kept (s : State) (d : Nat) :
    (releaseDie s d).kept = s.kept := by
  simp [releaseDie]

@[simp] theorem releaseDies_kept (s : State) (failed diff : List (Nat × Nat × Nat)) :
    (releaseDies s failed diff).kept = s.kept := by
  simp [releaseDies]

@[simp] theorem checkIdentity_kept (s : State) (d : Nat) :
    (checkIdentity s d).kept = s.kept := by
  simp [checkIdentity]

@[simp] theorem logUnreachable_kept (s : State) (d : Nat) :
    (logUnreachable s d).kept = s.kept := by
  simp [logUnreachable]

@[simp] theorem bringUp_kept (s : State) (failed diff : List (Nat × Nat × Nat)) :
    (bringUp s failed diff).kept = s.kept := by
  simp [bringUp]

@[simp] theorem restarted_kept (s : State) :
    (restarted s).kept = s.kept := by
  simp [restarted]

@[simp] theorem smcBoot_kept (s : State) (failed diff : List (Nat × Nat × Nat)) :
    (smcBoot s failed diff).kept = s.kept := by
  have h := (refreshSlots_kept (checkCertificate s)).trans (checkCertificate_kept s)
  unfold smcBoot
  generalize refreshSlots (checkCertificate s) = t at h ⊢
  extract_lets st
  by_cases hs : st = 1 ∨ st = 2
  · rw [if_pos hs]
  · rw [if_neg hs]
    cases hb : bootSlotOf t with
    | none => exact (enterRecovery_kept _).trans h
    | some k =>
      have h2 := (runImage_kept t k).trans h
      dsimp only
      generalize runImage t k = u at h2 ⊢
      by_cases hu : u.smc.released
      · rw [if_pos hu]
        exact (restarted_kept _).trans h2
      · rw [if_neg hu]
        exact (bringUp_kept _ _ _).trans h2

@[simp] theorem takeoverLoad_kept (s : State) :
    (takeoverLoad s).kept = s.kept := by
  simp [takeoverLoad]

@[simp] theorem takeoverFails_kept (s : State) (cause : TkoCause) :
    (takeoverFails s cause).kept = s.kept := by
  unfold takeoverFails
  split <;> simp

@[simp] theorem takeTmp_kept (s : State) :
    (takeTmp s).kept = s.kept := by
  simp [takeTmp]

@[simp] theorem takeAnv_kept (s : State) (i : Nat) :
    (takeAnv s i).kept = s.kept := by
  simp [takeAnv]

@[simp] theorem takeSwg_kept (s : State) (i : Nat) :
    (takeSwg s i).kept = s.kept := by
  simp [takeSwg]

@[simp] theorem takeSpk_kept (s : State) :
    (takeSpk s).kept = s.kept := by
  simp [takeSpk]

@[simp] theorem takeCtx_kept (s : State) (c : Nat) :
    (takeCtx s c).kept = s.kept := by
  simp [takeCtx]

@[simp] theorem takeLnk_kept (s : State) (k : Nat) :
    (takeLnk s k).kept = s.kept := by
  simp [takeLnk]

@[simp] theorem takeSlc_kept (s : State) :
    (takeSlc s).kept = s.kept := by
  simp [takeSlc]

@[simp] theorem timeRole_kept (s : State) (was : Bool) :
    (timeRole s was).kept = s.kept := by
  simp [timeRole]

@[simp] theorem takeTime_kept (s : State) :
    (takeTime s).kept = s.kept := by
  simp [takeTime]

@[simp] theorem takeWld_kept (s : State) (i : Nat) :
    (takeWld s i).kept = s.kept := by
  simp [takeWld]

@[simp] theorem takeAlg_kept (s : State) :
    (takeAlg s).kept = s.kept := by
  simp [takeAlg]

@[simp] theorem takeTng_kept (s : State) :
    (takeTng s).kept = s.kept := by
  simp [takeTng]

@[simp] theorem takeTch_kept (s : State) :
    (takeTch s).kept = s.kept := by
  simp [takeTch]

@[simp] theorem takeCkp_kept (s : State) :
    (takeCkp s).kept = s.kept := by
  simp [takeCkp]

@[simp] theorem bstEnd_kept (s : State) (fails : Nat) :
    (bstEnd s fails).kept = s.kept := by
  simp [bstEnd]

@[simp] theorem bstStart_kept (s : State) :
    (bstStart s).kept = s.kept := by
  unfold bstStart
  repeat' (first
    | with_reducible rfl
    | (with_reducible refine (foldl_kept _ (fun s x => ?_) _ _).trans ?_)
    | (simp; done)
    | (with_reducible exact unservable_kept ‹_›)
    | (with_reducible exact write8_kept ‹_›)
    | (with_reducible exact sourceFails_kept ‹_›)
    | (with_reducible exact driveData_kept ‹_›)
    | split
    | (dsimp only; split))

@[simp] theorem testPort_kept (s : State) (d : Nat) :
    (testPort s d).kept = s.kept := by
  simp [testPort]

@[simp] theorem afterTest_kept (s : State) (t : Nat) :
    (afterTest s t).kept = s.kept := by
  simp [afterTest]

@[simp] theorem testFails_kept (s : State) (t : Nat) :
    (testFails s t).kept = s.kept := by
  simp [testFails]

@[simp] theorem bstDone_kept (s : State) (fails : Nat) :
    (bstDone s fails).kept = s.kept := by
  simp [bstDone]

end Sys2Proof.Machine
end

