-- ==== Sys2Proof/Laws/KeptRest.lean ====
section
/-! SUPPORT. Frames of the few operations that change what `State.kept` collects: each says which part it may change, and what
that part becomes where a statement needs it. -/

namespace Sys2Proof.Machine

open Sys2Proof

/-- What `State.kept` collects, but for the progress of the steps; ACTIVE_BANK stays. -/
def State.flat (s : State) : Kept := { s.kept with prog := Tmp.reset }

/-- The same without ACTIVE_BANK. -/
def State.rest (s : State) : Kept := { s.flat with bank := false }

theorem flat_of_kept {s t : State} (h : t.kept = s.kept) : t.flat = s.flat := by
  unfold State.flat
  rw [h]

theorem rest_of_flat {s t : State} (h : t.flat = s.flat) : t.rest = s.rest := by
  unfold State.rest
  rw [h]


theorem rest_of_kept {s t : State} (h : t.kept = s.kept) : t.rest = s.rest := rest_of_flat (flat_of_kept h)

/-! The progress of the steps -/

theorem flipAct_rest (s : State) (time : Nat) (cap : Option Nat) (late : Bool) : (flipAct s time cap late).rest = s.rest := by
  unfold flipAct State.rest State.flat
  dsimp only
  rw [applyHeldStop_kept, sendDeferredCut_kept, startCut_kept, foldl_kept _ (fun s c => by split <;> simp), raiseIf_kept, raise_kept,
    wr_kept, applyDeferred_kept, resetStepCounters_kept, endAttempt_kept, wr_kept, dropHeldHeals_kept, undefineInactive_kept]
  split
  · rw [lockAt_kept]
    rfl
  · rfl

theorem flipDue_rest (s : State) : (flipDue s).rest = s.rest := by
  unfold flipDue
  split
  · split
    · exact flipAct_rest _ _ _ _
    · rfl
  · rfl

theorem nextAtt_flat (s : State) : (nextAtt s).flat = s.flat := rfl

theorem discardAct_flat (s : State) (r : Reason) (resume : Nat) (result : Bool) : (discardAct s r resume result).flat = s.flat := by
  have h : ∀ t : State, t.flat = s.flat → ∀ a : Attempt, ({ t with attempt := a } : State).flat = s.flat := fun t ht a => ht
  have hs : ∀ t u : State, t.flat = s.flat → u.kept = t.kept → u.flat = s.flat := fun t u ht hu => (flat_of_kept hu).trans ht
  unfold discardAct
  extract_lets a t s1 s2 x1 s3 s4 s5 s6 x2 x3 s7
  have h1 : s1.flat = s.flat := (flat_of_kept (rewindStep_kept _)).trans rfl
  have h2 : s2.flat = s.flat := (nextAtt_flat _).trans (hs _ _ h1 (undefineInactive_kept _))
  have h3 : s3.flat = s.flat := h _ h2 _
  have h6 : s6.flat = s.flat := hs _ _ h3 (by simp [s6, s5, s4])
  have h7 : s7.flat = s.flat := by
    refine hs _ _ h6 ?_
    show (if _ then _ else _ : State).kept = _
    repeat' split
    all_goals first
      | (simp; done)
      | rfl
  exact hs _ _ h7 (by simp)

theorem resumeReplay_flat (s : State) : (resumeReplay s).flat = s.flat := by
  have h : ∀ t : State, t.flat = s.flat → ∀ (a : Attempt) (n : Nat), ({ t with tmp := { t.tmp with replayCount := n }, attempt := a } : State).flat = s.flat :=
    fun t ht a n => ht
  have hs : ∀ t u : State, t.flat = s.flat → u.kept = t.kept → u.flat = s.flat := fun t u ht hu => (flat_of_kept hu).trans ht
  unfold resumeReplay
  split
  · extract_lets done s1 a x1 x2 s2
    have h1 : s1.flat = s.flat := by
      show (if _ then _ else _ : State).flat = _
      split
      · rfl
      · refine hs _ _ ?_ ((applyDeferred_kept _).trans ((resetStepCounters_kept _).trans (endAttempt_kept _)))
        refine (nextAtt_flat _).trans (flat_of_kept ?_)
        simp
    have h2 : s2.flat = s.flat := h _ h1 _ _
    exact hs _ _ h2 (by simp)
  · rfl

theorem alignTmp_flat (s : State) : (alignTmp s).flat = s.flat := rfl

theorem takeoverRealign_flat (s : State) : (takeoverRealign s).flat = s.flat := by
  unfold takeoverRealign
  split
  · exact flat_of_kept (by simp)
  · exact (alignTmp_flat _).trans (flat_of_kept (commitApply_kept _ _ _))

theorem takeFlt_flat (s : State) : (takeFlt s).flat = s.flat := by
  unfold takeFlt
  repeat' (first
    | exact takeoverRealign_flat _
    | (refine flat_of_kept ?_; simp; done)
    | split)

theorem takeApply_flat (s : State) (p : Page) (i : Nat) : (takeApply s p i).flat = s.flat := by
  unfold takeApply
  repeat' (first
    | exact takeFlt_flat _
    | (refine flat_of_kept ?_; simp; done)
    | rfl
    | split)

theorem voteResult_rest (s : State) (bs : List Byte) : (voteResult s bs).rest = s.rest := by
  unfold voteResult
  dsimp only
  split
  · split
    · split
      · exact flipAct_rest _ _ _ _
      · rfl
    · split
      · exact (rest_of_kept (startTally_kept _ _ _ _ _ _)).trans (rest_of_flat (discardAct_flat _ _ _ _))
      · exact rest_of_flat (discardAct_flat _ _ _ _)
  · rfl

theorem resultActs_rest (s : State) (tree : Nat) (bs : List Byte) : (resultActs s tree bs).rest = s.rest := by
  unfold resultActs
  split
  · exact voteResult_rest _ _
  · refine rest_of_kept ?_
    repeat' (first
      | (simp; done)
      | split)

theorem resultActs_kept (s : State) {tree : Nat} (bs : List Byte) (h : tree ≠ 0) : (resultActs s tree bs).kept = s.kept := by
  unfold resultActs
  rw [if_neg h]
  repeat' (first
    | (simp; done)
    | split)

theorem sendVote_rest (s : State) : (sendVote s).rest = s.rest := by
  unfold sendVote
  split
  · dsimp only
    split
    · rename_i h
      exact (voteResult_rest _ _).trans (rest_of_kept (by simp [contribute_eq_kept h]))
    · rename_i h
      exact rest_of_kept (by simp [contribute_eq_kept h])
  · rfl

theorem deliverVote_rest (s : State) (f : Nat) (p : Packet) : (deliverVote s f p).1.rest = s.rest := by
  unfold deliverVote
  dsimp only
  split
  · split
    · rename_i h
      exact (resultActs_rest _ _ _).trans (rest_of_kept (contribute_eq_kept h))
    · rename_i h
      exact rest_of_kept (contribute_eq_kept h)
  · rfl

theorem deliverResult_rest (only : Nat → Bool) (s : State) (f : Nat) (p : Packet) : (deliverResult only s f p).1.rest = s.rest := by
  unfold deliverResult
  dsimp only
  split
  · exact (resultActs_rest _ _ _).trans (rest_of_kept (by simp))
  · rfl

theorem deliverResult_kept (only : Nat → Bool) (h : only 0 = false) (s : State) (f : Nat) (p : Packet) :
    (deliverResult only s f p).1.kept = s.kept := by
  unfold deliverResult
  dsimp only
  split
  · rename_i hp
    refine (resultActs_kept _ _ fun h0 => ?_).trans (by simp)
    rw [h0] at hp
    simp [h] at hp
  · rfl

theorem receiveSeq_rest (s : State) (plane : Nat) (c : PClass) (p : Packet) (deliver : Delivery)
    (hdeliver : ∀ s f p, (deliver s f p).1.rest = s.rest) : (receiveSeq s plane c p deliver).rest = s.rest := by
  unfold receiveSeq
  split
  · rfl
  · split
    · exact rest_of_kept (checkPacket_drop_kept (by assumption))
    · rename_i h
      refine rest_of_kept ?_
      rw [← checkPacket_retired_kept h]
      split <;> simp
    · rename_i t h
      have ht := rest_of_kept (checkPacket_pass_kept h)
      rw [← ht]
      split
      · exact rest_of_kept (by simp)
      · repeat' split
        · exact rest_of_kept (by simp)
        · rfl
        · rfl
        · exact rest_of_kept (by simp)
        · refine Eq.trans (rest_of_kept ?_) (hdeliver t p.flow p)
          dsimp only
          rw [runHeld_kept, applyVerdict_kept]

theorem receiveWeld_rest (s : State) (plane kind : Nat) (p : Packet) (deliver : Delivery)
    (hdeliver : ∀ s f p, (deliver s f p).1.rest = s.rest) : (receiveWeld s plane kind p deliver).rest = s.rest := by
  unfold receiveWeld
  split
  · refine receiveSeq_rest _ _ _ _ _ fun s f p => ?_
    have h : (weldTag s f p (fun s => deliver s f p)).1.rest = s.rest := by
      unfold weldTag
      repeat' (first
        | exact hdeliver _ _ _
        | rfl
        | split)
      exact rest_of_kept (by simp)
    dsimp only
    split
    · exact (rest_of_kept (by simp)).trans h
    · exact h
  · rfl

theorem restoreDone_rest (s : State) (ms wc : Option (List Byte)) : (restoreDone s ms wc).rest = s.rest := by
  unfold restoreDone
  split
  · rfl
  · split
    · dsimp only
      split
      · exact rest_of_kept (by simp)
      · refine (rest_of_kept (raise_kept _ _ _ _)).trans ((rest_of_kept (setCkpState_kept _ _)).trans ((rest_of_kept (wr_kept _ _ _ _)).trans
          ((rest_of_kept (wr_kept _ _ _ _)).trans ?_)))
        have h : ∀ t : State, t.kept = s.kept → ∀ (x : Tmp) (a : Attempt) (c : Ckp),
            ({ t with tmp := x, attempt := a, ckp := c } : State).rest = s.rest := by
          intro t ht x a c
          rw [← rest_of_kept ht]
          rfl
        refine h _ ?_ _ _ _
        split <;> simp
    · exact rest_of_kept (by simp)

theorem takeoverDone_rest (s : State) (ms mr wc : List Byte) (hold wardHold : Option (List Byte)) :
    (takeoverDone s ms mr wc hold wardHold).rest = s.rest := by
  unfold takeoverDone
  split
  · rfl
  · have h : ∀ t : State, t.kept = s.kept → ∀ (x : Tmp) (a : Attempt),
        ({ t with tmp := x, attempt := a } : State).rest = s.rest := by
      intro t ht x a
      rw [← rest_of_kept ht]
      rfl
    have hm : ∀ (o : Option (List Byte)) (t : State) (f : List Byte → State), t.kept = s.kept → (∀ b, (f b).kept = t.kept) →
        (match o with | some b => f b | none => t).kept = s.kept := by
      intro o t f ht hf
      split
      · exact (hf _).trans ht
      · exact ht
    have hr : ∀ (o : Option (List Byte)) (t : State) (f : List Byte → State), t.rest = s.rest → (∀ b, (f b).kept = t.kept) →
        (match o with | some b => f b | none => t).rest = s.rest := by
      intro o t f ht hf
      split
      · exact (rest_of_kept (hf _)).trans ht
      · exact ht
    extract_lets s1 b a w ms mr wc s2 s3 s4 n s5 valid x1 x2 s6 s7 s8 s9
    have h2 : s2.kept = s.kept := by simp [s2, s1]
    have h3 : s3.kept = s.kept := hm _ _ _ h2 fun _ => store_kept _ _ _
    have h4 : s4.kept = s.kept := hm _ _ _ h3 fun _ => store_kept _ _ _
    have h6 : s6.rest = s.rest := (show s6.rest = s4.rest from rfl).trans (rest_of_kept h4)
    have h7 : s7.rest = s.rest := hr _ _ _ h6 fun _ => by simp
    exact (rest_of_kept (t := raise (s9.wr R.FLT_TKO_TIME_TIME 0 s9.now) .FLT 0 14) (s := s7) (by simp [s9, s8])).trans h7

theorem chipReset_rest (s : State) : (chipReset s).rest = s.rest := by
  unfold chipReset
  dsimp only
  refine (rest_of_kept (emit_kept _ _)).trans ((rest_of_kept (foldl_kept _ (fun _ _ => wr_kept _ _ _ _) _ _)).trans ?_)
  refine (rest_of_kept (wr_kept _ _ _ _)).trans ((rest_of_kept (wr_kept _ _ _ _)).trans ((rest_of_kept (undefine_kept _ _ _)).trans ?_))
  rfl

theorem perst_rest (s : State) : (perst s).rest = s.rest := by
  unfold perst
  refine (chipReset_rest _).trans (rest_of_kept ?_)
  simp

/-! The address map -/

theorem trainAll_map (s : State) (rs : List StackReport) (seq : Nat) :
    (trainAll s rs seq).kept = { s.kept with map := AddrMap.coldDefault seq } := by
  have h : ∀ t : State, t.kept = s.kept → ∀ (m : AddrMap) (l : List Heal),
      ({ t with map := m, heals := l } : State).kept = { s.kept with map := m } := by
    intro t ht m l
    rw [← ht]
    rfl
  unfold trainAll
  refine h _ ?_ _ _
  split
  · rw [kept_mk, kept_eta, foldl_kept _ (fun _ _ => trainStack_kept _ _ _)]
  · rw [zero_kept, foldl_kept _ (fun _ _ => trainStack_kept _ _ _)]

theorem hbmRetrain_map (s : State) (reports : List StackReport) :
    (hbmRetrain s reports).kept = { s.kept with map := (hbmRetrain s reports).map } := by
  have h : (hbmRetrain s reports).map = (hbmRetrain s reports).kept.map := rfl
  rw [h]
  unfold hbmRetrain
  split
  · simp
  · simp [trainAll_map]

theorem hbmTrain_map (s : State) (reports : List StackReport) :
    (hbmTrain s reports).kept = { s.kept with map := (hbmTrain s reports).map } := by
  have h : (hbmTrain s reports).map = (hbmTrain s reports).kept.map := rfl
  rw [h]
  unfold hbmTrain
  split
  · dsimp only
    split <;> simp [trainAll_map]
  · rfl

theorem mapSet_map (s : State) : (mapSet s).kept = { s.kept with map := (mapSet s).map } := by
  have h : (mapSet s).map = (mapSet s).kept.map := rfl
  have hk : ∀ t : State, t.kept = s.kept → ∀ m : AddrMap, ({ t with map := m } : State).kept = { s.kept with map := m } := by
    intro t ht m
    rw [← ht]
    rfl
  rw [h]
  unfold mapSet
  dsimp only
  split
  · simp
  · rw [mbDone_kept, hk]
    split <;> simp

theorem onMailbox_map (s : State) (code : Nat) (f : State → State) (hf : ∀ s, (f s).kept = { s.kept with map := (f s).map }) :
    (onMailbox s code f).kept = { s.kept with map := (onMailbox s code f).map } := by
  unfold onMailbox
  repeat' (first
    | rfl
    | exact hf _
    | split)

/-! Power and the latched trip -/

theorem mainOff_on (s : State) : (mainOff s).kept = { s.kept with on := false } := by
  unfold mainOff
  split
  · dsimp only
    rw [emit_kept, undefine_kept]
    rfl
  · rename_i h
    have h : s.power.on = false := by simpa using h
    show s.kept = { s.kept with on := false }
    rw [← h]
    rfl

theorem standbyOff_trip (s : State) : (standbyOff s).kept = { s.kept with trip := none } := by
  unfold standbyOff
  dsimp only
  split
  · rw [emit_kept]
    rfl
  · rfl

theorem thermalTrip_trip (s : State) (id temp : Nat) :
    (thermalTrip s id temp).kept = s.kept ∨
      (thermalTrip s id temp).kept = { s.kept with on := false, trip := some (id, temp, s.now) } := by
  unfold thermalTrip
  dsimp only
  split
  · exact .inl rfl
  · refine .inr ?_
    rw [emit_kept, undefine_kept]
    rfl

theorem powerOn_kept (s : State) :
    (powerOn s).kept = s.kept ∨
      (s.power.on = false ∧ s.power.trip = none ∧
        (powerOn s).kept = { s.kept with clock := 0, map := AddrMap.coldDefault 0, bank := false, prog := Tmp.reset.progress, on := true }) := by
  unfold powerOn
  split
  · exact .inl rfl
  · rename_i h
    have ho : s.power.on = false := by
      cases ho : s.power.on with
      | false => rfl
      | true => exact absurd (by simp [ho]) h
    have ht : s.power.trip = none := by
      cases ht : s.power.trip with
      | none => rfl
      | some x => exact absurd (by simp [ht]) h
    refine .inr ⟨ho, ht, ?_⟩
    rw [emit_kept]
    have e : (coldReset s).kept = { s.kept with clock := 0, map := AddrMap.coldDefault 0, bank := false, prog := Tmp.reset.progress, on := true, trip := none } := rfl
    rw [e, ← ht]
    rfl

/-! Fuses and image slots -/

theorem svnCommit_fuse (s : State) : ∃ n, s.smc.fuseSvn ≤ n ∧ (s.smc.fuseSvn ≤ 64 → n ≤ 64) ∧ (svnCommit s).kept = { s.kept with fuseSvn := n } := by
  have h0 : s.kept = { s.kept with fuseSvn := s.smc.fuseSvn } := rfl
  unfold svnCommit
  dsimp only
  split
  · exact ⟨_, Nat.le_refl _, id, by rw [mbDone_kept]; exact h0⟩
  · split
    · exact ⟨_, Nat.le_refl _, id, by rw [mbDone_kept]; exact h0⟩
    · exact ⟨max s.smc.fuseSvn (s.rd R.SEC_SVN_IMAGE_SVN 0), Nat.le_max_left _ _, fun _ => by omega, by rw [mbDone_kept]; rfl⟩

theorem keyRevoke_fuse (s : State) :
    (keyRevoke s).kept = s.kept ∨ ∃ n < 4, (keyRevoke s).kept = { s.kept with revoked := s.smc.revoked ||| 2 ^ n } := by
  unfold keyRevoke
  dsimp only
  split
  · refine .inr ⟨bits (fieldAt (mbRequest s) 0 1) 0 2, ?_, ?_⟩
    · exact Nat.mod_lt _ (by decide)
    · rw [mbDone_kept]
      rfl
  · exact .inl (mbDone_kept _ _ _)

theorem setSlotBytes_kept (s : State) (k : Nat) (bs : List Byte) :
    (setSlotBytes s k bs).kept = { s.kept with slotA := (setSlotBytes s k bs).smc.slotA, slotB := (setSlotBytes s k bs).smc.slotB } := by
  unfold setSlotBytes
  split <;> rfl

theorem flashImage_slots (s : State) (img : List Byte) (ok : Bool) :
    ∃ a b, (flashImage s img ok).kept = { s.kept with slotA := a, slotB := b } := by
  unfold flashImage
  dsimp only
  split
  · refine ⟨(setSlotBytes s (stageSlot s) img).smc.slotA, (setSlotBytes s (stageSlot s) img).smc.slotB, ?_⟩
    rw [← setSlotBytes_kept, ← refreshSlots_kept (setSlotBytes s (stageSlot s) img)]
    split <;> simp
  · let t : State := { s with free := s.free + 1, smc := { s.smc with staged := false } }
    let bs := (List.range img.length).map (Config.freeByte (s.free + 1))
    refine ⟨(setSlotBytes t (stageSlot s) bs).smc.slotA, (setSlotBytes t (stageSlot s) bs).smc.slotB, ?_⟩
    rw [mbDone_kept, refreshSlots_kept]
    exact setSlotBytes_kept t (stageSlot s) bs

theorem fwStage_slots (s : State) (image : HostErr ⊕ List Byte) (ok : Bool) :
    ∃ a b, (fwStage s image ok).kept = { s.kept with slotA := a, slotB := b } := by
  have h0 : s.kept = { s.kept with slotA := s.smc.slotA, slotB := s.smc.slotB } := rfl
  unfold fwStage
  dsimp only
  split
  · exact ⟨_, _, (mbDone_kept _ _ _).trans h0⟩
  · split
    · exact ⟨_, _, (by simp : _ = s.kept).trans h0⟩
    · split
      · exact ⟨_, _, (by simp : _ = s.kept).trans h0⟩
      · split
        · exact ⟨_, _, (by simp : _ = s.kept).trans h0⟩
        · obtain ⟨a, b, h⟩ := flashImage_slots (s.inc R.HIF_RD_BYTES_BYTES 0 (fieldAt (mbRequest s) 8 4)) (List.take (fieldAt (mbRequest s) 8 4) _) ok
          exact ⟨a, b, h.trans (by rw [inc_kept])⟩

end Sys2Proof.Machine
end

