-- ==== Sys2Proof/Laws/Outcomes.lean ====
section
/-! SUPPORT. What holds of every next state of an outcome, through the shapes that the commands share. -/

namespace Sys2Proof.Machine

open Sys2Proof

/-- Every next state of an outcome has the property `P`. -/
def Keeps (P : State → Prop) (o : Outcome) : Prop := ∀ t, o = .next t → P t

/-- A command of a module with power has its effect. -/
theorem live_on {s : State} (h : s.power.on = true) (t : State) : live s t = .next t := by
  unfold live
  rw [if_pos h]

theorem onUnit_on {s : State} {u n : Nat} (h : s.power.on = true) (hu : u < n) (t : State) : onUnit s u n t = .next t := by
  unfold onUnit
  rw [if_pos hu, live_on h]

theorem onRec_on {s : State} {c op : Nat} {r : Rec} (h : s.power.on = true) (hc : c < 64) (hr : curRec s c op = some r) (f : Rec → State) :
    onRec s c op f = .next (f r) := by
  unfold onRec
  rw [hr, onUnit_on h hc]

theorem keeps_next {P : State → Prop} {t : State} (h : P t) : Keeps P (.next t) := fun _ e => by
  cases e
  exact h

theorem keeps_fault {P : State → Prop} {f : Fault} : Keeps P (.fault f) := fun _ e => by cases e

theorem keeps_live {P : State → Prop} {s t : State} (hs : P s) (ht : P t) : Keeps P (live s t) := by
  refine keeps_next ?_
  split
  · exact ht
  · exact hs

theorem keeps_unit {P : State → Prop} {s t : State} {u n : Nat} (hs : P s) (ht : P t) : Keeps P (onUnit s u n t) := by
  unfold onUnit
  split
  · exact keeps_live hs ht
  · exact keeps_fault

theorem keeps_rec {P : State → Prop} {s : State} {c opc : Nat} {f : Rec → State} (hs : P s) (hf : ∀ r, P (f r)) :
    Keeps P (onRec s c opc f) := by
  unfold onRec
  refine keeps_unit hs ?_
  repeat' (first
    | exact hs
    | exact hf _
    | split)

theorem keeps_weld {P : State → Prop} {s : State} {c op : Nat} (hs : P s) (hf : ∀ r, P (weldRec s c r)) : Keeps P (onWeld s c op) := by
  unfold onWeld
  refine keeps_rec hs fun r => ?_
  split
  · exact hf r
  · exact hs

theorem keeps_tongs {P : State → Prop} {s : State} {c op : Nat} (hs : P s) (hf : ∀ r, P (tongsRec s c r)) : Keeps P (onTongs s c op) := by
  unfold onTongs
  refine keeps_rec hs fun r => ?_
  split
  · exact hf r
  · exact hs

end Sys2Proof.Machine
end

