-- ==== Sys2Proof/Laws/CommandsKept.lean ====
section
/-! SUPPORT. Frames of the commands: what `State.kept` collects is unchanged by each but the few at the end, which change one part. -/

namespace Sys2Proof.Machine

open Sys2Proof

theorem execRegWrite_kept (who : Writer) (off width : Nat) (full : Bool) (val : Nat) (s : State) : Keeps (fun t => t.kept = s.kept) (execRegWrite who off width full val s) := keeps_live rfl (by simp)

theorem execApply_kept (slot : Nat) (s : State) : Keeps (fun t => t.kept = s.kept) (execApply slot s) := by
  unfold execApply
  split
  · exact keeps_live rfl (by simp)
  · exact keeps_fault

theorem execArmDiscard_kept (slot : Nat) (s : State) : Keeps (fun t => t.kept = s.kept) (execArmDiscard slot s) := by
  unfold execArmDiscard
  split
  · exact keeps_live rfl (by simp)
  · exact keeps_fault

theorem execErrlogClear_kept (slot : Nat) (s : State) : Keeps (fun t => t.kept = s.kept) (execErrlogClear slot s) := by
  unfold execErrlogClear
  split
  · exact keeps_live rfl (by simp)
  · exact keeps_fault

theorem execEvtStsClear_kept (slot mask : Nat) (s : State) : Keeps (fun t => t.kept = s.kept) (execEvtStsClear slot mask s) := by
  unfold execEvtStsClear
  split
  · exact keeps_live rfl (by simp)
  · exact keeps_fault

theorem execEvtForce_kept (slot mask : Nat) (s : State) : Keeps (fun t => t.kept = s.kept) (execEvtForce slot mask s) := by
  unfold execEvtForce
  split
  · exact keeps_live rfl (by simp)
  · exact keeps_fault

theorem execEvtMaskWrite_kept (slot mask : Nat) (s : State) : Keeps (fun t => t.kept = s.kept) (execEvtMaskWrite slot mask s) := by
  unfold execEvtMaskWrite
  split
  · exact keeps_live rfl (by simp)
  · exact keeps_fault

theorem execTelemetrySnapshot_kept (slot : Nat) (s : State) : Keeps (fun t => t.kept = s.kept) (execTelemetrySnapshot slot s) := by
  unfold execTelemetrySnapshot
  repeat' (first
    | (simp; done)
    | refine keeps_live rfl ?_
    | refine keeps_unit rfl ?_
    | refine keeps_rec rfl fun r => ?_
    | refine keeps_weld rfl fun r => ?_
    | refine keeps_tongs rfl fun r => ?_
    | exact keeps_fault
    | refine keeps_next ?_
    | split
    | (dsimp only; split))

theorem execRecordSubmit_kept (off : Nat) (data : List Byte) (s : State) : Keeps (fun t => t.kept = s.kept) (execRecordSubmit off data s) := keeps_unit rfl (by simp)

theorem execCreate_kept (ctx : Nat) (s : State) : Keeps (fun t => t.kept = s.kept) (execCreate ctx s) := keeps_unit rfl (by simp)

theorem execPreempt_kept (ctx : Nat) (s : State) : Keeps (fun t => t.kept = s.kept) (execPreempt ctx s) := keeps_unit rfl (by simp)

theorem execResume_kept (ctx : Nat) (s : State) : Keeps (fun t => t.kept = s.kept) (execResume ctx s) := keeps_unit rfl (by simp)

theorem execSkip_kept (ctx : Nat) (s : State) : Keeps (fun t => t.kept = s.kept) (execSkip ctx s) := keeps_unit rfl (by simp)

theorem execCtxSave_kept (ctx : Nat) (s : State) : Keeps (fun t => t.kept = s.kept) (execCtxSave ctx s) := keeps_unit rfl (by simp)

theorem execCtxLoad_kept (ctx : Nat) (s : State) : Keeps (fun t => t.kept = s.kept) (execCtxLoad ctx s) := keeps_unit rfl (by simp)

theorem execRecordIssue_kept (die : Nat) (s : State) : Keeps (fun t => t.kept = s.kept) (execRecordIssue die s) := keeps_unit rfl (by simp)

theorem execNop_kept (ctx : Nat) (s : State) : Keeps (fun t => t.kept = s.kept) (execNop ctx s) := keeps_rec rfl fun r => by simp

theorem execCall_kept (ctx : Nat) (s : State) : Keeps (fun t => t.kept = s.kept) (execCall ctx s) := keeps_rec rfl fun r => by simp

theorem execRet_kept (ctx : Nat) (s : State) : Keeps (fun t => t.kept = s.kept) (execRet ctx s) := keeps_rec rfl fun r => by simp

theorem execLoop_kept (ctx : Nat) (s : State) : Keeps (fun t => t.kept = s.kept) (execLoop ctx s) := keeps_rec rfl fun r => by simp

theorem execCopy_kept (ctx : Nat) (s : State) : Keeps (fun t => t.kept = s.kept) (execCopy ctx s) := keeps_rec rfl fun r => by simp

theorem execCopyComplete_kept (id : Nat) (s : State) : Keeps (fun t => t.kept = s.kept) (execCopyComplete id s) := by
  simp only [execCopyComplete]
  exact keeps_live rfl (by split <;> simp)

theorem execSignal_kept (ctx : Nat) (s : State) : Keeps (fun t => t.kept = s.kept) (execSignal ctx s) := keeps_rec rfl fun r => by simp

theorem execWait_kept (ctx : Nat) (s : State) : Keeps (fun t => t.kept = s.kept) (execWait ctx s) := keeps_rec rfl fun r => by simp

theorem execWaitWake_kept (ctx : Nat) (s : State) : Keeps (fun t => t.kept = s.kept) (execWaitWake ctx s) := keeps_unit rfl (by simp)

theorem execWaitTimeout_kept (ctx : Nat) (s : State) : Keeps (fun t => t.kept = s.kept) (execWaitTimeout ctx s) := keeps_unit rfl (by simp)

theorem execSubscribeRetry_kept (ctx : Nat) (s : State) : Keeps (fun t => t.kept = s.kept) (execSubscribeRetry ctx s) := keeps_unit rfl (by simp)

theorem execStamp_kept (ctx : Nat) (s : State) : Keeps (fun t => t.kept = s.kept) (execStamp ctx s) := keeps_rec rfl fun r => by simp

theorem execAflags_kept (ctx : Nat) (s : State) : Keeps (fun t => t.kept = s.kept) (execAflags ctx s) := keeps_rec rfl fun r => by simp

theorem execAlloc_kept (s : State) : Keeps (fun t => t.kept = s.kept) (execAlloc s) := keeps_live rfl (by simp)

theorem execFree_kept (s : State) : Keeps (fun t => t.kept = s.kept) (execFree s) := keeps_live rfl (by simp)

theorem execBind_kept (s : State) : Keeps (fun t => t.kept = s.kept) (execBind s) := keeps_live rfl (by simp)

theorem execUnbind_kept (s : State) : Keeps (fun t => t.kept = s.kept) (execUnbind s) := keeps_live rfl (by simp)

theorem execClearBroken_kept (s : State) : Keeps (fun t => t.kept = s.kept) (execClearBroken s) := keeps_live rfl (by simp)

theorem execPeriscopeEval_kept (s : State) : Keeps (fun t => t.kept = s.kept) (execPeriscopeEval s) := keeps_live rfl (by simp)

theorem execMma_kept (ctx : Nat) (s : State) : Keeps (fun t => t.kept = s.kept) (execMma ctx s) := keeps_rec rfl fun r => by simp

theorem execAnvTileIssue_kept (die unit : Nat) (par : AnvParity) (s : State) : Keeps (fun t => t.kept = s.kept) (execAnvTileIssue die unit par s) := by
  unfold execAnvTileIssue
  split
  · exact keeps_live rfl (by simp)
  · exact keeps_fault

theorem execAnvTileEnd_kept (die unit : Nat) (par : AnvParity) (faults : List (Nat × Nat)) (s : State) : Keeps (fun t => t.kept = s.kept) (execAnvTileEnd die unit par faults s) := by
  unfold execAnvTileEnd
  repeat' (first
    | (simp; done)
    | refine keeps_live rfl ?_
    | refine keeps_unit rfl ?_
    | refine keeps_rec rfl fun r => ?_
    | refine keeps_weld rfl fun r => ?_
    | refine keeps_tongs rfl fun r => ?_
    | exact keeps_fault
    | refine keeps_next ?_
    | split
    | (dsimp only; split))

theorem execAnvIssueWaitEnd_kept (die unit : Nat) (s : State) : Keeps (fun t => t.kept = s.kept) (execAnvIssueWaitEnd die unit s) := by
  unfold execAnvIssueWaitEnd
  split
  · exact keeps_live rfl (by simp)
  · exact keeps_fault

theorem execMmaComplete_kept (id : Nat) (s : State) : Keeps (fun t => t.kept = s.kept) (execMmaComplete id s) := keeps_live rfl (by simp)

theorem execAnvClkGate_kept (die unit : Nat) (s : State) : Keeps (fun t => t.kept = s.kept) (execAnvClkGate die unit s) := by
  unfold execAnvClkGate
  split
  · exact keeps_live rfl (by simp)
  · exact keeps_fault

theorem execBistClaimAnvil_kept (die : Nat) (s : State) : Keeps (fun t => t.kept = s.kept) (execBistClaimAnvil die s) := keeps_unit rfl (by simp)

theorem execAnvTestEnter_kept (die : Nat) (s : State) : Keeps (fun t => t.kept = s.kept) (execAnvTestEnter die s) := keeps_unit rfl (by simp)

theorem execAnvClaimForced_kept (die : Nat) (s : State) : Keeps (fun t => t.kept = s.kept) (execAnvClaimForced die s) := keeps_unit rfl (by simp)

theorem execVec_kept (ctx : Nat) (s : State) : Keeps (fun t => t.kept = s.kept) (execVec ctx s) := keeps_rec rfl fun r => by simp

theorem execVecBlockStart_kept (die unit slot : Nat) (s : State) : Keeps (fun t => t.kept = s.kept) (execVecBlockStart die unit slot s) := by
  unfold execVecBlockStart
  split
  · exact keeps_live rfl (by simp)
  · exact keeps_fault

theorem execVecBlockCommit_kept (die unit slot : Nat) (par : SwgParity) (s : State) : Keeps (fun t => t.kept = s.kept) (execVecBlockCommit die unit slot par s) := by
  unfold execVecBlockCommit
  repeat' (first
    | (simp; done)
    | refine keeps_live rfl ?_
    | refine keeps_unit rfl ?_
    | refine keeps_rec rfl fun r => ?_
    | refine keeps_weld rfl fun r => ?_
    | refine keeps_tongs rfl fun r => ?_
    | exact keeps_fault
    | refine keeps_next ?_
    | split
    | (dsimp only; split))

theorem execVecComplete_kept (id : Nat) (s : State) : Keeps (fun t => t.kept = s.kept) (execVecComplete id s) := keeps_live rfl (by simp)

theorem execSwgClkGate_kept (die unit : Nat) (s : State) : Keeps (fun t => t.kept = s.kept) (execSwgClkGate die unit s) := by
  unfold execSwgClkGate
  split
  · exact keeps_live rfl (by simp)
  · exact keeps_fault

theorem execBistClaimSwage_kept (die : Nat) (s : State) : Keeps (fun t => t.kept = s.kept) (execBistClaimSwage die s) := keeps_unit rfl (by simp)

theorem execSwgTestEnter_kept (die : Nat) (s : State) : Keeps (fun t => t.kept = s.kept) (execSwgTestEnter die s) := keeps_unit rfl (by simp)

theorem execSwgClaimForced_kept (die : Nat) (s : State) : Keeps (fun t => t.kept = s.kept) (execSwgClaimForced die s) := keeps_unit rfl (by simp)

theorem execSparkKat_kept (good : Bool) (s : State) : Keeps (fun t => t.kept = s.kept) (execSparkKat good s) := keeps_live rfl (by simp)

theorem execHearthScrubRead_kept (die bank : Nat) (ecc : Ecc) (s : State) : Keeps (fun t => t.kept = s.kept) (execHearthScrubRead die bank ecc s) := by
  unfold execHearthScrubRead
  split
  · exact keeps_live rfl (by simp)
  · exact keeps_fault

theorem execHearthInitDone_kept (die : Nat) (s : State) : Keeps (fun t => t.kept = s.kept) (execHearthInitDone die s) := keeps_unit rfl (by simp)

theorem execHalt_kept (die : Nat) (on : Bool) (s : State) : Keeps (fun t => t.kept = s.kept) (execHalt die on s) := keeps_unit rfl (by simp)

theorem execHbmRead_kept (addr : Nat) (ecc : Ecc) (ctx : Nat) (s : State) : Keeps (fun t => t.kept = s.kept) (execHbmRead addr ecc ctx s) := keeps_live rfl (by simp)

theorem execHealDone_kept (row : Nat) (src : Option (List Byte)) (readBack : Ecc) (s : State) : Keeps (fun t => t.kept = s.kept) (execHealDone row src readBack s) := keeps_live rfl (by simp)

theorem execHbmParityError_kept (addr : Nat) (write : Bool) (errors ctx : Nat) (s : State) : Keeps (fun t => t.kept = s.kept) (execHbmParityError addr write errors ctx s) := keeps_live rfl (by simp)

theorem execHbmRefresh_kept (stack pc bank : Nat) (s : State) : Keeps (fun t => t.kept = s.kept) (execHbmRefresh stack pc bank s) := by
  unfold execHbmRefresh
  split
  · exact keeps_live rfl (by simp)
  · exact keeps_fault

theorem execHbmTempRead_kept (stack temp : Nat) (s : State) : Keeps (fun t => t.kept = s.kept) (execHbmTempRead stack temp s) := keeps_unit rfl (by simp)

theorem execHbmPatrolScrub_kept (stack pc : Nat) (ecc : Ecc) (s : State) : Keeps (fun t => t.kept = s.kept) (execHbmPatrolScrub stack pc ecc s) := by
  unfold execHbmPatrolScrub
  split
  · exact keeps_live rfl (by simp)
  · exact keeps_fault

theorem execGather_kept (ctx : Nat) (s : State) : Keeps (fun t => t.kept = s.kept) (execGather ctx s) := keeps_rec rfl fun r => by simp

theorem execGatherComplete_kept (id : Nat) (s : State) : Keeps (fun t => t.kept = s.kept) (execGatherComplete id s) := keeps_live rfl (by simp)

theorem execHbmSelfRefreshExit_kept (die bad0 bad1 : Nat) (s : State) : Keeps (fun t => t.kept = s.kept) (execHbmSelfRefreshExit die bad0 bad1 s) := keeps_unit rfl (by simp)

theorem execLinkEnable_kept (k : Nat) (s : State) : Keeps (fun t => t.kept = s.kept) (execLinkEnable k s) := keeps_unit rfl (by simp)

theorem execLinkDisable_kept (k : Nat) (s : State) : Keeps (fun t => t.kept = s.kept) (execLinkDisable k s) := keeps_unit rfl (by simp)

theorem execLinkTraining_kept (k : Nat) (rep : LinkReport) (s : State) : Keeps (fun t => t.kept = s.kept) (execLinkTraining k rep s) := keeps_unit rfl (by simp)

theorem execRetrain_kept (k : Nat) (s : State) : Keeps (fun t => t.kept = s.kept) (execRetrain k s) := keeps_unit rfl (by simp)

theorem execLinkRetry_kept (k : Nat) (s : State) : Keeps (fun t => t.kept = s.kept) (execLinkRetry k s) := keeps_unit rfl (by simp)

theorem execAutoRestore_kept (k : Nat) (s : State) : Keeps (fun t => t.kept = s.kept) (execAutoRestore k s) := keeps_unit rfl (by simp)

theorem execLaneFault_kept (k lane : Nat) (cause : LaneCause) (s : State) : Keeps (fun t => t.kept = s.kept) (execLaneFault k lane cause s) := by
  unfold execLaneFault
  split
  · exact keeps_live rfl (by simp)
  · exact keeps_fault

theorem execDegradeReq_kept (k lanes : Nat) (s : State) : Keeps (fun t => t.kept = s.kept) (execDegradeReq k lanes s) := keeps_unit rfl (by simp)

theorem execDegradeAck_kept (k lanes : Nat) (rep : LinkReport) (s : State) : Keeps (fun t => t.kept = s.kept) (execDegradeAck k lanes rep s) := keeps_unit rfl (by simp)

theorem execDegradeTimeout_kept (k : Nat) (s : State) : Keeps (fun t => t.kept = s.kept) (execDegradeTimeout k s) := keeps_unit rfl (by simp)

theorem execDownNotice_kept (k : Nat) (s : State) : Keeps (fun t => t.kept = s.kept) (execDownNotice k s) := keeps_unit rfl (by simp)

theorem execCodewordRx_kept (k seq : Nat) (symbols : List Nat) (uncorrectable : Bool) (packets slots : Nat) (s : State) : Keeps (fun t => t.kept = s.kept) (execCodewordRx k seq symbols uncorrectable packets slots s) := keeps_unit rfl (by simp)

theorem execControlSlotRx_kept (k : Nat) (cs : ControlSlot) (s : State) : Keeps (fun t => t.kept = s.kept) (execControlSlotRx k cs s) := keeps_unit rfl (by simp)

theorem execPacketTx_kept (k : Nat) (s : State) : Keeps (fun t => t.kept = s.kept) (execPacketTx k s) := keeps_unit rfl (by simp)

theorem execSerWindowEnd_kept (k : Nat) (s : State) : Keeps (fun t => t.kept = s.kept) (execSerWindowEnd k s) := keeps_unit rfl (by simp)

theorem execTxeqReq_kept (k lane : Nat) (up : Bool) (s : State) : Keeps (fun t => t.kept = s.kept) (execTxeqReq k lane up s) := by
  unfold execTxeqReq
  split
  · exact keeps_live rfl (by simp)
  · exact keeps_fault

theorem execTxeqAck_kept (k lane : Nat) (s : State) : Keeps (fun t => t.kept = s.kept) (execTxeqAck k lane s) := by
  unfold execTxeqAck
  split
  · exact keeps_live rfl (by simp)
  · exact keeps_fault

theorem execTxeqWindowEnd_kept (k lane : Nat) (s : State) : Keeps (fun t => t.kept = s.kept) (execTxeqWindowEnd k lane s) := by
  unfold execTxeqWindowEnd
  split
  · exact keeps_live rfl (by simp)
  · exact keeps_fault

theorem execSignalOp_kept (plane : Nat) (p : Packet) (s : State) : Keeps (fun t => t.kept = s.kept) (execSignalOp plane p s) := keeps_unit rfl (by simp)

theorem execSubscribe_kept (plane : Nat) (p : Packet) (s : State) : Keeps (fun t => t.kept = s.kept) (execSubscribe plane p s) := keeps_unit rfl (by simp)

theorem execNotify_kept (plane : Nat) (p : Packet) (s : State) : Keeps (fun t => t.kept = s.kept) (execNotify plane p s) := keeps_unit rfl (by simp)

theorem execBroken_kept (plane : Nat) (p : Packet) (s : State) : Keeps (fun t => t.kept = s.kept) (execBroken plane p s) := keeps_unit rfl (by simp)

theorem execCancel_kept (plane : Nat) (p : Packet) (s : State) : Keeps (fun t => t.kept = s.kept) (execCancel plane p s) := keeps_unit rfl (by simp)

theorem execBusy_kept (plane : Nat) (p : Packet) (s : State) : Keeps (fun t => t.kept = s.kept) (execBusy plane p s) := keeps_unit rfl (by simp)

theorem execWrite_kept (plane : Nat) (p : Packet) (s : State) : Keeps (fun t => t.kept = s.kept) (execWrite plane p s) := keeps_unit rfl (by simp)

theorem execRead_kept (plane : Nat) (p : Packet) (ecc : Ecc) (s : State) : Keeps (fun t => t.kept = s.kept) (execRead plane p ecc s) := keeps_unit rfl (by simp)

theorem execData_kept (plane : Nat) (p : Packet) (s : State) : Keeps (fun t => t.kept = s.kept) (execData plane p s) := keeps_unit rfl (by simp)

theorem execAck_kept (plane : Nat) (p : Packet) (s : State) : Keeps (fun t => t.kept = s.kept) (execAck plane p s) := keeps_unit rfl (by simp)

theorem execAckSend_kept (flow : Nat) (s : State) : Keeps (fun t => t.kept = s.kept) (execAckSend flow s) := keeps_unit rfl (by simp)

theorem execFlowOpen_kept (plane : Nat) (p : Packet) (s : State) : Keeps (fun t => t.kept = s.kept) (execFlowOpen plane p s) := keeps_unit rfl (by simp)

theorem execOpenAck_kept (plane : Nat) (p : Packet) (s : State) : Keeps (fun t => t.kept = s.kept) (execOpenAck plane p s) := keeps_unit rfl (by simp)

theorem execClose_kept (plane : Nat) (p : Packet) (s : State) : Keeps (fun t => t.kept = s.kept) (execClose plane p s) := keeps_unit rfl (by simp)

theorem execPacketInject_kept (flow : Nat) (s : State) : Keeps (fun t => t.kept = s.kept) (execPacketInject flow s) := keeps_unit rfl (by simp)

theorem execResendTimeout_kept (flow seq : Nat) (ecc : Ecc) (s : State) : Keeps (fun t => t.kept = s.kept) (execResendTimeout flow seq ecc s) := keeps_unit rfl (by simp)

theorem execReadmit_kept (d mask : Nat) (s : State) : Keeps (fun t => t.kept = s.kept) (execReadmit d mask s) := keeps_unit rfl (by simp)

theorem execEpochSwitch_kept (s : State) : Keeps (fun t => t.kept = s.kept) (execEpochSwitch s) := keeps_live rfl (by simp)

theorem execEpochRetire_kept (s : State) : Keeps (fun t => t.kept = s.kept) (execEpochRetire s) := keeps_live rfl (by simp)

theorem execDrainSet_kept (s : State) : Keeps (fun t => t.kept = s.kept) (execDrainSet s) := keeps_live rfl (by simp)

theorem execDrained_kept (s : State) : Keeps (fun t => t.kept = s.kept) (execDrained s) := keeps_live rfl (by simp)

theorem execDrainClear_kept (s : State) : Keeps (fun t => t.kept = s.kept) (execDrainClear s) := keeps_live rfl (by simp)

theorem execCopyCur_kept (d : Nat) (s : State) : Keeps (fun t => t.kept = s.kept) (execCopyCur d s) := keeps_unit rfl (by simp)

theorem execRteDataWrite_kept (d val : Nat) (s : State) : Keeps (fun t => t.kept = s.kept) (execRteDataWrite d val s) := keeps_unit rfl (by simp)

theorem execRteDataRead_kept (d : Nat) (s : State) : Keeps (fun t => t.kept = s.kept) (execRteDataRead d s) := keeps_unit rfl (by simp)

theorem execSendCut_kept (s : State) : Keeps (fun t => t.kept = s.kept) (execSendCut s) := keeps_live rfl (by simp)

theorem execSendStop_kept (s : State) : Keeps (fun t => t.kept = s.kept) (execSendStop s) := keeps_live rfl (by simp)

theorem execStop_kept (plane : Nat) (p : Packet) (s : State) : Keeps (fun t => t.kept = s.kept) (execStop plane p s) := keeps_unit rfl (by simp)

theorem execStopRepeat_kept (s : State) : Keeps (fun t => t.kept = s.kept) (execStopRepeat s) := keeps_live rfl (by simp)

theorem execCut_kept (plane : Nat) (p : Packet) (s : State) : Keeps (fun t => t.kept = s.kept) (execCut plane p s) := keeps_unit rfl (by simp)

theorem execTimeSend_kept (s : State) : Keeps (fun t => t.kept = s.kept) (execTimeSend s) := keeps_live rfl (by simp)

theorem execTime_kept (plane : Nat) (p : Packet) (s : State) : Keeps (fun t => t.kept = s.kept) (execTime plane p s) := keeps_unit rfl (by simp)

theorem execHoldover_kept (s : State) : Keeps (fun t => t.kept = s.kept) (execHoldover s) := keeps_live rfl (by simp)

theorem execReduceScatter_kept (ctx : Nat) (s : State) : Keeps (fun t => t.kept = s.kept) (execReduceScatter ctx s) := keeps_rec rfl fun r => by simp

theorem execAllGather_kept (ctx : Nat) (s : State) : Keeps (fun t => t.kept = s.kept) (execAllGather ctx s) := keeps_rec rfl fun r => by simp

theorem execAllReduce_kept (ctx : Nat) (s : State) : Keeps (fun t => t.kept = s.kept) (execAllReduce ctx s) := keeps_rec rfl fun r => by simp

theorem execBroadcast_kept (ctx : Nat) (s : State) : Keeps (fun t => t.kept = s.kept) (execBroadcast ctx s) := keeps_rec rfl fun r => by simp

theorem execMirror_kept (ctx : Nat) (s : State) : Keeps (fun t => t.kept = s.kept) (execMirror ctx s) := keeps_rec rfl fun r => by simp

theorem execCollStart_kept (id : Nat) (s : State) : Keeps (fun t => t.kept = s.kept) (execCollStart id s) := by
  simp only [execCollStart]
  exact keeps_live rfl (by split <;> simp)

theorem execCollComplete_kept (id : Nat) (s : State) : Keeps (fun t => t.kept = s.kept) (execCollComplete id s) := keeps_live rfl (by simp)

theorem execStall_kept (id : Nat) (s : State) : Keeps (fun t => t.kept = s.kept) (execStall id s) := keeps_live rfl (by simp)

theorem execReady_kept (plane : Nat) (p : Packet) (s : State) : Keeps (fun t => t.kept = s.kept) (execReady plane p s) := keeps_unit rfl (by simp)

theorem execPartialSum_kept (plane : Nat) (p : Packet) (par : Bool) (s : State) : Keeps (fun t => t.kept = s.kept) (execPartialSum plane p par s) := keeps_unit rfl (by simp)

theorem execWeldGather_kept (plane : Nat) (p : Packet) (s : State) : Keeps (fun t => t.kept = s.kept) (execWeldGather plane p s) := keeps_unit rfl (by simp)

theorem execScatter_kept (plane : Nat) (p : Packet) (s : State) : Keeps (fun t => t.kept = s.kept) (execScatter plane p s) := keeps_unit rfl (by simp)

theorem execWeldMirror_kept (plane : Nat) (p : Packet) (s : State) : Keeps (fun t => t.kept = s.kept) (execWeldMirror plane p s) := keeps_unit rfl (by simp)

theorem execWeldHold_kept (plane : Nat) (p : Packet) (s : State) : Keeps (fun t => t.kept = s.kept) (execWeldHold plane p s) := keeps_unit rfl (by simp)

theorem execTongsOpen_kept (ctx : Nat) (s : State) : Keeps (fun t => t.kept = s.kept) (execTongsOpen ctx s) := keeps_rec rfl fun r => by simp

theorem execPut_kept (ctx : Nat) (s : State) : Keeps (fun t => t.kept = s.kept) (execPut ctx s) := keeps_rec rfl fun r => by simp

theorem execRelease_kept (ctx : Nat) (s : State) : Keeps (fun t => t.kept = s.kept) (execRelease ctx s) := keeps_rec rfl fun r => by simp

theorem execFetch_kept (ctx : Nat) (s : State) : Keeps (fun t => t.kept = s.kept) (execFetch ctx s) := keeps_rec rfl fun r => by simp

theorem execTongsClose_kept (ctx : Nat) (s : State) : Keeps (fun t => t.kept = s.kept) (execTongsClose ctx s) := keeps_rec rfl fun r => by simp

theorem execOffloadStart_kept (slot : Nat) (s : State) : Keeps (fun t => t.kept = s.kept) (execOffloadStart slot s) := keeps_unit rfl (by simp)

theorem execOffloadDone_kept (slot : Nat) (s : State) : Keeps (fun t => t.kept = s.kept) (execOffloadDone slot s) := keeps_unit rfl (by simp)

theorem execFetchStart_kept (slot : Nat) (s : State) : Keeps (fun t => t.kept = s.kept) (execFetchStart slot s) := keeps_unit rfl (by simp)

theorem execFetchDone_kept (slot : Nat) (s : State) : Keeps (fun t => t.kept = s.kept) (execFetchDone slot s) := keeps_unit rfl (by simp)

theorem execForceDown_kept (mask : Nat) (s : State) : Keeps (fun t => t.kept = s.kept) (execForceDown mask s) := keeps_live rfl (by simp)

theorem execClearDown_kept (mask : Nat) (s : State) : Keeps (fun t => t.kept = s.kept) (execClearDown mask s) := keeps_live rfl (by simp)

theorem execCtxReset_kept (ctx : Nat) (s : State) : Keeps (fun t => t.kept = s.kept) (execCtxReset ctx s) := keeps_unit rfl (by simp)

theorem execDestroy_kept (ctx : Nat) (s : State) : Keeps (fun t => t.kept = s.kept) (execDestroy ctx s) := keeps_unit rfl (by simp)

theorem execQuarantineEnd_kept (ctx : Nat) (s : State) : Keeps (fun t => t.kept = s.kept) (execQuarantineEnd ctx s) := keeps_unit rfl (by simp)

theorem execLoupeCheckDone_kept (die : Nat) (slip : Bool) (s : State) : Keeps (fun t => t.kept = s.kept) (execLoupeCheckDone die slip s) := keeps_unit rfl (by simp)

theorem execLoupeRerunDone_kept (die : Nat) (faults : List (Nat × Nat)) (s : State) : Keeps (fun t => t.kept = s.kept) (execLoupeRerunDone die faults s) := keeps_unit rfl (by simp)

theorem execLoupeSettle_kept (die : Nat) (agrees : Bool) (s : State) : Keeps (fun t => t.kept = s.kept) (execLoupeSettle die agrees s) := keeps_unit rfl (by simp)

theorem execTchZeroDone_kept (s : State) : Keeps (fun t => t.kept = s.kept) (execTchZeroDone s) := keeps_live rfl (by simp)

theorem execTallyTimeout_kept (s : State) : Keeps (fun t => t.kept = s.kept) (execTallyTimeout s) := keeps_live rfl (by simp)

theorem execBistTestEnd_kept (die : Nat) (swage : Bool) (sig sig2 : Nat) (s : State) : Keeps (fun t => t.kept = s.kept) (execBistTestEnd die swage sig sig2 s) := keeps_unit rfl (by simp)

theorem execLdgClear_kept (unit : Nat) (s : State) : Keeps (fun t => t.kept = s.kept) (execLdgClear unit s) := keeps_live rfl (by simp)

theorem execLedgerWrite_kept (ok : Bool) (s : State) : Keeps (fun t => t.kept = s.kept) (execLedgerWrite ok s) := keeps_live rfl (by simp)

theorem execPohSave_kept (s : State) : Keeps (fun t => t.kept = s.kept) (execPohSave s) := keeps_live rfl (by simp)

theorem execHealthDecay_kept (s : State) : Keeps (fun t => t.kept = s.kept) (execHealthDecay s) := keeps_live rfl (by simp)

theorem execScore_kept (s : State) : Keeps (fun t => t.kept = s.kept) (execScore s) := keeps_live rfl (by simp)

theorem execNvmeCompletion_kept (status : Nat) (data : List Byte) (s : State) : Keeps (fun t => t.kept = s.kept) (execNvmeCompletion status data s) := keeps_live rfl (by simp)

theorem execNvmeTimeout_kept (s : State) : Keeps (fun t => t.kept = s.kept) (execNvmeTimeout s) := keeps_live rfl (by simp)

theorem execDriveInit_kept (s : State) : Keeps (fun t => t.kept = s.kept) (execDriveInit s) := keeps_live rfl (by simp)

theorem execDriveMemoryRequest_kept (addr len : Nat) (write : Bool) (s : State) : Keeps (fun t => t.kept = s.kept) (execDriveMemoryRequest addr len write s) := keeps_live rfl (by simp)

theorem execCutTimeout_kept (s : State) : Keeps (fun t => t.kept = s.kept) (execCutTimeout s) := keeps_live rfl (by simp)

theorem execRestore_kept (imgA imgB imgHost : List Byte) (s : State) : Keeps (fun t => t.kept = s.kept) (execRestore imgA imgB imgHost s) := keeps_live rfl (by simp)

theorem execFill_kept (s : State) : Keeps (fun t => t.kept = s.kept) (execFill s) := keeps_live rfl (by simp)

theorem execFillDone_kept (mr : Option (List Byte)) (stripes : List (Nat × List Byte)) (s : State) : Keeps (fun t => t.kept = s.kept) (execFillDone mr stripes s) := keeps_live rfl (by simp)

theorem execPowerEval_kept (slow : Bool) (pkg input : Nat) (s : State) : Keeps (fun t => t.kept = s.kept) (execPowerEval slow pkg input s) := keeps_live rfl (by simp)

theorem execRampEval_kept (die : Nat) (heldBack : Bool) (level : Nat) (s : State) : Keeps (fun t => t.kept = s.kept) (execRampEval die heldBack level s) := keeps_unit rfl (by simp)

theorem execHeat_kept (ctx : Nat) (s : State) : Keeps (fun t => t.kept = s.kept) (execHeat ctx s) := keeps_rec rfl fun r => by simp

theorem execHintPrepare_kept (die : Nat) (s : State) : Keeps (fun t => t.kept = s.kept) (execHintPrepare die s) := keeps_unit rfl (by simp)

theorem execHintWindow_kept (die : Nat) (s : State) : Keeps (fun t => t.kept = s.kept) (execHintWindow die s) := keeps_unit rfl (by simp)

theorem execSensorRead_kept (id temp : Nat) (good : Bool) (s : State) : Keeps (fun t => t.kept = s.kept) (execSensorRead id temp good s) := keeps_unit rfl (by simp)

theorem execThermalEval_kept (slow : Bool) (s : State) : Keeps (fun t => t.kept = s.kept) (execThermalEval slow s) := keeps_live rfl (by simp)

theorem execPllUnlock_kept (d : Nat) (s : State) : Keeps (fun t => t.kept = s.kept) (execPllUnlock d s) := keeps_unit rfl (by simp)

theorem execDieSleep_kept (die : Nat) (s : State) : Keeps (fun t => t.kept = s.kept) (execDieSleep die s) := keeps_unit rfl (by simp)

theorem execDieWake_kept (die ns : Nat) (s : State) : Keeps (fun t => t.kept = s.kept) (execDieWake die ns s) := keeps_unit rfl (by simp)

theorem execHold_kept (ctx : Nat) (s : State) : Keeps (fun t => t.kept = s.kept) (execHold ctx s) := by
  simp only [execHold]
  exact keeps_unit rfl (by split <;> simp)

theorem execWardHoldAck_kept (s : State) : Keeps (fun t => t.kept = s.kept) (execWardHoldAck s) := keeps_live rfl (by simp)

theorem execStep_kept (ctx : Nat) (s : State) : Keeps (fun t => t.kept = s.kept) (execStep ctx s) := by
  simp only [execStep]
  exact keeps_unit rfl (by split <;> simp)

theorem execTemper_kept (ctx : Nat) (s : State) : Keeps (fun t => t.kept = s.kept) (execTemper ctx s) := keeps_rec rfl fun r => by simp

theorem execCheckStart_kept (s : State) : Keeps (fun t => t.kept = s.kept) (execCheckStart s) := keeps_live rfl (by simp)

theorem execReplayStart_kept (s : State) : Keeps (fun t => t.kept = s.kept) (execReplayStart s) := keeps_live rfl (by simp)

theorem execVoteTimeout_kept (s : State) : Keeps (fun t => t.kept = s.kept) (execVoteTimeout s) := keeps_live rfl (by simp)

theorem execFrecAck_kept (s : State) : Keeps (fun t => t.kept = s.kept) (execFrecAck s) := keeps_live rfl (by simp)

theorem execDieResetRequest_kept (s : State) : Keeps (fun t => t.kept = s.kept) (execDieResetRequest s) := keeps_live rfl (by simp)

theorem execPortResetRequest_kept (s : State) : Keeps (fun t => t.kept = s.kept) (execPortResetRequest s) := keeps_live rfl (by simp)

theorem execResetDone_kept (s : State) : Keeps (fun t => t.kept = s.kept) (execResetDone s) := keeps_live rfl (by simp)

theorem execWdog_kept (s : State) : Keeps (fun t => t.kept = s.kept) (execWdog s) := keeps_live rfl (by simp)

theorem execHostwRequestError_kept (who : HostAsk) (err : HostErr) (s : State) : Keeps (fun t => t.kept = s.kept) (execHostwRequestError who err s) := keeps_live rfl (by simp)

theorem execMsixGapEnd_kept (vector : Nat) (s : State) : Keeps (fun t => t.kept = s.kept) (execMsixGapEnd vector s) := keeps_unit rfl (by simp)

theorem execMsixUnmask_kept (vector : Nat) (s : State) : Keeps (fun t => t.kept = s.kept) (execMsixUnmask vector s) := keeps_unit rfl (by simp)

theorem execLinkDown_kept (s : State) : Keeps (fun t => t.kept = s.kept) (execLinkDown s) := keeps_live rfl (by simp)

theorem execHotReset_kept (s : State) : Keeps (fun t => t.kept = s.kept) (execHotReset s) := keeps_live rfl (by simp)

theorem execLinkUp_kept (gen width : Nat) (s : State) : Keeps (fun t => t.kept = s.kept) (execLinkUp gen width s) := keeps_live rfl (by simp)

theorem execConfigurationRequest_kept (req : CfgWrite) (s : State) : Keeps (fun t => t.kept = s.kept) (execConfigurationRequest req s) := keeps_live rfl (by simp)

theorem execApertureAccess_kept (off : Nat) (write : Bool) (len : Nat) (data : List Byte) (poisoned : Bool) (s : State) : Keeps (fun t => t.kept = s.kept) (execApertureAccess off write len data poisoned s) := keeps_live rfl (by simp)

theorem execGetVersion_kept (s : State) : Keeps (fun t => t.kept = s.kept) (execGetVersion s) := keeps_live rfl (by simp)

theorem execGetCapabilities_kept (version : Nat) (s : State) : Keeps (fun t => t.kept = s.kept) (execGetCapabilities version s) := keeps_live rfl (by simp)

theorem execNegotiateAlgorithms_kept (offersEcdsaP384 offersSha384 : Bool) (s : State) : Keeps (fun t => t.kept = s.kept) (execNegotiateAlgorithms offersEcdsaP384 offersSha384 s) := keeps_live rfl (by simp)

theorem execGetDigests_kept (s : State) : Keeps (fun t => t.kept = s.kept) (execGetDigests s) := keeps_live rfl (by simp)

theorem execGetCertificate_kept (slot off len : Nat) (s : State) : Keeps (fun t => t.kept = s.kept) (execGetCertificate slot off len s) := keeps_live rfl (by simp)

theorem execChallenge_kept (slot : Nat) (nonce : List Byte) (s : State) : Keeps (fun t => t.kept = s.kept) (execChallenge slot nonce s) := keeps_live rfl (by simp)

theorem execGetMeasurements_kept (index : Nat) (signature : Bool) (nonce : List Byte) (s : State) : Keeps (fun t => t.kept = s.kept) (execGetMeasurements index signature nonce s) := keeps_live rfl (by simp)

theorem execDoeDiscovery_kept (index : Nat) (s : State) : Keeps (fun t => t.kept = s.kept) (execDoeDiscovery index s) := keeps_live rfl (by simp)

theorem execEntdaa_kept (addr : Nat) (s : State) : Keeps (fun t => t.kept = s.kept) (execEntdaa addr s) := by
  unfold execEntdaa
  repeat' (first
    | (simp; done)
    | refine keeps_live rfl ?_
    | refine keeps_unit rfl ?_
    | refine keeps_rec rfl fun r => ?_
    | refine keeps_weld rfl fun r => ?_
    | refine keeps_tongs rfl fun r => ?_
    | exact keeps_fault
    | refine keeps_next ?_
    | split
    | (dsimp only; split))

theorem execGetEndpointId_kept (s : State) : Keeps (fun t => t.kept = s.kept) (execGetEndpointId s) := keeps_next (by simp)

theorem execTripStatus_kept (s : State) : Keeps (fun t => t.kept = s.kept) (execTripStatus s) := keeps_next (by simp)

theorem execPldmSensorRead_kept (sensor : Nat) (s : State) : Keeps (fun t => t.kept = s.kept) (execPldmSensorRead sensor s) := keeps_live rfl (by simp)

theorem execDoorbell_kept (s : State) : Keeps (fun t => t.kept = s.kept) (execDoorbell s) := keeps_live rfl (by simp)

theorem execGetInfo_kept (s : State) : Keeps (fun t => t.kept = s.kept) (execGetInfo s) := keeps_live rfl (by simp)

theorem execHbmClearMapout_kept (s : State) : Keeps (fun t => t.kept = s.kept) (execHbmClearMapout s) := keeps_live rfl (by simp)

theorem execFwActivate_kept (s : State) : Keeps (fun t => t.kept = s.kept) (execFwActivate s) := keeps_live rfl (by simp)

theorem execFlitCrcError_kept (d edge module retries : Nat) (ids : List Nat) (s : State) : Keeps (fun t => t.kept = s.kept) (execFlitCrcError d edge module retries ids s) := by
  unfold execFlitCrcError
  split
  · exact keeps_live rfl (by simp)
  · exact keeps_fault

theorem execGuestAdmission_kept (partner : Bool) (modules : Nat) (desc : Option (List Byte)) (s : State) : Keeps (fun t => t.kept = s.kept) (execGuestAdmission partner modules desc s) := keeps_live rfl (by simp)

theorem execGstReadmit_kept (s : State) : Keeps (fun t => t.kept = s.kept) (execGstReadmit s) := keeps_live rfl (by simp)

theorem execWithdraw_kept (cause : WithdrawCause) (s : State) : Keeps (fun t => t.kept = s.kept) (execWithdraw cause s) := keeps_live rfl (by simp)

theorem execGuestBlockResend_kept (seq : Nat) (s : State) : Keeps (fun t => t.kept = s.kept) (execGuestBlockResend seq s) := keeps_unit rfl (by simp)

theorem execRd_kept (dir : GuestDir) (tag addr len : Nat) (s : State) : Keeps (fun t => t.kept = s.kept) (execRd dir tag addr len s) := keeps_live rfl (by simp)

theorem execWr_kept (dir : GuestDir) (tag addr : Nat) (data : List Byte) (s : State) : Keeps (fun t => t.kept = s.kept) (execWr dir tag addr data s) := keeps_live rfl (by simp)

theorem execCpl_kept (tag status : Nat) (data : List Byte) (s : State) : Keeps (fun t => t.kept = s.kept) (execCpl tag status data s) := keeps_live rfl (by simp)

theorem execRecMsg_kept (ctx : Nat) (data : List Byte) (s : State) : Keeps (fun t => t.kept = s.kept) (execRecMsg ctx data s) := keeps_live rfl (by simp)

theorem execReg_kept (dir : GuestDir) (off width : Nat) (val : Option Nat) (s : State) : Keeps (fun t => t.kept = s.kept) (execReg dir off width val s) := keeps_live rfl (by simp)

theorem execSmcBoot_kept (failed diff : List (Nat × Nat × Nat)) (s : State) : Keeps (fun t => t.kept = s.kept) (execSmcBoot failed diff s) := by
  unfold execSmcBoot
  split
  · exact keeps_live rfl (by simp)
  · exact keeps_fault

theorem execTakeoverLoad_kept (s : State) : Keeps (fun t => t.kept = s.kept) (execTakeoverLoad s) := keeps_live rfl (by simp)

theorem execTkoFail_kept (cause : TkoCause) (s : State) : Keeps (fun t => t.kept = s.kept) (execTkoFail cause s) := keeps_live rfl (by simp)

theorem execBstStart_kept (s : State) : Keeps (fun t => t.kept = s.kept) (execBstStart s) := keeps_live rfl (by simp)

theorem execBstDone_kept (fails : Nat) (s : State) : Keeps (fun t => t.kept = s.kept) (execBstDone fails s) := keeps_live rfl (by simp)

/-! The commands that change one part -/

theorem keeps_mono {P Q : State → Prop} {o : Outcome} (h : Keeps P o) (hpq : ∀ t, P t → Q t) : Keeps Q o := fun t e => hpq t (h t e)

theorem execFlip_rest (s : State) : Keeps (fun t => t.rest = s.rest) (execFlip s) :=
  keeps_live rfl (flipDue_rest s)

theorem execResolveForward_rest (s : State) : Keeps (fun t => t.rest = s.rest) (execResolveForward s) := by
  refine keeps_live rfl ?_
  split
  · exact flipAct_rest _ _ _ _
  · rfl

theorem execResolveDiscard_flat (s : State) : Keeps (fun t => t.flat = s.flat) (execResolveDiscard s) := by
  refine keeps_live rfl ?_
  split
  · exact discardAct_flat _ _ _ _
  · rfl

theorem execReplayResume_flat (s : State) : Keeps (fun t => t.flat = s.flat) (execReplayResume s) :=
  keeps_live rfl (resumeReplay_flat s)

theorem execTakeoverRealign_flat (s : State) : Keeps (fun t => t.flat = s.flat) (execTakeoverRealign s) := by
  refine keeps_live rfl ?_
  split
  · exact takeoverRealign_flat s
  · rfl

theorem execApplyTaken_flat (slot : Nat) (s : State) : Keeps (fun t => t.flat = s.flat) (execApplyTaken slot s) := by
  unfold execApplyTaken
  split
  · exact keeps_live rfl (takeApply_flat _ _ _)
  · exact keeps_fault

theorem execVoteSend_rest (s : State) : Keeps (fun t => t.rest = s.rest) (execVoteSend s) :=
  keeps_live rfl (sendVote_rest s)

theorem execVote_rest (plane : Nat) (p : Packet) (s : State) : Keeps (fun t => t.rest = s.rest) (execVote plane p s) :=
  keeps_unit rfl (receiveWeld_rest _ _ _ _ _ deliverVote_rest)

theorem execResult_rest (plane : Nat) (p : Packet) (s : State) : Keeps (fun t => t.rest = s.rest) (execResult plane p s) := by
  refine keeps_unit rfl ?_
  split
  · rfl
  · exact receiveWeld_rest _ _ _ _ _ (deliverResult_rest _)

theorem execPreCutResult_kept (plane : Nat) (p : Packet) (s : State) :
    Keeps (fun t => t.kept = s.kept) (execPreCutResult plane p s) := by
  refine keeps_unit rfl ?_
  split
  · exact receiveWeld_kept _ _ _ _ _ (deliverResult_kept _ rfl)
  · rfl

theorem execPostCutResult_kept (plane : Nat) (p : Packet) (s : State) :
    Keeps (fun t => t.kept = s.kept) (execPostCutResult plane p s) := by
  refine keeps_unit rfl ?_
  split
  · exact receiveWeld_kept _ _ _ _ _ (deliverResult_kept _ rfl)
  · rfl

theorem execRestoreDone_rest (ms wc : Option (List Byte)) (s : State) :
    Keeps (fun t => t.rest = s.rest) (execRestoreDone ms wc s) :=
  keeps_live rfl (restoreDone_rest s ms wc)

theorem execTkoDone_rest (ms mr wc : List Byte) (hold wardHold : Option (List Byte)) (s : State) :
    Keeps (fun t => t.rest = s.rest) (execTkoDone ms mr wc hold wardHold s) :=
  keeps_live rfl (takeoverDone_rest s ms mr wc hold wardHold)

theorem execChipResetRequest_rest (s : State) : Keeps (fun t => t.rest = s.rest) (execChipResetRequest s) := by
  refine keeps_live rfl ?_
  unfold request
  dsimp only
  repeat' split
  all_goals first
    | rfl
    | exact rest_of_kept (by simp)
    | (refine (chipReset_rest _).trans (rest_of_kept ?_)
       simp)

theorem execPerst_rest (s : State) : Keeps (fun t => t.rest = s.rest) (execPerst s) :=
  keeps_live rfl (perst_rest s)

theorem execHbmTrain_map (reports : List StackReport) (s : State) :
    Keeps (fun t => t.kept = { s.kept with map := t.map }) (execHbmTrain reports s) := by
  unfold execHbmTrain
  split
  · exact keeps_live rfl (hbmTrain_map s reports)
  · exact keeps_fault

theorem execHbmRetrain_map (reports : List StackReport) (s : State) :
    Keeps (fun t => t.kept = { s.kept with map := t.map }) (execHbmRetrain reports s) := by
  unfold execHbmRetrain
  split
  · exact keeps_live rfl (onMailbox_map s _ _ fun s => hbmRetrain_map s reports)
  · exact keeps_fault

theorem execMapSet_map (s : State) : Keeps (fun t => t.kept = { s.kept with map := t.map }) (execMapSet s) :=
  keeps_live rfl (onMailbox_map s _ _ mapSet_map)

theorem execPwrEnFall_on (s : State) :
    Keeps (fun t => t.kept = s.kept ∨ t.kept = { s.kept with on := false }) (execPwrEnFall s) := by
  refine keeps_next ?_
  split
  · exact .inl rfl
  · exact .inr (mainOff_on s)

theorem execInputRemoved_power (long : Bool) (s : State) :
    Keeps (fun t => t.kept = { s.kept with on := false, trip := if long then none else s.power.trip }) (execInputRemoved long s) := by
  refine keeps_next ?_
  cases long
  · exact mainOff_on s
  · exact (standbyOff_trip _).trans (by rw [mainOff_on]; rfl)

theorem execThermalTrip_power (sensor temp : Nat) (s : State) :
    Keeps (fun t => t.kept = s.kept ∨ t.kept = { s.kept with on := false, trip := some (sensor, temp, s.now) })
      (execThermalTrip sensor temp s) :=
  keeps_unit (.inl rfl) (thermalTrip_trip s sensor temp)

theorem execPowerOn_power (s : State) :
    Keeps (fun t => t.kept = s.kept ∨ (s.power.on = false ∧ s.power.trip = none ∧
      t.kept = { s.kept with clock := 0, map := AddrMap.coldDefault 0, bank := false, prog := Tmp.reset.progress, on := true })) (execPowerOn s) :=
  keeps_next (powerOn_kept s)

theorem execFwStage_slots (image : HostErr ⊕ List Byte) (flashOk : Bool) (s : State) :
    Keeps (fun t => ∃ a b, t.kept = { s.kept with slotA := a, slotB := b }) (execFwStage image flashOk s) := by
  refine keeps_live ⟨s.smc.slotA, s.smc.slotB, rfl⟩ ?_
  unfold onMailbox
  split
  · exact fwStage_slots s image flashOk
  · exact ⟨s.smc.slotA, s.smc.slotB, rfl⟩

theorem execSvnCommit_fuse (s : State) :
    Keeps (fun t => ∃ n, s.smc.fuseSvn ≤ n ∧ (s.smc.fuseSvn ≤ 64 → n ≤ 64) ∧ t.kept = { s.kept with fuseSvn := n }) (execSvnCommit s) := by
  refine keeps_live ⟨_, Nat.le_refl _, id, rfl⟩ ?_
  unfold onMailbox
  split
  · exact svnCommit_fuse s
  · exact ⟨_, Nat.le_refl _, id, rfl⟩

theorem execKeyRevoke_fuse (s : State) :
    Keeps (fun t => t.kept = s.kept ∨ ∃ n < 4, t.kept = { s.kept with revoked := s.smc.revoked ||| 2 ^ n }) (execKeyRevoke s) := by
  refine keeps_live (.inl rfl) ?_
  unfold onMailbox
  split
  · exact keyRevoke_fuse s
  · exact .inl rfl

end Sys2Proof.Machine
end

