-- ==== Sys2Proof/Laws/MemUnits.lean ====
section
/-! SUPPORT. Memory frames of the operations up to the engines and memory: all of memory is unchanged by each. -/

namespace Sys2Proof.Machine

open Sys2Proof

@[simp] theorem mem_ite (c : Prop) [Decidable c] (a b : State) : (if c then a else b).mem = if c then a.mem else b.mem := by
  split <;> rfl

@[simp] theorem foldl_mem {α : Type} (g : State → α → State) (h : ∀ s x, (g s x).mem = s.mem) (l : List α) :
    ∀ s : State, (l.foldl g s).mem = s.mem := by
  induction l with
  | nil => intro s; rfl
  | cons x t ih => intro s; simp only [List.foldl_cons]; rw [ih, h]

@[simp] theorem foldl_fst_mem {α β : Type} (g : State × β → α → State × β) (h : ∀ x a, (g x a).1.mem = x.1.mem) (l : List α) :
    ∀ x : State × β, (l.foldl g x).1.mem = x.1.mem := by
  induction l with
  | nil => intro x; rfl
  | cons a t ih => intro x; simp only [List.foldl_cons]; rw [ih, h]

@[simp] theorem wr_mem (s : State) (f : Field) (i v : Nat) :
    (State.wr s f i v).mem = s.mem := by
  simp [State.wr]

@[simp] theorem inc_mem (s : State) (f : Field) (i n : Nat) :
    (State.inc s f i n).mem = s.mem := by
  simp [State.inc]

@[simp] theorem hwr_mem (s : State) (f : Field) (slot v : Nat) :
    (State.hwr s f slot v).mem = s.mem := by
  simp [State.hwr]

@[simp] theorem emit_mem (s : State) (m : OutMsg) :
    (State.emit s m).mem = s.mem := by
  simp [State.emit]

@[simp] theorem fresh_mem (s : State) :
    (State.fresh s).2.mem = s.mem := by
  simp [State.fresh]

@[simp] theorem msixSend_mem (s : State) (v : Nat) :
    (msixSend s v).mem = s.mem := by
  simp [msixSend]

@[simp] theorem msixRequest_mem (s : State) (v : Nat) :
    (msixRequest s v).mem = s.mem := by
  simp [msixRequest]

@[simp] theorem notice_mem (s : State) (slot b : Nat) :
    (notice s slot b).mem = s.mem := by
  simp [notice]

@[simp] theorem raiseSlot_mem (s : State) (slot b : Nat) :
    (raiseSlot s slot b).mem = s.mem := by
  simp [raiseSlot]

@[simp] theorem raise_mem (s : State) (p : Page) (i b : Nat) :
    (raise s p i b).mem = s.mem := by
  simp [raise]

@[simp] theorem raiseIf_mem (c : Bool) (s : State) (p : Page) (i b : Nat) :
    (raiseIf c s p i b).mem = s.mem := by
  simp [raiseIf]

@[simp] theorem countClass_mem (s : State) (p : Page) (i : Nat) (c : EClass) :
    (countClass s p i c).mem = s.mem := by
  unfold countClass
  repeat' (first | (simp; done) | split)

@[simp] theorem logErr_mem (s : State) (p : Page) (i code : Nat) (c : EClass) (unit addr : Nat) (detail : List Nat) :
    (logErr s p i code c unit addr detail).mem = s.mem := by
  simp [logErr]

@[simp] theorem stepFault_mem (s : State) (r : Reason) :
    (stepFault s r).mem = s.mem := by
  simp [stepFault]

@[simp] theorem setLink_mem (s : State) (k : Nat) (l : Link) :
    (State.setLink s k l).mem = s.mem := by
  simp [State.setLink]

@[simp] theorem sendPrio_mem (s : State) (k : Nat) (c : PClass) (p : Packet) :
    (sendPrio s k c p).mem = s.mem := by
  simp [sendPrio]

@[simp] theorem sendEgress_mem (s : State) (k : Nat) (c : PClass) (p : Packet) :
    (sendEgress s k c p).mem = s.mem := by
  simp [sendEgress]

@[simp] theorem sendCopies_mem (s : State) (b : Burst) :
    (sendCopies s b).mem = s.mem := by
  simp [sendCopies]

@[simp] theorem startBurst_mem (s : State) (c : PClass) (payload : List Byte) :
    (startBurst s c payload).mem = s.mem := by
  simp [startBurst]

@[simp] theorem stopApply_mem (s : State) :
    (stopApply s).mem = s.mem := by
  simp [stopApply]

@[simp] theorem sendStopBurst_mem (s : State) (r : Reason) :
    (sendStopBurst s r).mem = s.mem := by
  simp [sendStopBurst]

@[simp] theorem stepFaultStop_mem (s : State) (r : Reason) :
    (stepFaultStop s r).mem = s.mem := by
  simp [stepFaultStop]

@[simp] theorem cutBurst_mem (s : State) (step cause : Nat) :
    (cutBurst s step cause).mem = s.mem := by
  simp [cutBurst]

@[simp] theorem setCutPending_mem (s : State) (step cause : Nat) :
    (setCutPending s step cause).mem = s.mem := by
  simp [setCutPending]

@[simp] theorem takeCut_mem (s : State) (step cause : Nat) :
    (takeCut s step cause).mem = s.mem := by
  unfold takeCut
  repeat' (first | (simp; done) | split)

@[simp] theorem requestCut_mem (s : State) (cause : Nat) :
    (requestCut s cause).mem = s.mem := by
  unfold requestCut
  split <;> simp

@[simp] theorem ledgerAdd_mem (s : State) (unit kind cls weight : Nat) (detail : List Nat) :
    (ledgerAdd s unit kind cls weight detail).mem = s.mem := by
  simp [ledgerAdd]

@[simp] theorem ledgerEvent_mem (s : State) (unit kind cls weight : Nat) (odd : Bool) (detail : List Nat) :
    (ledgerEvent s unit kind cls weight odd detail).mem = s.mem := by
  simp [ledgerEvent]

@[simp] theorem warnCut_mem (s : State) (unit : Nat) :
    (warnCut s unit).mem = s.mem := by
  simp [warnCut]

@[simp] theorem levelRise_mem (s : State) (unit old lv : Nat) :
    (levelRise s unit old lv).mem = s.mem := by
  simp [levelRise]

@[simp] theorem updateLevel_mem (s : State) (unit : Nat) :
    (updateLevel s unit).mem = s.mem := by
  simp [updateLevel]

@[simp] theorem healthInput_mem (s : State) (n unit : Nat) :
    (healthInput s n unit).mem = s.mem := by
  simp [healthInput]

@[simp] theorem parityEvent_mem (s : State) (unit page code : Nat) :
    (parityEvent s unit page code).mem = s.mem := by
  simp [parityEvent]

@[simp] theorem tick_mem (s : State) :
    (tick s).mem = s.mem := by
  simp [tick]

@[simp] theorem setCtx_mem (s : State) (c : Nat) (x : Ctx) :
    (State.setCtx s c x).mem = s.mem := by
  simp [State.setCtx]

@[simp] theorem setAnvil_mem (s : State) (die m : Nat) (a : Anvil) :
    (State.setAnvil s die m a).mem = s.mem := by
  simp [State.setAnvil]

@[simp] theorem setSwage_mem (s : State) (die m : Nat) (x : Swage) :
    (State.setSwage s die m x).mem = s.mem := by
  simp [State.setSwage]

@[simp] theorem setStack_mem (s : State) (n : Nat) (x : Stack) :
    (State.setStack s n x).mem = s.mem := by
  simp [State.setStack]

@[simp] theorem refuseEffects_mem (s : State) (r : Req) (write : Bool) (ctx a n : Nat) :
    (refuseEffects s r write ctx a n).mem = s.mem := by
  unfold refuseEffects
  repeat' (first | (simp; done) | split)

@[simp] theorem domainBlocked_mem (s : State) (die : Nat) (a : Nat) :
    (domainBlocked s die a).mem = s.mem := by
  simp [domainBlocked]

@[simp] theorem countBytes_mem (s : State) (write : Bool) (a n : Nat) :
    (countBytes s write a n).mem = s.mem := by
  unfold countBytes
  split <;> simp

@[simp] theorem readAny_mem (s : State) (a n : Nat) :
    (readAny s a n).2.mem = s.mem := by
  unfold readAny
  split <;> simp

@[simp] theorem rebuildScores_mem (s : State) :
    (rebuildScores s).mem = s.mem := by
  simp [rebuildScores]

@[simp] theorem refreshDie_mem (s : State) (d : Nat) :
    (refreshDie s d).mem = s.mem := by
  simp [refreshDie]

@[simp] theorem bringupEnd_mem (s : State) :
    (bringupEnd s).mem = s.mem := by
  simp [bringupEnd]

@[simp] theorem chipTrained_mem (s : State) :
    (chipTrained s).mem = s.mem := by
  simp [chipTrained]

@[simp] theorem bringupDone_mem (s : State) :
    (bringupDone s).mem = s.mem := by
  simp [bringupDone]

@[simp] theorem refreshReady_mem (s : State) :
    (refreshReady s).mem = s.mem := by
  simp [refreshReady]

@[simp] theorem haltBringup_mem (s : State) (cause : Nat) :
    (haltBringup s cause).mem = s.mem := by
  simp [haltBringup]

@[simp] theorem orAflags_mem (s : State) (c v : Nat) :
    (orAflags s c v).mem = s.mem := by
  simp [orAflags]

@[simp] theorem clearAflags_mem (s : State) (c : Nat) :
    (clearAflags s c).mem = s.mem := by
  simp [clearAflags]

@[simp] theorem badAccess_mem (s : State) :
    (badAccess s).mem = s.mem := by
  simp [badAccess]

@[simp] theorem writeField_mem (s : State) (f : Field) (i : Nat) (mask val : Nat) :
    (writeField s f i mask val).mem = s.mem := by
  unfold writeField
  repeat' (first | (simp; done) | split)

@[simp] theorem writeBlockReg_mem (s : State) (who : Writer) (p : Page) (i base mask val : Nat) :
    (writeBlockReg s who p i base mask val).mem = s.mem := by
  simp [writeBlockReg]

@[simp] theorem writeHeaderReg_mem (s : State) (p : Page) (i base mask val : Nat) :
    (writeHeaderReg s p i base mask val).mem = s.mem := by
  simp [writeHeaderReg]

@[simp] theorem writeHalf_mem (s : State) (who : Writer) (p : Page) (i off val : Nat) :
    (writeHalf s who p i off val).mem = s.mem := by
  unfold writeHalf
  repeat' (first | (simp; done) | split)

@[simp] theorem writeSlot_mem (s : State) (who : Writer) (slot off width val : Nat) :
    (writeSlot s who slot off width val).mem = s.mem := by
  unfold writeSlot
  split <;> simp

@[simp] theorem regWriteOp_mem (s : State) (who : Writer) (off width : Nat) (full : Bool) (val : Nat) :
    (regWriteOp s who off width full val).mem = s.mem := by
  simp [regWriteOp]

@[simp] theorem applyOp_mem (s : State) (p : Page) (i : Nat) :
    (applyOp s p i).mem = s.mem := by
  simp [applyOp]

@[simp] theorem commitApply_mem (s : State) (p : Page) (i : Nat) :
    (commitApply s p i).mem = s.mem := by
  simp [commitApply]

@[simp] theorem refuseApply_mem (s : State) (p : Page) (i : Nat) (causes : List Nat) :
    (refuseApply s p i causes).mem = s.mem := by
  simp [refuseApply]

@[simp] theorem armDiscardOp_mem (s : State) (p : Page) (i : Nat) :
    (armDiscardOp s p i).mem = s.mem := by
  simp [armDiscardOp]

@[simp] theorem clearLog_mem (s : State) (slot : Nat) :
    (clearLog s slot).mem = s.mem := by
  simp [clearLog]

@[simp] theorem clearEvents_mem (s : State) (slot mask : Nat) :
    (clearEvents s slot mask).mem = s.mem := by
  simp [clearEvents]

@[simp] theorem forceEvents_mem (s : State) (slot mask : Nat) :
    (forceEvents s slot mask).mem = s.mem := by
  simp [forceEvents]

@[simp] theorem maskEvents_mem (s : State) (slot mask : Nat) :
    (maskEvents s slot mask).mem = s.mem := by
  simp [maskEvents]

@[simp] theorem setFlow_mem (s : State) (f : Nat) (x : Flow) :
    (State.setFlow s f x).mem = s.mem := by
  simp [State.setFlow]

@[simp] theorem sendCtrl_mem (s : State) (node kind flowField flowId last : Nat) :
    (sendCtrl s node kind flowField flowId last).1.mem = s.mem := by
  unfold sendCtrl
  split <;> simp

@[simp] theorem openFlow_mem (s : State) (f node : Nat) (w : List OutPkt) :
    (openFlow s f node w).mem = s.mem := by
  simp [openFlow]

@[simp] theorem closeFlow_mem (s : State) (f : Nat) :
    (closeFlow s f).mem = s.mem := by
  simp [closeFlow]

@[simp] theorem queuePkt_mem (s : State) (node : Nat) (p : OutPkt) :
    (queuePkt s node p).mem = s.mem := by
  unfold queuePkt
  repeat' (first | (simp; done) | split)

@[simp] theorem queueAll_mem (s : State) (node : Nat) (ps : List OutPkt) :
    (queueAll s node ps).mem = s.mem := by
  simp [queueAll]

@[simp] theorem sendAckTo_mem (s : State) (node flowField last : Nat) (payload : List Byte) :
    (sendAckTo s node flowField last payload).mem = s.mem := by
  unfold sendAckTo
  split <;> simp

@[simp] theorem sendFlowAck_mem (s : State) (f : Nat) :
    (sendFlowAck s f).mem = s.mem := by
  simp [sendFlowAck]

@[simp] theorem sendFlowNak_mem (s : State) (f seq reason : Nat) :
    (sendFlowNak s f seq reason).mem = s.mem := by
  simp [sendFlowNak]

@[simp] theorem sendNoFlowNak_mem (s : State) (node seq reason : Nat) :
    (sendNoFlowNak s node seq reason).mem = s.mem := by
  simp [sendNoFlowNak]

@[simp] theorem abandonPackets_mem (s : State) (mine : Owner → Bool) :
    (abandonPackets s mine).mem = s.mem := by
  simp [abandonPackets]

@[simp] theorem fillBegin_mem (s : State) (xx : List Load) :
    (fillBegin s xx).mem = s.mem := by
  induction xx generalizing s with
  | nil => rfl
  | cons l t ih =>
    unfold fillBegin
    split
    · rw [ih]; simp
    · rfl

@[simp] theorem fillAdvance_mem (s : State) :
    (fillAdvance s).mem = s.mem := by
  simp [fillAdvance]

@[simp] theorem setFlight_mem (s : State) (id : Nat) (f : Flight) :
    (State.setFlight s id f).mem = s.mem := by
  simp [State.setFlight]

@[simp] theorem dropFlight_mem (s : State) (id : Nat) :
    (State.dropFlight s id).mem = s.mem := by
  simp [State.dropFlight]

@[simp] theorem launch_mem (s : State) (c : Nat) (r : Rec) (w : Work) (left src dst len : Nat) (host : Bool) :
    (launch s c r w left src dst len host).2.mem = s.mem := by
  simp [launch]

@[simp] theorem setCounter_mem (s : State) (k : Nat) (x : Counter) :
    (State.setCounter s k x).mem = s.mem := by
  simp [State.setCounter]

@[simp] theorem wakeLocal_mem (s : State) (k value : Nat) :
    (wakeLocal s k value).mem = s.mem := by
  unfold wakeLocal
  repeat' (first
    | with_reducible rfl
    | (with_reducible refine (foldl_mem _ (fun s x => ?_) _ _).trans ?_)
    | (simp; done)
    | split
    | (dsimp only; split))

@[simp] theorem notifySubs_mem (s : State) (k value : Nat) (stepFlag : Bool) :
    (notifySubs s k value stepFlag).mem = s.mem := by
  simp [notifySubs]

@[simp] theorem counterSet_mem (s : State) (k : Nat) (x : Counter) (v : Nat) :
    (counterSet s k x v).mem = s.mem := by
  simp [counterSet]

@[simp] theorem counterOp_mem (s : State) (k op v : Nat) :
    (counterOp s k op v).mem = s.mem := by
  unfold counterOp
  split <;> simp

@[simp] theorem fillErr_mem (s : State) (c source code : Nat) (at' : Pc) (e : SyncErr) :
    (fillErr s c source code at' e).mem = s.mem := by
  simp [fillErr]

@[simp] theorem clearErr_mem (s : State) (c : Nat) :
    (clearErr s c).mem = s.mem := by
  simp [clearErr]

@[simp] theorem cmdErrorAt_mem (s : State) (c source code : Nat) (r : Rec) (e : SyncErr) :
    (cmdErrorAt s c source code r e).mem = s.mem := by
  unfold cmdErrorAt
  repeat' (first
    | with_reducible rfl
    | (with_reducible refine (foldl_mem _ (fun s x => ?_) _ _).trans ?_)
    | (simp; done)
    | split
    | (dsimp only; split))

@[simp] theorem cmdError_mem (s : State) (c : Nat) (r : Rec) (source code : Nat) :
    (cmdError s c r source code).mem = s.mem := by
  simp [cmdError]

@[simp] theorem completeRec_mem (s : State) (c : Nat) (r : Rec) :
    (completeRec s c r).mem = s.mem := by
  unfold completeRec
  repeat' (first
    | with_reducible rfl
    | (with_reducible refine (foldl_mem _ (fun s x => ?_) _ _).trans ?_)
    | (simp; done)
    | split
    | (dsimp only; split))

@[simp] theorem failFlight_mem (s : State) (id : Nat) (f : Flight) (source code : Nat) :
    (failFlight s id f source code).mem = s.mem := by
  simp [failFlight]

@[simp] theorem brokenWake_mem (s : State) (c : Nat) (w : WaitState) (value : Nat) :
    (brokenWake s c w value).mem = s.mem := by
  simp [brokenWake]

@[simp] theorem breakCounter_mem (s : State) (k : Nat) :
    (breakCounter s k).mem = s.mem := by
  unfold breakCounter
  split
  · rfl
  · split
    · rfl
    · dsimp only
      rw [foldl_mem _ (fun s x => by simp)]
      dsimp only
      rw [foldl_mem _ (fun s x => by split <;> simp)]
      simp

@[simp] theorem breakOwned_mem (s : State) (c : Nat) :
    (breakOwned s c).mem = s.mem := by
  simp [breakOwned]

@[simp] theorem cancelSub_mem (s : State) (c : Nat) :
    (cancelSub s c).mem = s.mem := by
  unfold cancelSub
  repeat' (first | (simp; done) | split)

@[simp] theorem prune_mem (s : State) :
    (prune s).mem = s.mem := by
  simp [prune]

@[simp] theorem abandonFlights_mem (s : State) (ids : List Nat) :
    (abandonFlights s ids).mem = s.mem := by
  simp [abandonFlights]

@[simp] theorem hostFault_mem (s : State) (unit addr code : Nat) :
    (hostFault s unit addr code).mem = s.mem := by
  simp [hostFault]

@[simp] theorem unreachable_mem (s : State) (c : Nat) (r : Rec) :
    (unreachable s c r).mem = s.mem := by
  simp [unreachable]

theorem unservable_mem {s : State} {c : Nat} {r : Rec} {accs : List (Nat × Nat)} {t : State} (h : unservable s c r accs = some t) : t.mem = s.mem := by
  unfold unservable at h
  revert h
  repeat' (first
    | (simp; done)
    | (intro h; cases h; simp; done)
    | (intro h; simp at h; subst h; simp; done)
    | split
    | (dsimp only; split))

@[simp] theorem createCtx_mem (s : State) (c : Nat) :
    (createCtx s c).mem = s.mem := by
  simp [createCtx]

@[simp] theorem loadOp_mem (s : State) (c : Nat) :
    (loadOp s c).mem = s.mem := by
  simp [loadOp]

@[simp] theorem acceptRec_mem (s : State) (c : Nat) (r : Rec) :
    (acceptRec s c r).mem = s.mem := by
  unfold acceptRec
  repeat' (first
    | with_reducible rfl
    | (with_reducible refine (foldl_mem _ (fun s x => ?_) _ _).trans ?_)
    | (simp; done)
    | (with_reducible exact unservable_mem ‹_›)
    | split
    | (dsimp only; split))

@[simp] theorem blockFence_mem (s : State) (c : Nat) :
    (blockFence s c).mem = s.mem := by
  simp [blockFence]

@[simp] theorem issueFrom_mem (s : State) (c : Nat) :
    (issueFrom s c).mem = s.mem := by
  unfold issueFrom
  repeat' (first
    | with_reducible rfl
    | (with_reducible refine (foldl_mem _ (fun s x => ?_) _ _).trans ?_)
    | (simp; done)
    | (with_reducible exact unservable_mem ‹_›)
    | split
    | (dsimp only; split))

@[simp] theorem issueTurn_mem (s : State) (die : Nat) :
    (issueTurn s die).mem = s.mem := by
  unfold issueTurn
  repeat' (first | (simp; done) | split)

@[simp] theorem sendSubscribe_mem (s : State) (c : Nat) (w : WaitState) :
    (sendSubscribe s c w).mem = s.mem := by
  simp [sendSubscribe]

@[simp] theorem timeoutCtx_mem (s : State) (c : Nat) :
    (timeoutCtx s c).mem = s.mem := by
  unfold timeoutCtx
  repeat' (first
    | with_reducible rfl
    | (with_reducible refine (foldl_mem _ (fun s x => ?_) _ _).trans ?_)
    | (simp; done)
    | (with_reducible exact unservable_mem ‹_›)
    | split
    | (dsimp only; split))

@[simp] theorem retrySub_mem (s : State) (c : Nat) :
    (retrySub s c).mem = s.mem := by
  unfold retrySub
  repeat' (first
    | with_reducible rfl
    | (with_reducible refine (foldl_mem _ (fun s x => ?_) _ _).trans ?_)
    | (simp; done)
    | (with_reducible exact unservable_mem ‹_›)
    | split
    | (dsimp only; split))

@[simp] theorem synOp_mem (s : State) (op : Nat) :
    (synOp s op).2.mem = s.mem := by
  unfold synOp
  repeat' (first
    | with_reducible rfl
    | (with_reducible refine (foldl_mem _ (fun s x => ?_) _ _).trans ?_)
    | (simp; done)
    | (with_reducible exact unservable_mem ‹_›)
    | split
    | (dsimp only; split))

@[simp] theorem takeSyn_mem (s : State) :
    (takeSyn s).mem = s.mem := by
  simp [takeSyn]

@[simp] theorem takeSynOp_mem (s : State) (op : Nat) :
    (takeSynOp s op).mem = s.mem := by
  simp [takeSynOp]

@[simp] theorem writeEdge_mem (s : State) (c : Nat) :
    (writeEdge s c).mem = s.mem := by
  unfold writeEdge
  split <;> simp

@[simp] theorem evalWaits_mem (s : State) :
    (evalWaits s).mem = s.mem := by
  simp [evalWaits]

@[simp] theorem refuseAccess_mem (s : State) (c : Nat) (r : Rec) (a : Bool × Nat × Nat) :
    (refuseAccess s c r a).mem = s.mem := by
  simp [refuseAccess]

@[simp] theorem bankWriteFault_mem (s : State) (rs : List (Bool × Nat × Nat × Nat × Nat)) :
    (bankWriteFault s rs).mem = s.mem := by
  simp [bankWriteFault]

@[simp] theorem setMma_mem (s : State) (id : Nat) (m : Mma) :
    (State.setMma s id m).mem = s.mem := by
  simp [State.setMma]

@[simp] theorem capacityCheck_mem (old s : State) (die : Nat) :
    (capacityCheck old s die).mem = s.mem := by
  simp [capacityCheck]

@[simp] theorem promote_mem (s : State) (die : Nat) :
    (promote s die).mem = s.mem := by
  simp [promote]

@[simp] theorem anvParity_mem (s : State) (die m : Nat) (par : AnvParity) (r : TileRun) (x : Mma) :
    (anvParity s die m par r x).mem = s.mem := by
  simp [anvParity]

@[simp] theorem loupeSelect_mem (s : State) (die : Nat) :
    (loupeSelect s die).2.mem = s.mem := by
  unfold loupeSelect
  repeat' (first
    | with_reducible rfl
    | (with_reducible refine (foldl_mem _ (fun s x => ?_) _ _).trans ?_)
    | (simp; done)
    | (with_reducible exact unservable_mem ‹_›)
    | split
    | (dsimp only; split))

@[simp] theorem endCapture_mem (s : State) (die : Nat) (x : Mma) (r : TileRun) (good res : List Nat) (sat : Bool) :
    (endCapture s die x r good res sat).mem = s.mem := by
  unfold endCapture
  split <;> simp

@[simp] theorem satTile_mem (s : State) (i u : Nat) (x : Mma) (r : TileRun) :
    (satTile s i u x r).mem = s.mem := by
  simp [satTile]

@[simp] theorem tileCounters_mem (s : State) (i cycles level : Nat) (nan : Bool) :
    (tileCounters s i cycles level nan).mem = s.mem := by
  simp [tileCounters]

@[simp] theorem endWait_mem (s : State) (die u : Nat) :
    (endWait s die u).mem = s.mem := by
  simp [endWait]

@[simp] theorem gateAnvil_mem (s : State) (die u : Nat) :
    (gateAnvil s die u).mem = s.mem := by
  simp [gateAnvil]

@[simp] theorem claimAnvil_mem (s : State) (die : Nat) :
    (claimAnvil s die).mem = s.mem := by
  unfold claimAnvil
  repeat' (first | (simp; done) | split)

@[simp] theorem enterTest_mem (s : State) (die m t0 : Nat) :
    (enterTest s die m t0).mem = s.mem := by
  simp [enterTest]

@[simp] theorem moveChain_mem (s : State) (c : Chain) :
    (moveChain s c).mem = s.mem := by
  unfold moveChain
  split <;> simp

@[simp] theorem abandonCapture_mem (s : State) (die u : Nat) :
    (abandonCapture s die u).mem = s.mem := by
  unfold abandonCapture
  split <;> simp

@[simp] theorem claimForced_mem (s : State) (die : Nat) :
    (claimForced s die).mem = s.mem := by
  unfold claimForced
  split
  · rename_i t0 _
    extract_lets
    by_cases h : s.clock < t0 + 50000000
    · rw [if_pos h]
    · rw [if_neg h]
      split
      · rfl
      · simp
  · rfl

@[simp] theorem abandonAnvils_mem (s : State) (ids : List Nat) (log : Bool) :
    (abandonAnvils s ids log).mem = s.mem := by
  simp [abandonAnvils]

@[simp] theorem refuseVec_mem (s : State) (c : Nat) (r : Rec) (code : Nat) :
    (refuseVec s c r code).mem = s.mem := by
  simp [refuseVec]

@[simp] theorem refuseSpark_mem (s : State) (c : Nat) (r : Rec) :
    (refuseSpark s c r).mem = s.mem := by
  simp [refuseSpark]

@[simp] theorem setVec_mem (s : State) (id : Nat) (v : Vec) :
    (State.setVec s id v).mem = s.mem := by
  simp [State.setVec]

@[simp] theorem startBlock_mem (s : State) (die u slot : Nat) :
    (startBlock s die u slot).mem = s.mem := by
  unfold startBlock
  repeat' (first
    | with_reducible rfl
    | (with_reducible refine (foldl_mem _ (fun s x => ?_) _ _).trans ?_)
    | (simp; done)
    | (with_reducible exact unservable_mem ‹_›)
    | split
    | (dsimp only; split))

@[simp] theorem swgParity_mem (s : State) (die u : Nat) (par : SwgParity) (ctx b : Nat) :
    (swgParity s die u par ctx b).mem = s.mem := by
  simp [swgParity]

@[simp] theorem swgCapacity_mem (old s : State) (die : Nat) :
    (swgCapacity old s die).mem = s.mem := by
  simp [swgCapacity]

@[simp] theorem drainSwage_mem (s : State) (die u : Nat) :
    (drainSwage s die u).mem = s.mem := by
  simp [drainSwage]

@[simp] theorem gateSwage_mem (s : State) (die u : Nat) :
    (gateSwage s die u).mem = s.mem := by
  simp [gateSwage]

@[simp] theorem claimSwage_mem (s : State) (die : Nat) :
    (claimSwage s die).mem = s.mem := by
  unfold claimSwage
  repeat' (first | (simp; done) | split)

@[simp] theorem enterSwgTest_mem (s : State) (die u t0 : Nat) :
    (enterSwgTest s die u t0).mem = s.mem := by
  simp [enterSwgTest]

@[simp] theorem swgEnter_mem (s : State) (die : Nat) :
    (swgEnter s die).mem = s.mem := by
  unfold swgEnter
  split <;> simp

@[simp] theorem rerunBlock_mem (s : State) (id b : Nat) :
    (rerunBlock s id b).mem = s.mem := by
  unfold rerunBlock
  split <;> simp

@[simp] theorem swgForced_mem (s : State) (die : Nat) :
    (swgForced s die).mem = s.mem := by
  unfold swgForced
  split
  · rename_i t0 _
    extract_lets a s2 s1 s0
    by_cases h : s.clock < t0 + 50000000
    · rw [if_pos h]
    · rw [if_neg h]
      split
      · rfl
      · simp [s0, s1, s2]
  · rfl

@[simp] theorem abandonSwages_mem (s : State) (ids : List Nat) (log : Bool) :
    (abandonSwages s ids log).mem = s.mem := by
  unfold abandonSwages
  repeat' (first
    | with_reducible rfl
    | (with_reducible refine (foldl_mem _ (fun s x => ?_) _ _).trans ?_)
    | (simp; done)
    | (with_reducible exact unservable_mem ‹_›)
    | split
    | (dsimp only; split))

@[simp] theorem applySwgMap_mem (s : State) (die : Nat) :
    (applySwgMap s die).mem = s.mem := by
  unfold applySwgMap
  repeat' (first
    | with_reducible rfl
    | (with_reducible refine (foldl_mem _ (fun s x => ?_) _ _).trans ?_)
    | (simp; done)
    | (with_reducible exact unservable_mem ‹_›)
    | split
    | (dsimp only; split))

@[simp] theorem sparkKatOp_mem (s : State) (good : Bool) :
    (sparkKatOp s good).mem = s.mem := by
  simp [sparkKatOp]

@[simp] theorem hearthCe_mem (s : State) (die bank addr ctx : Nat) :
    (hearthCe s die bank addr ctx).mem = s.mem := by
  simp [hearthCe]

@[simp] theorem hearthUe_mem (s : State) (die bank addr ctx : Nat) :
    (hearthUe s die bank addr ctx).mem = s.mem := by
  simp [hearthUe]

@[simp] theorem hearthScrub_mem (s : State) (die bank : Nat) (ecc : Ecc) :
    (hearthScrub s die bank ecc).mem = s.mem := by
  unfold hearthScrub
  repeat' (first | (simp; done) | split)

@[simp] theorem enterStopped_mem (s : State) (r : Reason) :
    (enterStopped s r).mem = s.mem := by
  simp [enterStopped]

@[simp] theorem mapoutEntry_mem (s : State) (stack ch : Nat) (on : Bool) :
    (mapoutEntry s stack ch on).mem = s.mem := by
  simp [mapoutEntry]

@[simp] theorem listMapout_mem (s : State) (stack m : Nat) :
    (listMapout s stack m).mem = s.mem := by
  simp [listMapout]

@[simp] theorem trainStack_mem (s : State) (n : Nat) (r : StackReport) :
    (trainStack s n r).mem = s.mem := by
  simp [trainStack]

@[simp] theorem reportUe_mem (s : State) (a ctx : Nat) :
    (reportUe s a ctx).mem = s.mem := by
  simp [reportUe]

@[simp] theorem holdLost_mem (s : State) (a ctx : Nat) (c : EClass) :
    (holdLost s a ctx c).mem = s.mem := by
  simp [holdLost]

@[simp] theorem loseHold_mem (s : State) (a ctx : Nat) :
    (loseHold s a ctx).mem = s.mem := by
  simp [loseHold]

@[simp] theorem loseWardHold_mem (s : State) (a ctx : Nat) :
    (loseWardHold s a ctx).mem = s.mem := by
  simp [loseWardHold]

@[simp] theorem failHeal_mem (s : State) (row : Nat) :
    (failHeal s row).mem = s.mem := by
  simp [failHeal]

@[simp] theorem startHeal_mem (s : State) (row : Nat) :
    (startHeal s row).mem = s.mem := by
  unfold startHeal
  repeat' (first
    | with_reducible rfl
    | (with_reducible refine (foldl_mem _ (fun s x => ?_) _ _).trans ?_)
    | (simp; done)
    | (with_reducible exact unservable_mem ‹_›)
    | split
    | (dsimp only; split))

@[simp] theorem healOrHold_mem (s : State) (a : Nat) :
    (healOrHold s a).mem = s.mem := by
  simp [healOrHold]

@[simp] theorem ueAction_mem (s : State) (a ctx : Nat) :
    (ueAction s a ctx).mem = s.mem := by
  unfold ueAction
  split <;> simp

@[simp] theorem hbmUe_mem (s : State) (a ctx : Nat) :
    (hbmUe s a ctx).mem = s.mem := by
  simp [hbmUe]

@[simp] theorem hbmCe_mem (s : State) (a : Nat) :
    (hbmCe s a).mem = s.mem := by
  simp [hbmCe]

@[simp] theorem hbmOutcome_mem (s : State) (a ctx : Nat) (ecc : Ecc) :
    (hbmOutcome s a ctx ecc).mem = s.mem := by
  unfold hbmOutcome
  split <;> simp

@[simp] theorem startHeldHeals_mem (s : State) :
    (startHeldHeals s).mem = s.mem := by
  simp [startHeldHeals]

@[simp] theorem dropHeldHeals_mem (s : State) :
    (dropHeldHeals s).mem = s.mem := by
  simp [dropHeldHeals]

@[simp] theorem flagChannel_mem (s : State) (stack ch : Nat) :
    (flagChannel s stack ch).mem = s.mem := by
  simp [flagChannel]

@[simp] theorem readTemp_mem (s : State) (stack temp : Nat) :
    (readTemp s stack temp).mem = s.mem := by
  simp [readTemp]

@[simp] theorem patrolScrub_mem (s : State) (stack pc : Nat) (ecc : Ecc) :
    (patrolScrub s stack pc ecc).mem = s.mem := by
  simp [patrolScrub]

@[simp] theorem exitSelfRefresh_mem (s : State) (n bad : Nat) :
    (exitSelfRefresh s n bad).mem = s.mem := by
  simp [exitSelfRefresh]

@[simp] theorem exitDie_mem (s : State) (die bad0 bad1 : Nat) :
    (exitDie s die bad0 bad1).mem = s.mem := by
  simp [exitDie]

end Sys2Proof.Machine
end

