-- ==== Sys2Proof/Laws/MemFabric.lean ====
section
/-! SUPPORT. Memory frames of the operations of the fabric, the collectives, the step and the checkpoints: all of memory is unchanged by each. -/

namespace Sys2Proof.Machine

open Sys2Proof

@[simp] theorem sendControl_mem (s : State) (k cmd lanes arg : Nat) :
    (sendControl s k cmd lanes arg).mem = s.mem := by
  simp [sendControl]

@[simp] theorem linkLeave_mem (s : State) (k : Nat) (st : LinkState) :
    (linkLeave s k st).mem = s.mem := by
  simp [linkLeave]

@[simp] theorem startTraining_mem (s : State) (k : Nat) (fast restoring : Bool) :
    (startTraining s k fast restoring).mem = s.mem := by
  simp [startTraining]

@[simp] theorem enableLink_mem (s : State) (k : Nat) :
    (enableLink s k).mem = s.mem := by
  simp [enableLink]

@[simp] theorem disableLink_mem (s : State) (k : Nat) :
    (disableLink s k).mem = s.mem := by
  simp [disableLink]

@[simp] theorem failLink_mem (s : State) (k reason : Nat) :
    (failLink s k reason).mem = s.mem := by
  simp [failLink]

@[simp] theorem linkUpOn_mem (s : State) (k lanes : Nat) (up : Bool) (rep : LinkReport) :
    (linkUpOn s k lanes up rep).mem = s.mem := by
  simp [linkUpOn]

@[simp] theorem negotiate_mem (s : State) (k : Nat) (cap : CapBlock) :
    (negotiate s k cap).2.mem = s.mem := by
  simp [negotiate]

@[simp] theorem endTraining_mem (s : State) (k : Nat) (rep : LinkReport) :
    (endTraining s k rep).mem = s.mem := by
  simp [endTraining]

@[simp] theorem endDegrade_mem (s : State) (k lanes : Nat) (rep : LinkReport) :
    (endDegrade s k lanes rep).mem = s.mem := by
  simp [endDegrade]

@[simp] theorem trainLink_mem (s : State) (k : Nat) (rep : LinkReport) :
    (trainLink s k rep).mem = s.mem := by
  simp [trainLink]

@[simp] theorem retrainLink_mem (s : State) (k : Nat) :
    (retrainLink s k).mem = s.mem := by
  unfold retrainLink
  split <;> simp

@[simp] theorem retryLink_mem (s : State) (k : Nat) :
    (retryLink s k).mem = s.mem := by
  unfold retryLink
  repeat' (first
    | with_reducible rfl
    | (with_reducible refine (foldl_mem _ (fun s x => ?_) _ _).trans ?_)
    | (simp; done)
    | (with_reducible exact unservable_mem ‹_›)
    | split
    | (dsimp only; split))

@[simp] theorem restoreLink_mem (s : State) (k : Nat) :
    (restoreLink s k).mem = s.mem := by
  simp [restoreLink]

@[simp] theorem enterX2_mem (s : State) (k good : Nat) (partner : Bool) :
    (enterX2 s k good partner).mem = s.mem := by
  simp [enterX2]

@[simp] theorem faultLanes_mem (s : State) (k bad : Nat) :
    (faultLanes s k bad).mem = s.mem := by
  unfold faultLanes
  repeat' (first
    | with_reducible rfl
    | (with_reducible refine (foldl_mem _ (fun s x => ?_) _ _).trans ?_)
    | (simp; done)
    | (with_reducible exact unservable_mem ‹_›)
    | split
    | (dsimp only; split))

@[simp] theorem degradeAsked_mem (s : State) (k lanes : Nat) :
    (degradeAsked s k lanes).mem = s.mem := by
  unfold degradeAsked
  repeat' (first
    | with_reducible rfl
    | (with_reducible refine (foldl_mem _ (fun s x => ?_) _ _).trans ?_)
    | (simp; done)
    | (with_reducible exact unservable_mem ‹_›)
    | split
    | (dsimp only; split))

@[simp] theorem degradeAnswered_mem (s : State) (k lanes : Nat) (rep : LinkReport) :
    (degradeAnswered s k lanes rep).mem = s.mem := by
  simp [degradeAnswered]

@[simp] theorem degradeLate_mem (s : State) (k : Nat) :
    (degradeLate s k).mem = s.mem := by
  simp [degradeLate]

@[simp] theorem noticeDown_mem (s : State) (k : Nat) :
    (noticeDown s k).mem = s.mem := by
  simp [noticeDown]

@[simp] theorem receiveCodeword_mem (s : State) (k seq : Nat) (symbols : List Nat) (bad : Bool) (packets slots : Nat) :
    (receiveCodeword s k seq symbols bad packets slots).mem = s.mem := by
  simp [receiveCodeword]

@[simp] theorem receiveControl_mem (s : State) (k : Nat) (cs : ControlSlot) :
    (receiveControl s k cs).mem = s.mem := by
  simp [receiveControl]

@[simp] theorem transmit_mem (s : State) (k : Nat) :
    (transmit s k).mem = s.mem := by
  unfold transmit
  repeat' (first
    | with_reducible rfl
    | (with_reducible refine (foldl_mem _ (fun s x => ?_) _ _).trans ?_)
    | (simp; done)
    | (with_reducible exact unservable_mem ‹_›)
    | split
    | (dsimp only; split))

@[simp] theorem askStep_mem (s : State) (k lane : Nat) :
    (askStep s k lane).mem = s.mem := by
  simp [askStep]

@[simp] theorem endWindow_mem (s : State) (k : Nat) :
    (endWindow s k).mem = s.mem := by
  simp [endWindow]

@[simp] theorem stepAsked_mem (s : State) (k lane : Nat) (up : Bool) :
    (stepAsked s k lane up).mem = s.mem := by
  simp [stepAsked]

@[simp] theorem stepAnswered_mem (s : State) (k lane : Nat) :
    (stepAnswered s k lane).mem = s.mem := by
  unfold stepAnswered
  repeat' (first
    | with_reducible rfl
    | (with_reducible refine (foldl_mem _ (fun s x => ?_) _ _).trans ?_)
    | (simp; done)
    | (with_reducible exact unservable_mem ‹_›)
    | split
    | (dsimp only; split))

@[simp] theorem judgeStep_mem (s : State) (k lane : Nat) :
    (judgeStep s k lane).mem = s.mem := by
  unfold judgeStep
  repeat' (first
    | with_reducible rfl
    | (with_reducible refine (foldl_mem _ (fun s x => ?_) _ _).trans ?_)
    | (simp; done)
    | (with_reducible exact unservable_mem ‹_›)
    | split
    | (dsimp only; split))

@[simp] theorem applyLnkTrain_mem (s : State) (k old : Nat) :
    (applyLnkTrain s k old).mem = s.mem := by
  simp [applyLnkTrain]

@[simp] theorem stopLinks_mem (s : State) (d : Nat) :
    (stopLinks s d).mem = s.mem := by
  simp [stopLinks]

@[simp] theorem trainLinks_mem (s : State) (d : Nat) :
    (trainLinks s d).mem = s.mem := by
  simp [trainLinks]

@[simp] theorem dropColl_mem (s : State) (id : Nat) :
    (dropColl s id).mem = s.mem := by
  simp [dropColl]

@[simp] theorem setColl_mem (s : State) (id : Nat) (c : Coll) :
    (State.setColl s id c).mem = s.mem := by
  simp [State.setColl]

@[simp] theorem endFlight_mem (s : State) (id source code : Nat) :
    (endFlight s id source code).mem = s.mem := by
  unfold endFlight
  split <;> simp

@[simp] theorem failColl_mem (s : State) (id code addr peer : Nat) :
    (failColl s id code addr peer).mem = s.mem := by
  unfold failColl
  split <;> simp

@[simp] theorem setSlot_mem (s : State) (n : Nat) (x : SeqSlot) :
    (State.setSlot s n x).mem = s.mem := by
  simp [State.setSlot]

@[simp] theorem failHoldWrite_mem (s : State) (cause : Nat) :
    (failHoldWrite s cause).mem = s.mem := by
  unfold failHoldWrite
  repeat' (first
    | with_reducible rfl
    | (with_reducible refine (foldl_mem _ (fun s x => ?_) _ _).trans ?_)
    | (simp; done)
    | (with_reducible exact unservable_mem ‹_›)
    | split
    | (dsimp only; split))

@[simp] theorem serveNeeds_mem (s : State) :
    (serveNeeds s).mem = s.mem := by
  simp [serveNeeds]

@[simp] theorem noteDrain_mem (s : State) :
    (noteDrain s).mem = s.mem := by
  simp [noteDrain]

@[simp] theorem noteDelivery_mem (s : State) (f q : Nat) :
    (noteDelivery s f q).mem = s.mem := by
  simp [noteDelivery]

theorem checkPacket_mem (s : State) (k : Nat) (c : PClass) (p : Packet) : (checkPacket s k c p).state.mem = s.mem := by
  unfold checkPacket
  repeat' (first
    | (simp [Checked.state]; done)
    | split
    | (dsimp only; split))

theorem checkPacket_drop_mem {s t : State} {k : Nat} {c : PClass} {p : Packet} (h : checkPacket s k c p = .drop t) :
    t.mem = s.mem := by
  have := checkPacket_mem s k c p
  rwa [h] at this

theorem checkPacket_retired_mem {s t : State} {k : Nat} {c : PClass} {p : Packet} (h : checkPacket s k c p = .retired t) :
    t.mem = s.mem := by
  have := checkPacket_mem s k c p
  rwa [h] at this

theorem checkPacket_pass_mem {s t : State} {k : Nat} {c : PClass} {p : Packet} (h : checkPacket s k c p = .pass t) :
    t.mem = s.mem := by
  have := checkPacket_mem s k c p
  rwa [h] at this

@[simp] theorem applyVerdict_mem (s : State) (plane f q : Nat) (xx : Verdict) :
    (applyVerdict s plane f q xx).mem = s.mem := by
  unfold applyVerdict
  split <;> simp

@[simp] theorem signalDenied_mem (s : State) :
    (signalDenied s).1.mem = s.mem := by
  simp [signalDenied]

@[simp] theorem taggedOp_mem (s : State) (k op v step att : Nat) :
    (taggedOp s k op v step att).mem = s.mem := by
  unfold taggedOp
  split <;> simp

@[simp] theorem deliverOp_mem  (s : State) (ff : Nat) (pp : Packet) :
    (deliverOp s ff pp).1.mem = s.mem := by
  unfold deliverOp
  repeat' (first
    | with_reducible rfl
    | (with_reducible refine (foldl_mem _ (fun s x => ?_) _ _).trans ?_)
    | (simp; done)
    | (with_reducible exact unservable_mem ‹_›)
    | split
    | (dsimp only; split))

@[simp] theorem deliverSubscribe_mem  (s : State) (ff : Nat) (pp : Packet) :
    (deliverSubscribe s ff pp).1.mem = s.mem := by
  unfold deliverSubscribe
  repeat' (first
    | with_reducible rfl
    | (with_reducible refine (foldl_mem _ (fun s x => ?_) _ _).trans ?_)
    | (simp; done)
    | (with_reducible exact unservable_mem ‹_›)
    | split
    | (dsimp only; split))

@[simp] theorem deliverNotify_mem  (s : State) (ff : Nat) (pp : Packet) :
    (deliverNotify s ff pp).1.mem = s.mem := by
  unfold deliverNotify
  split <;> simp

@[simp] theorem deliverBroken_mem  (s : State) (ff : Nat) (pp : Packet) :
    (deliverBroken s ff pp).1.mem = s.mem := by
  unfold deliverBroken
  split <;> simp

@[simp] theorem deliverCancel_mem  (s : State) (ff : Nat) (pp : Packet) :
    (deliverCancel s ff pp).1.mem = s.mem := by
  simp [deliverCancel]

@[simp] theorem deliverBusy_mem  (s : State) (ff : Nat) (pp : Packet) :
    (deliverBusy s ff pp).1.mem = s.mem := by
  unfold deliverBusy
  split <;> simp

@[simp] theorem deliverSignal_mem  (s : State) (ff : Nat) (pp : Packet) :
    (deliverSignal s ff pp).1.mem = s.mem := by
  unfold deliverSignal
  split <;> simp

@[simp] theorem runHeld_mem (s : State) (plane f : Nat) (xx : Nat) :
    (runHeld s plane f xx).mem = s.mem := by
  induction xx generalizing s with
  | zero => rfl
  | succ n ih =>
    unfold runHeld
    dsimp only
    split
    · rw [ih]; simp
    · rfl

@[simp] theorem receiveSeq_mem (s : State) (plane : Nat) (c : PClass) (p : Packet) (deliver : Delivery) (hdeliver : ∀ s f p, (deliver s f p).1.mem = s.mem) :
    (receiveSeq s plane c p deliver).mem = s.mem := by
  unfold receiveSeq
  repeat' (first
    | with_reducible rfl
    | (with_reducible refine (foldl_mem _ (fun s x => ?_) _ _).trans ?_)
    | (simp [hdeliver]; done)
    | (rw [sendFlowNak_mem]; exact checkPacket_retired_mem (by assumption))
    | (rw [sendNoFlowNak_mem]; exact checkPacket_retired_mem (by assumption))
    | (rw [sendNoFlowNak_mem]; exact checkPacket_pass_mem (by assumption))
    | exact checkPacket_drop_mem (by assumption)
    | exact checkPacket_pass_mem (by assumption)
    | (rw [sendFlowAck_mem, inc_mem]; exact checkPacket_pass_mem (by assumption))
    | (rw [setFlow_mem]; exact checkPacket_pass_mem (by assumption))
    | (dsimp only; rw [runHeld_mem, applyVerdict_mem, hdeliver]; exact checkPacket_pass_mem (by assumption))
    | split
    | (dsimp only; split))

@[simp] theorem receiveSignal_mem (s : State) (plane kind : Nat) (p : Packet) (deliver : Delivery) (hdeliver : ∀ s f p, (deliver s f p).1.mem = s.mem) :
    (receiveSignal s plane kind p deliver).mem = s.mem := by
  unfold receiveSignal
  repeat' (first
    | with_reducible rfl
    | (with_reducible refine (foldl_mem _ (fun s x => ?_) _ _).trans ?_)
    | (simp [*]; done)
    | (with_reducible exact unservable_mem ‹_›)
    | split
    | (dsimp only; split))

@[simp] theorem readOutcome_mem (s : State) (a ctx : Nat) (ecc : Ecc) :
    (readOutcome s a ctx ecc).mem = s.mem := by
  unfold readOutcome
  split <;> simp

@[simp] theorem deliverRead_mem (ecc : Ecc) (s : State) (ff : Nat) (pp : Packet) :
    (deliverRead ecc s ff pp).1.mem = s.mem := by
  unfold deliverRead
  repeat' (first
    | with_reducible rfl
    | (with_reducible refine (foldl_mem _ (fun s x => ?_) _ _).trans ?_)
    | (simp; done)
    | (with_reducible exact unservable_mem ‹_›)
    | split
    | (dsimp only; split))

@[simp] theorem countDown_mem (s : State) (o : Owner) :
    (countDown s o).mem = s.mem := by
  unfold countDown
  repeat' (first | (simp; done) | split)

@[simp] theorem holdRest_mem (s : State) (p : Packet) :
    (holdRest s p).mem = s.mem := by
  simp [holdRest]

@[simp] theorem setUnacked_mem (s : State) (f : Nat) (u : Unacked) :
    (State.setUnacked s f u).mem = s.mem := by
  simp [State.setUnacked]

@[simp] theorem sourceRead_mem (s : State) (p : OutPkt) :
    (sourceRead s p).mem = s.mem := by
  unfold sourceRead
  split <;> simp

@[simp] theorem sendData_mem (s : State) (k : Nat) (c : PClass) (p : Packet) :
    (sendData s k c p).mem = s.mem := by
  simp [sendData]

@[simp] theorem sendTry_mem (s : State) (f k seq att tries : Nat) (p : OutPkt) (payload : List Byte) :
    (sendTry s f k seq att tries p payload).mem = s.mem := by
  simp [sendTry]

@[simp] theorem resend_mem (s : State) (f : Nat) (u : Unacked) (ecc : Ecc) :
    (resend s f u ecc).mem = s.mem := by
  unfold resend
  repeat' (first
    | with_reducible rfl
    | (with_reducible refine (foldl_mem _ (fun s x => ?_) _ _).trans ?_)
    | (simp; done)
    | (with_reducible exact unservable_mem ‹_›)
    | split
    | (dsimp only; split))

@[simp] theorem mirrorRefused_mem (s : State) (u : Unacked) :
    (mirrorRefused s u).mem = s.mem := by
  simp [mirrorRefused]

@[simp] theorem receivePlain_mem (s : State) (plane : Nat) (c : PClass) (p : Packet) (act : State → State) (hact : ∀ s, (act s).mem = s.mem) :
    (receivePlain s plane c p act).mem = s.mem := by
  unfold receivePlain
  split
  · rfl
  · split
    · exact checkPacket_drop_mem (by assumption)
    · exact checkPacket_retired_mem (by assumption)
    · rw [hact]; exact checkPacket_pass_mem (by assumption)

@[simp] theorem ackTurn_mem (s : State) (f : Nat) :
    (ackTurn s f).mem = s.mem := by
  simp [ackTurn]

@[simp] theorem answerOpen_mem (s : State) (node peerFlow f : Nat) :
    (answerOpen s node peerFlow f).mem = s.mem := by
  simp [answerOpen]

@[simp] theorem openedWith_mem (s : State) (f peerFlow : Nat) :
    (openedWith s f peerFlow).mem = s.mem := by
  simp [openedWith]

@[simp] theorem acceptOpen_mem (s : State) (node peerFlow : Nat) :
    (acceptOpen s node peerFlow).mem = s.mem := by
  unfold acceptOpen
  repeat' (first | (simp; done) | split)

@[simp] theorem receiveOpenAck_mem (s : State) (p : Packet) :
    (receiveOpenAck s p).mem = s.mem := by
  simp [receiveOpenAck]

@[simp] theorem receiveClose_mem (s : State) (p : Packet) :
    (receiveClose s p).mem = s.mem := by
  simp [receiveClose]

@[simp] theorem injectOn_mem (s : State) (f : Nat) (k : Option Nat) (p : OutPkt) (rest : List OutPkt) :
    (injectOn s f k p rest).mem = s.mem := by
  unfold injectOn
  repeat' (first
    | with_reducible rfl
    | (with_reducible refine (foldl_mem _ (fun s x => ?_) _ _).trans ?_)
    | (simp; done)
    | (with_reducible exact unservable_mem ‹_›)
    | split
    | (dsimp only; split))

theorem sourceFails_mem {s : State} {p : OutPkt} {t : State} (h : sourceFails s p = some t) : t.mem = s.mem := by
  unfold sourceFails at h
  revert h
  repeat' (first
    | (simp; done)
    | (intro h; cases h; simp; done)
    | (intro h; simp at h; subst h; simp; done)
    | split
    | (dsimp only; split))

@[simp] theorem injectNext_mem (s : State) (f : Nat) :
    (injectNext s f).mem = s.mem := by
  unfold injectNext
  repeat' (first
    | with_reducible rfl
    | (with_reducible refine (foldl_mem _ (fun s x => ?_) _ _).trans ?_)
    | (simp; done)
    | (with_reducible exact unservable_mem ‹_›)
    | (with_reducible exact sourceFails_mem ‹_›)
    | split
    | (dsimp only; split))

@[simp] theorem planeTimeout_mem (s : State) (k peer : Nat) :
    (planeTimeout s k peer).mem = s.mem := by
  simp [planeTimeout]

@[simp] theorem readmitPlanes_mem (s : State) (d mask : Nat) :
    (readmitPlanes s d mask).mem = s.mem := by
  simp [readmitPlanes]

@[simp] theorem leftSlice_mem (s : State) (old : Nat) :
    (leftSlice s old).mem = s.mem := by
  simp [leftSlice]

@[simp] theorem measChanged_mem (s : State) :
    (measChanged s).mem = s.mem := by
  simp [measChanged]

@[simp] theorem switchTables_mem (s : State) (v : SliceVer) (retireAt : Nat) :
    (switchTables s v retireAt).mem = s.mem := by
  simp [switchTables]

@[simp] theorem epochDue_mem (s : State) :
    (epochDue s).mem = s.mem := by
  unfold epochDue
  split <;> simp

@[simp] theorem retirePrev_mem (s : State) :
    (retirePrev s).mem = s.mem := by
  unfold retirePrev
  split <;> simp

@[simp] theorem drainEnds_mem (s : State) :
    (drainEnds s).mem = s.mem := by
  simp [drainEnds]

@[simp] theorem copyCurrent_mem (s : State) (d : Nat) :
    (copyCurrent s d).mem = s.mem := by
  simp [copyCurrent]

@[simp] theorem advanceNode_mem (s : State) (d : Nat) :
    (advanceNode s d).mem = s.mem := by
  simp [advanceNode]

@[simp] theorem writeRoute_mem (s : State) (d val : Nat) :
    (writeRoute s d val).mem = s.mem := by
  simp [writeRoute]

@[simp] theorem readRoute_mem (s : State) (d : Nat) :
    (readRoute s d).mem = s.mem := by
  simp [readRoute]

@[simp] theorem sendStopNow_mem (s : State) :
    (sendStopNow s).mem = s.mem := by
  simp [sendStopNow]

@[simp] theorem noteSeen_mem (s : State) (c : PClass) (bs : List Byte) :
    (noteSeen s c bs).mem = s.mem := by
  simp [noteSeen]

@[simp] theorem stopByTag_mem (s : State) (step att reason : Nat) :
    (stopByTag s step att reason).mem = s.mem := by
  unfold stopByTag
  repeat' (first | (simp; done) | split)

@[simp] theorem handleStop_mem (s : State) (p : Packet) :
    (handleStop s p).mem = s.mem := by
  simp [handleStop]

@[simp] theorem repeatBursts_mem (s : State) :
    (repeatBursts s).mem = s.mem := by
  simp [repeatBursts]

@[simp] theorem handleCut_mem (s : State) (p : Packet) :
    (handleCut s p).mem = s.mem := by
  simp [handleCut]

@[simp] theorem sendTime_mem (s : State) :
    (sendTime s).mem = s.mem := by
  simp [sendTime]

@[simp] theorem slewFor_mem (s : State) (off : Int) :
    (slewFor s off).2.mem = s.mem := by
  unfold slewFor
  split <;> simp

@[simp] theorem setTime_mem (s : State) (t : TimeSvc) :
    (State.setTime s t).mem = s.mem := by
  simp [State.setTime]

@[simp] theorem slewTime_mem (s : State) (off : Int) :
    (slewTime s off).mem = s.mem := by
  simp [slewTime]

@[simp] theorem acquireTime_mem (s : State) (off : Int) :
    (acquireTime s off).mem = s.mem := by
  simp [acquireTime]

@[simp] theorem followTime_mem (s : State) (plane : Nat) (p : Packet) :
    (followTime s plane p).mem = s.mem := by
  unfold followTime
  repeat' (first
    | with_reducible rfl
    | (with_reducible refine (foldl_mem _ (fun s x => ?_) _ _).trans ?_)
    | (simp; done)
    | (with_reducible exact unservable_mem ‹_›)
    | (with_reducible exact sourceFails_mem ‹_›)
    | split
    | (dsimp only; split))

@[simp] theorem handleTime_mem (s : State) (plane : Nat) (p : Packet) :
    (handleTime s plane p).mem = s.mem := by
  simp [handleTime]

@[simp] theorem enterHoldover_mem (s : State) :
    (enterHoldover s).mem = s.mem := by
  simp [enterHoldover]

@[simp] theorem sendWeld_mem (s : State) (id node k : Nat) (p : OutPkt) :
    (sendWeld s id node k p).mem = s.mem := by
  unfold sendWeld
  split <;> simp

@[simp] theorem setChunk_mem (s : State) (id : Nat) (x : Chunk) :
    (setChunk s id x).mem = s.mem := by
  unfold setChunk
  split <;> simp

@[simp] theorem sendDown_mem (s : State) (id : Nat) (c : Coll) (x : Chunk) :
    (sendDown s id c x).mem = s.mem := by
  simp [sendDown]

@[simp] theorem gatherOwn_mem (s : State) (id : Nat) :
    (gatherOwn s id).mem = s.mem := by
  unfold gatherOwn
  split <;> simp

@[simp] theorem sendReady_mem (s : State) (id : Nat) (c : Coll) :
    (sendReady s id c).mem = s.mem := by
  simp [sendReady]

@[simp] theorem sendMirror_mem (s : State) (id : Nat) (c : Coll) :
    (sendMirror s id c).mem = s.mem := by
  simp [sendMirror]

@[simp] theorem takeHeld_mem (s : State) (id : Nat) (c : Coll) :
    (takeHeld s id c).mem = s.mem := by
  unfold takeHeld
  repeat' (first
    | with_reducible rfl
    | (with_reducible refine (foldl_mem _ (fun s x => ?_) _ _).trans ?_)
    | (simp; done)
    | (with_reducible exact unservable_mem ‹_›)
    | (with_reducible exact sourceFails_mem ‹_›)
    | split
    | (dsimp only; split))

@[simp] theorem stallColl_mem (s : State) (id : Nat) :
    (stallColl s id).mem = s.mem := by
  unfold stallColl
  split <;> simp

@[simp] theorem weldTag_mem (s : State) (f : Nat) (p : Packet) (pass : State → State × Verdict) (hpass : ∀ s, (pass s).1.mem = s.mem) :
    (weldTag s f p pass).1.mem = s.mem := by
  unfold weldTag
  repeat' (first
    | with_reducible rfl
    | (with_reducible refine (foldl_mem _ (fun s x => ?_) _ _).trans ?_)
    | (simp [*]; done)
    | exact hpass s
    | split
    | (dsimp only; split))

@[simp] theorem receiveWeld_mem (s : State) (plane kind : Nat) (p : Packet) (deliver : Delivery) (hdeliver : ∀ s f p, (deliver s f p).1.mem = s.mem) :
    (receiveWeld s plane kind p deliver).mem = s.mem := by
  unfold receiveWeld
  repeat' (first
    | with_reducible rfl
    | (with_reducible refine (foldl_mem _ (fun s x => ?_) _ _).trans ?_)
    | (simp [*]; done)
    | (with_reducible exact unservable_mem ‹_›)
    | (with_reducible exact sourceFails_mem ‹_›)
    | split
    | (dsimp only; split))

@[simp] theorem onColl_mem (s : State) (p : Packet) (act : Nat → Coll → State × Verdict) (hact : ∀ id c, (act id c).1.mem = s.mem) :
    (onColl s p act).1.mem = s.mem := by
  unfold onColl
  repeat' (first
    | with_reducible rfl
    | (with_reducible refine (foldl_mem _ (fun s x => ?_) _ _).trans ?_)
    | (simp [*]; done)
    | exact hact _ _
    | split
    | (dsimp only; split))

@[simp] theorem releaseQueued_mem (s : State) (id node : Nat) :
    (releaseQueued s id node).mem = s.mem := by
  unfold releaseQueued
  split <;> simp

@[simp] theorem deliverReady_mem  (s : State) (ff : Nat) (pp : Packet) :
    (deliverReady s ff pp).1.mem = s.mem := by
  unfold deliverReady
  repeat' (first
    | with_reducible rfl
    | (with_reducible refine (foldl_mem _ (fun s x => ?_) _ _).trans ?_)
    | (simp; done)
    | (with_reducible exact unservable_mem ‹_›)
    | (with_reducible exact sourceFails_mem ‹_›)
    | split
    | (dsimp only; split))

@[simp] theorem combParity_mem (s : State) (die : Nat) :
    (combParity s die).mem = s.mem := by
  simp [combParity]

@[simp] theorem refuseTongs_mem (s : State) (c : Nat) (r : Rec) (p : TongsParams) (code : Nat) :
    (refuseTongs s c r p code).mem = s.mem := by
  simp [refuseTongs]

@[simp] theorem fetchLayer_mem (s : State) (p : TongsParams) (x : SeqSlot) :
    (fetchLayer s p x).mem = s.mem := by
  simp [fetchLayer]

@[simp] theorem closeSlot_mem (s : State) (p : TongsParams) :
    (closeSlot s p).mem = s.mem := by
  simp [closeSlot]

@[simp] theorem addVid_mem (s : State) (c vid : Nat) :
    (addVid s c vid).mem = s.mem := by
  unfold addVid
  split <;> simp

@[simp] theorem closeSlots_mem (s : State) :
    (closeSlots s).mem = s.mem := by
  simp [closeSlots]

@[simp] theorem abandonWork_mem (s : State) (ids : List Nat) (log : Bool) :
    (abandonWork s ids log).mem = s.mem := by
  simp [abandonWork]

@[simp] theorem abandonSlots_mem (s : State) (c : Nat) :
    (abandonSlots s c).mem = s.mem := by
  simp [abandonSlots]

@[simp] theorem abandonHoldWrite_mem (s : State) :
    (abandonHoldWrite s).mem = s.mem := by
  simp [abandonHoldWrite]

@[simp] theorem resetCtx_mem (s : State) (c : Nat) (destroy : Bool) :
    (resetCtx s c destroy).mem = s.mem := by
  unfold resetCtx
  repeat' (first
    | with_reducible rfl
    | (with_reducible refine (foldl_mem _ (fun s x => ?_) _ _).trans ?_)
    | (simp; done)
    | (with_reducible exact unservable_mem ‹_›)
    | (with_reducible exact sourceFails_mem ‹_›)
    | split
    | (dsimp only; split))

@[simp] theorem resetCfg_mem (s : State) (c : Nat) :
    (resetCfg s c).mem = s.mem := by
  simp [resetCfg]

@[simp] theorem endQuarantine_mem (s : State) (c : Nat) :
    (endQuarantine s c).mem = s.mem := by
  simp [endQuarantine]

@[simp] theorem suspectAnvil_mem (s : State) (die m : Nat) :
    (suspectAnvil s die m).mem = s.mem := by
  simp [suspectAnvil]

@[simp] theorem suspectSwage_mem (s : State) (die u : Nat) :
    (suspectSwage s die u).mem = s.mem := by
  simp [suspectSwage]

@[simp] theorem clearAnvilSuspect_mem (s : State) (die m : Nat) :
    (clearAnvilSuspect s die m).mem = s.mem := by
  simp [clearAnvilSuspect]

@[simp] theorem clearSwageSuspect_mem (s : State) (die u : Nat) :
    (clearSwageSuspect s die u).mem = s.mem := by
  simp [clearSwageSuspect]

@[simp] theorem setCapture_mem (s : State) (die : Nat) (c : Capture) :
    (State.setCapture s die c).mem = s.mem := by
  simp [State.setCapture]

@[simp] theorem dropCapture_mem (s : State) (die : Nat) :
    (dropCapture s die).mem = s.mem := by
  simp [dropCapture]

@[simp] theorem loupeCheck_mem (s : State) (die : Nat) (slip : Bool) :
    (loupeCheck s die slip).mem = s.mem := by
  unfold loupeCheck
  split <;> simp

@[simp] theorem loupeRerun_mem (s : State) (die : Nat) (faults : List (Nat × Nat)) :
    (loupeRerun s die faults).mem = s.mem := by
  unfold loupeRerun
  repeat' (first | (simp; done) | split)

@[simp] theorem settleUnits_mem (s : State) (die : Nat) (c : Capture) (out : Nat) :
    (settleUnits s die c out).mem = s.mem := by
  unfold settleUnits
  repeat' (first | (simp; done) | split)

@[simp] theorem settleRegs_mem (s : State) (die : Nat) (c : Capture) (out : Nat) (cls : EClass) :
    (settleRegs s die c out cls).mem = s.mem := by
  simp [settleRegs]

@[simp] theorem loupeSettle_mem (s : State) (die : Nat) (agrees : Bool) :
    (loupeSettle s die agrees).mem = s.mem := by
  unfold loupeSettle
  split <;> simp

@[simp] theorem foldTouch_mem (s : State) :
    (foldTouch s).mem = s.mem := by
  unfold foldTouch
  repeat' (first
    | with_reducible rfl
    | (with_reducible refine (foldl_mem _ (fun s x => ?_) _ _).trans ?_)
    | (simp; done)
    | (with_reducible exact unservable_mem ‹_›)
    | (with_reducible exact sourceFails_mem ‹_›)
    | split
    | (dsimp only; split))

@[simp] theorem tallyDone_mem (s : State) (step att : Nat) (out cls rank : Nat) :
    (tallyDone s step att out cls rank).mem = s.mem := by
  simp [tallyDone]

@[simp] theorem tallyTimeout_mem (s : State) :
    (tallyTimeout s).mem = s.mem := by
  unfold tallyTimeout
  split <;> simp

@[simp] theorem bistFail_mem (s : State) (die m : Nat) (swage pers : Bool) (id sig : Nat) :
    (bistFail s die m swage pers id sig).mem = s.mem := by
  simp [bistFail]

@[simp] theorem bistPass_mem (s : State) (die m : Nat) (swage : Bool) (id : Nat) :
    (bistPass s die m swage id).mem = s.mem := by
  simp [bistPass]

@[simp] theorem bistReturn_mem (s : State) (die m : Nat) (swage : Bool) (id : Nat) :
    (bistReturn s die m swage id).mem = s.mem := by
  simp [bistReturn]

@[simp] theorem bistTestEnd_mem (s : State) (die : Nat) (swage : Bool) (sig sig2 : Nat) :
    (bistTestEnd s die swage sig sig2).mem = s.mem := by
  unfold bistTestEnd
  split <;> simp

@[simp] theorem ldgClear_mem (s : State) (unit : Nat) :
    (ldgClear s unit).mem = s.mem := by
  simp [ldgClear]

@[simp] theorem ledgerWrite_mem (s : State) (ok : Bool) :
    (ledgerWrite s ok).mem = s.mem := by
  unfold ledgerWrite
  split <;> simp

@[simp] theorem savePoh_mem (s : State) :
    (savePoh s).mem = s.mem := by
  simp [savePoh]

@[simp] theorem healthDecay_mem (s : State) :
    (healthDecay s).mem = s.mem := by
  simp [healthDecay]

@[simp] theorem scoreEntries_mem (s : State) :
    (scoreEntries s).mem = s.mem := by
  simp [scoreEntries]

@[simp] theorem sendTree_mem (s : State) (node : Nat) (p : OutPkt) :
    (sendTree s node p).mem = s.mem := by
  simp [sendTree]

@[simp] theorem sendResult_mem (s : State) (tree : Nat) (bs : List Byte) :
    (sendResult s tree bs).mem = s.mem := by
  simp [sendResult]

@[simp] theorem dropEntry_mem (s : State) (tree step att : Nat) :
    (dropEntry s tree step att).mem = s.mem := by
  simp [dropEntry]

@[simp] theorem contribute_mem (s : State) (tree : Nat) (level : Option Nat) (bs : List Byte) :
    (contribute s tree level bs).1.mem = s.mem := by
  unfold contribute
  repeat' (first
    | with_reducible rfl
    | (with_reducible refine (foldl_mem _ (fun s x => ?_) _ _).trans ?_)
    | (simp; done)
    | (with_reducible exact unservable_mem ‹_›)
    | (with_reducible exact sourceFails_mem ‹_›)
    | split
    | (dsimp only; split))

theorem contribute_eq_mem {s t : State} {a : Nat} {l : Option Nat} {bs : List Byte} {o : Option (List Byte)}
    (h : contribute s a l bs = (t, o)) : t.mem = s.mem := by
  have := contribute_mem s a l bs
  rwa [h] at this

@[simp] theorem tallyResult_mem (s : State) (bs : List Byte) :
    (tallyResult s bs).mem = s.mem := by
  unfold tallyResult
  split <;> simp

@[simp] theorem startTally_mem (s : State) (v : Vote) (step att : Nat) (valid : Bool) (touch : Nat) :
    (startTally s v step att valid touch).mem = s.mem := by
  unfold startTally
  dsimp only
  split <;> (rename_i h; simp [contribute_eq_mem h])

@[simp] theorem setCkpState_mem (s : State) (v : Nat) :
    (setCkpState s v).mem = s.mem := by
  simp [setCkpState]

@[simp] theorem setCut_mem (s : State) (c : Option Cut) :
    (State.setCut s c).mem = s.mem := by
  simp [State.setCut]

@[simp] theorem clearPending_mem (s : State) :
    (clearPending s).mem = s.mem := by
  unfold clearPending
  repeat' (first
    | with_reducible rfl
    | (with_reducible refine (foldl_mem _ (fun s x => ?_) _ _).trans ?_)
    | (simp; done)
    | (with_reducible exact unservable_mem ‹_›)
    | (with_reducible exact sourceFails_mem ‹_›)
    | split
    | (dsimp only; split))

@[simp] theorem clearOwnPending_mem (s : State) (step : Nat) :
    (clearOwnPending s step).mem = s.mem := by
  simp [clearOwnPending]

@[simp] theorem endCut_mem (s : State) (ok : Bool) :
    (endCut s ok).mem = s.mem := by
  unfold endCut
  split <;> simp

@[simp] theorem postCutActs_mem (s : State) (bs : List Byte) :
    (postCutActs s bs).1.mem = s.mem := by
  unfold postCutActs
  repeat' (first | (simp; done) | split)

@[simp] theorem sendPost_mem (s : State) (ok : Bool) :
    (sendPost s ok).1.mem = s.mem := by
  unfold sendPost
  split
  · dsimp only
    split <;> (rename_i h; simp [contribute_eq_mem h])
  · rfl

@[simp] theorem driveMark_mem (s : State) (xx : DriveOp) :
    (driveMark s xx).1.mem = s.mem := by
  unfold driveMark
  repeat' (first | (simp; done) | split)

@[simp] theorem issueFirst_mem (s : State) (plan : List DriveOp) :
    (issueFirst s plan).mem = s.mem := by
  unfold issueFirst
  split <;> simp

@[simp] theorem goOn_mem (r : State × List DriveOp) : (goOn r).mem = r.1.mem := by
  unfold goOn
  split <;> simp

@[simp] theorem driveRun_mem (s : State) (xx : List DriveOp) :
    (driveRun s xx).mem = s.mem := by
  induction xx generalizing s with
  | nil => rfl
  | cons op t ih =>
    unfold driveRun
    split
    · simp
    · dsimp only
      split
      · simp
      · rw [ih]; simp

@[simp] theorem logDrive_mem (s : State) (slot addr status : Nat) :
    (logDrive s slot addr status).mem = s.mem := by
  simp [logDrive]

@[simp] theorem driveFails_mem (s : State) (status : Nat) :
    (driveFails s status).mem = s.mem := by
  unfold driveFails
  dsimp only
  split
  · split
    · rw [goOn_mem, sendPost_mem]; simp
    · simp
  · simp

theorem driveData_mem {s : State} {op : DriveOp} {bs : List Byte} {t : State} (h : driveData s op bs = some t) : t.mem = s.mem := by
  unfold driveData at h
  revert h
  repeat' (first
    | (simp; done)
    | (intro h; cases h; simp; done)
    | (intro h; simp at h; subst h; simp; done)
    | split
    | (dsimp only; split))

@[simp] theorem driveCount_mem (s : State) (xx : DriveOp) :
    (driveCount s xx).mem = s.mem := by
  unfold driveCount
  split <;> simp

@[simp] theorem driveCompletes_mem (s : State) (status : Nat) (bs : List Byte) :
    (driveCompletes s status bs).mem = s.mem := by
  unfold driveCompletes
  repeat' (first
    | with_reducible rfl
    | (with_reducible refine (foldl_mem _ (fun s x => ?_) _ _).trans ?_)
    | (simp; done)
    | (rw [driveRun_mem, driveData_mem (by assumption)]; simp; done)
    | split
    | (dsimp only; split))

@[simp] theorem driveTimeout_mem (s : State) :
    (driveTimeout s).mem = s.mem := by
  simp [driveTimeout]

@[simp] theorem driveInit_mem (s : State) :
    (driveInit s).mem = s.mem := by
  simp [driveInit]

@[simp] theorem driveRequest_mem (s : State) (a n : Nat) (write : Bool) :
    (driveRequest s a n write).mem = s.mem := by
  unfold driveRequest
  split <;> simp

@[simp] theorem preCutResult_mem (s : State) (bs : List Byte) :
    (preCutResult s bs).mem = s.mem := by
  unfold preCutResult
  split
  · split
    · rfl
    · split
      · simp
      · dsimp only
        split
        · rw [goOn_mem, sendPost_mem]; simp
        · split
          · rw [goOn_mem, sendPost_mem]; simp
          · simp
  · rfl

@[simp] theorem postCutResult_mem (s : State) (bs : List Byte) :
    (postCutResult s bs).mem = s.mem := by
  unfold postCutResult goOn
  split <;> simp

@[simp] theorem startCut_mem (s : State) (flipTime : Nat) :
    (startCut s flipTime).mem = s.mem := by
  unfold startCut
  split
  · split
    · rfl
    · dsimp only
      split <;> (rename_i h; simp [contribute_eq_mem h])
  · rfl

@[simp] theorem cutTimeout_mem (s : State) :
    (cutTimeout s).mem = s.mem := by
  unfold cutTimeout
  split <;> simp

@[simp] theorem refuseRestore_mem (s : State) (unit code : Nat) :
    (refuseRestore s unit code).mem = s.mem := by
  simp [refuseRestore]

@[simp] theorem restoreOp_mem (s : State) (a b host : List Byte) :
    (restoreOp s a b host).mem = s.mem := by
  unfold restoreOp
  repeat' (first | (simp; done) | split)

@[simp] theorem fillOp_mem (s : State) :
    (fillOp s).mem = s.mem := by
  simp [fillOp]

@[simp] theorem refreshCap_mem (s : State) (n : Nat) :
    (refreshCap s n).mem = s.mem := by
  simp [refreshCap]

@[simp] theorem refreshCaps_mem (s : State) :
    (refreshCaps s).mem = s.mem := by
  simp [refreshCaps]

@[simp] theorem lockAt_mem (s : State) (cap : Nat) :
    (lockAt s cap).mem = s.mem := by
  simp [lockAt]

@[simp] theorem powerFast_mem (s : State) (pkg : Nat) :
    (powerFast s pkg).mem = s.mem := by
  simp [powerFast]

@[simp] theorem powerSlow_mem (s : State) (pkg input : Nat) :
    (powerSlow s pkg input).mem = s.mem := by
  simp [powerSlow]

@[simp] theorem rampEval_mem (s : State) (n : Nat) (held : Bool) (level : Nat) :
    (rampEval s n held level).mem = s.mem := by
  simp [rampEval]

@[simp] theorem hintDie_mem (s : State) (n target lead : Nat) :
    (hintDie s n target lead).mem = s.mem := by
  simp [hintDie]

@[simp] theorem hintWindow_mem (s : State) (n : Nat) :
    (hintWindow s n).mem = s.mem := by
  simp [hintWindow]

@[simp] theorem updateTemp_mem (s : State) (d : Nat) :
    (updateTemp s d).mem = s.mem := by
  unfold updateTemp
  split <;> simp

@[simp] theorem sensorRead_mem (s : State) (id temp : Nat) (good : Bool) :
    (sensorRead s id temp good).mem = s.mem := by
  unfold sensorRead
  dsimp only
  rw [updateTemp_mem]
  split
  · simp
  · split <;> simp

@[simp] theorem thermalEval_mem (s : State) (slow : Bool) :
    (thermalEval s slow).mem = s.mem := by
  simp [thermalEval]

@[simp] theorem pllUnlock_mem (s : State) (d : Nat) :
    (pllUnlock s d).mem = s.mem := by
  simp [pllUnlock]

@[simp] theorem dieSleep_mem (s : State) (n : Nat) :
    (dieSleep s n).mem = s.mem := by
  simp [dieSleep]

@[simp] theorem dieWake_mem (s : State) (n ns : Nat) :
    (dieWake s n ns).mem = s.mem := by
  simp [dieWake]

@[simp] theorem blockOn_mem (s : State) (c : Nat) (b : Block) :
    (blockOn s c b).mem = s.mem := by
  simp [blockOn]

@[simp] theorem sendHold_mem (s : State) :
    (sendHold s).mem = s.mem := by
  simp [sendHold]

@[simp] theorem applyHeldStop_mem (s : State) :
    (applyHeldStop s).mem = s.mem := by
  unfold applyHeldStop
  repeat' (first | (simp; done) | split)

@[simp] theorem startChecks_mem (s : State) :
    (startChecks s).mem = s.mem := by
  simp [startChecks]

@[simp] theorem resetStepCounters_mem (s : State) :
    (resetStepCounters s).mem = s.mem := by
  simp [resetStepCounters]

@[simp] theorem applyDeferred_mem (s : State) :
    (applyDeferred s).mem = s.mem := by
  unfold applyDeferred
  repeat' (first
    | with_reducible rfl
    | (with_reducible refine (foldl_mem _ (fun s x => ?_) _ _).trans ?_)
    | (simp; done)
    | (with_reducible exact unservable_mem ‹_›)
    | (with_reducible exact sourceFails_mem ‹_›)
    | (with_reducible exact driveData_mem ‹_›)
    | split
    | (dsimp only; split))

@[simp] theorem endAttempt_mem (s : State) :
    (endAttempt s).mem = s.mem := by
  simp [endAttempt]

@[simp] theorem sendDeferredCut_mem (s : State) :
    (sendDeferredCut s).mem = s.mem := by
  unfold sendDeferredCut
  split <;> simp

@[simp] theorem nextAtt_mem (s : State) :
    (nextAtt s).mem = s.mem := by
  simp [nextAtt]

@[simp] theorem exhaust_mem (s : State) :
    (exhaust s).mem = s.mem := by
  simp [exhaust]

@[simp] theorem startReplay_mem (s : State) (resume : Nat) :
    (startReplay s resume).mem = s.mem := by
  simp [startReplay]

@[simp] theorem resumeIssue_mem (s : State) :
    (resumeIssue s).mem = s.mem := by
  unfold resumeIssue
  split <;> simp

@[simp] theorem voteLate_mem (s : State) :
    (voteLate s).mem = s.mem := by
  simp [voteLate]

end Sys2Proof.Machine
end

