-- ==== Sys2Proof/Laws/MemModule.lean ====
section
/-! SUPPORT. Memory frames of the operations of resets, host, security, package and start-up: all of memory is unchanged by each. -/

namespace Sys2Proof.Machine

open Sys2Proof

@[simp] theorem resetSlots_mem (s : State) (slots : List Nat) :
    (resetSlots s slots).mem = s.mem := by
  simp [resetSlots]

@[simp] theorem loseColls_mem (s : State) :
    (loseColls s).mem = s.mem := by
  simp [loseColls]

@[simp] theorem loseFlights_mem (s : State) :
    (loseFlights s).mem = s.mem := by
  simp [loseFlights]

@[simp] theorem holdStack_mem (s : State) (n : Nat) :
    (holdStack s n).mem = s.mem := by
  simp [holdStack]

@[simp] theorem restoreLoupe_mem (s : State) (n : Nat) :
    (restoreLoupe s n).mem = s.mem := by
  simp [restoreLoupe]

@[simp] theorem lockDie_mem (s : State) (d : Nat) :
    (lockDie s d).mem = s.mem := by
  simp [lockDie]

@[simp] theorem clearDie_mem (s : State) (n : Nat) :
    (clearDie s n).mem = s.mem := by
  simp [clearDie]

@[simp] theorem clearPort_mem (s : State) (d : Nat) :
    (clearPort s d).mem = s.mem := by
  simp [clearPort]

@[simp] theorem portReset_mem (s : State) (d : Nat) :
    (portReset s d).mem = s.mem := by
  simp [portReset]

@[simp] theorem noteReset_mem (s : State) (dom target cause : Nat) :
    (noteReset s dom target cause).mem = s.mem := by
  simp [noteReset]

@[simp] theorem flushStops_mem (s : State) :
    (flushStops s).mem = s.mem := by
  simp [flushStops]

@[simp] theorem flushLedger_mem (s : State) :
    (flushLedger s).mem = s.mem := by
  simp [flushLedger]

@[simp] theorem resetDone_mem (s : State) :
    (resetDone s).mem = s.mem := by
  unfold resetDone
  split <;> simp

@[simp] theorem smcRestart_mem (s : State) :
    (smcRestart s).mem = s.mem := by
  simp [smcRestart]

@[simp] theorem wdog_mem (s : State) :
    (wdog s).mem = s.mem := by
  simp [wdog]

@[simp] theorem hostFlightFails_mem (s : State) (id code : Nat) :
    (hostFlightFails s id code).mem = s.mem := by
  unfold hostFlightFails
  split <;> simp

@[simp] theorem holdReadFails_mem (s : State) (c code : Nat) :
    (holdReadFails s c code).mem = s.mem := by
  unfold holdReadFails
  split <;> simp

@[simp] theorem flushPending_mem (s : State) :
    (flushPending s).mem = s.mem := by
  unfold flushPending
  repeat' (first
    | with_reducible rfl
    | (with_reducible refine (foldl_mem _ (fun s x => ?_) _ _).trans ?_)
    | (simp; done)
    | (with_reducible exact unservable_mem ‹_›)
    | (with_reducible exact sourceFails_mem ‹_›)
    | (with_reducible exact driveData_mem ‹_›)
    | split
    | (dsimp only; split))

@[simp] theorem gapEnds_mem (s : State) (v : Nat) :
    (gapEnds s v).mem = s.mem := by
  simp [gapEnds]

@[simp] theorem unmask_mem (s : State) (v : Nat) :
    (unmask s v).mem = s.mem := by
  simp [unmask]

@[simp] theorem configDefaults_mem (s : State) :
    (configDefaults s).mem = s.mem := by
  simp [configDefaults]

@[simp] theorem hostUp_mem (s : State) (gen width : Nat) :
    (hostUp s gen width).mem = s.mem := by
  simp [hostUp]

@[simp] theorem setHost_mem (s : State) (h : HostLink) :
    (State.setHost s h).mem = s.mem := by
  simp [State.setHost]

@[simp] theorem configWord_mem (s : State) (off : Nat) :
    (configWord s off).2.mem = s.mem := by
  unfold configWord
  repeat' (first
    | with_reducible rfl
    | (with_reducible refine (foldl_mem _ (fun s x => ?_) _ _).trans ?_)
    | (simp; done)
    | (with_reducible exact unservable_mem ‹_›)
    | (with_reducible exact sourceFails_mem ‹_›)
    | (with_reducible exact driveData_mem ‹_›)
    | split
    | (dsimp only; split))

@[simp] theorem configure_mem (s : State) (req : CfgWrite) :
    (configure s req).mem = s.mem := by
  unfold configure
  split <;> simp

@[simp] theorem configRequest_mem (s : State) (req : CfgWrite) :
    (configRequest s req).mem = s.mem := by
  simp [configRequest]

@[simp] theorem loadParts_mem (s : State) (xx : List (Nat × Nat)) :
    (loadParts s xx).2.mem = s.mem := by
  induction xx generalizing s with
  | nil => rfl
  | cons p t ih => unfold loadParts; dsimp only; rw [ih]; simp

@[simp] theorem apertureRefused_mem (s : State) (write : Bool) (n : Nat) :
    (apertureRefused s write n).mem = s.mem := by
  simp [apertureRefused]

@[simp] theorem refreshSlots_mem (s : State) :
    (refreshSlots s).mem = s.mem := by
  simp [refreshSlots]

@[simp] theorem showImage_mem (s : State) (k : Nat) (img : List Byte) :
    (showImage s k img).mem = s.mem := by
  simp [showImage]

@[simp] theorem spdmAnswer_mem (s : State) (code : Nat) (bs : List Byte) :
    (spdmAnswer s code bs).mem = s.mem := by
  simp [spdmAnswer]

@[simp] theorem spdmError_mem (s : State) (code : Nat) :
    (spdmError s code).mem = s.mem := by
  simp [spdmError]

@[simp] theorem onSpdm_mem (s : State) (need : Nat) (f : State → State) (hf : ∀ s, (f s).mem = s.mem) :
    (onSpdm s need f).mem = s.mem := by
  unfold onSpdm
  repeat' (first
    | with_reducible rfl
    | (with_reducible refine (foldl_mem _ (fun s x => ?_) _ _).trans ?_)
    | (simp [*]; done)
    | (with_reducible exact unservable_mem ‹_›)
    | (with_reducible exact sourceFails_mem ‹_›)
    | (with_reducible exact driveData_mem ‹_›)
    | split
    | (dsimp only; split))

@[simp] theorem setSpdm_mem (s : State) (n v : Nat) :
    (State.setSpdm s n v).mem = s.mem := by
  simp [State.setSpdm]

@[simp] theorem identitySign_mem (s : State) (msg : List Byte) :
    (identitySign s msg).2.mem = s.mem := by
  simp [identitySign]

@[simp] theorem sensorAnswer_mem (s : State) (n : Nat) :
    (sensorAnswer s n).mem = s.mem := by
  unfold sensorAnswer
  repeat' (first | (simp; done) | split)

@[simp] theorem writeResponse_mem (s : State) (bs : List Byte) :
    (writeResponse s bs).mem = s.mem := by
  simp [writeResponse]

@[simp] theorem mbDone_mem (s : State) (result : Nat) (rsp : List Byte) :
    (mbDone s result rsp).mem = s.mem := by
  simp [mbDone]

@[simp] theorem doorbell_mem (s : State) :
    (doorbell s).mem = s.mem := by
  simp [doorbell]

@[simp] theorem onMailbox_mem (s : State) (op : Nat) (f : State → State) (hf : ∀ s, (f s).mem = s.mem) :
    (onMailbox s op f).mem = s.mem := by
  unfold onMailbox
  repeat' (first
    | with_reducible rfl
    | (with_reducible refine (foldl_mem _ (fun s x => ?_) _ _).trans ?_)
    | (simp [*]; done)
    | (with_reducible exact unservable_mem ‹_›)
    | (with_reducible exact sourceFails_mem ‹_›)
    | (with_reducible exact driveData_mem ‹_›)
    | split
    | (dsimp only; split))

@[simp] theorem getInfo_mem (s : State) :
    (getInfo s).mem = s.mem := by
  simp [getInfo]

@[simp] theorem clearMapout_mem (s : State) :
    (clearMapout s).mem = s.mem := by
  simp [clearMapout]

@[simp] theorem setSlotBytes_mem (s : State) (k : Nat) (bs : List Byte) :
    (setSlotBytes s k bs).mem = s.mem := by
  simp [setSlotBytes]

@[simp] theorem flashImage_mem (s : State) (img : List Byte) (ok : Bool) :
    (flashImage s img ok).mem = s.mem := by
  simp [flashImage]

@[simp] theorem fwStage_mem (s : State) (image : HostErr ⊕ List Byte) (ok : Bool) :
    (fwStage s image ok).mem = s.mem := by
  unfold fwStage
  repeat' (first | (simp; done) | split)

@[simp] theorem fwActivate_mem (s : State) :
    (fwActivate s).mem = s.mem := by
  simp [fwActivate]

@[simp] theorem svnCommit_mem (s : State) :
    (svnCommit s).mem = s.mem := by
  simp [svnCommit]

@[simp] theorem keyRevoke_mem (s : State) :
    (keyRevoke s).mem = s.mem := by
  simp [keyRevoke]

@[simp] theorem rerouteAll_mem (s : State) :
    (rerouteAll s).mem = s.mem := by
  simp [rerouteAll]

@[simp] theorem dropModule_mem (s : State) (d e m : Nat) :
    (dropModule s d e m).mem = s.mem := by
  simp [dropModule]

@[simp] theorem logCutOff_mem (s : State) (d e m : Nat) :
    (logCutOff s d e m).mem = s.mem := by
  simp [logCutOff]

@[simp] theorem flitLost_mem (s : State) (d e m id : Nat) :
    (flitLost s d e m id).mem = s.mem := by
  unfold flitLost
  split <;> simp

@[simp] theorem edgeFails_mem (s : State) (d e m : Nat) (ids : List Nat) :
    (edgeFails s d e m ids).mem = s.mem := by
  unfold edgeFails
  split <;> simp

@[simp] theorem moduleFails_mem (s : State) (d e m : Nat) (ids : List Nat) :
    (moduleFails s d e m ids).mem = s.mem := by
  unfold moduleFails
  split <;> simp

@[simp] theorem flitError_mem (s : State) (d e m retries : Nat) (ids : List Nat) :
    (flitError s d e m retries ids).mem = s.mem := by
  simp [flitError]

@[simp] theorem setGuestEdge_mem (s : State) (modules : Nat) :
    (setGuestEdge s modules).mem = s.mem := by
  unfold setGuestEdge
  split <;> simp

@[simp] theorem refuseGuest_mem (s : State) (reason : Nat) :
    (refuseGuest s reason).mem = s.mem := by
  simp [refuseGuest]

@[simp] theorem admitGuest_mem (s : State) (d : List Byte) :
    (admitGuest s d).mem = s.mem := by
  simp [admitGuest]

@[simp] theorem guestAdmission_mem (s : State) (partner : Bool) (modules : Nat) (desc : Option (List Byte)) :
    (guestAdmission s partner modules desc).mem = s.mem := by
  unfold guestAdmission
  repeat' (first | (simp; done) | split)

@[simp] theorem readmit_mem (s : State) :
    (readmit s).mem = s.mem := by
  simp [readmit]

@[simp] theorem loseGuestFlights_mem (s : State) :
    (loseGuestFlights s).mem = s.mem := by
  simp [loseGuestFlights]

@[simp] theorem withdrawGuest_mem (s : State) (reason : Nat) :
    (withdrawGuest s reason).mem = s.mem := by
  simp [withdrawGuest]

@[simp] theorem resendBlock_mem (s : State) (seq : Nat) :
    (resendBlock s seq).mem = s.mem := by
  simp [resendBlock]

@[simp] theorem countMessage_mem (s : State) (sent : Bool) (n : Nat) :
    (countMessage s sent n).mem = s.mem := by
  simp [countMessage]

@[simp] theorem toGuest_mem (s : State) (kind tag addr : Nat) (bs : List Byte) :
    (toGuest s kind tag addr bs).mem = s.mem := by
  simp [toGuest]

@[simp] theorem complete_mem (s : State) (tag status : Nat) (bs : List Byte) :
    (complete s tag status bs).mem = s.mem := by
  simp [complete]

@[simp] theorem refuseRequest_mem (s : State) :
    (refuseRequest s).mem = s.mem := by
  simp [refuseRequest]

theorem guestWay_bad_mem {s u : State} {w : Bool} {a n : Nat} (h : guestWay s w a n = .bad u) : u.mem = s.mem := by
  unfold guestWay at h
  split at h
  · cases h
    simp
  · split at h
    · cases h
      simp
    · split at h
      · cases h
        simp
      · split at h
        · cases h
          simp
        · split at h <;> cases h

@[simp] theorem readMessage_mem (s : State) (dir : GuestDir) (tag addr len : Nat) :
    (readMessage s dir tag addr len).mem = s.mem := by
  unfold readMessage
  repeat' (first
    | with_reducible rfl
    | (with_reducible refine (foldl_mem _ (fun s x => ?_) _ _).trans ?_)
    | (simp; done)
    | (rw [complete_mem, guestWay_bad_mem (by assumption)]; simp; done)
    | split
    | (dsimp only; split))

@[simp] theorem completionMessage_mem (s : State) (tag : Nat) (data : List Byte) :
    (completionMessage s tag data).mem = s.mem := by
  simp [completionMessage]

@[simp] theorem guestRead_mem (s : State) (off width : Nat) :
    (guestRead s off width).mem = s.mem := by
  simp [guestRead]

@[simp] theorem standbyOff_mem (s : State) :
    (standbyOff s).mem = s.mem := by
  simp [standbyOff]

@[simp] theorem checkCertificate_mem (s : State) :
    (checkCertificate s).mem = s.mem := by
  simp [checkCertificate]

@[simp] theorem runImage_mem (s : State) (k : Nat) :
    (runImage s k).mem = s.mem := by
  simp [runImage]

@[simp] theorem enterRecovery_mem (s : State) :
    (enterRecovery s).mem = s.mem := by
  simp [enterRecovery]

@[simp] theorem readLedger_mem (s : State) :
    (readLedger s).mem = s.mem := by
  simp [readLedger]

@[simp] theorem freeMask_mem (s : State) (mask : Nat) :
    (freeMask s mask).2.mem = s.mem := by
  simp [freeMask]

@[simp] theorem trainEdge_mem (failed diff : List (Nat × Nat × Nat)) (s : State) (d e : Nat) :
    (trainEdge failed diff s d e).mem = s.mem := by
  unfold trainEdge
  repeat' (first
    | with_reducible rfl
    | (with_reducible refine (foldl_mem _ (fun s x => ?_) _ _).trans ?_)
    | (simp; done)
    | (with_reducible exact unservable_mem ‹_›)
    | (with_reducible exact sourceFails_mem ‹_›)
    | (with_reducible exact driveData_mem ‹_›)
    | split
    | (dsimp only; split))

@[simp] theorem trainEdges_mem (s : State) (failed diff : List (Nat × Nat × Nat)) :
    (trainEdges s failed diff).mem = s.mem := by
  simp [trainEdges]

@[simp] theorem releaseDie_mem (s : State) (d : Nat) :
    (releaseDie s d).mem = s.mem := by
  simp [releaseDie]

@[simp] theorem releaseDies_mem (s : State) (failed diff : List (Nat × Nat × Nat)) :
    (releaseDies s failed diff).mem = s.mem := by
  simp [releaseDies]

@[simp] theorem checkIdentity_mem (s : State) (d : Nat) :
    (checkIdentity s d).mem = s.mem := by
  simp [checkIdentity]

@[simp] theorem logUnreachable_mem (s : State) (d : Nat) :
    (logUnreachable s d).mem = s.mem := by
  simp [logUnreachable]

@[simp] theorem bringUp_mem (s : State) (failed diff : List (Nat × Nat × Nat)) :
    (bringUp s failed diff).mem = s.mem := by
  simp [bringUp]

@[simp] theorem restarted_mem (s : State) :
    (restarted s).mem = s.mem := by
  simp [restarted]

@[simp] theorem smcBoot_mem (s : State) (failed diff : List (Nat × Nat × Nat)) :
    (smcBoot s failed diff).mem = s.mem := by
  have h := (refreshSlots_mem (checkCertificate s)).trans (checkCertificate_mem s)
  unfold smcBoot
  generalize refreshSlots (checkCertificate s) = t at h ⊢
  extract_lets st
  by_cases hs : st = 1 ∨ st = 2
  · rw [if_pos hs]
  · rw [if_neg hs]
    cases hb : bootSlotOf t with
    | none => exact (enterRecovery_mem _).trans h
    | some k =>
      have h2 := (runImage_mem t k).trans h
      dsimp only
      generalize runImage t k = u at h2 ⊢
      by_cases hu : u.smc.released
      · rw [if_pos hu]
        exact (restarted_mem _).trans h2
      · rw [if_neg hu]
        exact (bringUp_mem _ _ _).trans h2

@[simp] theorem takeoverLoad_mem (s : State) :
    (takeoverLoad s).mem = s.mem := by
  simp [takeoverLoad]

@[simp] theorem alignTmp_mem (s : State) :
    (alignTmp s).mem = s.mem := by
  simp [alignTmp]

@[simp] theorem takeoverRealign_mem (s : State) :
    (takeoverRealign s).mem = s.mem := by
  simp [takeoverRealign]

@[simp] theorem takeTmp_mem (s : State) :
    (takeTmp s).mem = s.mem := by
  simp [takeTmp]

@[simp] theorem takeSwg_mem (s : State) (i : Nat) :
    (takeSwg s i).mem = s.mem := by
  simp [takeSwg]

@[simp] theorem takeSpk_mem (s : State) :
    (takeSpk s).mem = s.mem := by
  simp [takeSpk]

@[simp] theorem takeCtx_mem (s : State) (c : Nat) :
    (takeCtx s c).mem = s.mem := by
  simp [takeCtx]

@[simp] theorem takeLnk_mem (s : State) (k : Nat) :
    (takeLnk s k).mem = s.mem := by
  simp [takeLnk]

@[simp] theorem takeSlc_mem (s : State) :
    (takeSlc s).mem = s.mem := by
  simp [takeSlc]

@[simp] theorem timeRole_mem (s : State) (was : Bool) :
    (timeRole s was).mem = s.mem := by
  simp [timeRole]

@[simp] theorem takeTime_mem (s : State) :
    (takeTime s).mem = s.mem := by
  simp [takeTime]

@[simp] theorem takeWld_mem (s : State) (i : Nat) :
    (takeWld s i).mem = s.mem := by
  simp [takeWld]

@[simp] theorem takeAlg_mem (s : State) :
    (takeAlg s).mem = s.mem := by
  simp [takeAlg]

@[simp] theorem takeTng_mem (s : State) :
    (takeTng s).mem = s.mem := by
  simp [takeTng]

@[simp] theorem takeTch_mem (s : State) :
    (takeTch s).mem = s.mem := by
  simp [takeTch]

@[simp] theorem takeCkp_mem (s : State) :
    (takeCkp s).mem = s.mem := by
  simp [takeCkp]

@[simp] theorem takeFlt_mem (s : State) :
    (takeFlt s).mem = s.mem := by
  simp [takeFlt]

@[simp] theorem bstEnd_mem (s : State) (fails : Nat) :
    (bstEnd s fails).mem = s.mem := by
  simp [bstEnd]

@[simp] theorem bstStart_mem (s : State) :
    (bstStart s).mem = s.mem := by
  unfold bstStart
  repeat' (first
    | with_reducible rfl
    | (with_reducible refine (foldl_mem _ (fun s x => ?_) _ _).trans ?_)
    | (simp; done)
    | (with_reducible exact unservable_mem ‹_›)
    | (with_reducible exact sourceFails_mem ‹_›)
    | (with_reducible exact driveData_mem ‹_›)
    | split
    | (dsimp only; split))

@[simp] theorem testPort_mem (s : State) (d : Nat) :
    (testPort s d).mem = s.mem := by
  simp [testPort]

@[simp] theorem afterTest_mem (s : State) (t : Nat) :
    (afterTest s t).mem = s.mem := by
  simp [afterTest]

@[simp] theorem testFails_mem (s : State) (t : Nat) :
    (testFails s t).mem = s.mem := by
  simp [testFails]

@[simp] theorem bstDone_mem (s : State) (fails : Nat) :
    (bstDone s fails).mem = s.mem := by
  simp [bstDone]

end Sys2Proof.Machine
end

