-- ==== Sys2Proof/Laws/CommandsMem.lean ====
section
/-! SUPPORT. Memory frames of the commands that write no memory. -/

namespace Sys2Proof.Machine

open Sys2Proof

theorem execRegWrite_mem (who : Writer) (off width : Nat) (full : Bool) (val : Nat) (s : State) : Keeps (fun t => t.mem = s.mem) (execRegWrite who off width full val s) := keeps_live rfl (by simp)

theorem execApply_mem (slot : Nat) (s : State) : Keeps (fun t => t.mem = s.mem) (execApply slot s) := by
  unfold execApply
  split
  · exact keeps_live rfl (by simp)
  · exact keeps_fault

theorem execArmDiscard_mem (slot : Nat) (s : State) : Keeps (fun t => t.mem = s.mem) (execArmDiscard slot s) := by
  unfold execArmDiscard
  split
  · exact keeps_live rfl (by simp)
  · exact keeps_fault

theorem execErrlogClear_mem (slot : Nat) (s : State) : Keeps (fun t => t.mem = s.mem) (execErrlogClear slot s) := by
  unfold execErrlogClear
  split
  · exact keeps_live rfl (by simp)
  · exact keeps_fault

theorem execEvtStsClear_mem (slot mask : Nat) (s : State) : Keeps (fun t => t.mem = s.mem) (execEvtStsClear slot mask s) := by
  unfold execEvtStsClear
  split
  · exact keeps_live rfl (by simp)
  · exact keeps_fault

theorem execEvtForce_mem (slot mask : Nat) (s : State) : Keeps (fun t => t.mem = s.mem) (execEvtForce slot mask s) := by
  unfold execEvtForce
  split
  · exact keeps_live rfl (by simp)
  · exact keeps_fault

theorem execEvtMaskWrite_mem (slot mask : Nat) (s : State) : Keeps (fun t => t.mem = s.mem) (execEvtMaskWrite slot mask s) := by
  unfold execEvtMaskWrite
  split
  · exact keeps_live rfl (by simp)
  · exact keeps_fault

theorem execTelemetrySnapshot_mem (slot : Nat) (s : State) : Keeps (fun t => t.mem = s.mem) (execTelemetrySnapshot slot s) := by
  unfold execTelemetrySnapshot
  repeat' (first
    | (simp; done)
    | refine keeps_live rfl ?_
    | refine keeps_unit rfl ?_
    | refine keeps_rec rfl fun r => ?_
    | refine keeps_weld rfl fun r => ?_
    | refine keeps_tongs rfl fun r => ?_
    | exact keeps_fault
    | refine keeps_next ?_
    | split
    | (dsimp only; split))

theorem execCreate_mem (ctx : Nat) (s : State) : Keeps (fun t => t.mem = s.mem) (execCreate ctx s) := keeps_unit rfl (by simp)

theorem execCtxLoad_mem (ctx : Nat) (s : State) : Keeps (fun t => t.mem = s.mem) (execCtxLoad ctx s) := keeps_unit rfl (by simp)

theorem execRecordIssue_mem (die : Nat) (s : State) : Keeps (fun t => t.mem = s.mem) (execRecordIssue die s) := keeps_unit rfl (by simp)

theorem execWaitTimeout_mem (ctx : Nat) (s : State) : Keeps (fun t => t.mem = s.mem) (execWaitTimeout ctx s) := keeps_unit rfl (by simp)

theorem execSubscribeRetry_mem (ctx : Nat) (s : State) : Keeps (fun t => t.mem = s.mem) (execSubscribeRetry ctx s) := keeps_unit rfl (by simp)

theorem execAlloc_mem (s : State) : Keeps (fun t => t.mem = s.mem) (execAlloc s) := keeps_live rfl (by simp)

theorem execFree_mem (s : State) : Keeps (fun t => t.mem = s.mem) (execFree s) := keeps_live rfl (by simp)

theorem execBind_mem (s : State) : Keeps (fun t => t.mem = s.mem) (execBind s) := keeps_live rfl (by simp)

theorem execUnbind_mem (s : State) : Keeps (fun t => t.mem = s.mem) (execUnbind s) := keeps_live rfl (by simp)

theorem execClearBroken_mem (s : State) : Keeps (fun t => t.mem = s.mem) (execClearBroken s) := keeps_live rfl (by simp)

theorem execPeriscopeEval_mem (s : State) : Keeps (fun t => t.mem = s.mem) (execPeriscopeEval s) := keeps_live rfl (by simp)

theorem execAnvIssueWaitEnd_mem (die unit : Nat) (s : State) : Keeps (fun t => t.mem = s.mem) (execAnvIssueWaitEnd die unit s) := by
  unfold execAnvIssueWaitEnd
  split
  · exact keeps_live rfl (by simp)
  · exact keeps_fault

theorem execAnvClkGate_mem (die unit : Nat) (s : State) : Keeps (fun t => t.mem = s.mem) (execAnvClkGate die unit s) := by
  unfold execAnvClkGate
  split
  · exact keeps_live rfl (by simp)
  · exact keeps_fault

theorem execBistClaimAnvil_mem (die : Nat) (s : State) : Keeps (fun t => t.mem = s.mem) (execBistClaimAnvil die s) := keeps_unit rfl (by simp)

theorem execAnvClaimForced_mem (die : Nat) (s : State) : Keeps (fun t => t.mem = s.mem) (execAnvClaimForced die s) := keeps_unit rfl (by simp)

theorem execVecBlockStart_mem (die unit slot : Nat) (s : State) : Keeps (fun t => t.mem = s.mem) (execVecBlockStart die unit slot s) := by
  unfold execVecBlockStart
  split
  · exact keeps_live rfl (by simp)
  · exact keeps_fault

theorem execSwgClkGate_mem (die unit : Nat) (s : State) : Keeps (fun t => t.mem = s.mem) (execSwgClkGate die unit s) := by
  unfold execSwgClkGate
  split
  · exact keeps_live rfl (by simp)
  · exact keeps_fault

theorem execBistClaimSwage_mem (die : Nat) (s : State) : Keeps (fun t => t.mem = s.mem) (execBistClaimSwage die s) := keeps_unit rfl (by simp)

theorem execSwgTestEnter_mem (die : Nat) (s : State) : Keeps (fun t => t.mem = s.mem) (execSwgTestEnter die s) := keeps_unit rfl (by simp)

theorem execSwgClaimForced_mem (die : Nat) (s : State) : Keeps (fun t => t.mem = s.mem) (execSwgClaimForced die s) := keeps_unit rfl (by simp)

theorem execSparkKat_mem (good : Bool) (s : State) : Keeps (fun t => t.mem = s.mem) (execSparkKat good s) := keeps_live rfl (by simp)

theorem execHearthScrubRead_mem (die bank : Nat) (ecc : Ecc) (s : State) : Keeps (fun t => t.mem = s.mem) (execHearthScrubRead die bank ecc s) := by
  unfold execHearthScrubRead
  split
  · exact keeps_live rfl (by simp)
  · exact keeps_fault

theorem execHalt_mem (die : Nat) (on : Bool) (s : State) : Keeps (fun t => t.mem = s.mem) (execHalt die on s) := keeps_unit rfl (by simp)

theorem execHbmRead_mem (addr : Nat) (ecc : Ecc) (ctx : Nat) (s : State) : Keeps (fun t => t.mem = s.mem) (execHbmRead addr ecc ctx s) := keeps_live rfl (by simp)

theorem execHbmRefresh_mem (stack pc bank : Nat) (s : State) : Keeps (fun t => t.mem = s.mem) (execHbmRefresh stack pc bank s) := by
  unfold execHbmRefresh
  split
  · exact keeps_live rfl (by simp)
  · exact keeps_fault

theorem execHbmTempRead_mem (stack temp : Nat) (s : State) : Keeps (fun t => t.mem = s.mem) (execHbmTempRead stack temp s) := keeps_unit rfl (by simp)

theorem execHbmPatrolScrub_mem (stack pc : Nat) (ecc : Ecc) (s : State) : Keeps (fun t => t.mem = s.mem) (execHbmPatrolScrub stack pc ecc s) := by
  unfold execHbmPatrolScrub
  split
  · exact keeps_live rfl (by simp)
  · exact keeps_fault

theorem execHbmSelfRefreshExit_mem (die bad0 bad1 : Nat) (s : State) : Keeps (fun t => t.mem = s.mem) (execHbmSelfRefreshExit die bad0 bad1 s) := keeps_unit rfl (by simp)

theorem execLinkEnable_mem (k : Nat) (s : State) : Keeps (fun t => t.mem = s.mem) (execLinkEnable k s) := keeps_unit rfl (by simp)

theorem execLinkDisable_mem (k : Nat) (s : State) : Keeps (fun t => t.mem = s.mem) (execLinkDisable k s) := keeps_unit rfl (by simp)

theorem execLinkTraining_mem (k : Nat) (rep : LinkReport) (s : State) : Keeps (fun t => t.mem = s.mem) (execLinkTraining k rep s) := keeps_unit rfl (by simp)

theorem execRetrain_mem (k : Nat) (s : State) : Keeps (fun t => t.mem = s.mem) (execRetrain k s) := keeps_unit rfl (by simp)

theorem execLinkRetry_mem (k : Nat) (s : State) : Keeps (fun t => t.mem = s.mem) (execLinkRetry k s) := keeps_unit rfl (by simp)

theorem execAutoRestore_mem (k : Nat) (s : State) : Keeps (fun t => t.mem = s.mem) (execAutoRestore k s) := keeps_unit rfl (by simp)

theorem execLaneFault_mem (k lane : Nat) (cause : LaneCause) (s : State) : Keeps (fun t => t.mem = s.mem) (execLaneFault k lane cause s) := by
  unfold execLaneFault
  split
  · exact keeps_live rfl (by simp)
  · exact keeps_fault

theorem execDegradeReq_mem (k lanes : Nat) (s : State) : Keeps (fun t => t.mem = s.mem) (execDegradeReq k lanes s) := keeps_unit rfl (by simp)

theorem execDegradeAck_mem (k lanes : Nat) (rep : LinkReport) (s : State) : Keeps (fun t => t.mem = s.mem) (execDegradeAck k lanes rep s) := keeps_unit rfl (by simp)

theorem execDegradeTimeout_mem (k : Nat) (s : State) : Keeps (fun t => t.mem = s.mem) (execDegradeTimeout k s) := keeps_unit rfl (by simp)

theorem execDownNotice_mem (k : Nat) (s : State) : Keeps (fun t => t.mem = s.mem) (execDownNotice k s) := keeps_unit rfl (by simp)

theorem execCodewordRx_mem (k seq : Nat) (symbols : List Nat) (uncorrectable : Bool) (packets slots : Nat) (s : State) : Keeps (fun t => t.mem = s.mem) (execCodewordRx k seq symbols uncorrectable packets slots s) := keeps_unit rfl (by simp)

theorem execControlSlotRx_mem (k : Nat) (cs : ControlSlot) (s : State) : Keeps (fun t => t.mem = s.mem) (execControlSlotRx k cs s) := keeps_unit rfl (by simp)

theorem execPacketTx_mem (k : Nat) (s : State) : Keeps (fun t => t.mem = s.mem) (execPacketTx k s) := keeps_unit rfl (by simp)

theorem execSerWindowEnd_mem (k : Nat) (s : State) : Keeps (fun t => t.mem = s.mem) (execSerWindowEnd k s) := keeps_unit rfl (by simp)

theorem execTxeqReq_mem (k lane : Nat) (up : Bool) (s : State) : Keeps (fun t => t.mem = s.mem) (execTxeqReq k lane up s) := by
  unfold execTxeqReq
  split
  · exact keeps_live rfl (by simp)
  · exact keeps_fault

theorem execTxeqAck_mem (k lane : Nat) (s : State) : Keeps (fun t => t.mem = s.mem) (execTxeqAck k lane s) := by
  unfold execTxeqAck
  split
  · exact keeps_live rfl (by simp)
  · exact keeps_fault

theorem execTxeqWindowEnd_mem (k lane : Nat) (s : State) : Keeps (fun t => t.mem = s.mem) (execTxeqWindowEnd k lane s) := by
  unfold execTxeqWindowEnd
  split
  · exact keeps_live rfl (by simp)
  · exact keeps_fault

theorem execSignalOp_mem (plane : Nat) (p : Packet) (s : State) : Keeps (fun t => t.mem = s.mem) (execSignalOp plane p s) := keeps_unit rfl (by simp)

theorem execSubscribe_mem (plane : Nat) (p : Packet) (s : State) : Keeps (fun t => t.mem = s.mem) (execSubscribe plane p s) := keeps_unit rfl (by simp)

theorem execNotify_mem (plane : Nat) (p : Packet) (s : State) : Keeps (fun t => t.mem = s.mem) (execNotify plane p s) := keeps_unit rfl (by simp)

theorem execBroken_mem (plane : Nat) (p : Packet) (s : State) : Keeps (fun t => t.mem = s.mem) (execBroken plane p s) := keeps_unit rfl (by simp)

theorem execCancel_mem (plane : Nat) (p : Packet) (s : State) : Keeps (fun t => t.mem = s.mem) (execCancel plane p s) := keeps_unit rfl (by simp)

theorem execBusy_mem (plane : Nat) (p : Packet) (s : State) : Keeps (fun t => t.mem = s.mem) (execBusy plane p s) := keeps_unit rfl (by simp)

theorem execRead_mem (plane : Nat) (p : Packet) (ecc : Ecc) (s : State) : Keeps (fun t => t.mem = s.mem) (execRead plane p ecc s) := keeps_unit rfl (by simp)

theorem execAckSend_mem (flow : Nat) (s : State) : Keeps (fun t => t.mem = s.mem) (execAckSend flow s) := keeps_unit rfl (by simp)

theorem execOpenAck_mem (plane : Nat) (p : Packet) (s : State) : Keeps (fun t => t.mem = s.mem) (execOpenAck plane p s) := keeps_unit rfl (by simp)

theorem execClose_mem (plane : Nat) (p : Packet) (s : State) : Keeps (fun t => t.mem = s.mem) (execClose plane p s) := keeps_unit rfl (by simp)

theorem execPacketInject_mem (flow : Nat) (s : State) : Keeps (fun t => t.mem = s.mem) (execPacketInject flow s) := keeps_unit rfl (by simp)

theorem execReadmit_mem (d mask : Nat) (s : State) : Keeps (fun t => t.mem = s.mem) (execReadmit d mask s) := keeps_unit rfl (by simp)

theorem execEpochSwitch_mem (s : State) : Keeps (fun t => t.mem = s.mem) (execEpochSwitch s) := keeps_live rfl (by simp)

theorem execEpochRetire_mem (s : State) : Keeps (fun t => t.mem = s.mem) (execEpochRetire s) := keeps_live rfl (by simp)

theorem execDrainSet_mem (s : State) : Keeps (fun t => t.mem = s.mem) (execDrainSet s) := keeps_live rfl (by simp)

theorem execDrained_mem (s : State) : Keeps (fun t => t.mem = s.mem) (execDrained s) := keeps_live rfl (by simp)

theorem execDrainClear_mem (s : State) : Keeps (fun t => t.mem = s.mem) (execDrainClear s) := keeps_live rfl (by simp)

theorem execCopyCur_mem (d : Nat) (s : State) : Keeps (fun t => t.mem = s.mem) (execCopyCur d s) := keeps_unit rfl (by simp)

theorem execRteDataWrite_mem (d val : Nat) (s : State) : Keeps (fun t => t.mem = s.mem) (execRteDataWrite d val s) := keeps_unit rfl (by simp)

theorem execRteDataRead_mem (d : Nat) (s : State) : Keeps (fun t => t.mem = s.mem) (execRteDataRead d s) := keeps_unit rfl (by simp)

theorem execSendCut_mem (s : State) : Keeps (fun t => t.mem = s.mem) (execSendCut s) := keeps_live rfl (by simp)

theorem execSendStop_mem (s : State) : Keeps (fun t => t.mem = s.mem) (execSendStop s) := keeps_live rfl (by simp)

theorem execStop_mem (plane : Nat) (p : Packet) (s : State) : Keeps (fun t => t.mem = s.mem) (execStop plane p s) := keeps_unit rfl (by simp)

theorem execStopRepeat_mem (s : State) : Keeps (fun t => t.mem = s.mem) (execStopRepeat s) := keeps_live rfl (by simp)

theorem execCut_mem (plane : Nat) (p : Packet) (s : State) : Keeps (fun t => t.mem = s.mem) (execCut plane p s) := keeps_unit rfl (by simp)

theorem execTimeSend_mem (s : State) : Keeps (fun t => t.mem = s.mem) (execTimeSend s) := keeps_live rfl (by simp)

theorem execTime_mem (plane : Nat) (p : Packet) (s : State) : Keeps (fun t => t.mem = s.mem) (execTime plane p s) := keeps_unit rfl (by simp)

theorem execHoldover_mem (s : State) : Keeps (fun t => t.mem = s.mem) (execHoldover s) := keeps_live rfl (by simp)

theorem execStall_mem (id : Nat) (s : State) : Keeps (fun t => t.mem = s.mem) (execStall id s) := keeps_live rfl (by simp)

theorem execReady_mem (plane : Nat) (p : Packet) (s : State) : Keeps (fun t => t.mem = s.mem) (execReady plane p s) := keeps_unit rfl (by simp)

theorem execClearDown_mem (mask : Nat) (s : State) : Keeps (fun t => t.mem = s.mem) (execClearDown mask s) := keeps_live rfl (by simp)

theorem execLoupeCheckDone_mem (die : Nat) (slip : Bool) (s : State) : Keeps (fun t => t.mem = s.mem) (execLoupeCheckDone die slip s) := keeps_unit rfl (by simp)

theorem execLoupeRerunDone_mem (die : Nat) (faults : List (Nat × Nat)) (s : State) : Keeps (fun t => t.mem = s.mem) (execLoupeRerunDone die faults s) := keeps_unit rfl (by simp)

theorem execLoupeSettle_mem (die : Nat) (agrees : Bool) (s : State) : Keeps (fun t => t.mem = s.mem) (execLoupeSettle die agrees s) := keeps_unit rfl (by simp)

theorem execTallyTimeout_mem (s : State) : Keeps (fun t => t.mem = s.mem) (execTallyTimeout s) := keeps_live rfl (by simp)

theorem execLdgClear_mem (unit : Nat) (s : State) : Keeps (fun t => t.mem = s.mem) (execLdgClear unit s) := keeps_live rfl (by simp)

theorem execLedgerWrite_mem (ok : Bool) (s : State) : Keeps (fun t => t.mem = s.mem) (execLedgerWrite ok s) := keeps_live rfl (by simp)

theorem execPohSave_mem (s : State) : Keeps (fun t => t.mem = s.mem) (execPohSave s) := keeps_live rfl (by simp)

theorem execHealthDecay_mem (s : State) : Keeps (fun t => t.mem = s.mem) (execHealthDecay s) := keeps_live rfl (by simp)

theorem execScore_mem (s : State) : Keeps (fun t => t.mem = s.mem) (execScore s) := keeps_live rfl (by simp)

theorem execNvmeCompletion_mem (status : Nat) (data : List Byte) (s : State) : Keeps (fun t => t.mem = s.mem) (execNvmeCompletion status data s) := keeps_live rfl (by simp)

theorem execNvmeTimeout_mem (s : State) : Keeps (fun t => t.mem = s.mem) (execNvmeTimeout s) := keeps_live rfl (by simp)

theorem execDriveInit_mem (s : State) : Keeps (fun t => t.mem = s.mem) (execDriveInit s) := keeps_live rfl (by simp)

theorem execDriveMemoryRequest_mem (addr len : Nat) (write : Bool) (s : State) : Keeps (fun t => t.mem = s.mem) (execDriveMemoryRequest addr len write s) := keeps_live rfl (by simp)

theorem execCutTimeout_mem (s : State) : Keeps (fun t => t.mem = s.mem) (execCutTimeout s) := keeps_live rfl (by simp)

theorem execRestore_mem (imgA imgB imgHost : List Byte) (s : State) : Keeps (fun t => t.mem = s.mem) (execRestore imgA imgB imgHost s) := keeps_live rfl (by simp)

theorem execFill_mem (s : State) : Keeps (fun t => t.mem = s.mem) (execFill s) := keeps_live rfl (by simp)

theorem execPowerEval_mem (slow : Bool) (pkg input : Nat) (s : State) : Keeps (fun t => t.mem = s.mem) (execPowerEval slow pkg input s) := keeps_live rfl (by simp)

theorem execRampEval_mem (die : Nat) (heldBack : Bool) (level : Nat) (s : State) : Keeps (fun t => t.mem = s.mem) (execRampEval die heldBack level s) := keeps_unit rfl (by simp)

theorem execHintPrepare_mem (die : Nat) (s : State) : Keeps (fun t => t.mem = s.mem) (execHintPrepare die s) := keeps_unit rfl (by simp)

theorem execHintWindow_mem (die : Nat) (s : State) : Keeps (fun t => t.mem = s.mem) (execHintWindow die s) := keeps_unit rfl (by simp)

theorem execSensorRead_mem (id temp : Nat) (good : Bool) (s : State) : Keeps (fun t => t.mem = s.mem) (execSensorRead id temp good s) := keeps_unit rfl (by simp)

theorem execThermalEval_mem (slow : Bool) (s : State) : Keeps (fun t => t.mem = s.mem) (execThermalEval slow s) := keeps_live rfl (by simp)

theorem execPllUnlock_mem (d : Nat) (s : State) : Keeps (fun t => t.mem = s.mem) (execPllUnlock d s) := keeps_unit rfl (by simp)

theorem execDieSleep_mem (die : Nat) (s : State) : Keeps (fun t => t.mem = s.mem) (execDieSleep die s) := keeps_unit rfl (by simp)

theorem execDieWake_mem (die ns : Nat) (s : State) : Keeps (fun t => t.mem = s.mem) (execDieWake die ns s) := keeps_unit rfl (by simp)

theorem execTemper_mem (ctx : Nat) (s : State) : Keeps (fun t => t.mem = s.mem) (execTemper ctx s) := keeps_rec rfl fun r => by simp

theorem execCheckStart_mem (s : State) : Keeps (fun t => t.mem = s.mem) (execCheckStart s) := keeps_live rfl (by simp)

theorem execReplayStart_mem (s : State) : Keeps (fun t => t.mem = s.mem) (execReplayStart s) := keeps_live rfl (by simp)

theorem execVoteTimeout_mem (s : State) : Keeps (fun t => t.mem = s.mem) (execVoteTimeout s) := keeps_live rfl (by simp)

theorem execFrecAck_mem (s : State) : Keeps (fun t => t.mem = s.mem) (execFrecAck s) := keeps_live rfl (by simp)

theorem execResetDone_mem (s : State) : Keeps (fun t => t.mem = s.mem) (execResetDone s) := keeps_live rfl (by simp)

theorem execWdog_mem (s : State) : Keeps (fun t => t.mem = s.mem) (execWdog s) := keeps_live rfl (by simp)

theorem execMsixGapEnd_mem (vector : Nat) (s : State) : Keeps (fun t => t.mem = s.mem) (execMsixGapEnd vector s) := keeps_unit rfl (by simp)

theorem execMsixUnmask_mem (vector : Nat) (s : State) : Keeps (fun t => t.mem = s.mem) (execMsixUnmask vector s) := keeps_unit rfl (by simp)

theorem execLinkUp_mem (gen width : Nat) (s : State) : Keeps (fun t => t.mem = s.mem) (execLinkUp gen width s) := keeps_live rfl (by simp)

theorem execConfigurationRequest_mem (req : CfgWrite) (s : State) : Keeps (fun t => t.mem = s.mem) (execConfigurationRequest req s) := keeps_live rfl (by simp)

theorem execGetVersion_mem (s : State) : Keeps (fun t => t.mem = s.mem) (execGetVersion s) := keeps_live rfl (by simp)

theorem execGetCapabilities_mem (version : Nat) (s : State) : Keeps (fun t => t.mem = s.mem) (execGetCapabilities version s) := keeps_live rfl (by simp)

theorem execNegotiateAlgorithms_mem (offersEcdsaP384 offersSha384 : Bool) (s : State) : Keeps (fun t => t.mem = s.mem) (execNegotiateAlgorithms offersEcdsaP384 offersSha384 s) := keeps_live rfl (by simp)

theorem execGetDigests_mem (s : State) : Keeps (fun t => t.mem = s.mem) (execGetDigests s) := keeps_live rfl (by simp)

theorem execGetCertificate_mem (slot off len : Nat) (s : State) : Keeps (fun t => t.mem = s.mem) (execGetCertificate slot off len s) := keeps_live rfl (by simp)

theorem execChallenge_mem (slot : Nat) (nonce : List Byte) (s : State) : Keeps (fun t => t.mem = s.mem) (execChallenge slot nonce s) := keeps_live rfl (by simp)

theorem execGetMeasurements_mem (index : Nat) (signature : Bool) (nonce : List Byte) (s : State) : Keeps (fun t => t.mem = s.mem) (execGetMeasurements index signature nonce s) := keeps_live rfl (by simp)

theorem execDoeDiscovery_mem (index : Nat) (s : State) : Keeps (fun t => t.mem = s.mem) (execDoeDiscovery index s) := keeps_live rfl (by simp)

theorem execEntdaa_mem (addr : Nat) (s : State) : Keeps (fun t => t.mem = s.mem) (execEntdaa addr s) := by
  unfold execEntdaa
  repeat' (first
    | (simp; done)
    | refine keeps_live rfl ?_
    | refine keeps_unit rfl ?_
    | refine keeps_rec rfl fun r => ?_
    | refine keeps_weld rfl fun r => ?_
    | refine keeps_tongs rfl fun r => ?_
    | exact keeps_fault
    | refine keeps_next ?_
    | split
    | (dsimp only; split))

theorem execGetEndpointId_mem (s : State) : Keeps (fun t => t.mem = s.mem) (execGetEndpointId s) := keeps_next (by simp)

theorem execTripStatus_mem (s : State) : Keeps (fun t => t.mem = s.mem) (execTripStatus s) := keeps_next (by simp)

theorem execPldmSensorRead_mem (sensor : Nat) (s : State) : Keeps (fun t => t.mem = s.mem) (execPldmSensorRead sensor s) := keeps_live rfl (by simp)

theorem execDoorbell_mem (s : State) : Keeps (fun t => t.mem = s.mem) (execDoorbell s) := keeps_live rfl (by simp)

theorem execGetInfo_mem (s : State) : Keeps (fun t => t.mem = s.mem) (execGetInfo s) := keeps_live rfl (by simp)

theorem execHbmClearMapout_mem (s : State) : Keeps (fun t => t.mem = s.mem) (execHbmClearMapout s) := keeps_live rfl (by simp)

theorem execFwStage_mem (image : HostErr ⊕ List Byte) (flashOk : Bool) (s : State) : Keeps (fun t => t.mem = s.mem) (execFwStage image flashOk s) := keeps_live rfl (by simp)

theorem execFwActivate_mem (s : State) : Keeps (fun t => t.mem = s.mem) (execFwActivate s) := keeps_live rfl (by simp)

theorem execSvnCommit_mem (s : State) : Keeps (fun t => t.mem = s.mem) (execSvnCommit s) := keeps_live rfl (by simp)

theorem execKeyRevoke_mem (s : State) : Keeps (fun t => t.mem = s.mem) (execKeyRevoke s) := keeps_live rfl (by simp)

theorem execFlitCrcError_mem (d edge module retries : Nat) (ids : List Nat) (s : State) : Keeps (fun t => t.mem = s.mem) (execFlitCrcError d edge module retries ids s) := by
  unfold execFlitCrcError
  split
  · exact keeps_live rfl (by simp)
  · exact keeps_fault

theorem execGstReadmit_mem (s : State) : Keeps (fun t => t.mem = s.mem) (execGstReadmit s) := keeps_live rfl (by simp)

theorem execRd_mem (dir : GuestDir) (tag addr len : Nat) (s : State) : Keeps (fun t => t.mem = s.mem) (execRd dir tag addr len s) := keeps_live rfl (by simp)

theorem execCpl_mem (tag status : Nat) (data : List Byte) (s : State) : Keeps (fun t => t.mem = s.mem) (execCpl tag status data s) := keeps_live rfl (by simp)

theorem execSmcBoot_mem (failed diff : List (Nat × Nat × Nat)) (s : State) : Keeps (fun t => t.mem = s.mem) (execSmcBoot failed diff s) := by
  unfold execSmcBoot
  split
  · exact keeps_live rfl (by simp)
  · exact keeps_fault

theorem execTakeoverLoad_mem (s : State) : Keeps (fun t => t.mem = s.mem) (execTakeoverLoad s) := keeps_live rfl (by simp)

theorem execTakeoverRealign_mem (s : State) : Keeps (fun t => t.mem = s.mem) (execTakeoverRealign s) := keeps_live rfl (by simp)

theorem execBstStart_mem (s : State) : Keeps (fun t => t.mem = s.mem) (execBstStart s) := keeps_live rfl (by simp)

end Sys2Proof.Machine
end

