-- ==== Sys2Proof/Laws/Memory.lean ====
section
/-! SUPPORT. The laws of memory: what a byte reads as after a write and after a range is blanked, and that every memory
operation keeps the canonical form. -/

namespace Sys2Proof.Machine

open Sys2Proof

/-! Lists of cells -/

@[simp] theorem lookupCell_insertCell_same (l : List Host.Cell) (a : Nat) (v : Byte) : lookupCell (insertCell l a v) a = some v := by
  induction l with
  | nil => simp [insertCell, lookupCell]
  | cons c t ih =>
    obtain ⟨b, w⟩ := c
    unfold insertCell
    split
    · simp [lookupCell]
    · split
      · simp [lookupCell]
      · have : ¬b = a := by omega
        simp [lookupCell, this, ih]

theorem lookupCell_insertCell_other (l : List Host.Cell) {a b : Nat} (v : Byte) (h : b ≠ a) :
    lookupCell (insertCell l a v) b = lookupCell l b := by
  induction l with
  | nil => simp [insertCell, lookupCell, Ne.symm h]
  | cons c t ih =>
    obtain ⟨d, w⟩ := c
    unfold insertCell
    split
    · simp [lookupCell, Ne.symm h]
    · split
      · subst_vars
        simp [lookupCell, Ne.symm h]
      · simp only [lookupCell]
        split
        · rfl
        · exact ih

theorem lookupCell_filter_keep (p : Host.Cell → Bool) {a : Nat} (h : ∀ v, p (a, v) = true) (l : List Host.Cell) :
    lookupCell (l.filter p) a = lookupCell l a := by
  induction l with
  | nil => rfl
  | cons c t ih =>
    obtain ⟨b, w⟩ := c
    by_cases hb : b = a
    · subst hb
      simp [lookupCell, h w]
    · by_cases hp : p (b, w) = true <;> simp [lookupCell, hp, hb, ih]

theorem lookupCell_filter_drop (p : Host.Cell → Bool) {a : Nat} (h : ∀ v, p (a, v) = false) (l : List Host.Cell) :
    lookupCell (l.filter p) a = none := by
  induction l with
  | nil => rfl
  | cons c t ih =>
    obtain ⟨b, w⟩ := c
    by_cases hb : b = a
    · subst hb
      simp [h w, ih]
    · by_cases hp : p (b, w) = true <;> simp [lookupCell, hp, hb, ih]

theorem mem_insertCell {l : List Host.Cell} {a : Nat} {v : Byte} {c : Host.Cell} (h : c ∈ insertCell l a v) : c = (a, v) ∨ c ∈ l := by
  induction l with
  | nil => simpa [insertCell] using h
  | cons d t ih =>
    obtain ⟨b, w⟩ := d
    unfold insertCell at h
    split at h
    · simpa using h
    · split at h
      · rcases List.mem_cons.mp h with h | h
        · exact .inl h
        · exact .inr (List.mem_cons_of_mem _ h)
      · rcases List.mem_cons.mp h with h | h
        · exact .inr (h ▸ List.mem_cons_self)
        · rcases ih h with h | h
          · exact .inl h
          · exact .inr (List.mem_cons_of_mem _ h)

theorem pairwise_insertCell {l : List Host.Cell} (a : Nat) (v : Byte) (h : l.Pairwise (fun a b => a.1 < b.1)) :
    (insertCell l a v).Pairwise (fun a b => a.1 < b.1) := by
  induction l with
  | nil => simp [insertCell]
  | cons d t ih =>
    obtain ⟨b, w⟩ := d
    obtain ⟨h1, h2⟩ := List.pairwise_cons.mp h
    unfold insertCell
    split
    · refine List.pairwise_cons.mpr ⟨fun c hc => ?_, h⟩
      rcases List.mem_cons.mp hc with rfl | hc
      · assumption
      · have := h1 c hc
        dsimp only at this ⊢
        omega
    · split
      · subst_vars
        exact List.pairwise_cons.mpr ⟨h1, h2⟩
      · refine List.pairwise_cons.mpr ⟨fun c hc => ?_, ih h2⟩
        rcases mem_insertCell hc with rfl | hc
        · dsimp only
          omega
        · exact h1 c hc

/-! Bytes of a memory -/

@[simp] theorem blank_writeByte (m : Memory) (a b : Nat) (v : Byte) : (m.writeByte a v).blank b = m.blank b := by
  unfold Memory.writeByte
  split <;> rfl

@[simp] theorem blank_write (m : Memory) (a b : Nat) (vs : List Byte) : (m.write a vs).blank b = m.blank b := by
  induction vs generalizing m a with
  | nil => rfl
  | cons v t ih => unfold Memory.write; rw [ih, blank_writeByte]

/-- A byte reads back as written. -/
theorem byte_writeByte_same (m : Memory) (a : Nat) (v : Byte) : (m.writeByte a v).byte a = v := by
  have hb := blank_writeByte m a a v
  unfold Memory.byte
  rw [hb]
  by_cases h : m.blank a = none ∧ v = 0
  · have hl : lookupCell (m.writeByte a v).cells a = none := by
      rw [Memory.writeByte, if_pos h]
      exact lookupCell_filter_drop _ (by simp) _
    rw [hl, h.1, h.2]
  · rw [Memory.writeByte, if_neg h]
    simp

/-- A write leaves every other byte alone. -/
theorem byte_writeByte_other (m : Memory) {a b : Nat} (v : Byte) (h : b ≠ a) : (m.writeByte a v).byte b = m.byte b := by
  have hb := blank_writeByte m a b v
  unfold Memory.byte
  rw [hb]
  have hl : lookupCell (m.writeByte a v).cells b = lookupCell m.cells b := by
    unfold Memory.writeByte
    split
    · exact lookupCell_filter_keep _ (by simpa using h) _
    · exact lookupCell_insertCell_other _ v h
  rw [hl]

/-- A write of several bytes leaves every byte outside its range alone. -/
theorem byte_write_other (m : Memory) {a b : Nat} (vs : List Byte) (h : b < a ∨ a + vs.length ≤ b) : (m.write a vs).byte b = m.byte b := by
  induction vs generalizing m a with
  | nil => rfl
  | cons v t ih =>
    simp only [List.length_cons] at h
    unfold Memory.write
    rw [ih _ (by omega), byte_writeByte_other _ _ (by omega)]

/-- Each byte of a write reads back as written. -/
theorem byte_write_same (m : Memory) (a k : Nat) (vs : List Byte) (h : k < vs.length) : (m.write a vs).byte (a + k) = vs[k] := by
  induction vs generalizing m a k with
  | nil => simp at h
  | cons v t ih =>
    unfold Memory.write
    cases k with
    | zero => rw [byte_write_other _ _ (by omega)]; simpa using byte_writeByte_same m a v
    | succ k =>
      have := ih (m.writeByte a v) (a + 1) k (by simpa using h)
      rw [show a + (k + 1) = a + 1 + k by omega, this]
      simp

/-- What is read at a range just written is what was written. -/
theorem read_write (m : Memory) (a : Nat) (vs : List Byte) : (m.write a vs).read a vs.length = vs := by
  apply List.ext_getElem
  · simp [Memory.read]
  · intro k h1 h2
    simpa [Memory.read] using byte_write_same m a k vs h2

/-- Blanking a range leaves every byte outside it alone. -/
theorem byte_blankRange_other (m : Memory) {lo len a : Nat} (t : Option Nat) (h : a < lo ∨ lo + len ≤ a) :
    (m.blankRange lo len t).byte a = m.byte a := by
  have h' : ¬(lo ≤ a ∧ a < lo + len) := by omega
  have hl : lookupCell (m.blankRange lo len t).cells a = lookupCell m.cells a :=
    lookupCell_filter_keep _ (by simp; omega) _
  have hb : (m.blankRange lo len t).blank a = m.blank a := by
    unfold Memory.blank Memory.blankRange
    rw [List.find?_cons_of_neg (by simp; omega)]
  unfold Memory.byte
  rw [hl, hb]

/-- A blanked range reads as zero. -/
theorem byte_blankRange_zero (m : Memory) {lo len a : Nat} (h : lo ≤ a ∧ a < lo + len) : (m.blankRange lo len none).byte a = 0 := by
  have hl : lookupCell (m.blankRange lo len none).cells a = none :=
    lookupCell_filter_drop _ (by simp; omega) _
  have hb : (m.blankRange lo len none).blank a = none := by
    unfold Memory.blank Memory.blankRange
    rw [List.find?_cons_of_pos (by simp; omega)]
  unfold Memory.byte
  rw [hl, hb]

/-! The canonical form -/

theorem wf_iff (m : Memory) :
    m.wf = true ↔ m.cells.Pairwise (fun a b => a.1 < b.1) ∧ ∀ c ∈ m.cells, ¬(m.blank c.1 = none ∧ c.2 = 0) := by
  unfold Memory.wf
  simp only [Bool.and_eq_true, decide_eq_true_eq, List.all_eq_true, Bool.not_eq_true', Bool.and_eq_false_iff, beq_eq_false_iff_ne]
  exact and_congr_right fun _ => forall_congr' fun c => imp_congr_right fun _ => Classical.not_and_iff_not_or_not.symm

/-- A written byte keeps the canonical form. -/
theorem writeByte_wf {m : Memory} (a : Nat) (v : Byte) (h : m.wf = true) : (m.writeByte a v).wf = true := by
  rw [wf_iff] at h ⊢
  have hb := fun b => blank_writeByte m a b v
  unfold Memory.writeByte at hb ⊢
  split at hb
  · rename_i hv
    rw [if_pos hv]
    refine ⟨h.1.filter _, fun c hc => ?_⟩
    rw [hb]
    exact h.2 c ((List.mem_filter.mp hc).1)
  · rename_i hv
    rw [if_neg hv]
    refine ⟨pairwise_insertCell a v h.1, fun c hc => ?_⟩
    rw [hb]
    rcases mem_insertCell hc with rfl | hc
    · exact hv
    · exact h.2 c hc

/-- Written bytes keep the canonical form. -/
theorem write_wf {m : Memory} (a : Nat) (vs : List Byte) (h : m.wf = true) : (m.write a vs).wf = true := by
  induction vs generalizing m a with
  | nil => exact h
  | cons v t ih => exact ih _ (writeByte_wf a v h)

/-- A blanked range keeps the canonical form. -/
theorem blankRange_wf {m : Memory} (lo len : Nat) (t : Option Nat) (h : m.wf = true) : (m.blankRange lo len t).wf = true := by
  rw [wf_iff] at h ⊢
  refine ⟨h.1.filter _, fun c hc => ?_⟩
  have hin := (List.mem_filter.mp hc).2
  have hb : (m.blankRange lo len t).blank c.1 = m.blank c.1 := by
    unfold Memory.blank Memory.blankRange
    rw [List.find?_cons_of_neg (by simp at hin ⊢; omega)]
  rw [hb]
  exact h.2 c ((List.mem_filter.mp hc).1)

/-- A fold of operations that keep the canonical form keeps it. -/
theorem foldl_mem_wf {α : Type} (g : Memory → α → Memory) (hg : ∀ m x, m.wf = true → (g m x).wf = true) (l : List α) :
    ∀ m : Memory, m.wf = true → (l.foldl g m).wf = true := by
  induction l with
  | nil => exact fun _ h => h
  | cons x t ih => exact fun m h => ih _ (hg m x h)

/-- A tap entry's update keeps the canonical form. -/
theorem touchFold_wf {m : Memory} (t len b o : Nat) (bs : List Byte) (h : m.wf = true) : (touchFold m t len b o bs).wf = true :=
  write_wf _ _ h

/-- The Touchmark taps keep the canonical form. -/
theorem touchTap_wf (s : State) {m : Memory} (a : Nat) (bs : List Byte) (h : m.wf = true) : (touchTap s m a bs).wf = true := by
  unfold touchTap
  dsimp only
  split
  · exact h
  · exact foldl_mem_wf _ (fun m x hm => touchFold_wf _ _ _ _ _ hm) _ _ h

/-- A range written whole keeps the canonical form. -/
theorem place_wf {m : Memory} (a : Nat) (bs : List Byte) (h : m.wf = true) : (m.place a bs).wf = true := by
  rw [wf_iff] at h ⊢
  obtain ⟨hp, hz⟩ := h
  have hmid : ∀ c ∈ ((bs.zipIdx a).filter (fun x => x.1 != 0)).map (fun x => (x.2, x.1)),
      a ≤ c.1 ∧ c.1 < a + bs.length ∧ c.2 ≠ 0 := by
    intro c hc
    obtain ⟨x, hx, rfl⟩ := List.mem_map.mp hc
    obtain ⟨hx, h0⟩ := List.mem_filter.mp hx
    have := List.le_snd_of_mem_zipIdx hx
    have := List.snd_lt_add_of_mem_zipIdx hx
    exact ⟨by assumption, by dsimp only; omega, by simpa using h0⟩
  have hbl : ∀ b, ¬(a ≤ b ∧ b < a + bs.length) → (m.place a bs).blank b = m.blank b := by
    intro b hb
    unfold Memory.blank Memory.place
    rw [List.find?_cons_of_neg (by simp; omega)]
  refine ⟨?_, fun c hc => ?_⟩
  · unfold Memory.place
    dsimp only
    rw [List.append_assoc, List.pairwise_append]
    refine ⟨hp.filter _, List.pairwise_append.mpr ⟨?_, hp.filter _, ?_⟩, ?_⟩
    · rw [List.pairwise_map]
      refine List.Pairwise.filter _ ?_
      have : (List.range' a bs.length).Pairwise (· < ·) := List.pairwise_lt_range'
      rw [← List.zipIdx_map_snd, List.pairwise_map] at this
      exact this
    · intro x hx y hy
      have := hmid x hx
      have := (List.mem_filter.mp hy).2
      simp at this
      omega
    · intro x hx y hy
      have hx := (List.mem_filter.mp hx).2
      simp at hx
      rcases List.mem_append.mp hy with hy | hy
      · have := hmid y hy
        omega
      · have := (List.mem_filter.mp hy).2
        simp at this
        omega
  · have hc : c ∈ m.cells.filter (fun c => c.1 < a) ++ ((bs.zipIdx a).filter (fun x => x.1 != 0)).map (fun x => (x.2, x.1))
      ++ m.cells.filter (fun c => a + bs.length ≤ c.1) := hc
    rcases List.mem_append.mp hc with hc | hc
    · rcases List.mem_append.mp hc with hc | hc
      · obtain ⟨h1, h2⟩ := List.mem_filter.mp hc
        simp at h2
        rw [hbl _ (by omega)]
        exact hz c h1
      · exact fun h => (hmid c hc).2.2 h.2
    · obtain ⟨h1, h2⟩ := List.mem_filter.mp hc
      simp at h2
      rw [hbl _ (by omega)]
      exact hz c h1

/-! A Swage block -/

@[simp] theorem setReg_mem (k : Blk) (r : Nat) (l : List Nat) : (k.setReg r l).mem = k.mem := rfl

@[simp] theorem flag_mem (k : Blk) (es : List Elt) : (k.flag es).mem = k.mem := by
  unfold Blk.flag
  induction es generalizing k with
  | nil => rfl
  | cons e t ih =>
    simp only [List.foldl_cons]
    rw [ih]
    split <;> rfl

@[simp] theorem put_mem (e : BlkEnv) (k : Blk) (f r : Nat) (es : List Elt) : (k.put e f r es).mem = k.mem := by
  unfold Blk.put
  dsimp only
  split <;> simp

@[simp] theorem putMask_mem (e : BlkEnv) (k0 : Blk) (i : Insn) (m : Nat) (g : Nat → Option Bool) (k : Blk) :
    (putMask e k0 i m g k).mem = k.mem := rfl

/-- One instruction of a block keeps the canonical form. -/
theorem execInsn_wf (e : BlkEnv) {k0 : Blk} {k : Blk} (i : Insn) (h : k.mem.wf = true) :
    (execInsn e k0 k i).mem.wf = true := by
  have hv : (execVst e k0 i k).mem.wf = true := by
    refine foldl_mem_wf _ (fun m x hm => ?_) _ _ h
    have hp : ∀ a b w v, (pokeBits m a b w v).wf = true := fun _ _ _ _ => write_wf _ _ hm
    dsimp only
    repeat' (first
      | exact hm
      | exact hp _ _ _ _
      | split)
  have hl : (execVld e k0 i k).mem = k.mem := by
    unfold execVld
    dsimp only
    split <;> rfl
  unfold execInsn
  repeat' split
  · exact h
  · rw [hl]; exact h
  · exact hv
  all_goals simpa [execStoch, execArith, execCvt, execQmx, execReduce, execInt, execCmp, execMask] using h

/-- A whole block keeps the canonical form. -/
theorem runBlock_wf (e : BlkEnv) {m : Memory} (bundles : List (List Nat)) (h : m.wf = true) : (runBlock e m bundles).mem.wf = true := by
  have hb : ∀ (l : List Nat) (k0 k : Blk), k.mem.wf = true →
      (l.foldl (fun acc w => execInsn e k0 acc (Insn.ofWord w)) k).mem.wf = true := by
    intro l k0
    induction l with
    | nil => exact fun _ h => h
    | cons w t ih => exact fun k hk => ih _ (execInsn_wf e _ hk)
  have : ∀ (bs : List (List Nat)) (k : Blk), k.mem.wf = true → (bs.foldl (execBundle e) k).mem.wf = true := by
    intro bs
    induction bs with
    | nil => exact fun _ h => h
    | cons b t ih => exact fun k hk => ih _ (hb b k k hk)
  exact this bundles _ h

end Sys2Proof.Machine
end

