-- ==== Sys2Proof/Laws/MemWf.lean ====
section
/-! SUPPORT. Every operation that writes memory keeps its canonical form. -/

namespace Sys2Proof.Machine

open Sys2Proof

/-- A fold of operations that keep the canonical form of memory keeps it. -/
theorem foldl_wf {α : Type} (g : State → α → State) (h : ∀ s x, s.mem.wf = true → (g s x).mem.wf = true) (l : List α) :
    ∀ s : State, s.mem.wf = true → (l.foldl g s).mem.wf = true := by
  induction l with
  | nil => exact fun _ h => h
  | cons x t ih => exact fun s hs => ih _ (h s x hs)

theorem store_wf (s : State) (a : Nat) (bs : List Byte) (hw : s.mem.wf = true) :
    (State.store s a bs).mem.wf = true := touchTap_wf _ _ _ (write_wf _ _ hw)

theorem undefine_wf (s : State) (lo len : Nat) (hw : s.mem.wf = true) :
    (State.undefine s lo len).mem.wf = true := blankRange_wf _ _ _ hw

theorem zero_wf (s : State) (lo len : Nat) (hw : s.mem.wf = true) :
    (State.zero s lo len).mem.wf = true := blankRange_wf _ _ _ hw

theorem writeAny_wf (s : State) (a : Nat) (bs : List Byte) (hw : s.mem.wf = true) :
    (writeAny s a bs).mem.wf = true := by
  unfold writeAny
  repeat' (first
    | with_reducible assumption
    | with_reducible apply store_wf
    | with_reducible refine foldl_wf _ (fun s x hs => ?_) _ _ ?_
    | split
    | simp
    | (dsimp only; split))

theorem saveCtx_wf (s : State) (c : Nat) (hw : s.mem.wf = true) :
    (saveCtx s c).mem.wf = true := by
  unfold saveCtx
  repeat' (first
    | with_reducible assumption
    | with_reducible apply undefine_wf
    | with_reducible refine foldl_wf _ (fun s x hs => ?_) _ _ ?_
    | split
    | simp
    | (dsimp only; split))

theorem settle_wf (s : State) (c : Nat) (hw : s.mem.wf = true) :
    (settle s c).mem.wf = true := by
  unfold settle
  repeat' (first
    | with_reducible assumption
    | with_reducible apply saveCtx_wf
    | with_reducible refine foldl_wf _ (fun s x hs => ?_) _ _ ?_
    | split
    | simp
    | (dsimp only; split))

theorem finishCur_wf (s : State) (c : Nat) (r : Rec) (hw : s.mem.wf = true) :
    (finishCur s c r).mem.wf = true := by
  unfold finishCur
  repeat' (first
    | with_reducible assumption
    | with_reducible apply settle_wf
    | with_reducible refine foldl_wf _ (fun s x hs => ?_) _ _ ?_
    | split
    | simp
    | (dsimp only; split))

theorem releaseCur_wf (s : State) (c : Nat) (hw : s.mem.wf = true) :
    (releaseCur s c).mem.wf = true := by
  unfold releaseCur
  repeat' (first
    | with_reducible assumption
    | with_reducible apply settle_wf
    | with_reducible refine foldl_wf _ (fun s x hs => ?_) _ _ ?_
    | split
    | simp
    | (dsimp only; split))

theorem completeFlight_wf (s : State) (id : Nat) (f : Flight) (hw : s.mem.wf = true) :
    (completeFlight s id f).mem.wf = true := by
  unfold completeFlight
  repeat' (first
    | with_reducible assumption
    | with_reducible apply settle_wf
    | with_reducible refine foldl_wf _ (fun s x hs => ?_) _ _ ?_
    | split
    | simp
    | (dsimp only; split))

theorem submitTo_wf (s : State) (c : Nat) (data : List Byte) (hw : s.mem.wf = true) :
    (submitTo s c data).mem.wf = true := by
  unfold submitTo
  repeat' (first
    | with_reducible assumption
    | with_reducible apply settle_wf
    | with_reducible refine foldl_wf _ (fun s x hs => ?_) _ _ ?_
    | split
    | simp
    | (dsimp only; split))

theorem preemptCtx_wf (s : State) (c : Nat) (hw : s.mem.wf = true) :
    (preemptCtx s c).mem.wf = true := by
  unfold preemptCtx
  repeat' (first
    | with_reducible assumption
    | with_reducible apply settle_wf
    | with_reducible refine foldl_wf _ (fun s x hs => ?_) _ _ ?_
    | split
    | simp
    | (dsimp only; split))

theorem resumePreempted_wf (s : State) (c : Nat) (hw : s.mem.wf = true) :
    (resumePreempted s c).mem.wf = true := by
  unfold resumePreempted
  repeat' (first
    | with_reducible assumption
    | with_reducible apply settle_wf
    | with_reducible apply finishCur_wf
    | with_reducible refine foldl_wf _ (fun s x hs => ?_) _ _ ?_
    | split
    | simp
    | (dsimp only; split))

theorem resumeCtx_wf (s : State) (c : Nat) (hw : s.mem.wf = true) :
    (resumeCtx s c).mem.wf = true := by
  unfold resumeCtx
  repeat' (first
    | with_reducible assumption
    | with_reducible apply settle_wf
    | with_reducible apply resumePreempted_wf
    | with_reducible refine foldl_wf _ (fun s x hs => ?_) _ _ ?_
    | split
    | simp
    | (dsimp only; split))

theorem skipCtx_wf (s : State) (c : Nat) (hw : s.mem.wf = true) :
    (skipCtx s c).mem.wf = true := by
  unfold skipCtx
  repeat' (first
    | with_reducible assumption
    | with_reducible apply settle_wf
    | with_reducible refine foldl_wf _ (fun s x hs => ?_) _ _ ?_
    | split
    | simp
    | (dsimp only; split))

theorem saveOp_wf (s : State) (c : Nat) (hw : s.mem.wf = true) :
    (saveOp s c).mem.wf = true := by
  unfold saveOp
  repeat' (first
    | with_reducible assumption
    | with_reducible apply saveCtx_wf
    | with_reducible refine foldl_wf _ (fun s x hs => ?_) _ _ ?_
    | split
    | simp
    | (dsimp only; split))

theorem callRec_wf (s : State) (c : Nat) (r : Rec) (hw : s.mem.wf = true) :
    (callRec s c r).mem.wf = true := by
  unfold callRec
  repeat' (first
    | with_reducible assumption
    | with_reducible apply finishCur_wf
    | with_reducible refine foldl_wf _ (fun s x hs => ?_) _ _ ?_
    | split
    | simp
    | (dsimp only; split))

theorem retRec_wf (s : State) (c : Nat) (r : Rec) (hw : s.mem.wf = true) :
    (retRec s c r).mem.wf = true := by
  unfold retRec
  repeat' (first
    | with_reducible assumption
    | with_reducible apply finishCur_wf
    | with_reducible refine foldl_wf _ (fun s x hs => ?_) _ _ ?_
    | split
    | simp
    | (dsimp only; split))

theorem loopRec_wf (s : State) (c : Nat) (r : Rec) (hw : s.mem.wf = true) :
    (loopRec s c r).mem.wf = true := by
  unfold loopRec
  repeat' (first
    | with_reducible assumption
    | with_reducible apply finishCur_wf
    | with_reducible refine foldl_wf _ (fun s x hs => ?_) _ _ ?_
    | split
    | simp
    | (dsimp only; split))

theorem copyRec_wf (s : State) (c : Nat) (r : Rec) (hw : s.mem.wf = true) :
    (copyRec s c r).mem.wf = true := by
  unfold copyRec
  repeat' (first
    | with_reducible assumption
    | with_reducible apply finishCur_wf
    | with_reducible apply releaseCur_wf
    | rw [unservable_mem (by assumption)]
    | with_reducible refine foldl_wf _ (fun s x hs => ?_) _ _ ?_
    | split
    | simp
    | (dsimp only; split))

theorem endCopy_wf (s : State) (id : Nat) (f : Flight) (hw : s.mem.wf = true) :
    (endCopy s id f).mem.wf = true := by
  unfold endCopy
  repeat' (first
    | with_reducible assumption
    | with_reducible apply writeAny_wf
    | with_reducible apply completeFlight_wf
    | with_reducible refine foldl_wf _ (fun s x hs => ?_) _ _ ?_
    | split
    | simp
    | (dsimp only; split))

theorem signalRec_wf (s : State) (c : Nat) (r : Rec) (hw : s.mem.wf = true) :
    (signalRec s c r).mem.wf = true := by
  unfold signalRec
  repeat' (first
    | with_reducible assumption
    | with_reducible apply finishCur_wf
    | with_reducible apply releaseCur_wf
    | with_reducible refine foldl_wf _ (fun s x hs => ?_) _ _ ?_
    | split
    | simp
    | (dsimp only; split))

theorem waitRec_wf (s : State) (c : Nat) (r : Rec) (hw : s.mem.wf = true) :
    (waitRec s c r).mem.wf = true := by
  unfold waitRec
  repeat' (first
    | with_reducible assumption
    | with_reducible apply settle_wf
    | with_reducible apply finishCur_wf
    | with_reducible refine foldl_wf _ (fun s x hs => ?_) _ _ ?_
    | split
    | simp
    | (dsimp only; split))

theorem wakeCtx_wf (s : State) (c : Nat) (hw : s.mem.wf = true) :
    (wakeCtx s c).mem.wf = true := by
  unfold wakeCtx
  repeat' (first
    | with_reducible assumption
    | with_reducible apply finishCur_wf
    | with_reducible refine foldl_wf _ (fun s x hs => ?_) _ _ ?_
    | split
    | simp
    | (dsimp only; split))

theorem write8_wf {s : State} {c : Nat} {r : Rec} {v : Nat} {t : State} (hw : s.mem.wf = true) (h : write8 s c r v = some t) : t.mem.wf = true := by
  unfold write8 at h
  revert h
  repeat' (first
    | (intro h; cases h; done)
    | (intro h; injection h with h; rw [← h])
    | with_reducible assumption
    | with_reducible apply writeAny_wf
    | rw [unservable_mem (by assumption)]
    | with_reducible refine foldl_wf _ (fun s x hs => ?_) _ _ ?_
    | split
    | simp
    | (dsimp only; split))

theorem stampRec_wf (s : State) (c : Nat) (r : Rec) (hw : s.mem.wf = true) :
    (stampRec s c r).mem.wf = true := by
  unfold stampRec
  split
  · exact hw
  · split
    · rename_i h
      apply finishCur_wf
      exact write8_wf hw h
    · cases h : unservable s c r [(Rec.addr s c r 8, 8)] with
      | none => exact hw
      | some t =>
        show t.mem.wf = true
        rw [unservable_mem h]
        exact hw

theorem aflagsRec_wf (s : State) (c : Nat) (r : Rec) (hw : s.mem.wf = true) :
    (aflagsRec s c r).mem.wf = true := by
  unfold aflagsRec
  split
  · exact hw
  · split
    · rename_i h
      apply finishCur_wf
      rw [clearAflags_mem]
      exact write8_wf hw h
    · cases h : unservable s c r [(Rec.addr s c r 8, 8)] with
      | none => exact hw
      | some t =>
        show t.mem.wf = true
        rw [unservable_mem h]
        exact hw

theorem mmaRec_wf (s : State) (c : Nat) (r : Rec) (hw : s.mem.wf = true) :
    (mmaRec s c r).mem.wf = true := by
  unfold mmaRec
  repeat' (first
    | with_reducible assumption
    | with_reducible apply releaseCur_wf
    | rw [unservable_mem (by assumption)]
    | with_reducible refine foldl_wf _ (fun s x hs => ?_) _ _ ?_
    | split
    | simp
    | (dsimp only; split))

theorem writeTile_wf (s : State) (p : MmaParams) (t : Nat) (res : List Nat) (hw : s.mem.wf = true) :
    (writeTile s p t res).1.mem.wf = true := by
  have h : ∀ (l : List (Nat × Nat)) (x : State × Arith), x.1.mem.wf = true → (l.foldl (fun (acc : State × Arith) x =>
      let e := p.elemAt t x.2
      if e.1 < p.m ∧ e.2 < p.n then
        let o := outElem p x.1
        (acc.1.store (p.dElem e.1 e.2) o.1, acc.2.or o.2)
      else acc) x).1.mem.wf = true := by
    intro l
    induction l with
    | nil => exact fun _ h => h
    | cons a t ih =>
      intro x hx
      refine ih _ ?_
      dsimp only
      split
      · exact store_wf _ _ _ hx
      · exact hx
  exact h _ _ hw

theorem captureArea_wf (s : State) (die : Nat) (hw : s.mem.wf = true) :
    (captureArea s die).mem.wf = true := by
  unfold captureArea
  repeat' (first
    | with_reducible assumption
    | with_reducible apply undefine_wf
    | with_reducible refine foldl_wf _ (fun s x hs => ?_) _ _ ?_
    | split
    | simp
    | (dsimp only; split))

theorem beginCapture_wf (s : State) (die u : Nat) (x : Mma) (r : TileRun) (hw : s.mem.wf = true) :
    (beginCapture s die u x r).mem.wf = true := by
  unfold beginCapture
  repeat' (first
    | with_reducible assumption
    | with_reducible apply captureArea_wf
    | with_reducible refine foldl_wf _ (fun s x hs => ?_) _ _ ?_
    | split
    | simp
    | (dsimp only; split))

theorem startTile_wf (s : State) (die u : Nat) (par : AnvParity) (x : Mma) (c : Chain) (hw : s.mem.wf = true) :
    (startTile s die u par x c).mem.wf = true := by
  unfold startTile
  repeat' (first
    | with_reducible assumption
    | with_reducible apply beginCapture_wf
    | with_reducible refine foldl_wf _ (fun s x hs => ?_) _ _ ?_
    | split
    | simp
    | (dsimp only; split))

theorem issueTile_wf (s : State) (die u : Nat) (par : AnvParity) (hw : s.mem.wf = true) :
    (issueTile s die u par).mem.wf = true := by
  unfold issueTile
  repeat' (first
    | with_reducible assumption
    | with_reducible apply startTile_wf
    | with_reducible refine foldl_wf _ (fun s x hs => ?_) _ _ ?_
    | split
    | simp
    | (dsimp only; split))

theorem handOn_wf (s : State) (id : Nat) (x : Mma) (r : TileRun) (res : List Nat) (hw : s.mem.wf = true) :
    (handOn s id x r res).1.mem.wf = true := by
  unfold handOn
  repeat' (first
    | with_reducible assumption
    | with_reducible apply store_wf
    | with_reducible apply writeTile_wf
    | with_reducible refine foldl_wf _ (fun s x hs => ?_) _ _ ?_
    | split
    | simp
    | (dsimp only; split))

theorem endTile_wf (s : State) (die u : Nat) (par : AnvParity) (faults : List (Nat × Nat)) (r : TileRun) (x : Mma) (hw : s.mem.wf = true) :
    (endTile s die u par faults r x).mem.wf = true := by
  unfold endTile
  repeat' (first
    | with_reducible assumption
    | with_reducible apply handOn_wf
    | with_reducible refine foldl_wf _ (fun s x hs => ?_) _ _ ?_
    | split
    | simp
    | (dsimp only; split))

theorem completeMma_wf (s : State) (id : Nat) (hw : s.mem.wf = true) :
    (completeMma s id).mem.wf = true := by
  unfold completeMma
  repeat' (first
    | with_reducible assumption
    | with_reducible apply completeFlight_wf
    | with_reducible refine foldl_wf _ (fun s x hs => ?_) _ _ ?_
    | split
    | simp
    | (dsimp only; split))

theorem testEnter_wf (s : State) (die : Nat) (hw : s.mem.wf = true) :
    (testEnter s die).mem.wf = true := by
  unfold testEnter
  repeat' (first
    | with_reducible assumption
    | with_reducible apply store_wf
    | with_reducible refine foldl_wf _ (fun s x hs => ?_) _ _ ?_
    | split
    | simp
    | (dsimp only; split))

theorem abandonAnvils_wf (s : State) (ids : List Nat) (log : Bool) (hw : s.mem.wf = true) :
    (abandonAnvils s ids log).mem.wf = true := by
  unfold abandonAnvils
  repeat' (first
    | with_reducible assumption
    | with_reducible refine foldl_wf _ (fun s x hs => ?_) _ _ ?_
    | split
    | simp
    | (dsimp only; split))

theorem applyAnvMap_wf (s : State) (i : Nat) (hw : s.mem.wf = true) :
    (applyAnvMap s i).mem.wf = true := by
  unfold applyAnvMap
  repeat' (first
    | with_reducible assumption
    | with_reducible apply store_wf
    | with_reducible refine foldl_wf _ (fun s x hs => ?_) _ _ ?_
    | split
    | simp
    | (dsimp only; split))

theorem startVec_wf (s : State) (c : Nat) (r : Rec) (die : Nat) (p : VecParams) (bundles : List (List Nat)) (sr : Bool) (hw : s.mem.wf = true) :
    (startVec s c r die p bundles sr).mem.wf = true := by
  unfold startVec
  repeat' (first
    | with_reducible assumption
    | with_reducible apply releaseCur_wf
    | with_reducible refine foldl_wf _ (fun s x hs => ?_) _ _ ?_
    | split
    | simp
    | (dsimp only; split))

theorem vecRec_wf (s : State) (c : Nat) (r : Rec) (hw : s.mem.wf = true) :
    (vecRec s c r).mem.wf = true := by
  unfold vecRec
  repeat' (first
    | with_reducible assumption
    | with_reducible apply startVec_wf
    | rw [unservable_mem (by assumption)]
    | with_reducible refine foldl_wf _ (fun s x hs => ?_) _ _ ?_
    | split
    | simp
    | (dsimp only; split))

theorem commitBlock_wf (s : State) (die u slot id b : Nat) (v : Vec) (par : SwgParity) (hw : s.mem.wf = true) :
    (commitBlock s die u slot id b v par).mem.wf = true := by
  unfold commitBlock
  have hr := fun e => runBlock_wf e v.bundles hw
  dsimp only
  rw [drainSwage_mem, setSwage_mem, setVec_mem, swgParity_mem]
  repeat' split
  all_goals simp [hr]

theorem completeVec_wf (s : State) (id : Nat) (hw : s.mem.wf = true) :
    (completeVec s id).mem.wf = true := by
  unfold completeVec
  repeat' (first
    | with_reducible assumption
    | with_reducible apply completeFlight_wf
    | with_reducible refine foldl_wf _ (fun s x hs => ?_) _ _ ?_
    | split
    | simp
    | (dsimp only; split))

theorem hearthInit_wf (s : State) (die : Nat) (hw : s.mem.wf = true) :
    (hearthInit s die).mem.wf = true := by
  unfold hearthInit
  repeat' (first
    | with_reducible assumption
    | with_reducible apply zero_wf
    | with_reducible refine foldl_wf _ (fun s x hs => ?_) _ _ ?_
    | split
    | simp
    | (dsimp only; split))

theorem trainAll_wf (s : State) (rs : List StackReport) (seq : Nat) (hw : s.mem.wf = true) :
    (trainAll s rs seq).mem.wf = true := by
  unfold trainAll
  repeat' (first
    | with_reducible assumption
    | with_reducible apply zero_wf
    | with_reducible refine foldl_wf _ (fun s x hs => ?_) _ _ ?_
    | split
    | simp
    | (dsimp only; split))

theorem endHeal_wf (s : State) (row : Nat) (src : Option (List Byte)) (back : Ecc) (hw : s.mem.wf = true) :
    (endHeal s row src back).mem.wf = true := by
  unfold endHeal
  repeat' (first
    | with_reducible assumption
    | with_reducible apply store_wf
    | with_reducible refine foldl_wf _ (fun s x hs => ?_) _ _ ?_
    | split
    | simp
    | (dsimp only; split))

theorem parityError_wf (s : State) (a : Nat) (write : Bool) (errors ctx : Nat) (hw : s.mem.wf = true) :
    (parityError s a write errors ctx).mem.wf = true := by
  unfold parityError
  repeat' (first
    | with_reducible assumption
    | with_reducible apply undefine_wf
    | with_reducible refine foldl_wf _ (fun s x hs => ?_) _ _ ?_
    | split
    | simp
    | (dsimp only; split))

theorem gatherRec_wf (s : State) (c : Nat) (r : Rec) (hw : s.mem.wf = true) :
    (gatherRec s c r).mem.wf = true := by
  unfold gatherRec
  repeat' (first
    | with_reducible assumption
    | with_reducible apply releaseCur_wf
    | rw [unservable_mem (by assumption)]
    | with_reducible refine foldl_wf _ (fun s x hs => ?_) _ _ ?_
    | split
    | simp
    | (dsimp only; split))

theorem moveGather_wf (s : State) (src dst : Nat) (is : List Nat) (hw : s.mem.wf = true) :
    (moveGather s src dst is).mem.wf = true := by
  unfold moveGather
  repeat' (first
    | with_reducible assumption
    | with_reducible apply store_wf
    | with_reducible refine foldl_wf _ (fun s x hs => ?_) _ _ ?_
    | split
    | simp
    | (dsimp only; split))

theorem endGather_wf (s : State) (id : Nat) (hw : s.mem.wf = true) :
    (endGather s id).mem.wf = true := by
  unfold endGather
  repeat' (first
    | with_reducible assumption
    | with_reducible apply completeFlight_wf
    | with_reducible apply moveGather_wf
    | with_reducible refine foldl_wf _ (fun s x hs => ?_) _ _ ?_
    | split
    | simp
    | (dsimp only; split))

theorem setRec_wf (s : State) (slot layer : Nat) (r : LayerRec) (hw : s.mem.wf = true) :
    (setRec s slot layer r).mem.wf = true := by
  unfold setRec
  repeat' (first
    | with_reducible assumption
    | with_reducible apply store_wf
    | with_reducible refine foldl_wf _ (fun s x hs => ?_) _ _ ?_
    | split
    | simp
    | (dsimp only; split))

theorem loseRec_wf (s : State) (slot layer : Nat) (r : LayerRec) (owner : Nat) (hw : s.mem.wf = true) :
    (loseRec s slot layer r owner).mem.wf = true := by
  unfold loseRec
  repeat' (first
    | with_reducible assumption
    | with_reducible apply setRec_wf
    | with_reducible refine foldl_wf _ (fun s x hs => ?_) _ _ ?_
    | split
    | simp
    | (dsimp only; split))

theorem loseSlot_wf (s : State) (d n : Nat) (x : SeqSlot) (hw : s.mem.wf = true) :
    (loseSlot s d n x).mem.wf = true := by
  unfold loseSlot
  repeat' (first
    | with_reducible assumption
    | with_reducible apply loseRec_wf
    | with_reducible refine foldl_wf _ (fun s x hs => ?_) _ _ ?_
    | split
    | simp
    | (dsimp only; split))

theorem destDown_wf (s : State) (d : Nat) (hw : s.mem.wf = true) :
    (destDown s d).mem.wf = true := by
  unfold destDown
  repeat' (first
    | with_reducible assumption
    | with_reducible apply loseSlot_wf
    | with_reducible refine foldl_wf _ (fun s x hs => ?_) _ _ ?_
    | split
    | simp
    | (dsimp only; split))

theorem failOwner_wf (s : State) (cause : Nat) (xx : Owner) (hw : s.mem.wf = true) :
    (failOwner s cause xx).mem.wf = true := by
  unfold failOwner
  repeat' (first
    | with_reducible assumption
    | with_reducible apply destDown_wf
    | with_reducible refine foldl_wf _ (fun s x hs => ?_) _ _ ?_
    | split
    | simp
    | (dsimp only; split))

theorem flowFail_wf (s : State) (f cause : Nat) (hw : s.mem.wf = true) :
    (flowFail s f cause).mem.wf = true := by
  unfold flowFail
  repeat' (first
    | with_reducible assumption
    | with_reducible apply failOwner_wf
    | with_reducible refine foldl_wf _ (fun s x hs => ?_) _ _ ?_
    | split
    | simp
    | (dsimp only; split))

theorem receiveSeq_wf (s : State) (plane : Nat) (c : PClass) (p : Packet) (deliver : Delivery) (hdeliver : ∀ s f p, s.mem.wf = true → (deliver s f p).1.mem.wf = true) (hw : s.mem.wf = true) :
    (receiveSeq s plane c p deliver).mem.wf = true := by
  unfold receiveSeq
  repeat' (first
    | with_reducible assumption
    | with_reducible apply hdeliver
    | rw [checkPacket_pass_mem (by assumption)]
    | rw [checkPacket_drop_mem (by assumption)]
    | rw [checkPacket_retired_mem (by assumption)]
    | with_reducible refine foldl_wf _ (fun s x hs => ?_) _ _ ?_
    | split
    | simp
    | (dsimp only; split))

theorem receiveSignal_wf (s : State) (plane kind : Nat) (p : Packet) (deliver : Delivery) (hdeliver : ∀ s f p, s.mem.wf = true → (deliver s f p).1.mem.wf = true) (hw : s.mem.wf = true) :
    (receiveSignal s plane kind p deliver).mem.wf = true := by
  unfold receiveSignal
  repeat' (first
    | with_reducible assumption
    | with_reducible apply receiveSeq_wf
    | with_reducible apply hdeliver
    | with_reducible refine foldl_wf _ (fun s x hs => ?_) _ _ ?_
    | split
    | simp
    | (dsimp only; split))

theorem writeFor_wf (s : State) (r : Req) (ctx : Nat) (p : Packet) (hw : s.mem.wf = true) :
    (writeFor s r ctx p).1.mem.wf = true := by
  unfold writeFor
  repeat' (first
    | with_reducible assumption
    | with_reducible apply writeAny_wf
    | with_reducible refine foldl_wf _ (fun s x hs => ?_) _ _ ?_
    | split
    | simp
    | (dsimp only; split))

theorem deliverWrite_wf  (s : State) (ff : Nat) (pp : Packet) (hw : s.mem.wf = true) :
    (deliverWrite s ff pp).1.mem.wf = true := by
  unfold deliverWrite
  repeat' (first
    | with_reducible assumption
    | with_reducible apply writeFor_wf
    | with_reducible refine foldl_wf _ (fun s x hs => ?_) _ _ ?_
    | split
    | simp
    | (dsimp only; split))

theorem dataFor_wf (s : State) (o : Owner) (p : Packet) (hw : s.mem.wf = true) :
    (dataFor s o p).1.mem.wf = true := by
  unfold dataFor
  repeat' (first
    | with_reducible assumption
    | with_reducible apply writeFor_wf
    | with_reducible refine foldl_wf _ (fun s x hs => ?_) _ _ ?_
    | split
    | simp
    | (dsimp only; split))

theorem deliverData_wf  (s : State) (ff : Nat) (pp : Packet) (hw : s.mem.wf = true) :
    (deliverData s ff pp).1.mem.wf = true := by
  unfold deliverData
  repeat' (first
    | with_reducible assumption
    | with_reducible apply writeFor_wf
    | with_reducible apply dataFor_wf
    | with_reducible refine foldl_wf _ (fun s x hs => ?_) _ _ ?_
    | split
    | simp
    | (dsimp only; split))

theorem ackOwner_wf (s : State) (p : OutPkt) (hw : s.mem.wf = true) :
    (ackOwner s p).mem.wf = true := by
  unfold ackOwner
  repeat' (first
    | with_reducible assumption
    | with_reducible apply completeFlight_wf
    | with_reducible refine foldl_wf _ (fun s x hs => ?_) _ _ ?_
    | split
    | simp
    | (dsimp only; split))

theorem releaseAcked_wf (s : State) (f cum sack : Nat) (hw : s.mem.wf = true) :
    (releaseAcked s f cum sack).mem.wf = true := by
  unfold releaseAcked
  repeat' (first
    | with_reducible assumption
    | with_reducible apply ackOwner_wf
    | with_reducible refine foldl_wf _ (fun s x hs => ?_) _ _ ?_
    | split
    | simp
    | (dsimp only; split))

theorem retry_wf (s : State) (f : Nat) (u : Unacked) (ecc : Ecc) (hw : s.mem.wf = true) :
    (retry s f u ecc).mem.wf = true := by
  unfold retry
  repeat' (first
    | with_reducible assumption
    | with_reducible apply flowFail_wf
    | with_reducible refine foldl_wf _ (fun s x hs => ?_) _ _ ?_
    | split
    | simp
    | (dsimp only; split))

theorem applyNak_wf (s : State) (f reason : Nat) (u : Unacked) (hw : s.mem.wf = true) :
    (applyNak s f reason u).mem.wf = true := by
  unfold applyNak
  repeat' (first
    | with_reducible assumption
    | with_reducible apply flowFail_wf
    | with_reducible apply retry_wf
    | with_reducible refine foldl_wf _ (fun s x hs => ?_) _ _ ?_
    | split
    | simp
    | (dsimp only; split))

theorem retryOpen_wf (s : State) (f : Nat) (hw : s.mem.wf = true) :
    (retryOpen s f).mem.wf = true := by
  unfold retryOpen
  repeat' (first
    | with_reducible assumption
    | with_reducible apply flowFail_wf
    | with_reducible refine foldl_wf _ (fun s x hs => ?_) _ _ ?_
    | split
    | simp
    | (dsimp only; split))

theorem receiveAck_wf (s : State) (p : Packet) (hw : s.mem.wf = true) :
    (receiveAck s p).mem.wf = true := by
  unfold receiveAck
  repeat' (first
    | with_reducible assumption
    | with_reducible apply releaseAcked_wf
    | with_reducible apply applyNak_wf
    | with_reducible refine foldl_wf _ (fun s x hs => ?_) _ _ ?_
    | split
    | simp
    | (dsimp only; split))

theorem receivePlain_wf (s : State) (plane : Nat) (c : PClass) (p : Packet) (act : State → State) (hact : ∀ s, s.mem.wf = true → (act s).mem.wf = true) (hw : s.mem.wf = true) :
    (receivePlain s plane c p act).mem.wf = true := by
  unfold receivePlain
  repeat' (first
    | with_reducible assumption
    | with_reducible apply hact
    | rw [checkPacket_pass_mem (by assumption)]
    | rw [checkPacket_drop_mem (by assumption)]
    | rw [checkPacket_retired_mem (by assumption)]
    | with_reducible refine foldl_wf _ (fun s x hs => ?_) _ _ ?_
    | split
    | simp
    | (dsimp only; split))

theorem receiveOpen_wf (s : State) (p : Packet) (hw : s.mem.wf = true) :
    (receiveOpen s p).mem.wf = true := by
  unfold receiveOpen
  repeat' (first
    | with_reducible assumption
    | with_reducible apply flowFail_wf
    | with_reducible refine foldl_wf _ (fun s x hs => ?_) _ _ ?_
    | split
    | simp
    | (dsimp only; split))

theorem tryTimeout_wf (s : State) (f seq : Nat) (ecc : Ecc) (hw : s.mem.wf = true) :
    (tryTimeout s f seq ecc).mem.wf = true := by
  unfold tryTimeout
  repeat' (first
    | with_reducible assumption
    | with_reducible apply retry_wf
    | with_reducible apply retryOpen_wf
    | with_reducible refine foldl_wf _ (fun s x hs => ?_) _ _ ?_
    | split
    | simp
    | (dsimp only; split))

theorem weldWrite_wf (s : State) (c : Coll) (a : Nat) (bs : List Byte) (hw : s.mem.wf = true) :
    (weldWrite s c a bs).mem.wf = true := by
  unfold weldWrite
  repeat' (first
    | with_reducible assumption
    | with_reducible apply writeAny_wf
    | with_reducible refine foldl_wf _ (fun s x hs => ?_) _ _ ?_
    | split
    | simp
    | (dsimp only; split))

theorem finishReduce_wf (s : State) (id : Nat) (c : Coll) (x : Chunk) (hw : s.mem.wf = true) :
    (finishReduce s id c x).mem.wf = true := by
  unfold finishReduce
  repeat' (first
    | with_reducible assumption
    | with_reducible apply weldWrite_wf
    | with_reducible refine foldl_wf _ (fun s x hs => ?_) _ _ ?_
    | split
    | simp
    | (dsimp only; split))

theorem advanceReduce_wf (s : State) (id : Nat) (c : Coll) (x : Chunk) (hw : s.mem.wf = true) :
    (advanceReduce s id c x).mem.wf = true := by
  unfold advanceReduce
  repeat' (first
    | with_reducible assumption
    | with_reducible apply finishReduce_wf
    | with_reducible refine foldl_wf _ (fun s x hs => ?_) _ _ ?_
    | split
    | simp
    | (dsimp only; split))

theorem firstData_wf (s : State) (id : Nat) (c : Coll) (hw : s.mem.wf = true) :
    (firstData s id c).mem.wf = true := by
  unfold firstData
  repeat' (first
    | with_reducible assumption
    | with_reducible apply weldWrite_wf
    | with_reducible apply finishReduce_wf
    | with_reducible refine foldl_wf _ (fun s x hs => ?_) _ _ ?_
    | split
    | simp
    | (dsimp only; split))

theorem beginColl_wf (s : State) (id : Nat) (f : Flight) (p : WeldParams) (pb : List Byte) (hw : s.mem.wf = true) :
    (beginColl s id f p pb).mem.wf = true := by
  unfold beginColl
  repeat' (first
    | with_reducible assumption
    | with_reducible apply firstData_wf
    | with_reducible refine foldl_wf _ (fun s x hs => ?_) _ _ ?_
    | split
    | simp
    | (dsimp only; split))

theorem startColl_wf (s : State) (id : Nat) (f : Flight) (hw : s.mem.wf = true) :
    (startColl s id f).mem.wf = true := by
  unfold startColl
  repeat' (first
    | with_reducible assumption
    | with_reducible apply beginColl_wf
    | with_reducible refine foldl_wf _ (fun s x hs => ?_) _ _ ?_
    | split
    | simp
    | (dsimp only; split))

theorem weldRec_wf (s : State) (c : Nat) (r : Rec) (hw : s.mem.wf = true) :
    (weldRec s c r).mem.wf = true := by
  unfold weldRec
  repeat' (first
    | with_reducible assumption
    | with_reducible apply releaseCur_wf
    | with_reducible apply startColl_wf
    | with_reducible refine foldl_wf _ (fun s x hs => ?_) _ _ ?_
    | split
    | simp
    | (dsimp only; split))

theorem endColl_wf (s : State) (id : Nat) (hw : s.mem.wf = true) :
    (endColl s id).mem.wf = true := by
  unfold endColl
  repeat' (first
    | with_reducible assumption
    | with_reducible apply completeFlight_wf
    | with_reducible refine foldl_wf _ (fun s x hs => ?_) _ _ ?_
    | split
    | simp
    | (dsimp only; split))

theorem weldTag_wf (s : State) (f : Nat) (p : Packet) (pass : State → State × Verdict) (hpass : ∀ s, s.mem.wf = true → (pass s).1.mem.wf = true) (hw : s.mem.wf = true) :
    (weldTag s f p pass).1.mem.wf = true := by
  unfold weldTag
  repeat' (first
    | with_reducible assumption
    | with_reducible apply hpass
    | with_reducible refine foldl_wf _ (fun s x hs => ?_) _ _ ?_
    | split
    | simp
    | (dsimp only; split))

theorem receiveWeld_wf (s : State) (plane kind : Nat) (p : Packet) (deliver : Delivery) (hdeliver : ∀ s f p, s.mem.wf = true → (deliver s f p).1.mem.wf = true) (hw : s.mem.wf = true) :
    (receiveWeld s plane kind p deliver).mem.wf = true := by
  unfold receiveWeld
  split
  · refine receiveSeq_wf _ _ _ _ _ (fun s f p h => ?_) hw
    have := weldTag_wf s f p (fun s => deliver s f p) (fun s h => hdeliver s f p h) h
    dsimp only
    split
    · rw [inc_mem]
      exact this
    · exact this
  · exact hw

theorem onColl_wf (s : State) (p : Packet) (act : Nat → Coll → State × Verdict) (hact : ∀ id c, (act id c).1.mem.wf = true) (hw : s.mem.wf = true) :
    (onColl s p act).1.mem.wf = true := by
  unfold onColl
  repeat' (first
    | with_reducible assumption
    | with_reducible apply hact
    | with_reducible refine foldl_wf _ (fun s x hs => ?_) _ _ ?_
    | split
    | simp
    | (dsimp only; split))

theorem deliverPartial_wf (par : Bool) (s : State) (ff : Nat) (pp : Packet) (hw : s.mem.wf = true) :
    (deliverPartial par s ff pp).1.mem.wf = true := by
  unfold deliverPartial
  refine onColl_wf _ _ _ (fun id c => ?_) hw
  repeat' (first
    | with_reducible assumption
    | with_reducible apply advanceReduce_wf
    | split
    | simp
    | (dsimp only; split))

theorem deliverGather_wf  (s : State) (ff : Nat) (pp : Packet) (hw : s.mem.wf = true) :
    (deliverGather s ff pp).1.mem.wf = true := by
  unfold deliverGather
  refine onColl_wf _ _ _ (fun id c => ?_) hw
  repeat' (first
    | with_reducible assumption
    | with_reducible apply weldWrite_wf
    | split
    | simp
    | (dsimp only; split))

theorem deliverMirror_wf  (s : State) (ff : Nat) (pp : Packet) (hw : s.mem.wf = true) :
    (deliverMirror s ff pp).1.mem.wf = true := by
  unfold deliverMirror
  repeat' (first
    | with_reducible assumption
    | with_reducible apply writeFor_wf
    | with_reducible refine foldl_wf _ (fun s x hs => ?_) _ _ ?_
    | split
    | simp
    | (dsimp only; split))

theorem deliverHold_wf  (s : State) (ff : Nat) (pp : Packet) (hw : s.mem.wf = true) :
    (deliverHold s ff pp).1.mem.wf = true := by
  unfold deliverHold
  repeat' (first
    | with_reducible assumption
    | with_reducible apply store_wf
    | with_reducible refine foldl_wf _ (fun s x hs => ?_) _ _ ?_
    | split
    | simp
    | (dsimp only; split))

theorem openSlot_wf (s : State) (c : Nat) (p : TongsParams) (hw : s.mem.wf = true) :
    (openSlot s c p).mem.wf = true := by
  unfold openSlot
  repeat' (first
    | with_reducible assumption
    | with_reducible apply store_wf
    | with_reducible refine foldl_wf _ (fun s x hs => ?_) _ _ ?_
    | split
    | simp
    | (dsimp only; split))

theorem putLayer_wf (s : State) (p : TongsParams) (x : SeqSlot) (hw : s.mem.wf = true) :
    (putLayer s p x).mem.wf = true := by
  unfold putLayer
  repeat' (first
    | with_reducible assumption
    | with_reducible apply setRec_wf
    | with_reducible refine foldl_wf _ (fun s x hs => ?_) _ _ ?_
    | split
    | simp
    | (dsimp only; split))

theorem releaseLayer_wf (s : State) (p : TongsParams) (x : SeqSlot) (hw : s.mem.wf = true) :
    (releaseLayer s p x).mem.wf = true := by
  unfold releaseLayer
  repeat' (first
    | with_reducible assumption
    | with_reducible apply setRec_wf
    | with_reducible refine foldl_wf _ (fun s x hs => ?_) _ _ ?_
    | split
    | simp
    | (dsimp only; split))

theorem tongsAct_wf (s : State) (c : Nat) (p : TongsParams) (hw : s.mem.wf = true) :
    (tongsAct s c p).mem.wf = true := by
  unfold tongsAct
  repeat' (first
    | with_reducible assumption
    | with_reducible apply openSlot_wf
    | with_reducible apply putLayer_wf
    | with_reducible apply releaseLayer_wf
    | with_reducible refine foldl_wf _ (fun s x hs => ?_) _ _ ?_
    | split
    | simp
    | (dsimp only; split))

theorem tongsRec_wf (s : State) (c : Nat) (r : Rec) (hw : s.mem.wf = true) :
    (tongsRec s c r).mem.wf = true := by
  unfold tongsRec
  repeat' (first
    | with_reducible assumption
    | with_reducible apply finishCur_wf
    | with_reducible apply tongsAct_wf
    | rw [unservable_mem (by assumption)]
    | with_reducible refine foldl_wf _ (fun s x hs => ?_) _ _ ?_
    | split
    | simp
    | (dsimp only; split))

theorem offloadStart_wf (s : State) (n : Nat) (hw : s.mem.wf = true) :
    (offloadStart s n).mem.wf = true := by
  unfold offloadStart
  repeat' (first
    | with_reducible assumption
    | with_reducible apply setRec_wf
    | with_reducible refine foldl_wf _ (fun s x hs => ?_) _ _ ?_
    | split
    | simp
    | (dsimp only; split))

theorem hostMoveFails_wf (s : State) (d addr code : Nat) (hw : s.mem.wf = true) :
    (hostMoveFails s d addr code).mem.wf = true := by
  unfold hostMoveFails
  repeat' (first
    | with_reducible assumption
    | with_reducible apply destDown_wf
    | with_reducible refine foldl_wf _ (fun s x hs => ?_) _ _ ?_
    | split
    | simp
    | (dsimp only; split))

theorem offloadDone_wf (s : State) (n : Nat) (hw : s.mem.wf = true) :
    (offloadDone s n).mem.wf = true := by
  unfold offloadDone
  repeat' (first
    | with_reducible assumption
    | with_reducible apply writeAny_wf
    | with_reducible apply setRec_wf
    | with_reducible apply hostMoveFails_wf
    | with_reducible refine foldl_wf _ (fun s x hs => ?_) _ _ ?_
    | split
    | simp
    | (dsimp only; split))

theorem fetchStart_wf (s : State) (n : Nat) (hw : s.mem.wf = true) :
    (fetchStart s n).mem.wf = true := by
  unfold fetchStart
  repeat' (first
    | with_reducible assumption
    | with_reducible apply setRec_wf
    | with_reducible refine foldl_wf _ (fun s x hs => ?_) _ _ ?_
    | split
    | simp
    | (dsimp only; split))

theorem fetchDone_wf (s : State) (n : Nat) (hw : s.mem.wf = true) :
    (fetchDone s n).mem.wf = true := by
  unfold fetchDone
  repeat' (first
    | with_reducible assumption
    | with_reducible apply writeAny_wf
    | with_reducible apply setRec_wf
    | with_reducible apply hostMoveFails_wf
    | with_reducible refine foldl_wf _ (fun s x hs => ?_) _ _ ?_
    | split
    | simp
    | (dsimp only; split))

theorem failHostMoves_wf (s : State) (code : Nat) (hw : s.mem.wf = true) :
    (failHostMoves s code).mem.wf = true := by
  unfold failHostMoves
  repeat' (first
    | with_reducible assumption
    | with_reducible apply hostMoveFails_wf
    | with_reducible refine foldl_wf _ (fun s x hs => ?_) _ _ ?_
    | split
    | simp
    | (dsimp only; split))

theorem abandonWork_wf (s : State) (ids : List Nat) (log : Bool) (hw : s.mem.wf = true) :
    (abandonWork s ids log).mem.wf = true := by
  unfold abandonWork
  repeat' (first
    | with_reducible assumption
    | with_reducible apply abandonAnvils_wf
    | with_reducible refine foldl_wf _ (fun s x hs => ?_) _ _ ?_
    | split
    | simp
    | (dsimp only; split))

theorem resetCtx_wf (s : State) (c : Nat) (destroy : Bool) (hw : s.mem.wf = true) :
    (resetCtx s c destroy).mem.wf = true := by
  unfold resetCtx
  repeat' (first
    | with_reducible assumption
    | with_reducible apply abandonWork_wf
    | with_reducible refine foldl_wf _ (fun s x hs => ?_) _ _ ?_
    | split
    | simp
    | (dsimp only; split))

theorem resetCfg_wf (s : State) (c : Nat) (hw : s.mem.wf = true) :
    (resetCfg s c).mem.wf = true := by
  unfold resetCfg
  repeat' (first
    | with_reducible assumption
    | with_reducible refine foldl_wf _ (fun s x hs => ?_) _ _ ?_
    | split
    | simp
    | (dsimp only; split))

theorem endQuarantine_wf (s : State) (c : Nat) (hw : s.mem.wf = true) :
    (endQuarantine s c).mem.wf = true := by
  unfold endQuarantine
  repeat' (first
    | with_reducible assumption
    | with_reducible apply resetCfg_wf
    | with_reducible refine foldl_wf _ (fun s x hs => ?_) _ _ ?_
    | split
    | simp
    | (dsimp only; split))

theorem tchZero_wf (s : State) (hw : s.mem.wf = true) :
    (tchZero s).mem.wf = true := by
  unfold tchZero
  repeat' (first
    | with_reducible assumption
    | with_reducible apply zero_wf
    | with_reducible refine foldl_wf _ (fun s x hs => ?_) _ _ ?_
    | split
    | simp
    | (dsimp only; split))

theorem bistReturn_wf (s : State) (die m : Nat) (swage : Bool) (id : Nat) (hw : s.mem.wf = true) :
    (bistReturn s die m swage id).mem.wf = true := by
  unfold bistReturn
  repeat' (first
    | with_reducible assumption
    | with_reducible refine foldl_wf _ (fun s x hs => ?_) _ _ ?_
    | split
    | simp
    | (dsimp only; split))

theorem bistTestEnd_wf (s : State) (die : Nat) (swage : Bool) (sig sig2 : Nat) (hw : s.mem.wf = true) :
    (bistTestEnd s die swage sig sig2).mem.wf = true := by
  unfold bistTestEnd
  repeat' (first
    | with_reducible assumption
    | with_reducible apply bistReturn_wf
    | with_reducible refine foldl_wf _ (fun s x hs => ?_) _ _ ?_
    | split
    | simp
    | (dsimp only; split))

theorem restoreFails_wf (s : State) (r : Restoring) (hw : s.mem.wf = true) :
    (restoreFails s r).mem.wf = true := by
  unfold restoreFails
  repeat' (first
    | with_reducible assumption
    | with_reducible apply undefine_wf
    | with_reducible refine foldl_wf _ (fun s x hs => ?_) _ _ ?_
    | split
    | simp
    | (dsimp only; split))

theorem restoreDone_wf (s : State) (ms wc : Option (List Byte)) (hw : s.mem.wf = true) :
    (restoreDone s ms wc).mem.wf = true := by
  unfold restoreDone
  repeat' (first
    | with_reducible assumption
    | with_reducible apply store_wf
    | with_reducible apply restoreFails_wf
    | with_reducible refine foldl_wf _ (fun s x hs => ?_) _ _ ?_
    | split
    | simp
    | (dsimp only; split))

theorem putStripes_wf (s : State) (stripes : List (Nat × List Byte)) (hw : s.mem.wf = true) :
    (putStripes s stripes).mem.wf = true := by
  unfold putStripes
  repeat' (first
    | with_reducible assumption
    | with_reducible apply store_wf
    | with_reducible refine foldl_wf _ (fun s x hs => ?_) _ _ ?_
    | split
    | simp
    | (dsimp only; split))

theorem fillDone_wf (s : State) (mr : Option (List Byte)) (stripes : List (Nat × List Byte)) (hw : s.mem.wf = true) :
    (fillDone s mr stripes).mem.wf = true := by
  unfold fillDone
  repeat' (first
    | with_reducible assumption
    | with_reducible apply store_wf
    | with_reducible apply putStripes_wf
    | with_reducible refine foldl_wf _ (fun s x hs => ?_) _ _ ?_
    | split
    | simp
    | (dsimp only; split))

theorem heatRec_wf (s : State) (c : Nat) (r : Rec) (hw : s.mem.wf = true) :
    (heatRec s c r).mem.wf = true := by
  unfold heatRec
  repeat' (first
    | with_reducible assumption
    | with_reducible apply finishCur_wf
    | with_reducible refine foldl_wf _ (fun s x hs => ?_) _ _ ?_
    | split
    | simp
    | (dsimp only; split))

theorem thermalTrip_wf (s : State) (id temp : Nat) (hw : s.mem.wf = true) :
    (thermalTrip s id temp).mem.wf = true := by
  unfold thermalTrip
  repeat' (first
    | with_reducible assumption
    | with_reducible apply undefine_wf
    | with_reducible refine foldl_wf _ (fun s x hs => ?_) _ _ ?_
    | split
    | simp
    | (dsimp only; split))

theorem markRestart_wf (s : State) (c : Nat) (r : Rec) (hw : s.mem.wf = true) :
    (markRestart s c r).mem.wf = true := by
  unfold markRestart
  repeat' (first
    | with_reducible assumption
    | with_reducible apply finishCur_wf
    | with_reducible refine foldl_wf _ (fun s x hs => ?_) _ _ ?_
    | split
    | simp
    | (dsimp only; split))

theorem beginHold_wf (s : State) (c : Nat) (r : Rec) (hw : s.mem.wf = true) :
    (beginHold s c r).mem.wf = true := by
  unfold beginHold
  repeat' (first
    | with_reducible assumption
    | with_reducible apply store_wf
    | with_reducible refine foldl_wf _ (fun s x hs => ?_) _ _ ?_
    | split
    | simp
    | (dsimp only; split))

theorem holdRec_wf (s : State) (c : Nat) (r : Rec) (hw : s.mem.wf = true) :
    (holdRec s c r).mem.wf = true := by
  unfold holdRec
  repeat' (first
    | with_reducible assumption
    | with_reducible apply markRestart_wf
    | with_reducible apply beginHold_wf
    | rw [unservable_mem (by assumption)]
    | with_reducible refine foldl_wf _ (fun s x hs => ?_) _ _ ?_
    | split
    | simp
    | (dsimp only; split))

theorem wardHoldAcked_wf (s : State) (hw : s.mem.wf = true) :
    (wardHoldAcked s).mem.wf = true := by
  unfold wardHoldAcked
  repeat' (first
    | with_reducible assumption
    | with_reducible apply markRestart_wf
    | with_reducible refine foldl_wf _ (fun s x hs => ?_) _ _ ?_
    | split
    | simp
    | (dsimp only; split))

theorem stepRec_wf (s : State) (c : Nat) (r : Rec) (hw : s.mem.wf = true) :
    (stepRec s c r).mem.wf = true := by
  unfold stepRec
  repeat' (first
    | with_reducible assumption
    | with_reducible apply markRestart_wf
    | with_reducible refine foldl_wf _ (fun s x hs => ?_) _ _ ?_
    | split
    | simp
    | (dsimp only; split))

theorem undefineInactive_wf (s : State) (hw : s.mem.wf = true) :
    (undefineInactive s).mem.wf = true := by
  unfold undefineInactive
  repeat' (first
    | with_reducible assumption
    | with_reducible apply undefine_wf
    | with_reducible refine foldl_wf _ (fun s x hs => ?_) _ _ ?_
    | split
    | simp
    | (dsimp only; split))

theorem flipAct_wf (s : State) (time : Nat) (cap : Option Nat) (late : Bool) (hw : s.mem.wf = true) :
    (flipAct s time cap late).mem.wf = true := by
  unfold flipAct
  repeat' (first
    | with_reducible assumption
    | with_reducible apply finishCur_wf
    | with_reducible apply undefineInactive_wf
    | with_reducible refine foldl_wf _ (fun s x hs => ?_) _ _ ?_
    | split
    | simp
    | (dsimp only; split))

theorem flipDue_wf (s : State) (hw : s.mem.wf = true) :
    (flipDue s).mem.wf = true := by
  unfold flipDue
  repeat' (first
    | with_reducible assumption
    | with_reducible apply flipAct_wf
    | with_reducible refine foldl_wf _ (fun s x hs => ?_) _ _ ?_
    | split
    | simp
    | (dsimp only; split))

theorem rewindCtx_wf (s : State) (c : Nat) (hw : s.mem.wf = true) :
    (rewindCtx s c).mem.wf = true := by
  have hh : ∀ x, (rewindCtx.rewindHeld s c x).mem.wf = true := by
    intro x
    unfold rewindCtx.rewindHeld
    repeat' (first
      | with_reducible assumption
      | with_reducible apply settle_wf
      | split
      | simp)
  unfold rewindCtx
  repeat' (first
    | with_reducible assumption
    | exact hh _
    | with_reducible apply settle_wf
    | split
    | simp)

theorem rewindStep_wf (s : State) (hw : s.mem.wf = true) :
    (rewindStep s).mem.wf = true := by
  unfold rewindStep
  repeat' (first
    | with_reducible assumption
    | with_reducible apply abandonWork_wf
    | with_reducible apply rewindCtx_wf
    | with_reducible refine foldl_wf _ (fun s x hs => ?_) _ _ ?_
    | split
    | simp
    | (dsimp only; split))

theorem discardAct_wf (s : State) (r : Reason) (resume : Nat) (result : Bool) (hw : s.mem.wf = true) :
    (discardAct s r resume result).mem.wf = true := by
  unfold discardAct
  repeat' (first
    | with_reducible assumption
    | with_reducible apply undefineInactive_wf
    | with_reducible apply rewindStep_wf
    | with_reducible refine foldl_wf _ (fun s x hs => ?_) _ _ ?_
    | split
    | simp
    | (dsimp only; split))

theorem voteResult_wf (s : State) (bs : List Byte) (hw : s.mem.wf = true) :
    (voteResult s bs).mem.wf = true := by
  unfold voteResult
  repeat' (first
    | with_reducible assumption
    | with_reducible apply flipAct_wf
    | with_reducible apply discardAct_wf
    | with_reducible refine foldl_wf _ (fun s x hs => ?_) _ _ ?_
    | split
    | simp
    | (dsimp only; split))

theorem resultActs_wf (s : State) (tree : Nat) (bs : List Byte) (hw : s.mem.wf = true) :
    (resultActs s tree bs).mem.wf = true := by
  unfold resultActs
  repeat' (first
    | with_reducible assumption
    | with_reducible apply voteResult_wf
    | with_reducible refine foldl_wf _ (fun s x hs => ?_) _ _ ?_
    | split
    | simp
    | (dsimp only; split))

theorem sendVote_wf (s : State) (hw : s.mem.wf = true) :
    (sendVote s).mem.wf = true := by
  unfold sendVote
  repeat' (first
    | with_reducible assumption
    | with_reducible apply voteResult_wf
    | rw [contribute_eq_mem (by assumption)]
    | with_reducible refine foldl_wf _ (fun s x hs => ?_) _ _ ?_
    | split
    | simp
    | (dsimp only; split))

theorem deliverVote_wf  (s : State) (ff : Nat) (pp : Packet) (hw : s.mem.wf = true) :
    (deliverVote s ff pp).1.mem.wf = true := by
  unfold deliverVote
  repeat' (first
    | with_reducible assumption
    | with_reducible apply resultActs_wf
    | rw [contribute_eq_mem (by assumption)]
    | with_reducible refine foldl_wf _ (fun s x hs => ?_) _ _ ?_
    | split
    | simp
    | (dsimp only; split))

theorem deliverResult_wf (only : Nat → Bool) (s : State) (ff : Nat) (pp : Packet) (hw : s.mem.wf = true) :
    (deliverResult only s ff pp).1.mem.wf = true := by
  unfold deliverResult
  repeat' (first
    | with_reducible assumption
    | with_reducible apply resultActs_wf
    | with_reducible refine foldl_wf _ (fun s x hs => ?_) _ _ ?_
    | split
    | simp
    | (dsimp only; split))

theorem resumeReplay_wf (s : State) (hw : s.mem.wf = true) :
    (resumeReplay s).mem.wf = true := by
  unfold resumeReplay
  repeat' (first
    | with_reducible assumption
    | with_reducible apply undefineInactive_wf
    | with_reducible apply rewindStep_wf
    | with_reducible refine foldl_wf _ (fun s x hs => ?_) _ _ ?_
    | split
    | simp
    | (dsimp only; split))

theorem placeFrec_wf (s : State) (off : Nat) (bs : List Byte) (hw : s.mem.wf = true) :
    (placeFrec s off bs).mem.wf = true := place_wf _ _ hw

theorem frecSection_wf (s : State) (off : Nat) (bs : List Byte) (hw : s.mem.wf = true) :
    (frecSection s off bs).1.mem.wf = true := by
  unfold frecSection
  repeat' (first
    | with_reducible assumption
    | with_reducible apply placeFrec_wf
    | with_reducible refine foldl_wf _ (fun s x hs => ?_) _ _ ?_
    | split
    | simp
    | (dsimp only; split))

theorem frecOpen_wf (s : State) (off len : Nat) (hw : s.mem.wf = true) :
    (frecOpen s off len).1.mem.wf = true := by
  unfold frecOpen
  repeat' (first
    | with_reducible assumption
    | with_reducible apply undefine_wf
    | with_reducible refine foldl_wf _ (fun s x hs => ?_) _ _ ?_
    | split
    | simp
    | (dsimp only; split))

theorem ctxSection_wf (s : State) (hw : s.mem.wf = true) :
    (ctxSection s).1.mem.wf = true := by
  unfold ctxSection
  dsimp only
  refine foldl_wf _ (fun s c hs => ?_) _ _ (placeFrec_wf _ _ _ hw)
  exact blankRange_wf _ _ _ hs

theorem frecSections_wf (s : State) (hw : s.mem.wf = true) :
    (frecSections s).1.mem.wf = true := by
  unfold frecSections
  repeat' (first
    | with_reducible assumption
    | with_reducible apply placeFrec_wf
    | with_reducible apply frecSection_wf
    | with_reducible apply frecOpen_wf
    | with_reducible apply ctxSection_wf
    | with_reducible refine foldl_wf _ (fun s x hs => ?_) _ _ ?_
    | split
    | simp
    | (dsimp only; split))

theorem writeRecord_wf (s : State) (hw : s.mem.wf = true) :
    (writeRecord s).mem.wf = true := by
  unfold writeRecord
  repeat' (first
    | with_reducible assumption
    | with_reducible apply placeFrec_wf
    | with_reducible apply frecSections_wf
    | with_reducible refine foldl_wf _ (fun s x hs => ?_) _ _ ?_
    | split
    | simp
    | (dsimp only; split))

theorem faultRecord_wf (s : State) (dom target : Nat) (hw : s.mem.wf = true) :
    (faultRecord s dom target).mem.wf = true := by
  unfold faultRecord
  repeat' (first
    | with_reducible assumption
    | with_reducible apply writeRecord_wf
    | with_reducible refine foldl_wf _ (fun s x hs => ?_) _ _ ?_
    | split
    | simp
    | (dsimp only; split))

theorem dieReset_wf (s : State) (n : Nat) (hw : s.mem.wf = true) :
    (dieReset s n).mem.wf = true := by
  unfold dieReset
  repeat' (first
    | with_reducible assumption
    | with_reducible apply undefine_wf
    | with_reducible apply resetCtx_wf
    | with_reducible refine foldl_wf _ (fun s x hs => ?_) _ _ ?_
    | split
    | simp
    | (dsimp only; split))

theorem chipReset_wf (s : State) (hw : s.mem.wf = true) :
    (chipReset s).mem.wf = true := by
  unfold chipReset
  repeat' (first
    | with_reducible assumption
    | with_reducible apply undefine_wf
    | with_reducible refine foldl_wf _ (fun s x hs => ?_) _ _ ?_
    | split
    | simp
    | (dsimp only; split))

theorem beforeReset_wf (s : State) (dom target : Nat) (hw : s.mem.wf = true) :
    (beforeReset s dom target).mem.wf = true := by
  unfold beforeReset
  repeat' (first
    | with_reducible assumption
    | with_reducible apply faultRecord_wf
    | with_reducible refine foldl_wf _ (fun s x hs => ?_) _ _ ?_
    | split
    | simp
    | (dsimp only; split))

theorem request_wf (s : State) (dom : Nat) (count : Field) (f : State → Nat → State) (hf : ∀ s x0, s.mem.wf = true → (f s x0).mem.wf = true) (hw : s.mem.wf = true) :
    (request s dom count f).mem.wf = true := by
  unfold request
  repeat' (first
    | with_reducible assumption
    | with_reducible apply beforeReset_wf
    | with_reducible apply hf
    | with_reducible refine foldl_wf _ (fun s x hs => ?_) _ _ ?_
    | split
    | simp
    | (dsimp only; split))

theorem failTakeover_wf (s : State) (cause node : Nat) (hw : s.mem.wf = true) :
    (failTakeover s cause node).mem.wf = true := by
  unfold failTakeover
  repeat' (first
    | with_reducible assumption
    | with_reducible apply undefine_wf
    | with_reducible refine foldl_wf _ (fun s x hs => ?_) _ _ ?_
    | split
    | simp
    | (dsimp only; split))

theorem perst_wf (s : State) (hw : s.mem.wf = true) :
    (perst s).mem.wf = true := by
  unfold perst
  repeat' (first
    | with_reducible assumption
    | with_reducible apply chipReset_wf
    | with_reducible apply failTakeover_wf
    | with_reducible refine foldl_wf _ (fun s x hs => ?_) _ _ ?_
    | split
    | simp
    | (dsimp only; split))

theorem tongsHostFails_wf (s : State) (slot : Nat) (fetch : Bool) (code : Nat) (hw : s.mem.wf = true) :
    (tongsHostFails s slot fetch code).mem.wf = true := by
  unfold tongsHostFails
  repeat' (first
    | with_reducible assumption
    | with_reducible apply hostMoveFails_wf
    | with_reducible refine foldl_wf _ (fun s x hs => ?_) _ _ ?_
    | split
    | simp
    | (dsimp only; split))

theorem hostRequestFails_wf (s : State) (who : HostAsk) (err : HostErr) (hw : s.mem.wf = true) :
    (hostRequestFails s who err).mem.wf = true := by
  unfold hostRequestFails
  repeat' (first
    | with_reducible assumption
    | with_reducible apply tongsHostFails_wf
    | with_reducible refine foldl_wf _ (fun s x hs => ?_) _ _ ?_
    | split
    | simp
    | (dsimp only; split))

theorem hostDown_wf (s : State) (hw : s.mem.wf = true) :
    (hostDown s).mem.wf = true := by
  unfold hostDown
  repeat' (first
    | with_reducible assumption
    | with_reducible apply failHostMoves_wf
    | with_reducible refine foldl_wf _ (fun s x hs => ?_) _ _ ?_
    | split
    | simp
    | (dsimp only; split))

theorem storeParts_wf (s : State) (bs : List Byte) (xx : List (Nat × Nat)) (hw : s.mem.wf = true) :
    (storeParts s bs xx).mem.wf = true := by
  induction xx generalizing s bs with
  | nil => exact hw
  | cons p t ih =>
    unfold storeParts
    exact ih _ _ (writeAny_wf _ _ _ hw)

theorem aperture_wf (s : State) (off : Nat) (write : Bool) (n : Nat) (bs : List Byte) (poisoned : Bool) (hw : s.mem.wf = true) :
    (aperture s off write n bs poisoned).mem.wf = true := by
  unfold aperture
  repeat' (first
    | with_reducible assumption
    | with_reducible apply storeParts_wf
    | with_reducible refine foldl_wf _ (fun s x hs => ?_) _ _ ?_
    | split
    | simp
    | (dsimp only; split))

theorem onSpdm_wf (s : State) (need : Nat) (f : State → State) (hf : ∀ s, s.mem.wf = true → (f s).mem.wf = true) (hw : s.mem.wf = true) :
    (onSpdm s need f).mem.wf = true := by
  unfold onSpdm
  repeat' (first
    | with_reducible assumption
    | with_reducible apply hf
    | with_reducible refine foldl_wf _ (fun s x hs => ?_) _ _ ?_
    | split
    | simp
    | (dsimp only; split))

theorem onMailbox_wf (s : State) (op : Nat) (f : State → State) (hf : ∀ s, s.mem.wf = true → (f s).mem.wf = true) (hw : s.mem.wf = true) :
    (onMailbox s op f).mem.wf = true := by
  unfold onMailbox
  repeat' (first
    | with_reducible assumption
    | with_reducible apply hf
    | with_reducible refine foldl_wf _ (fun s x hs => ?_) _ _ ?_
    | split
    | simp
    | (dsimp only; split))

theorem mapSet_wf (s : State) (hw : s.mem.wf = true) :
    (mapSet s).mem.wf = true := by
  unfold mapSet
  repeat' (first
    | with_reducible assumption
    | with_reducible apply undefine_wf
    | with_reducible refine foldl_wf _ (fun s x hs => ?_) _ _ ?_
    | split
    | simp
    | (dsimp only; split))

theorem hbmRetrain_wf (s : State) (reports : List StackReport) (hw : s.mem.wf = true) :
    (hbmRetrain s reports).mem.wf = true := by
  unfold hbmRetrain
  repeat' (first
    | with_reducible assumption
    | with_reducible apply trainAll_wf
    | with_reducible refine foldl_wf _ (fun s x hs => ?_) _ _ ?_
    | split
    | simp
    | (dsimp only; split))

theorem guestAdmission_wf (s : State) (partner : Bool) (modules : Nat) (desc : Option (List Byte)) (hw : s.mem.wf = true) :
    (guestAdmission s partner modules desc).mem.wf = true := by
  unfold guestAdmission
  repeat' (first
    | with_reducible assumption
    | with_reducible refine foldl_wf _ (fun s x hs => ?_) _ _ ?_
    | split
    | simp
    | (dsimp only; split))

theorem withdrawGuest_wf (s : State) (reason : Nat) (hw : s.mem.wf = true) :
    (withdrawGuest s reason).mem.wf = true := by
  unfold withdrawGuest
  repeat' (first
    | with_reducible assumption
    | with_reducible apply resetCtx_wf
    | with_reducible refine foldl_wf _ (fun s x hs => ?_) _ _ ?_
    | split
    | simp
    | (dsimp only; split))

theorem resendBlock_wf (s : State) (seq : Nat) (hw : s.mem.wf = true) :
    (resendBlock s seq).mem.wf = true := by
  unfold resendBlock
  repeat' (first
    | with_reducible assumption
    | with_reducible apply withdrawGuest_wf
    | with_reducible refine foldl_wf _ (fun s x hs => ?_) _ _ ?_
    | split
    | simp
    | (dsimp only; split))

theorem writeMessage_wf (s : State) (dir : GuestDir) (tag addr : Nat) (data : List Byte) (hw : s.mem.wf = true) :
    (writeMessage s dir tag addr data).mem.wf = true := by
  unfold writeMessage
  repeat' (first
    | with_reducible assumption
    | with_reducible apply writeAny_wf
    | rw [guestWay_bad_mem (by assumption)]
    | with_reducible refine foldl_wf _ (fun s x hs => ?_) _ _ ?_
    | split
    | simp
    | (dsimp only; split))

theorem recordMessage_wf (s : State) (c : Nat) (data : List Byte) (hw : s.mem.wf = true) :
    (recordMessage s c data).mem.wf = true := by
  unfold recordMessage
  repeat' (first
    | with_reducible assumption
    | with_reducible apply submitTo_wf
    | with_reducible refine foldl_wf _ (fun s x hs => ?_) _ _ ?_
    | split
    | simp
    | (dsimp only; split))

theorem guestCtl_wf (s : State) (c v : Nat) (hw : s.mem.wf = true) :
    (guestCtl s c v).mem.wf = true := by
  unfold guestCtl
  repeat' (first
    | with_reducible assumption
    | with_reducible apply preemptCtx_wf
    | with_reducible apply resumeCtx_wf
    | with_reducible apply skipCtx_wf
    | with_reducible apply resetCtx_wf
    | with_reducible refine foldl_wf _ (fun s x hs => ?_) _ _ ?_
    | split
    | simp
    | (dsimp only; split))

theorem guestCommand_wf (s : State) (c off v : Nat) (hw : s.mem.wf = true) :
    (guestCommand s c off v).mem.wf = true := by
  unfold guestCommand
  repeat' (first
    | with_reducible assumption
    | with_reducible apply guestCtl_wf
    | with_reducible refine foldl_wf _ (fun s x hs => ?_) _ _ ?_
    | split
    | simp
    | (dsimp only; split))

theorem guestWrite_wf (s : State) (off width v : Nat) (hw : s.mem.wf = true) :
    (guestWrite s off width v).mem.wf = true := by
  unfold guestWrite
  repeat' (first
    | with_reducible assumption
    | with_reducible apply guestCommand_wf
    | with_reducible refine foldl_wf _ (fun s x hs => ?_) _ _ ?_
    | split
    | simp
    | (dsimp only; split))

theorem regMessage_wf (s : State) (dir : GuestDir) (off width : Nat) (val : Option Nat) (hw : s.mem.wf = true) :
    (regMessage s dir off width val).mem.wf = true := by
  unfold regMessage
  repeat' (first
    | with_reducible assumption
    | with_reducible apply guestWrite_wf
    | with_reducible refine foldl_wf _ (fun s x hs => ?_) _ _ ?_
    | split
    | simp
    | (dsimp only; split))

theorem mainOff_wf (s : State) (hw : s.mem.wf = true) :
    (mainOff s).mem.wf = true := by
  unfold mainOff
  repeat' (first
    | with_reducible assumption
    | with_reducible apply undefine_wf
    | with_reducible refine foldl_wf _ (fun s x hs => ?_) _ _ ?_
    | split
    | simp
    | (dsimp only; split))

theorem coldReset_wf (s : State) (hw : s.mem.wf = true) :
    (coldReset s).mem.wf = true := by
  unfold coldReset
  rfl

theorem powerOn_wf (s : State) (hw : s.mem.wf = true) :
    (powerOn s).mem.wf = true := by
  unfold powerOn
  repeat' (first
    | with_reducible assumption
    | with_reducible apply coldReset_wf
    | with_reducible refine foldl_wf _ (fun s x hs => ?_) _ _ ?_
    | split
    | simp
    | (dsimp only; split))

theorem hbmTrain_wf (s : State) (reports : List StackReport) (hw : s.mem.wf = true) :
    (hbmTrain s reports).mem.wf = true := by
  unfold hbmTrain
  repeat' (first
    | with_reducible assumption
    | with_reducible apply trainAll_wf
    | with_reducible refine foldl_wf _ (fun s x hs => ?_) _ _ ?_
    | split
    | simp
    | (dsimp only; split))

theorem takeoverDone_wf (s : State) (ms mr wc : List Byte) (hold wardHold : Option (List Byte)) (hw : s.mem.wf = true) :
    (takeoverDone s ms mr wc hold wardHold).mem.wf = true := by
  unfold takeoverDone
  repeat' (first
    | with_reducible assumption
    | with_reducible apply store_wf
    | with_reducible refine foldl_wf _ (fun s x hs => ?_) _ _ ?_
    | split
    | simp
    | (dsimp only; split))

theorem takeoverFails_wf (s : State) (cause : TkoCause) (hw : s.mem.wf = true) :
    (takeoverFails s cause).mem.wf = true := by
  unfold takeoverFails
  repeat' (first
    | with_reducible assumption
    | with_reducible apply failTakeover_wf
    | with_reducible refine foldl_wf _ (fun s x hs => ?_) _ _ ?_
    | split
    | simp
    | (dsimp only; split))

theorem takeAnv_wf (s : State) (i : Nat) (hw : s.mem.wf = true) :
    (takeAnv s i).mem.wf = true := by
  unfold takeAnv
  repeat' (first
    | with_reducible assumption
    | with_reducible apply applyAnvMap_wf
    | with_reducible refine foldl_wf _ (fun s x hs => ?_) _ _ ?_
    | split
    | simp
    | (dsimp only; split))

theorem timeRole_wf (s : State) (was : Bool) (hw : s.mem.wf = true) :
    (timeRole s was).mem.wf = true := by
  unfold timeRole
  repeat' (first
    | with_reducible assumption
    | with_reducible refine foldl_wf _ (fun s x hs => ?_) _ _ ?_
    | split
    | simp
    | (dsimp only; split))

theorem takeTime_wf (s : State) (hw : s.mem.wf = true) :
    (takeTime s).mem.wf = true := by
  unfold takeTime
  repeat' (first
    | with_reducible assumption
    | with_reducible apply timeRole_wf
    | with_reducible refine foldl_wf _ (fun s x hs => ?_) _ _ ?_
    | split
    | simp
    | (dsimp only; split))

theorem takeApply_wf (s : State) (p : Page) (i : Nat) (hw : s.mem.wf = true) :
    (takeApply s p i).mem.wf = true := by
  unfold takeApply
  repeat' (first
    | with_reducible assumption
    | with_reducible apply takeAnv_wf
    | with_reducible apply takeTime_wf
    | with_reducible refine foldl_wf _ (fun s x hs => ?_) _ _ ?_
    | split
    | simp
    | (dsimp only; split))

theorem testPort_wf (s : State) (d : Nat) (hw : s.mem.wf = true) :
    (testPort s d).mem.wf = true := by
  unfold testPort
  repeat' (first
    | with_reducible assumption
    | with_reducible refine foldl_wf _ (fun s x hs => ?_) _ _ ?_
    | split
    | simp
    | (dsimp only; split))

theorem afterTest_wf (s : State) (t : Nat) (hw : s.mem.wf = true) :
    (afterTest s t).mem.wf = true := by
  unfold afterTest
  repeat' (first
    | with_reducible assumption
    | with_reducible apply testPort_wf
    | with_reducible refine foldl_wf _ (fun s x hs => ?_) _ _ ?_
    | split
    | simp
    | (dsimp only; split))

theorem bstDone_wf (s : State) (fails : Nat) (hw : s.mem.wf = true) :
    (bstDone s fails).mem.wf = true := by
  unfold bstDone
  repeat' (first
    | with_reducible assumption
    | with_reducible apply afterTest_wf
    | with_reducible refine foldl_wf _ (fun s x hs => ?_) _ _ ?_
    | split
    | simp
    | (dsimp only; split))

end Sys2Proof.Machine
end

