-- ==== Sys2Proof/Laws/CommandsWf.lean ====
section
/-! SUPPORT. Every command keeps the canonical form of memory. -/

namespace Sys2Proof.Machine

open Sys2Proof

theorem execRegWrite_wf (who : Writer) (off width : Nat) (full : Bool) (val : Nat) (s : State) (hw : s.mem.wf = true) : Keeps (fun t => t.mem.wf = true) (execRegWrite who off width full val s) := by
  intro t h
  rw [execRegWrite_mem who off width full val s t h]
  exact hw

theorem execApply_wf (slot : Nat) (s : State) (hw : s.mem.wf = true) : Keeps (fun t => t.mem.wf = true) (execApply slot s) := by
  intro t h
  rw [execApply_mem slot s t h]
  exact hw

theorem execArmDiscard_wf (slot : Nat) (s : State) (hw : s.mem.wf = true) : Keeps (fun t => t.mem.wf = true) (execArmDiscard slot s) := by
  intro t h
  rw [execArmDiscard_mem slot s t h]
  exact hw

theorem execErrlogClear_wf (slot : Nat) (s : State) (hw : s.mem.wf = true) : Keeps (fun t => t.mem.wf = true) (execErrlogClear slot s) := by
  intro t h
  rw [execErrlogClear_mem slot s t h]
  exact hw

theorem execEvtStsClear_wf (slot mask : Nat) (s : State) (hw : s.mem.wf = true) : Keeps (fun t => t.mem.wf = true) (execEvtStsClear slot mask s) := by
  intro t h
  rw [execEvtStsClear_mem slot mask s t h]
  exact hw

theorem execEvtForce_wf (slot mask : Nat) (s : State) (hw : s.mem.wf = true) : Keeps (fun t => t.mem.wf = true) (execEvtForce slot mask s) := by
  intro t h
  rw [execEvtForce_mem slot mask s t h]
  exact hw

theorem execEvtMaskWrite_wf (slot mask : Nat) (s : State) (hw : s.mem.wf = true) : Keeps (fun t => t.mem.wf = true) (execEvtMaskWrite slot mask s) := by
  intro t h
  rw [execEvtMaskWrite_mem slot mask s t h]
  exact hw

theorem execTelemetrySnapshot_wf (slot : Nat) (s : State) (hw : s.mem.wf = true) : Keeps (fun t => t.mem.wf = true) (execTelemetrySnapshot slot s) := by
  intro t h
  rw [execTelemetrySnapshot_mem slot s t h]
  exact hw

theorem execRecordSubmit_wf (off : Nat) (data : List Byte) (s : State) (hw : s.mem.wf = true) : Keeps (fun t => t.mem.wf = true) (execRecordSubmit off data s) := by
  unfold execRecordSubmit
  repeat' (first
    | with_reducible assumption
    | with_reducible apply submitTo_wf
    | refine keeps_live hw ?_
    | refine keeps_unit hw ?_
    | refine keeps_rec hw fun r => ?_
    | refine keeps_weld hw fun r => ?_
    | refine keeps_tongs hw fun r => ?_
    | exact keeps_fault
    | refine keeps_next ?_
    | with_reducible refine foldl_wf _ (fun s x hs => ?_) _ _ ?_
    | split
    | simp
    | intro _
    | (dsimp only; split))

theorem execCreate_wf (ctx : Nat) (s : State) (hw : s.mem.wf = true) : Keeps (fun t => t.mem.wf = true) (execCreate ctx s) := by
  intro t h
  rw [execCreate_mem ctx s t h]
  exact hw

theorem execPreempt_wf (ctx : Nat) (s : State) (hw : s.mem.wf = true) : Keeps (fun t => t.mem.wf = true) (execPreempt ctx s) := keeps_unit hw (preemptCtx_wf _ _ hw)

theorem execResume_wf (ctx : Nat) (s : State) (hw : s.mem.wf = true) : Keeps (fun t => t.mem.wf = true) (execResume ctx s) := keeps_unit hw (resumeCtx_wf _ _ hw)

theorem execSkip_wf (ctx : Nat) (s : State) (hw : s.mem.wf = true) : Keeps (fun t => t.mem.wf = true) (execSkip ctx s) := keeps_unit hw (skipCtx_wf _ _ hw)

theorem execCtxSave_wf (ctx : Nat) (s : State) (hw : s.mem.wf = true) : Keeps (fun t => t.mem.wf = true) (execCtxSave ctx s) := keeps_unit hw (saveOp_wf _ _ hw)

theorem execCtxLoad_wf (ctx : Nat) (s : State) (hw : s.mem.wf = true) : Keeps (fun t => t.mem.wf = true) (execCtxLoad ctx s) := by
  intro t h
  rw [execCtxLoad_mem ctx s t h]
  exact hw

theorem execRecordIssue_wf (die : Nat) (s : State) (hw : s.mem.wf = true) : Keeps (fun t => t.mem.wf = true) (execRecordIssue die s) := by
  intro t h
  rw [execRecordIssue_mem die s t h]
  exact hw

theorem execNop_wf (ctx : Nat) (s : State) (hw : s.mem.wf = true) : Keeps (fun t => t.mem.wf = true) (execNop ctx s) := keeps_rec hw fun r => finishCur_wf _ _ r hw

theorem execCall_wf (ctx : Nat) (s : State) (hw : s.mem.wf = true) : Keeps (fun t => t.mem.wf = true) (execCall ctx s) := keeps_rec hw fun r => callRec_wf _ _ r hw

theorem execRet_wf (ctx : Nat) (s : State) (hw : s.mem.wf = true) : Keeps (fun t => t.mem.wf = true) (execRet ctx s) := keeps_rec hw fun r => retRec_wf _ _ r hw

theorem execLoop_wf (ctx : Nat) (s : State) (hw : s.mem.wf = true) : Keeps (fun t => t.mem.wf = true) (execLoop ctx s) := keeps_rec hw fun r => loopRec_wf _ _ r hw

theorem execCopy_wf (ctx : Nat) (s : State) (hw : s.mem.wf = true) : Keeps (fun t => t.mem.wf = true) (execCopy ctx s) := keeps_rec hw fun r => copyRec_wf _ _ r hw

theorem execCopyComplete_wf (id : Nat) (s : State) (hw : s.mem.wf = true) : Keeps (fun t => t.mem.wf = true) (execCopyComplete id s) := by
  unfold execCopyComplete
  repeat' (first
    | with_reducible assumption
    | with_reducible apply endCopy_wf
    | refine keeps_live hw ?_
    | refine keeps_unit hw ?_
    | refine keeps_rec hw fun r => ?_
    | refine keeps_weld hw fun r => ?_
    | refine keeps_tongs hw fun r => ?_
    | exact keeps_fault
    | refine keeps_next ?_
    | with_reducible refine foldl_wf _ (fun s x hs => ?_) _ _ ?_
    | split
    | simp
    | intro _
    | (dsimp only; split))

theorem execSignal_wf (ctx : Nat) (s : State) (hw : s.mem.wf = true) : Keeps (fun t => t.mem.wf = true) (execSignal ctx s) := keeps_rec hw fun r => signalRec_wf _ _ r hw

theorem execWait_wf (ctx : Nat) (s : State) (hw : s.mem.wf = true) : Keeps (fun t => t.mem.wf = true) (execWait ctx s) := keeps_rec hw fun r => waitRec_wf _ _ r hw

theorem execWaitWake_wf (ctx : Nat) (s : State) (hw : s.mem.wf = true) : Keeps (fun t => t.mem.wf = true) (execWaitWake ctx s) := keeps_unit hw (wakeCtx_wf _ _ hw)

theorem execWaitTimeout_wf (ctx : Nat) (s : State) (hw : s.mem.wf = true) : Keeps (fun t => t.mem.wf = true) (execWaitTimeout ctx s) := by
  intro t h
  rw [execWaitTimeout_mem ctx s t h]
  exact hw

theorem execSubscribeRetry_wf (ctx : Nat) (s : State) (hw : s.mem.wf = true) : Keeps (fun t => t.mem.wf = true) (execSubscribeRetry ctx s) := by
  intro t h
  rw [execSubscribeRetry_mem ctx s t h]
  exact hw

theorem execStamp_wf (ctx : Nat) (s : State) (hw : s.mem.wf = true) : Keeps (fun t => t.mem.wf = true) (execStamp ctx s) := keeps_rec hw fun r => stampRec_wf _ _ r hw

theorem execAflags_wf (ctx : Nat) (s : State) (hw : s.mem.wf = true) : Keeps (fun t => t.mem.wf = true) (execAflags ctx s) := keeps_rec hw fun r => aflagsRec_wf _ _ r hw

theorem execAlloc_wf (s : State) (hw : s.mem.wf = true) : Keeps (fun t => t.mem.wf = true) (execAlloc s) := by
  intro t h
  rw [execAlloc_mem s t h]
  exact hw

theorem execFree_wf (s : State) (hw : s.mem.wf = true) : Keeps (fun t => t.mem.wf = true) (execFree s) := by
  intro t h
  rw [execFree_mem s t h]
  exact hw

theorem execBind_wf (s : State) (hw : s.mem.wf = true) : Keeps (fun t => t.mem.wf = true) (execBind s) := by
  intro t h
  rw [execBind_mem s t h]
  exact hw

theorem execUnbind_wf (s : State) (hw : s.mem.wf = true) : Keeps (fun t => t.mem.wf = true) (execUnbind s) := by
  intro t h
  rw [execUnbind_mem s t h]
  exact hw

theorem execClearBroken_wf (s : State) (hw : s.mem.wf = true) : Keeps (fun t => t.mem.wf = true) (execClearBroken s) := by
  intro t h
  rw [execClearBroken_mem s t h]
  exact hw

theorem execPeriscopeEval_wf (s : State) (hw : s.mem.wf = true) : Keeps (fun t => t.mem.wf = true) (execPeriscopeEval s) := by
  intro t h
  rw [execPeriscopeEval_mem s t h]
  exact hw

theorem execMma_wf (ctx : Nat) (s : State) (hw : s.mem.wf = true) : Keeps (fun t => t.mem.wf = true) (execMma ctx s) := keeps_rec hw fun r => mmaRec_wf _ _ r hw

theorem execAnvTileIssue_wf (die unit : Nat) (par : AnvParity) (s : State) (hw : s.mem.wf = true) : Keeps (fun t => t.mem.wf = true) (execAnvTileIssue die unit par s) := by
  unfold execAnvTileIssue
  repeat' (first
    | with_reducible assumption
    | with_reducible apply issueTile_wf
    | refine keeps_live hw ?_
    | refine keeps_unit hw ?_
    | refine keeps_rec hw fun r => ?_
    | refine keeps_weld hw fun r => ?_
    | refine keeps_tongs hw fun r => ?_
    | exact keeps_fault
    | refine keeps_next ?_
    | with_reducible refine foldl_wf _ (fun s x hs => ?_) _ _ ?_
    | split
    | simp
    | intro _
    | (dsimp only; split))

theorem execAnvTileEnd_wf (die unit : Nat) (par : AnvParity) (faults : List (Nat × Nat)) (s : State) (hw : s.mem.wf = true) : Keeps (fun t => t.mem.wf = true) (execAnvTileEnd die unit par faults s) := by
  unfold execAnvTileEnd
  repeat' (first
    | with_reducible assumption
    | with_reducible apply endTile_wf
    | refine keeps_live hw ?_
    | refine keeps_unit hw ?_
    | refine keeps_rec hw fun r => ?_
    | refine keeps_weld hw fun r => ?_
    | refine keeps_tongs hw fun r => ?_
    | exact keeps_fault
    | refine keeps_next ?_
    | with_reducible refine foldl_wf _ (fun s x hs => ?_) _ _ ?_
    | split
    | simp
    | intro _
    | (dsimp only; split))

theorem execAnvIssueWaitEnd_wf (die unit : Nat) (s : State) (hw : s.mem.wf = true) : Keeps (fun t => t.mem.wf = true) (execAnvIssueWaitEnd die unit s) := by
  intro t h
  rw [execAnvIssueWaitEnd_mem die unit s t h]
  exact hw

theorem execMmaComplete_wf (id : Nat) (s : State) (hw : s.mem.wf = true) : Keeps (fun t => t.mem.wf = true) (execMmaComplete id s) := keeps_live hw (completeMma_wf _ _ hw)

theorem execAnvClkGate_wf (die unit : Nat) (s : State) (hw : s.mem.wf = true) : Keeps (fun t => t.mem.wf = true) (execAnvClkGate die unit s) := by
  intro t h
  rw [execAnvClkGate_mem die unit s t h]
  exact hw

theorem execBistClaimAnvil_wf (die : Nat) (s : State) (hw : s.mem.wf = true) : Keeps (fun t => t.mem.wf = true) (execBistClaimAnvil die s) := by
  intro t h
  rw [execBistClaimAnvil_mem die s t h]
  exact hw

theorem execAnvTestEnter_wf (die : Nat) (s : State) (hw : s.mem.wf = true) : Keeps (fun t => t.mem.wf = true) (execAnvTestEnter die s) := keeps_unit hw (testEnter_wf _ _ hw)

theorem execAnvClaimForced_wf (die : Nat) (s : State) (hw : s.mem.wf = true) : Keeps (fun t => t.mem.wf = true) (execAnvClaimForced die s) := by
  intro t h
  rw [execAnvClaimForced_mem die s t h]
  exact hw

theorem execVec_wf (ctx : Nat) (s : State) (hw : s.mem.wf = true) : Keeps (fun t => t.mem.wf = true) (execVec ctx s) := keeps_rec hw fun r => vecRec_wf _ _ r hw

theorem execVecBlockStart_wf (die unit slot : Nat) (s : State) (hw : s.mem.wf = true) : Keeps (fun t => t.mem.wf = true) (execVecBlockStart die unit slot s) := by
  intro t h
  rw [execVecBlockStart_mem die unit slot s t h]
  exact hw

theorem execVecBlockCommit_wf (die unit slot : Nat) (par : SwgParity) (s : State) (hw : s.mem.wf = true) : Keeps (fun t => t.mem.wf = true) (execVecBlockCommit die unit slot par s) := by
  unfold execVecBlockCommit
  repeat' (first
    | with_reducible assumption
    | with_reducible apply commitBlock_wf
    | refine keeps_live hw ?_
    | refine keeps_unit hw ?_
    | refine keeps_rec hw fun r => ?_
    | refine keeps_weld hw fun r => ?_
    | refine keeps_tongs hw fun r => ?_
    | exact keeps_fault
    | refine keeps_next ?_
    | with_reducible refine foldl_wf _ (fun s x hs => ?_) _ _ ?_
    | split
    | simp
    | intro _
    | (dsimp only; split))

theorem execVecComplete_wf (id : Nat) (s : State) (hw : s.mem.wf = true) : Keeps (fun t => t.mem.wf = true) (execVecComplete id s) := keeps_live hw (completeVec_wf _ _ hw)

theorem execSwgClkGate_wf (die unit : Nat) (s : State) (hw : s.mem.wf = true) : Keeps (fun t => t.mem.wf = true) (execSwgClkGate die unit s) := by
  intro t h
  rw [execSwgClkGate_mem die unit s t h]
  exact hw

theorem execBistClaimSwage_wf (die : Nat) (s : State) (hw : s.mem.wf = true) : Keeps (fun t => t.mem.wf = true) (execBistClaimSwage die s) := by
  intro t h
  rw [execBistClaimSwage_mem die s t h]
  exact hw

theorem execSwgTestEnter_wf (die : Nat) (s : State) (hw : s.mem.wf = true) : Keeps (fun t => t.mem.wf = true) (execSwgTestEnter die s) := by
  intro t h
  rw [execSwgTestEnter_mem die s t h]
  exact hw

theorem execSwgClaimForced_wf (die : Nat) (s : State) (hw : s.mem.wf = true) : Keeps (fun t => t.mem.wf = true) (execSwgClaimForced die s) := by
  intro t h
  rw [execSwgClaimForced_mem die s t h]
  exact hw

theorem execSparkKat_wf (good : Bool) (s : State) (hw : s.mem.wf = true) : Keeps (fun t => t.mem.wf = true) (execSparkKat good s) := by
  intro t h
  rw [execSparkKat_mem good s t h]
  exact hw

theorem execHearthScrubRead_wf (die bank : Nat) (ecc : Ecc) (s : State) (hw : s.mem.wf = true) : Keeps (fun t => t.mem.wf = true) (execHearthScrubRead die bank ecc s) := by
  intro t h
  rw [execHearthScrubRead_mem die bank ecc s t h]
  exact hw

theorem execHearthInitDone_wf (die : Nat) (s : State) (hw : s.mem.wf = true) : Keeps (fun t => t.mem.wf = true) (execHearthInitDone die s) := keeps_unit hw (hearthInit_wf _ _ hw)

theorem execHalt_wf (die : Nat) (on : Bool) (s : State) (hw : s.mem.wf = true) : Keeps (fun t => t.mem.wf = true) (execHalt die on s) := by
  intro t h
  rw [execHalt_mem die on s t h]
  exact hw

theorem execHbmRead_wf (addr : Nat) (ecc : Ecc) (ctx : Nat) (s : State) (hw : s.mem.wf = true) : Keeps (fun t => t.mem.wf = true) (execHbmRead addr ecc ctx s) := by
  intro t h
  rw [execHbmRead_mem addr ecc ctx s t h]
  exact hw

theorem execHealDone_wf (row : Nat) (src : Option (List Byte)) (readBack : Ecc) (s : State) (hw : s.mem.wf = true) : Keeps (fun t => t.mem.wf = true) (execHealDone row src readBack s) := by
  unfold execHealDone
  repeat' (first
    | with_reducible assumption
    | with_reducible apply endHeal_wf
    | refine keeps_live hw ?_
    | refine keeps_unit hw ?_
    | refine keeps_rec hw fun r => ?_
    | refine keeps_weld hw fun r => ?_
    | refine keeps_tongs hw fun r => ?_
    | exact keeps_fault
    | refine keeps_next ?_
    | with_reducible refine foldl_wf _ (fun s x hs => ?_) _ _ ?_
    | split
    | simp
    | intro _
    | (dsimp only; split))

theorem execHbmParityError_wf (addr : Nat) (write : Bool) (errors ctx : Nat) (s : State) (hw : s.mem.wf = true) : Keeps (fun t => t.mem.wf = true) (execHbmParityError addr write errors ctx s) := by
  unfold execHbmParityError
  repeat' (first
    | with_reducible assumption
    | with_reducible apply parityError_wf
    | refine keeps_live hw ?_
    | refine keeps_unit hw ?_
    | refine keeps_rec hw fun r => ?_
    | refine keeps_weld hw fun r => ?_
    | refine keeps_tongs hw fun r => ?_
    | exact keeps_fault
    | refine keeps_next ?_
    | with_reducible refine foldl_wf _ (fun s x hs => ?_) _ _ ?_
    | split
    | simp
    | intro _
    | (dsimp only; split))

theorem execHbmRefresh_wf (stack pc bank : Nat) (s : State) (hw : s.mem.wf = true) : Keeps (fun t => t.mem.wf = true) (execHbmRefresh stack pc bank s) := by
  intro t h
  rw [execHbmRefresh_mem stack pc bank s t h]
  exact hw

theorem execHbmTempRead_wf (stack temp : Nat) (s : State) (hw : s.mem.wf = true) : Keeps (fun t => t.mem.wf = true) (execHbmTempRead stack temp s) := by
  intro t h
  rw [execHbmTempRead_mem stack temp s t h]
  exact hw

theorem execHbmPatrolScrub_wf (stack pc : Nat) (ecc : Ecc) (s : State) (hw : s.mem.wf = true) : Keeps (fun t => t.mem.wf = true) (execHbmPatrolScrub stack pc ecc s) := by
  intro t h
  rw [execHbmPatrolScrub_mem stack pc ecc s t h]
  exact hw

theorem execGather_wf (ctx : Nat) (s : State) (hw : s.mem.wf = true) : Keeps (fun t => t.mem.wf = true) (execGather ctx s) := keeps_rec hw fun r => gatherRec_wf _ _ r hw

theorem execGatherComplete_wf (id : Nat) (s : State) (hw : s.mem.wf = true) : Keeps (fun t => t.mem.wf = true) (execGatherComplete id s) := keeps_live hw (endGather_wf _ _ hw)

theorem execHbmSelfRefreshExit_wf (die bad0 bad1 : Nat) (s : State) (hw : s.mem.wf = true) : Keeps (fun t => t.mem.wf = true) (execHbmSelfRefreshExit die bad0 bad1 s) := by
  intro t h
  rw [execHbmSelfRefreshExit_mem die bad0 bad1 s t h]
  exact hw

theorem execLinkEnable_wf (k : Nat) (s : State) (hw : s.mem.wf = true) : Keeps (fun t => t.mem.wf = true) (execLinkEnable k s) := by
  intro t h
  rw [execLinkEnable_mem k s t h]
  exact hw

theorem execLinkDisable_wf (k : Nat) (s : State) (hw : s.mem.wf = true) : Keeps (fun t => t.mem.wf = true) (execLinkDisable k s) := by
  intro t h
  rw [execLinkDisable_mem k s t h]
  exact hw

theorem execLinkTraining_wf (k : Nat) (rep : LinkReport) (s : State) (hw : s.mem.wf = true) : Keeps (fun t => t.mem.wf = true) (execLinkTraining k rep s) := by
  intro t h
  rw [execLinkTraining_mem k rep s t h]
  exact hw

theorem execRetrain_wf (k : Nat) (s : State) (hw : s.mem.wf = true) : Keeps (fun t => t.mem.wf = true) (execRetrain k s) := by
  intro t h
  rw [execRetrain_mem k s t h]
  exact hw

theorem execLinkRetry_wf (k : Nat) (s : State) (hw : s.mem.wf = true) : Keeps (fun t => t.mem.wf = true) (execLinkRetry k s) := by
  intro t h
  rw [execLinkRetry_mem k s t h]
  exact hw

theorem execAutoRestore_wf (k : Nat) (s : State) (hw : s.mem.wf = true) : Keeps (fun t => t.mem.wf = true) (execAutoRestore k s) := by
  intro t h
  rw [execAutoRestore_mem k s t h]
  exact hw

theorem execLaneFault_wf (k lane : Nat) (cause : LaneCause) (s : State) (hw : s.mem.wf = true) : Keeps (fun t => t.mem.wf = true) (execLaneFault k lane cause s) := by
  intro t h
  rw [execLaneFault_mem k lane cause s t h]
  exact hw

theorem execDegradeReq_wf (k lanes : Nat) (s : State) (hw : s.mem.wf = true) : Keeps (fun t => t.mem.wf = true) (execDegradeReq k lanes s) := by
  intro t h
  rw [execDegradeReq_mem k lanes s t h]
  exact hw

theorem execDegradeAck_wf (k lanes : Nat) (rep : LinkReport) (s : State) (hw : s.mem.wf = true) : Keeps (fun t => t.mem.wf = true) (execDegradeAck k lanes rep s) := by
  intro t h
  rw [execDegradeAck_mem k lanes rep s t h]
  exact hw

theorem execDegradeTimeout_wf (k : Nat) (s : State) (hw : s.mem.wf = true) : Keeps (fun t => t.mem.wf = true) (execDegradeTimeout k s) := by
  intro t h
  rw [execDegradeTimeout_mem k s t h]
  exact hw

theorem execDownNotice_wf (k : Nat) (s : State) (hw : s.mem.wf = true) : Keeps (fun t => t.mem.wf = true) (execDownNotice k s) := by
  intro t h
  rw [execDownNotice_mem k s t h]
  exact hw

theorem execCodewordRx_wf (k seq : Nat) (symbols : List Nat) (uncorrectable : Bool) (packets slots : Nat) (s : State) (hw : s.mem.wf = true) : Keeps (fun t => t.mem.wf = true) (execCodewordRx k seq symbols uncorrectable packets slots s) := by
  intro t h
  rw [execCodewordRx_mem k seq symbols uncorrectable packets slots s t h]
  exact hw

theorem execControlSlotRx_wf (k : Nat) (cs : ControlSlot) (s : State) (hw : s.mem.wf = true) : Keeps (fun t => t.mem.wf = true) (execControlSlotRx k cs s) := by
  intro t h
  rw [execControlSlotRx_mem k cs s t h]
  exact hw

theorem execPacketTx_wf (k : Nat) (s : State) (hw : s.mem.wf = true) : Keeps (fun t => t.mem.wf = true) (execPacketTx k s) := by
  intro t h
  rw [execPacketTx_mem k s t h]
  exact hw

theorem execSerWindowEnd_wf (k : Nat) (s : State) (hw : s.mem.wf = true) : Keeps (fun t => t.mem.wf = true) (execSerWindowEnd k s) := by
  intro t h
  rw [execSerWindowEnd_mem k s t h]
  exact hw

theorem execTxeqReq_wf (k lane : Nat) (up : Bool) (s : State) (hw : s.mem.wf = true) : Keeps (fun t => t.mem.wf = true) (execTxeqReq k lane up s) := by
  intro t h
  rw [execTxeqReq_mem k lane up s t h]
  exact hw

theorem execTxeqAck_wf (k lane : Nat) (s : State) (hw : s.mem.wf = true) : Keeps (fun t => t.mem.wf = true) (execTxeqAck k lane s) := by
  intro t h
  rw [execTxeqAck_mem k lane s t h]
  exact hw

theorem execTxeqWindowEnd_wf (k lane : Nat) (s : State) (hw : s.mem.wf = true) : Keeps (fun t => t.mem.wf = true) (execTxeqWindowEnd k lane s) := by
  intro t h
  rw [execTxeqWindowEnd_mem k lane s t h]
  exact hw

theorem execSignalOp_wf (plane : Nat) (p : Packet) (s : State) (hw : s.mem.wf = true) : Keeps (fun t => t.mem.wf = true) (execSignalOp plane p s) := by
  intro t h
  rw [execSignalOp_mem plane p s t h]
  exact hw

theorem execSubscribe_wf (plane : Nat) (p : Packet) (s : State) (hw : s.mem.wf = true) : Keeps (fun t => t.mem.wf = true) (execSubscribe plane p s) := by
  intro t h
  rw [execSubscribe_mem plane p s t h]
  exact hw

theorem execNotify_wf (plane : Nat) (p : Packet) (s : State) (hw : s.mem.wf = true) : Keeps (fun t => t.mem.wf = true) (execNotify plane p s) := by
  intro t h
  rw [execNotify_mem plane p s t h]
  exact hw

theorem execBroken_wf (plane : Nat) (p : Packet) (s : State) (hw : s.mem.wf = true) : Keeps (fun t => t.mem.wf = true) (execBroken plane p s) := by
  intro t h
  rw [execBroken_mem plane p s t h]
  exact hw

theorem execCancel_wf (plane : Nat) (p : Packet) (s : State) (hw : s.mem.wf = true) : Keeps (fun t => t.mem.wf = true) (execCancel plane p s) := by
  intro t h
  rw [execCancel_mem plane p s t h]
  exact hw

theorem execBusy_wf (plane : Nat) (p : Packet) (s : State) (hw : s.mem.wf = true) : Keeps (fun t => t.mem.wf = true) (execBusy plane p s) := by
  intro t h
  rw [execBusy_mem plane p s t h]
  exact hw

theorem execWrite_wf (plane : Nat) (p : Packet) (s : State) (hw : s.mem.wf = true) : Keeps (fun t => t.mem.wf = true) (execWrite plane p s) := by
  unfold execWrite
  repeat' (first
    | with_reducible assumption
    | with_reducible apply receiveSeq_wf
    | with_reducible apply deliverWrite_wf
    | refine keeps_live hw ?_
    | refine keeps_unit hw ?_
    | refine keeps_rec hw fun r => ?_
    | refine keeps_weld hw fun r => ?_
    | refine keeps_tongs hw fun r => ?_
    | exact keeps_fault
    | refine keeps_next ?_
    | with_reducible refine foldl_wf _ (fun s x hs => ?_) _ _ ?_
    | split
    | simp
    | intro _
    | (dsimp only; split))

theorem execRead_wf (plane : Nat) (p : Packet) (ecc : Ecc) (s : State) (hw : s.mem.wf = true) : Keeps (fun t => t.mem.wf = true) (execRead plane p ecc s) := by
  intro t h
  rw [execRead_mem plane p ecc s t h]
  exact hw

theorem execData_wf (plane : Nat) (p : Packet) (s : State) (hw : s.mem.wf = true) : Keeps (fun t => t.mem.wf = true) (execData plane p s) := by
  unfold execData
  repeat' (first
    | with_reducible assumption
    | with_reducible apply receiveSeq_wf
    | with_reducible apply deliverData_wf
    | refine keeps_live hw ?_
    | refine keeps_unit hw ?_
    | refine keeps_rec hw fun r => ?_
    | refine keeps_weld hw fun r => ?_
    | refine keeps_tongs hw fun r => ?_
    | exact keeps_fault
    | refine keeps_next ?_
    | with_reducible refine foldl_wf _ (fun s x hs => ?_) _ _ ?_
    | split
    | simp
    | intro _
    | (dsimp only; split))

theorem execAck_wf (plane : Nat) (p : Packet) (s : State) (hw : s.mem.wf = true) : Keeps (fun t => t.mem.wf = true) (execAck plane p s) := by
  unfold execAck
  repeat' (first
    | with_reducible assumption
    | with_reducible apply receiveAck_wf
    | with_reducible apply receivePlain_wf
    | refine keeps_live hw ?_
    | refine keeps_unit hw ?_
    | refine keeps_rec hw fun r => ?_
    | refine keeps_weld hw fun r => ?_
    | refine keeps_tongs hw fun r => ?_
    | exact keeps_fault
    | refine keeps_next ?_
    | with_reducible refine foldl_wf _ (fun s x hs => ?_) _ _ ?_
    | split
    | simp
    | intro _
    | (dsimp only; split))

theorem execAckSend_wf (flow : Nat) (s : State) (hw : s.mem.wf = true) : Keeps (fun t => t.mem.wf = true) (execAckSend flow s) := by
  intro t h
  rw [execAckSend_mem flow s t h]
  exact hw

theorem execFlowOpen_wf (plane : Nat) (p : Packet) (s : State) (hw : s.mem.wf = true) : Keeps (fun t => t.mem.wf = true) (execFlowOpen plane p s) := by
  unfold execFlowOpen
  repeat' (first
    | with_reducible assumption
    | with_reducible apply receivePlain_wf
    | with_reducible apply receiveOpen_wf
    | refine keeps_live hw ?_
    | refine keeps_unit hw ?_
    | refine keeps_rec hw fun r => ?_
    | refine keeps_weld hw fun r => ?_
    | refine keeps_tongs hw fun r => ?_
    | exact keeps_fault
    | refine keeps_next ?_
    | with_reducible refine foldl_wf _ (fun s x hs => ?_) _ _ ?_
    | split
    | simp
    | intro _
    | (dsimp only; split))

theorem execOpenAck_wf (plane : Nat) (p : Packet) (s : State) (hw : s.mem.wf = true) : Keeps (fun t => t.mem.wf = true) (execOpenAck plane p s) := by
  intro t h
  rw [execOpenAck_mem plane p s t h]
  exact hw

theorem execClose_wf (plane : Nat) (p : Packet) (s : State) (hw : s.mem.wf = true) : Keeps (fun t => t.mem.wf = true) (execClose plane p s) := by
  intro t h
  rw [execClose_mem plane p s t h]
  exact hw

theorem execPacketInject_wf (flow : Nat) (s : State) (hw : s.mem.wf = true) : Keeps (fun t => t.mem.wf = true) (execPacketInject flow s) := by
  intro t h
  rw [execPacketInject_mem flow s t h]
  exact hw

theorem execResendTimeout_wf (flow seq : Nat) (ecc : Ecc) (s : State) (hw : s.mem.wf = true) : Keeps (fun t => t.mem.wf = true) (execResendTimeout flow seq ecc s) := by
  unfold execResendTimeout
  repeat' (first
    | with_reducible assumption
    | with_reducible apply tryTimeout_wf
    | refine keeps_live hw ?_
    | refine keeps_unit hw ?_
    | refine keeps_rec hw fun r => ?_
    | refine keeps_weld hw fun r => ?_
    | refine keeps_tongs hw fun r => ?_
    | exact keeps_fault
    | refine keeps_next ?_
    | with_reducible refine foldl_wf _ (fun s x hs => ?_) _ _ ?_
    | split
    | simp
    | intro _
    | (dsimp only; split))

theorem execReadmit_wf (d mask : Nat) (s : State) (hw : s.mem.wf = true) : Keeps (fun t => t.mem.wf = true) (execReadmit d mask s) := by
  intro t h
  rw [execReadmit_mem d mask s t h]
  exact hw

theorem execEpochSwitch_wf (s : State) (hw : s.mem.wf = true) : Keeps (fun t => t.mem.wf = true) (execEpochSwitch s) := by
  intro t h
  rw [execEpochSwitch_mem s t h]
  exact hw

theorem execEpochRetire_wf (s : State) (hw : s.mem.wf = true) : Keeps (fun t => t.mem.wf = true) (execEpochRetire s) := by
  intro t h
  rw [execEpochRetire_mem s t h]
  exact hw

theorem execDrainSet_wf (s : State) (hw : s.mem.wf = true) : Keeps (fun t => t.mem.wf = true) (execDrainSet s) := by
  intro t h
  rw [execDrainSet_mem s t h]
  exact hw

theorem execDrained_wf (s : State) (hw : s.mem.wf = true) : Keeps (fun t => t.mem.wf = true) (execDrained s) := by
  intro t h
  rw [execDrained_mem s t h]
  exact hw

theorem execDrainClear_wf (s : State) (hw : s.mem.wf = true) : Keeps (fun t => t.mem.wf = true) (execDrainClear s) := by
  intro t h
  rw [execDrainClear_mem s t h]
  exact hw

theorem execCopyCur_wf (d : Nat) (s : State) (hw : s.mem.wf = true) : Keeps (fun t => t.mem.wf = true) (execCopyCur d s) := by
  intro t h
  rw [execCopyCur_mem d s t h]
  exact hw

theorem execRteDataWrite_wf (d val : Nat) (s : State) (hw : s.mem.wf = true) : Keeps (fun t => t.mem.wf = true) (execRteDataWrite d val s) := by
  intro t h
  rw [execRteDataWrite_mem d val s t h]
  exact hw

theorem execRteDataRead_wf (d : Nat) (s : State) (hw : s.mem.wf = true) : Keeps (fun t => t.mem.wf = true) (execRteDataRead d s) := by
  intro t h
  rw [execRteDataRead_mem d s t h]
  exact hw

theorem execSendCut_wf (s : State) (hw : s.mem.wf = true) : Keeps (fun t => t.mem.wf = true) (execSendCut s) := by
  intro t h
  rw [execSendCut_mem s t h]
  exact hw

theorem execSendStop_wf (s : State) (hw : s.mem.wf = true) : Keeps (fun t => t.mem.wf = true) (execSendStop s) := by
  intro t h
  rw [execSendStop_mem s t h]
  exact hw

theorem execStop_wf (plane : Nat) (p : Packet) (s : State) (hw : s.mem.wf = true) : Keeps (fun t => t.mem.wf = true) (execStop plane p s) := by
  intro t h
  rw [execStop_mem plane p s t h]
  exact hw

theorem execStopRepeat_wf (s : State) (hw : s.mem.wf = true) : Keeps (fun t => t.mem.wf = true) (execStopRepeat s) := by
  intro t h
  rw [execStopRepeat_mem s t h]
  exact hw

theorem execCut_wf (plane : Nat) (p : Packet) (s : State) (hw : s.mem.wf = true) : Keeps (fun t => t.mem.wf = true) (execCut plane p s) := by
  intro t h
  rw [execCut_mem plane p s t h]
  exact hw

theorem execTimeSend_wf (s : State) (hw : s.mem.wf = true) : Keeps (fun t => t.mem.wf = true) (execTimeSend s) := by
  intro t h
  rw [execTimeSend_mem s t h]
  exact hw

theorem execTime_wf (plane : Nat) (p : Packet) (s : State) (hw : s.mem.wf = true) : Keeps (fun t => t.mem.wf = true) (execTime plane p s) := by
  intro t h
  rw [execTime_mem plane p s t h]
  exact hw

theorem execHoldover_wf (s : State) (hw : s.mem.wf = true) : Keeps (fun t => t.mem.wf = true) (execHoldover s) := by
  intro t h
  rw [execHoldover_mem s t h]
  exact hw

theorem execReduceScatter_wf (ctx : Nat) (s : State) (hw : s.mem.wf = true) : Keeps (fun t => t.mem.wf = true) (execReduceScatter ctx s) := keeps_weld hw fun r => weldRec_wf _ _ r hw

theorem execAllGather_wf (ctx : Nat) (s : State) (hw : s.mem.wf = true) : Keeps (fun t => t.mem.wf = true) (execAllGather ctx s) := keeps_weld hw fun r => weldRec_wf _ _ r hw

theorem execAllReduce_wf (ctx : Nat) (s : State) (hw : s.mem.wf = true) : Keeps (fun t => t.mem.wf = true) (execAllReduce ctx s) := keeps_weld hw fun r => weldRec_wf _ _ r hw

theorem execBroadcast_wf (ctx : Nat) (s : State) (hw : s.mem.wf = true) : Keeps (fun t => t.mem.wf = true) (execBroadcast ctx s) := keeps_weld hw fun r => weldRec_wf _ _ r hw

theorem execMirror_wf (ctx : Nat) (s : State) (hw : s.mem.wf = true) : Keeps (fun t => t.mem.wf = true) (execMirror ctx s) := keeps_weld hw fun r => weldRec_wf _ _ r hw

theorem execCollStart_wf (id : Nat) (s : State) (hw : s.mem.wf = true) : Keeps (fun t => t.mem.wf = true) (execCollStart id s) := by
  unfold execCollStart
  repeat' (first
    | with_reducible assumption
    | with_reducible apply startColl_wf
    | refine keeps_live hw ?_
    | refine keeps_unit hw ?_
    | refine keeps_rec hw fun r => ?_
    | refine keeps_weld hw fun r => ?_
    | refine keeps_tongs hw fun r => ?_
    | exact keeps_fault
    | refine keeps_next ?_
    | with_reducible refine foldl_wf _ (fun s x hs => ?_) _ _ ?_
    | split
    | simp
    | intro _
    | (dsimp only; split))

theorem execCollComplete_wf (id : Nat) (s : State) (hw : s.mem.wf = true) : Keeps (fun t => t.mem.wf = true) (execCollComplete id s) := keeps_live hw (endColl_wf _ _ hw)

theorem execStall_wf (id : Nat) (s : State) (hw : s.mem.wf = true) : Keeps (fun t => t.mem.wf = true) (execStall id s) := by
  intro t h
  rw [execStall_mem id s t h]
  exact hw

theorem execReady_wf (plane : Nat) (p : Packet) (s : State) (hw : s.mem.wf = true) : Keeps (fun t => t.mem.wf = true) (execReady plane p s) := by
  intro t h
  rw [execReady_mem plane p s t h]
  exact hw

theorem execPartialSum_wf (plane : Nat) (p : Packet) (par : Bool) (s : State) (hw : s.mem.wf = true) : Keeps (fun t => t.mem.wf = true) (execPartialSum plane p par s) := by
  unfold execPartialSum
  repeat' (first
    | with_reducible assumption
    | with_reducible apply receiveWeld_wf
    | with_reducible apply deliverPartial_wf
    | refine keeps_live hw ?_
    | refine keeps_unit hw ?_
    | refine keeps_rec hw fun r => ?_
    | refine keeps_weld hw fun r => ?_
    | refine keeps_tongs hw fun r => ?_
    | exact keeps_fault
    | refine keeps_next ?_
    | with_reducible refine foldl_wf _ (fun s x hs => ?_) _ _ ?_
    | split
    | simp
    | intro _
    | (dsimp only; split))

theorem execWeldGather_wf (plane : Nat) (p : Packet) (s : State) (hw : s.mem.wf = true) : Keeps (fun t => t.mem.wf = true) (execWeldGather plane p s) := by
  unfold execWeldGather
  repeat' (first
    | with_reducible assumption
    | with_reducible apply receiveWeld_wf
    | with_reducible apply deliverGather_wf
    | refine keeps_live hw ?_
    | refine keeps_unit hw ?_
    | refine keeps_rec hw fun r => ?_
    | refine keeps_weld hw fun r => ?_
    | refine keeps_tongs hw fun r => ?_
    | exact keeps_fault
    | refine keeps_next ?_
    | with_reducible refine foldl_wf _ (fun s x hs => ?_) _ _ ?_
    | split
    | simp
    | intro _
    | (dsimp only; split))

theorem execScatter_wf (plane : Nat) (p : Packet) (s : State) (hw : s.mem.wf = true) : Keeps (fun t => t.mem.wf = true) (execScatter plane p s) := by
  unfold execScatter
  repeat' (first
    | with_reducible assumption
    | with_reducible apply receiveWeld_wf
    | with_reducible apply deliverGather_wf
    | refine keeps_live hw ?_
    | refine keeps_unit hw ?_
    | refine keeps_rec hw fun r => ?_
    | refine keeps_weld hw fun r => ?_
    | refine keeps_tongs hw fun r => ?_
    | exact keeps_fault
    | refine keeps_next ?_
    | with_reducible refine foldl_wf _ (fun s x hs => ?_) _ _ ?_
    | split
    | simp
    | intro _
    | (dsimp only; split))

theorem execWeldMirror_wf (plane : Nat) (p : Packet) (s : State) (hw : s.mem.wf = true) : Keeps (fun t => t.mem.wf = true) (execWeldMirror plane p s) := by
  unfold execWeldMirror
  repeat' (first
    | with_reducible assumption
    | with_reducible apply receiveWeld_wf
    | with_reducible apply deliverMirror_wf
    | refine keeps_live hw ?_
    | refine keeps_unit hw ?_
    | refine keeps_rec hw fun r => ?_
    | refine keeps_weld hw fun r => ?_
    | refine keeps_tongs hw fun r => ?_
    | exact keeps_fault
    | refine keeps_next ?_
    | with_reducible refine foldl_wf _ (fun s x hs => ?_) _ _ ?_
    | split
    | simp
    | intro _
    | (dsimp only; split))

theorem execWeldHold_wf (plane : Nat) (p : Packet) (s : State) (hw : s.mem.wf = true) : Keeps (fun t => t.mem.wf = true) (execWeldHold plane p s) := by
  unfold execWeldHold
  repeat' (first
    | with_reducible assumption
    | with_reducible apply receiveWeld_wf
    | with_reducible apply deliverHold_wf
    | refine keeps_live hw ?_
    | refine keeps_unit hw ?_
    | refine keeps_rec hw fun r => ?_
    | refine keeps_weld hw fun r => ?_
    | refine keeps_tongs hw fun r => ?_
    | exact keeps_fault
    | refine keeps_next ?_
    | with_reducible refine foldl_wf _ (fun s x hs => ?_) _ _ ?_
    | split
    | simp
    | intro _
    | (dsimp only; split))

theorem execTongsOpen_wf (ctx : Nat) (s : State) (hw : s.mem.wf = true) : Keeps (fun t => t.mem.wf = true) (execTongsOpen ctx s) := keeps_tongs hw fun r => tongsRec_wf _ _ r hw

theorem execPut_wf (ctx : Nat) (s : State) (hw : s.mem.wf = true) : Keeps (fun t => t.mem.wf = true) (execPut ctx s) := keeps_tongs hw fun r => tongsRec_wf _ _ r hw

theorem execRelease_wf (ctx : Nat) (s : State) (hw : s.mem.wf = true) : Keeps (fun t => t.mem.wf = true) (execRelease ctx s) := keeps_tongs hw fun r => tongsRec_wf _ _ r hw

theorem execFetch_wf (ctx : Nat) (s : State) (hw : s.mem.wf = true) : Keeps (fun t => t.mem.wf = true) (execFetch ctx s) := keeps_tongs hw fun r => tongsRec_wf _ _ r hw

theorem execTongsClose_wf (ctx : Nat) (s : State) (hw : s.mem.wf = true) : Keeps (fun t => t.mem.wf = true) (execTongsClose ctx s) := keeps_tongs hw fun r => tongsRec_wf _ _ r hw

theorem execOffloadStart_wf (slot : Nat) (s : State) (hw : s.mem.wf = true) : Keeps (fun t => t.mem.wf = true) (execOffloadStart slot s) := keeps_unit hw (offloadStart_wf _ _ hw)

theorem execOffloadDone_wf (slot : Nat) (s : State) (hw : s.mem.wf = true) : Keeps (fun t => t.mem.wf = true) (execOffloadDone slot s) := keeps_unit hw (offloadDone_wf _ _ hw)

theorem execFetchStart_wf (slot : Nat) (s : State) (hw : s.mem.wf = true) : Keeps (fun t => t.mem.wf = true) (execFetchStart slot s) := keeps_unit hw (fetchStart_wf _ _ hw)

theorem execFetchDone_wf (slot : Nat) (s : State) (hw : s.mem.wf = true) : Keeps (fun t => t.mem.wf = true) (execFetchDone slot s) := keeps_unit hw (fetchDone_wf _ _ hw)

theorem execForceDown_wf (mask : Nat) (s : State) (hw : s.mem.wf = true) : Keeps (fun t => t.mem.wf = true) (execForceDown mask s) := by
  unfold execForceDown
  repeat' (first
    | with_reducible assumption
    | with_reducible apply destDown_wf
    | refine keeps_live hw ?_
    | refine keeps_unit hw ?_
    | refine keeps_rec hw fun r => ?_
    | refine keeps_weld hw fun r => ?_
    | refine keeps_tongs hw fun r => ?_
    | exact keeps_fault
    | refine keeps_next ?_
    | with_reducible refine foldl_wf _ (fun s x hs => ?_) _ _ ?_
    | split
    | simp
    | intro _
    | (dsimp only; split))

theorem execClearDown_wf (mask : Nat) (s : State) (hw : s.mem.wf = true) : Keeps (fun t => t.mem.wf = true) (execClearDown mask s) := by
  intro t h
  rw [execClearDown_mem mask s t h]
  exact hw

theorem execCtxReset_wf (ctx : Nat) (s : State) (hw : s.mem.wf = true) : Keeps (fun t => t.mem.wf = true) (execCtxReset ctx s) := keeps_unit hw (resetCtx_wf _ _ _ hw)

theorem execDestroy_wf (ctx : Nat) (s : State) (hw : s.mem.wf = true) : Keeps (fun t => t.mem.wf = true) (execDestroy ctx s) := keeps_unit hw (resetCtx_wf _ _ _ hw)

theorem execQuarantineEnd_wf (ctx : Nat) (s : State) (hw : s.mem.wf = true) : Keeps (fun t => t.mem.wf = true) (execQuarantineEnd ctx s) := keeps_unit hw (endQuarantine_wf _ _ hw)

theorem execLoupeCheckDone_wf (die : Nat) (slip : Bool) (s : State) (hw : s.mem.wf = true) : Keeps (fun t => t.mem.wf = true) (execLoupeCheckDone die slip s) := by
  intro t h
  rw [execLoupeCheckDone_mem die slip s t h]
  exact hw

theorem execLoupeRerunDone_wf (die : Nat) (faults : List (Nat × Nat)) (s : State) (hw : s.mem.wf = true) : Keeps (fun t => t.mem.wf = true) (execLoupeRerunDone die faults s) := by
  intro t h
  rw [execLoupeRerunDone_mem die faults s t h]
  exact hw

theorem execLoupeSettle_wf (die : Nat) (agrees : Bool) (s : State) (hw : s.mem.wf = true) : Keeps (fun t => t.mem.wf = true) (execLoupeSettle die agrees s) := by
  intro t h
  rw [execLoupeSettle_mem die agrees s t h]
  exact hw

theorem execTchZeroDone_wf (s : State) (hw : s.mem.wf = true) : Keeps (fun t => t.mem.wf = true) (execTchZeroDone s) := keeps_live hw (tchZero_wf _ hw)

theorem execTallyTimeout_wf (s : State) (hw : s.mem.wf = true) : Keeps (fun t => t.mem.wf = true) (execTallyTimeout s) := by
  intro t h
  rw [execTallyTimeout_mem s t h]
  exact hw

theorem execBistTestEnd_wf (die : Nat) (swage : Bool) (sig sig2 : Nat) (s : State) (hw : s.mem.wf = true) : Keeps (fun t => t.mem.wf = true) (execBistTestEnd die swage sig sig2 s) := by
  unfold execBistTestEnd
  repeat' (first
    | with_reducible assumption
    | with_reducible apply bistTestEnd_wf
    | refine keeps_live hw ?_
    | refine keeps_unit hw ?_
    | refine keeps_rec hw fun r => ?_
    | refine keeps_weld hw fun r => ?_
    | refine keeps_tongs hw fun r => ?_
    | exact keeps_fault
    | refine keeps_next ?_
    | with_reducible refine foldl_wf _ (fun s x hs => ?_) _ _ ?_
    | split
    | simp
    | intro _
    | (dsimp only; split))

theorem execLdgClear_wf (unit : Nat) (s : State) (hw : s.mem.wf = true) : Keeps (fun t => t.mem.wf = true) (execLdgClear unit s) := by
  intro t h
  rw [execLdgClear_mem unit s t h]
  exact hw

theorem execLedgerWrite_wf (ok : Bool) (s : State) (hw : s.mem.wf = true) : Keeps (fun t => t.mem.wf = true) (execLedgerWrite ok s) := by
  intro t h
  rw [execLedgerWrite_mem ok s t h]
  exact hw

theorem execPohSave_wf (s : State) (hw : s.mem.wf = true) : Keeps (fun t => t.mem.wf = true) (execPohSave s) := by
  intro t h
  rw [execPohSave_mem s t h]
  exact hw

theorem execHealthDecay_wf (s : State) (hw : s.mem.wf = true) : Keeps (fun t => t.mem.wf = true) (execHealthDecay s) := by
  intro t h
  rw [execHealthDecay_mem s t h]
  exact hw

theorem execScore_wf (s : State) (hw : s.mem.wf = true) : Keeps (fun t => t.mem.wf = true) (execScore s) := by
  intro t h
  rw [execScore_mem s t h]
  exact hw

theorem execNvmeCompletion_wf (status : Nat) (data : List Byte) (s : State) (hw : s.mem.wf = true) : Keeps (fun t => t.mem.wf = true) (execNvmeCompletion status data s) := by
  intro t h
  rw [execNvmeCompletion_mem status data s t h]
  exact hw

theorem execNvmeTimeout_wf (s : State) (hw : s.mem.wf = true) : Keeps (fun t => t.mem.wf = true) (execNvmeTimeout s) := by
  intro t h
  rw [execNvmeTimeout_mem s t h]
  exact hw

theorem execDriveInit_wf (s : State) (hw : s.mem.wf = true) : Keeps (fun t => t.mem.wf = true) (execDriveInit s) := by
  intro t h
  rw [execDriveInit_mem s t h]
  exact hw

theorem execDriveMemoryRequest_wf (addr len : Nat) (write : Bool) (s : State) (hw : s.mem.wf = true) : Keeps (fun t => t.mem.wf = true) (execDriveMemoryRequest addr len write s) := by
  intro t h
  rw [execDriveMemoryRequest_mem addr len write s t h]
  exact hw

theorem execCutTimeout_wf (s : State) (hw : s.mem.wf = true) : Keeps (fun t => t.mem.wf = true) (execCutTimeout s) := by
  intro t h
  rw [execCutTimeout_mem s t h]
  exact hw

theorem execRestore_wf (imgA imgB imgHost : List Byte) (s : State) (hw : s.mem.wf = true) : Keeps (fun t => t.mem.wf = true) (execRestore imgA imgB imgHost s) := by
  intro t h
  rw [execRestore_mem imgA imgB imgHost s t h]
  exact hw

theorem execRestoreDone_wf (ms wc : Option (List Byte)) (s : State) (hw : s.mem.wf = true) : Keeps (fun t => t.mem.wf = true) (execRestoreDone ms wc s) := by
  unfold execRestoreDone
  repeat' (first
    | with_reducible assumption
    | with_reducible apply restoreDone_wf
    | refine keeps_live hw ?_
    | refine keeps_unit hw ?_
    | refine keeps_rec hw fun r => ?_
    | refine keeps_weld hw fun r => ?_
    | refine keeps_tongs hw fun r => ?_
    | exact keeps_fault
    | refine keeps_next ?_
    | with_reducible refine foldl_wf _ (fun s x hs => ?_) _ _ ?_
    | split
    | simp
    | intro _
    | (dsimp only; split))

theorem execFill_wf (s : State) (hw : s.mem.wf = true) : Keeps (fun t => t.mem.wf = true) (execFill s) := by
  intro t h
  rw [execFill_mem s t h]
  exact hw

theorem execFillDone_wf (mr : Option (List Byte)) (stripes : List (Nat × List Byte)) (s : State) (hw : s.mem.wf = true) : Keeps (fun t => t.mem.wf = true) (execFillDone mr stripes s) := by
  unfold execFillDone
  repeat' (first
    | with_reducible assumption
    | with_reducible apply fillDone_wf
    | refine keeps_live hw ?_
    | refine keeps_unit hw ?_
    | refine keeps_rec hw fun r => ?_
    | refine keeps_weld hw fun r => ?_
    | refine keeps_tongs hw fun r => ?_
    | exact keeps_fault
    | refine keeps_next ?_
    | with_reducible refine foldl_wf _ (fun s x hs => ?_) _ _ ?_
    | split
    | simp
    | intro _
    | (dsimp only; split))

theorem execPowerEval_wf (slow : Bool) (pkg input : Nat) (s : State) (hw : s.mem.wf = true) : Keeps (fun t => t.mem.wf = true) (execPowerEval slow pkg input s) := by
  intro t h
  rw [execPowerEval_mem slow pkg input s t h]
  exact hw

theorem execRampEval_wf (die : Nat) (heldBack : Bool) (level : Nat) (s : State) (hw : s.mem.wf = true) : Keeps (fun t => t.mem.wf = true) (execRampEval die heldBack level s) := by
  intro t h
  rw [execRampEval_mem die heldBack level s t h]
  exact hw

theorem execHeat_wf (ctx : Nat) (s : State) (hw : s.mem.wf = true) : Keeps (fun t => t.mem.wf = true) (execHeat ctx s) := keeps_rec hw fun r => heatRec_wf _ _ r hw

theorem execHintPrepare_wf (die : Nat) (s : State) (hw : s.mem.wf = true) : Keeps (fun t => t.mem.wf = true) (execHintPrepare die s) := by
  intro t h
  rw [execHintPrepare_mem die s t h]
  exact hw

theorem execHintWindow_wf (die : Nat) (s : State) (hw : s.mem.wf = true) : Keeps (fun t => t.mem.wf = true) (execHintWindow die s) := by
  intro t h
  rw [execHintWindow_mem die s t h]
  exact hw

theorem execSensorRead_wf (id temp : Nat) (good : Bool) (s : State) (hw : s.mem.wf = true) : Keeps (fun t => t.mem.wf = true) (execSensorRead id temp good s) := by
  intro t h
  rw [execSensorRead_mem id temp good s t h]
  exact hw

theorem execThermalEval_wf (slow : Bool) (s : State) (hw : s.mem.wf = true) : Keeps (fun t => t.mem.wf = true) (execThermalEval slow s) := by
  intro t h
  rw [execThermalEval_mem slow s t h]
  exact hw

theorem execThermalTrip_wf (sensor temp : Nat) (s : State) (hw : s.mem.wf = true) : Keeps (fun t => t.mem.wf = true) (execThermalTrip sensor temp s) := keeps_unit hw (thermalTrip_wf _ _ _ hw)

theorem execPllUnlock_wf (d : Nat) (s : State) (hw : s.mem.wf = true) : Keeps (fun t => t.mem.wf = true) (execPllUnlock d s) := by
  intro t h
  rw [execPllUnlock_mem d s t h]
  exact hw

theorem execDieSleep_wf (die : Nat) (s : State) (hw : s.mem.wf = true) : Keeps (fun t => t.mem.wf = true) (execDieSleep die s) := by
  intro t h
  rw [execDieSleep_mem die s t h]
  exact hw

theorem execDieWake_wf (die ns : Nat) (s : State) (hw : s.mem.wf = true) : Keeps (fun t => t.mem.wf = true) (execDieWake die ns s) := by
  intro t h
  rw [execDieWake_mem die ns s t h]
  exact hw

theorem execHold_wf (ctx : Nat) (s : State) (hw : s.mem.wf = true) : Keeps (fun t => t.mem.wf = true) (execHold ctx s) := by
  unfold execHold
  repeat' (first
    | with_reducible assumption
    | with_reducible apply holdRec_wf
    | refine keeps_live hw ?_
    | refine keeps_unit hw ?_
    | refine keeps_rec hw fun r => ?_
    | refine keeps_weld hw fun r => ?_
    | refine keeps_tongs hw fun r => ?_
    | exact keeps_fault
    | refine keeps_next ?_
    | with_reducible refine foldl_wf _ (fun s x hs => ?_) _ _ ?_
    | split
    | simp
    | intro _
    | (dsimp only; split))

theorem execWardHoldAck_wf (s : State) (hw : s.mem.wf = true) : Keeps (fun t => t.mem.wf = true) (execWardHoldAck s) := keeps_live hw (wardHoldAcked_wf _ hw)

theorem execStep_wf (ctx : Nat) (s : State) (hw : s.mem.wf = true) : Keeps (fun t => t.mem.wf = true) (execStep ctx s) := by
  unfold execStep
  repeat' (first
    | with_reducible assumption
    | with_reducible apply stepRec_wf
    | refine keeps_live hw ?_
    | refine keeps_unit hw ?_
    | refine keeps_rec hw fun r => ?_
    | refine keeps_weld hw fun r => ?_
    | refine keeps_tongs hw fun r => ?_
    | exact keeps_fault
    | refine keeps_next ?_
    | with_reducible refine foldl_wf _ (fun s x hs => ?_) _ _ ?_
    | split
    | simp
    | intro _
    | (dsimp only; split))

theorem execTemper_wf (ctx : Nat) (s : State) (hw : s.mem.wf = true) : Keeps (fun t => t.mem.wf = true) (execTemper ctx s) := by
  intro t h
  rw [execTemper_mem ctx s t h]
  exact hw

theorem execCheckStart_wf (s : State) (hw : s.mem.wf = true) : Keeps (fun t => t.mem.wf = true) (execCheckStart s) := by
  intro t h
  rw [execCheckStart_mem s t h]
  exact hw

theorem execFlip_wf (s : State) (hw : s.mem.wf = true) : Keeps (fun t => t.mem.wf = true) (execFlip s) := keeps_live hw (flipDue_wf _ hw)

theorem execReplayStart_wf (s : State) (hw : s.mem.wf = true) : Keeps (fun t => t.mem.wf = true) (execReplayStart s) := by
  intro t h
  rw [execReplayStart_mem s t h]
  exact hw

theorem execVoteSend_wf (s : State) (hw : s.mem.wf = true) : Keeps (fun t => t.mem.wf = true) (execVoteSend s) := keeps_live hw (sendVote_wf _ hw)

theorem execVote_wf (plane : Nat) (p : Packet) (s : State) (hw : s.mem.wf = true) : Keeps (fun t => t.mem.wf = true) (execVote plane p s) := by
  unfold execVote
  repeat' (first
    | with_reducible assumption
    | with_reducible apply receiveWeld_wf
    | with_reducible apply deliverVote_wf
    | refine keeps_live hw ?_
    | refine keeps_unit hw ?_
    | refine keeps_rec hw fun r => ?_
    | refine keeps_weld hw fun r => ?_
    | refine keeps_tongs hw fun r => ?_
    | exact keeps_fault
    | refine keeps_next ?_
    | with_reducible refine foldl_wf _ (fun s x hs => ?_) _ _ ?_
    | split
    | simp
    | intro _
    | (dsimp only; split))

theorem execResult_wf (plane : Nat) (p : Packet) (s : State) (hw : s.mem.wf = true) : Keeps (fun t => t.mem.wf = true) (execResult plane p s) := by
  unfold execResult
  repeat' (first
    | with_reducible assumption
    | with_reducible apply receiveWeld_wf
    | with_reducible apply deliverResult_wf
    | refine keeps_live hw ?_
    | refine keeps_unit hw ?_
    | refine keeps_rec hw fun r => ?_
    | refine keeps_weld hw fun r => ?_
    | refine keeps_tongs hw fun r => ?_
    | exact keeps_fault
    | refine keeps_next ?_
    | with_reducible refine foldl_wf _ (fun s x hs => ?_) _ _ ?_
    | split
    | simp
    | intro _
    | (dsimp only; split))

theorem execPreCutResult_wf (plane : Nat) (p : Packet) (s : State) (hw : s.mem.wf = true) : Keeps (fun t => t.mem.wf = true) (execPreCutResult plane p s) := by
  unfold execPreCutResult
  repeat' (first
    | with_reducible assumption
    | with_reducible apply receiveWeld_wf
    | with_reducible apply deliverResult_wf
    | refine keeps_live hw ?_
    | refine keeps_unit hw ?_
    | refine keeps_rec hw fun r => ?_
    | refine keeps_weld hw fun r => ?_
    | refine keeps_tongs hw fun r => ?_
    | exact keeps_fault
    | refine keeps_next ?_
    | with_reducible refine foldl_wf _ (fun s x hs => ?_) _ _ ?_
    | split
    | simp
    | intro _
    | (dsimp only; split))

theorem execPostCutResult_wf (plane : Nat) (p : Packet) (s : State) (hw : s.mem.wf = true) : Keeps (fun t => t.mem.wf = true) (execPostCutResult plane p s) := by
  unfold execPostCutResult
  repeat' (first
    | with_reducible assumption
    | with_reducible apply receiveWeld_wf
    | with_reducible apply deliverResult_wf
    | refine keeps_live hw ?_
    | refine keeps_unit hw ?_
    | refine keeps_rec hw fun r => ?_
    | refine keeps_weld hw fun r => ?_
    | refine keeps_tongs hw fun r => ?_
    | exact keeps_fault
    | refine keeps_next ?_
    | with_reducible refine foldl_wf _ (fun s x hs => ?_) _ _ ?_
    | split
    | simp
    | intro _
    | (dsimp only; split))

theorem execVoteTimeout_wf (s : State) (hw : s.mem.wf = true) : Keeps (fun t => t.mem.wf = true) (execVoteTimeout s) := by
  intro t h
  rw [execVoteTimeout_mem s t h]
  exact hw

theorem execResolveForward_wf (s : State) (hw : s.mem.wf = true) : Keeps (fun t => t.mem.wf = true) (execResolveForward s) := by
  unfold execResolveForward
  repeat' (first
    | with_reducible assumption
    | with_reducible apply flipAct_wf
    | refine keeps_live hw ?_
    | refine keeps_unit hw ?_
    | refine keeps_rec hw fun r => ?_
    | refine keeps_weld hw fun r => ?_
    | refine keeps_tongs hw fun r => ?_
    | exact keeps_fault
    | refine keeps_next ?_
    | with_reducible refine foldl_wf _ (fun s x hs => ?_) _ _ ?_
    | split
    | simp
    | intro _
    | (dsimp only; split))

theorem execResolveDiscard_wf (s : State) (hw : s.mem.wf = true) : Keeps (fun t => t.mem.wf = true) (execResolveDiscard s) := by
  unfold execResolveDiscard
  repeat' (first
    | with_reducible assumption
    | with_reducible apply discardAct_wf
    | refine keeps_live hw ?_
    | refine keeps_unit hw ?_
    | refine keeps_rec hw fun r => ?_
    | refine keeps_weld hw fun r => ?_
    | refine keeps_tongs hw fun r => ?_
    | exact keeps_fault
    | refine keeps_next ?_
    | with_reducible refine foldl_wf _ (fun s x hs => ?_) _ _ ?_
    | split
    | simp
    | intro _
    | (dsimp only; split))

theorem execReplayResume_wf (s : State) (hw : s.mem.wf = true) : Keeps (fun t => t.mem.wf = true) (execReplayResume s) := keeps_live hw (resumeReplay_wf _ hw)

theorem execFrecAck_wf (s : State) (hw : s.mem.wf = true) : Keeps (fun t => t.mem.wf = true) (execFrecAck s) := by
  intro t h
  rw [execFrecAck_mem s t h]
  exact hw

theorem execChipResetRequest_wf (s : State) (hw : s.mem.wf = true) : Keeps (fun t => t.mem.wf = true) (execChipResetRequest s) := by
  unfold execChipResetRequest
  repeat' (first
    | with_reducible assumption
    | with_reducible apply chipReset_wf
    | with_reducible apply request_wf
    | refine keeps_live hw ?_
    | refine keeps_unit hw ?_
    | refine keeps_rec hw fun r => ?_
    | refine keeps_weld hw fun r => ?_
    | refine keeps_tongs hw fun r => ?_
    | exact keeps_fault
    | refine keeps_next ?_
    | with_reducible refine foldl_wf _ (fun s x hs => ?_) _ _ ?_
    | split
    | simp
    | intro _
    | (dsimp only; split))

theorem execDieResetRequest_wf (s : State) (hw : s.mem.wf = true) : Keeps (fun t => t.mem.wf = true) (execDieResetRequest s) := by
  unfold execDieResetRequest
  repeat' (first
    | with_reducible assumption
    | with_reducible apply dieReset_wf
    | with_reducible apply request_wf
    | refine keeps_live hw ?_
    | refine keeps_unit hw ?_
    | refine keeps_rec hw fun r => ?_
    | refine keeps_weld hw fun r => ?_
    | refine keeps_tongs hw fun r => ?_
    | exact keeps_fault
    | refine keeps_next ?_
    | with_reducible refine foldl_wf _ (fun s x hs => ?_) _ _ ?_
    | split
    | simp
    | intro _
    | (dsimp only; split))

theorem execPortResetRequest_wf (s : State) (hw : s.mem.wf = true) : Keeps (fun t => t.mem.wf = true) (execPortResetRequest s) := by
  unfold execPortResetRequest
  repeat' (first
    | with_reducible assumption
    | with_reducible apply request_wf
    | refine keeps_live hw ?_
    | refine keeps_unit hw ?_
    | refine keeps_rec hw fun r => ?_
    | refine keeps_weld hw fun r => ?_
    | refine keeps_tongs hw fun r => ?_
    | exact keeps_fault
    | refine keeps_next ?_
    | with_reducible refine foldl_wf _ (fun s x hs => ?_) _ _ ?_
    | split
    | simp
    | intro _
    | (dsimp only; split))

theorem execResetDone_wf (s : State) (hw : s.mem.wf = true) : Keeps (fun t => t.mem.wf = true) (execResetDone s) := by
  intro t h
  rw [execResetDone_mem s t h]
  exact hw

theorem execPerst_wf (s : State) (hw : s.mem.wf = true) : Keeps (fun t => t.mem.wf = true) (execPerst s) := keeps_live hw (perst_wf _ hw)

theorem execWdog_wf (s : State) (hw : s.mem.wf = true) : Keeps (fun t => t.mem.wf = true) (execWdog s) := by
  intro t h
  rw [execWdog_mem s t h]
  exact hw

theorem execHostwRequestError_wf (who : HostAsk) (err : HostErr) (s : State) (hw : s.mem.wf = true) : Keeps (fun t => t.mem.wf = true) (execHostwRequestError who err s) := by
  unfold execHostwRequestError
  repeat' (first
    | with_reducible assumption
    | with_reducible apply hostRequestFails_wf
    | refine keeps_live hw ?_
    | refine keeps_unit hw ?_
    | refine keeps_rec hw fun r => ?_
    | refine keeps_weld hw fun r => ?_
    | refine keeps_tongs hw fun r => ?_
    | exact keeps_fault
    | refine keeps_next ?_
    | with_reducible refine foldl_wf _ (fun s x hs => ?_) _ _ ?_
    | split
    | simp
    | intro _
    | (dsimp only; split))

theorem execMsixGapEnd_wf (vector : Nat) (s : State) (hw : s.mem.wf = true) : Keeps (fun t => t.mem.wf = true) (execMsixGapEnd vector s) := by
  intro t h
  rw [execMsixGapEnd_mem vector s t h]
  exact hw

theorem execMsixUnmask_wf (vector : Nat) (s : State) (hw : s.mem.wf = true) : Keeps (fun t => t.mem.wf = true) (execMsixUnmask vector s) := by
  intro t h
  rw [execMsixUnmask_mem vector s t h]
  exact hw

theorem execLinkDown_wf (s : State) (hw : s.mem.wf = true) : Keeps (fun t => t.mem.wf = true) (execLinkDown s) := by
  unfold execLinkDown
  repeat' (first
    | with_reducible assumption
    | with_reducible apply hostDown_wf
    | refine keeps_live hw ?_
    | refine keeps_unit hw ?_
    | refine keeps_rec hw fun r => ?_
    | refine keeps_weld hw fun r => ?_
    | refine keeps_tongs hw fun r => ?_
    | exact keeps_fault
    | refine keeps_next ?_
    | with_reducible refine foldl_wf _ (fun s x hs => ?_) _ _ ?_
    | split
    | simp
    | intro _
    | (dsimp only; split))

theorem execHotReset_wf (s : State) (hw : s.mem.wf = true) : Keeps (fun t => t.mem.wf = true) (execHotReset s) := keeps_live hw (hostDown_wf _ hw)

theorem execLinkUp_wf (gen width : Nat) (s : State) (hw : s.mem.wf = true) : Keeps (fun t => t.mem.wf = true) (execLinkUp gen width s) := by
  intro t h
  rw [execLinkUp_mem gen width s t h]
  exact hw

theorem execConfigurationRequest_wf (req : CfgWrite) (s : State) (hw : s.mem.wf = true) : Keeps (fun t => t.mem.wf = true) (execConfigurationRequest req s) := by
  intro t h
  rw [execConfigurationRequest_mem req s t h]
  exact hw

theorem execApertureAccess_wf (off : Nat) (write : Bool) (len : Nat) (data : List Byte) (poisoned : Bool) (s : State) (hw : s.mem.wf = true) : Keeps (fun t => t.mem.wf = true) (execApertureAccess off write len data poisoned s) := by
  unfold execApertureAccess
  repeat' (first
    | with_reducible assumption
    | with_reducible apply aperture_wf
    | refine keeps_live hw ?_
    | refine keeps_unit hw ?_
    | refine keeps_rec hw fun r => ?_
    | refine keeps_weld hw fun r => ?_
    | refine keeps_tongs hw fun r => ?_
    | exact keeps_fault
    | refine keeps_next ?_
    | with_reducible refine foldl_wf _ (fun s x hs => ?_) _ _ ?_
    | split
    | simp
    | intro _
    | (dsimp only; split))

theorem execGetVersion_wf (s : State) (hw : s.mem.wf = true) : Keeps (fun t => t.mem.wf = true) (execGetVersion s) := by
  intro t h
  rw [execGetVersion_mem s t h]
  exact hw

theorem execGetCapabilities_wf (version : Nat) (s : State) (hw : s.mem.wf = true) : Keeps (fun t => t.mem.wf = true) (execGetCapabilities version s) := by
  intro t h
  rw [execGetCapabilities_mem version s t h]
  exact hw

theorem execNegotiateAlgorithms_wf (offersEcdsaP384 offersSha384 : Bool) (s : State) (hw : s.mem.wf = true) : Keeps (fun t => t.mem.wf = true) (execNegotiateAlgorithms offersEcdsaP384 offersSha384 s) := by
  intro t h
  rw [execNegotiateAlgorithms_mem offersEcdsaP384 offersSha384 s t h]
  exact hw

theorem execGetDigests_wf (s : State) (hw : s.mem.wf = true) : Keeps (fun t => t.mem.wf = true) (execGetDigests s) := by
  intro t h
  rw [execGetDigests_mem s t h]
  exact hw

theorem execGetCertificate_wf (slot off len : Nat) (s : State) (hw : s.mem.wf = true) : Keeps (fun t => t.mem.wf = true) (execGetCertificate slot off len s) := by
  intro t h
  rw [execGetCertificate_mem slot off len s t h]
  exact hw

theorem execChallenge_wf (slot : Nat) (nonce : List Byte) (s : State) (hw : s.mem.wf = true) : Keeps (fun t => t.mem.wf = true) (execChallenge slot nonce s) := by
  intro t h
  rw [execChallenge_mem slot nonce s t h]
  exact hw

theorem execGetMeasurements_wf (index : Nat) (signature : Bool) (nonce : List Byte) (s : State) (hw : s.mem.wf = true) : Keeps (fun t => t.mem.wf = true) (execGetMeasurements index signature nonce s) := by
  intro t h
  rw [execGetMeasurements_mem index signature nonce s t h]
  exact hw

theorem execDoeDiscovery_wf (index : Nat) (s : State) (hw : s.mem.wf = true) : Keeps (fun t => t.mem.wf = true) (execDoeDiscovery index s) := by
  intro t h
  rw [execDoeDiscovery_mem index s t h]
  exact hw

theorem execEntdaa_wf (addr : Nat) (s : State) (hw : s.mem.wf = true) : Keeps (fun t => t.mem.wf = true) (execEntdaa addr s) := by
  intro t h
  rw [execEntdaa_mem addr s t h]
  exact hw

theorem execGetEndpointId_wf (s : State) (hw : s.mem.wf = true) : Keeps (fun t => t.mem.wf = true) (execGetEndpointId s) := by
  intro t h
  rw [execGetEndpointId_mem s t h]
  exact hw

theorem execTripStatus_wf (s : State) (hw : s.mem.wf = true) : Keeps (fun t => t.mem.wf = true) (execTripStatus s) := by
  intro t h
  rw [execTripStatus_mem s t h]
  exact hw

theorem execPldmSensorRead_wf (sensor : Nat) (s : State) (hw : s.mem.wf = true) : Keeps (fun t => t.mem.wf = true) (execPldmSensorRead sensor s) := by
  intro t h
  rw [execPldmSensorRead_mem sensor s t h]
  exact hw

theorem execDoorbell_wf (s : State) (hw : s.mem.wf = true) : Keeps (fun t => t.mem.wf = true) (execDoorbell s) := by
  intro t h
  rw [execDoorbell_mem s t h]
  exact hw

theorem execGetInfo_wf (s : State) (hw : s.mem.wf = true) : Keeps (fun t => t.mem.wf = true) (execGetInfo s) := by
  intro t h
  rw [execGetInfo_mem s t h]
  exact hw

theorem execMapSet_wf (s : State) (hw : s.mem.wf = true) : Keeps (fun t => t.mem.wf = true) (execMapSet s) := by
  unfold execMapSet
  repeat' (first
    | with_reducible assumption
    | with_reducible apply onMailbox_wf
    | with_reducible apply mapSet_wf
    | refine keeps_live hw ?_
    | refine keeps_unit hw ?_
    | refine keeps_rec hw fun r => ?_
    | refine keeps_weld hw fun r => ?_
    | refine keeps_tongs hw fun r => ?_
    | exact keeps_fault
    | refine keeps_next ?_
    | with_reducible refine foldl_wf _ (fun s x hs => ?_) _ _ ?_
    | split
    | simp
    | intro _
    | (dsimp only; split))

theorem execHbmClearMapout_wf (s : State) (hw : s.mem.wf = true) : Keeps (fun t => t.mem.wf = true) (execHbmClearMapout s) := by
  intro t h
  rw [execHbmClearMapout_mem s t h]
  exact hw

theorem execHbmRetrain_wf (reports : List StackReport) (s : State) (hw : s.mem.wf = true) : Keeps (fun t => t.mem.wf = true) (execHbmRetrain reports s) := by
  unfold execHbmRetrain
  repeat' (first
    | with_reducible assumption
    | with_reducible apply onMailbox_wf
    | with_reducible apply hbmRetrain_wf
    | refine keeps_live hw ?_
    | refine keeps_unit hw ?_
    | refine keeps_rec hw fun r => ?_
    | refine keeps_weld hw fun r => ?_
    | refine keeps_tongs hw fun r => ?_
    | exact keeps_fault
    | refine keeps_next ?_
    | with_reducible refine foldl_wf _ (fun s x hs => ?_) _ _ ?_
    | split
    | simp
    | intro _
    | (dsimp only; split))

theorem execFwStage_wf (image : HostErr ⊕ List Byte) (flashOk : Bool) (s : State) (hw : s.mem.wf = true) : Keeps (fun t => t.mem.wf = true) (execFwStage image flashOk s) := by
  intro t h
  rw [execFwStage_mem image flashOk s t h]
  exact hw

theorem execFwActivate_wf (s : State) (hw : s.mem.wf = true) : Keeps (fun t => t.mem.wf = true) (execFwActivate s) := by
  intro t h
  rw [execFwActivate_mem s t h]
  exact hw

theorem execSvnCommit_wf (s : State) (hw : s.mem.wf = true) : Keeps (fun t => t.mem.wf = true) (execSvnCommit s) := by
  intro t h
  rw [execSvnCommit_mem s t h]
  exact hw

theorem execKeyRevoke_wf (s : State) (hw : s.mem.wf = true) : Keeps (fun t => t.mem.wf = true) (execKeyRevoke s) := by
  intro t h
  rw [execKeyRevoke_mem s t h]
  exact hw

theorem execFlitCrcError_wf (d edge module retries : Nat) (ids : List Nat) (s : State) (hw : s.mem.wf = true) : Keeps (fun t => t.mem.wf = true) (execFlitCrcError d edge module retries ids s) := by
  intro t h
  rw [execFlitCrcError_mem d edge module retries ids s t h]
  exact hw

theorem execGuestAdmission_wf (partner : Bool) (modules : Nat) (desc : Option (List Byte)) (s : State) (hw : s.mem.wf = true) : Keeps (fun t => t.mem.wf = true) (execGuestAdmission partner modules desc s) := by
  unfold execGuestAdmission
  repeat' (first
    | with_reducible assumption
    | with_reducible apply guestAdmission_wf
    | refine keeps_live hw ?_
    | refine keeps_unit hw ?_
    | refine keeps_rec hw fun r => ?_
    | refine keeps_weld hw fun r => ?_
    | refine keeps_tongs hw fun r => ?_
    | exact keeps_fault
    | refine keeps_next ?_
    | with_reducible refine foldl_wf _ (fun s x hs => ?_) _ _ ?_
    | split
    | simp
    | intro _
    | (dsimp only; split))

theorem execGstReadmit_wf (s : State) (hw : s.mem.wf = true) : Keeps (fun t => t.mem.wf = true) (execGstReadmit s) := by
  intro t h
  rw [execGstReadmit_mem s t h]
  exact hw

theorem execWithdraw_wf (cause : WithdrawCause) (s : State) (hw : s.mem.wf = true) : Keeps (fun t => t.mem.wf = true) (execWithdraw cause s) := keeps_live hw (withdrawGuest_wf _ _ hw)

theorem execGuestBlockResend_wf (seq : Nat) (s : State) (hw : s.mem.wf = true) : Keeps (fun t => t.mem.wf = true) (execGuestBlockResend seq s) := keeps_unit hw (resendBlock_wf _ _ hw)

theorem execRd_wf (dir : GuestDir) (tag addr len : Nat) (s : State) (hw : s.mem.wf = true) : Keeps (fun t => t.mem.wf = true) (execRd dir tag addr len s) := by
  intro t h
  rw [execRd_mem dir tag addr len s t h]
  exact hw

theorem execWr_wf (dir : GuestDir) (tag addr : Nat) (data : List Byte) (s : State) (hw : s.mem.wf = true) : Keeps (fun t => t.mem.wf = true) (execWr dir tag addr data s) := by
  unfold execWr
  repeat' (first
    | with_reducible assumption
    | with_reducible apply writeMessage_wf
    | refine keeps_live hw ?_
    | refine keeps_unit hw ?_
    | refine keeps_rec hw fun r => ?_
    | refine keeps_weld hw fun r => ?_
    | refine keeps_tongs hw fun r => ?_
    | exact keeps_fault
    | refine keeps_next ?_
    | with_reducible refine foldl_wf _ (fun s x hs => ?_) _ _ ?_
    | split
    | simp
    | intro _
    | (dsimp only; split))

theorem execCpl_wf (tag status : Nat) (data : List Byte) (s : State) (hw : s.mem.wf = true) : Keeps (fun t => t.mem.wf = true) (execCpl tag status data s) := by
  intro t h
  rw [execCpl_mem tag status data s t h]
  exact hw

theorem execRecMsg_wf (ctx : Nat) (data : List Byte) (s : State) (hw : s.mem.wf = true) : Keeps (fun t => t.mem.wf = true) (execRecMsg ctx data s) := by
  unfold execRecMsg
  repeat' (first
    | with_reducible assumption
    | with_reducible apply recordMessage_wf
    | refine keeps_live hw ?_
    | refine keeps_unit hw ?_
    | refine keeps_rec hw fun r => ?_
    | refine keeps_weld hw fun r => ?_
    | refine keeps_tongs hw fun r => ?_
    | exact keeps_fault
    | refine keeps_next ?_
    | with_reducible refine foldl_wf _ (fun s x hs => ?_) _ _ ?_
    | split
    | simp
    | intro _
    | (dsimp only; split))

theorem execReg_wf (dir : GuestDir) (off width : Nat) (val : Option Nat) (s : State) (hw : s.mem.wf = true) : Keeps (fun t => t.mem.wf = true) (execReg dir off width val s) := by
  unfold execReg
  repeat' (first
    | with_reducible assumption
    | with_reducible apply regMessage_wf
    | refine keeps_live hw ?_
    | refine keeps_unit hw ?_
    | refine keeps_rec hw fun r => ?_
    | refine keeps_weld hw fun r => ?_
    | refine keeps_tongs hw fun r => ?_
    | exact keeps_fault
    | refine keeps_next ?_
    | with_reducible refine foldl_wf _ (fun s x hs => ?_) _ _ ?_
    | split
    | simp
    | intro _
    | (dsimp only; split))

theorem execPwrEnFall_wf (s : State) (hw : s.mem.wf = true) : Keeps (fun t => t.mem.wf = true) (execPwrEnFall s) := by
  unfold execPwrEnFall
  repeat' (first
    | with_reducible assumption
    | with_reducible apply mainOff_wf
    | refine keeps_live hw ?_
    | refine keeps_unit hw ?_
    | refine keeps_rec hw fun r => ?_
    | refine keeps_weld hw fun r => ?_
    | refine keeps_tongs hw fun r => ?_
    | exact keeps_fault
    | refine keeps_next ?_
    | with_reducible refine foldl_wf _ (fun s x hs => ?_) _ _ ?_
    | split
    | simp
    | intro _
    | (dsimp only; split))

theorem execInputRemoved_wf (long : Bool) (s : State) (hw : s.mem.wf = true) : Keeps (fun t => t.mem.wf = true) (execInputRemoved long s) := by
  unfold execInputRemoved
  repeat' (first
    | with_reducible assumption
    | with_reducible apply mainOff_wf
    | refine keeps_live hw ?_
    | refine keeps_unit hw ?_
    | refine keeps_rec hw fun r => ?_
    | refine keeps_weld hw fun r => ?_
    | refine keeps_tongs hw fun r => ?_
    | exact keeps_fault
    | refine keeps_next ?_
    | with_reducible refine foldl_wf _ (fun s x hs => ?_) _ _ ?_
    | split
    | simp
    | intro _
    | (dsimp only; split))

theorem execPowerOn_wf (s : State) (hw : s.mem.wf = true) : Keeps (fun t => t.mem.wf = true) (execPowerOn s) := by
  unfold execPowerOn
  repeat' (first
    | with_reducible assumption
    | with_reducible apply powerOn_wf
    | refine keeps_live hw ?_
    | refine keeps_unit hw ?_
    | refine keeps_rec hw fun r => ?_
    | refine keeps_weld hw fun r => ?_
    | refine keeps_tongs hw fun r => ?_
    | exact keeps_fault
    | refine keeps_next ?_
    | with_reducible refine foldl_wf _ (fun s x hs => ?_) _ _ ?_
    | split
    | simp
    | intro _
    | (dsimp only; split))

theorem execSmcBoot_wf (failed diff : List (Nat × Nat × Nat)) (s : State) (hw : s.mem.wf = true) : Keeps (fun t => t.mem.wf = true) (execSmcBoot failed diff s) := by
  intro t h
  rw [execSmcBoot_mem failed diff s t h]
  exact hw

theorem execHbmTrain_wf (reports : List StackReport) (s : State) (hw : s.mem.wf = true) : Keeps (fun t => t.mem.wf = true) (execHbmTrain reports s) := by
  unfold execHbmTrain
  repeat' (first
    | with_reducible assumption
    | with_reducible apply hbmTrain_wf
    | refine keeps_live hw ?_
    | refine keeps_unit hw ?_
    | refine keeps_rec hw fun r => ?_
    | refine keeps_weld hw fun r => ?_
    | refine keeps_tongs hw fun r => ?_
    | exact keeps_fault
    | refine keeps_next ?_
    | with_reducible refine foldl_wf _ (fun s x hs => ?_) _ _ ?_
    | split
    | simp
    | intro _
    | (dsimp only; split))

theorem execTakeoverLoad_wf (s : State) (hw : s.mem.wf = true) : Keeps (fun t => t.mem.wf = true) (execTakeoverLoad s) := by
  intro t h
  rw [execTakeoverLoad_mem s t h]
  exact hw

theorem execTakeoverRealign_wf (s : State) (hw : s.mem.wf = true) : Keeps (fun t => t.mem.wf = true) (execTakeoverRealign s) := by
  intro t h
  rw [execTakeoverRealign_mem s t h]
  exact hw

theorem execTkoDone_wf (ms mr wc : List Byte) (hold wardHold : Option (List Byte)) (s : State) (hw : s.mem.wf = true) : Keeps (fun t => t.mem.wf = true) (execTkoDone ms mr wc hold wardHold s) := by
  unfold execTkoDone
  repeat' (first
    | with_reducible assumption
    | with_reducible apply takeoverDone_wf
    | refine keeps_live hw ?_
    | refine keeps_unit hw ?_
    | refine keeps_rec hw fun r => ?_
    | refine keeps_weld hw fun r => ?_
    | refine keeps_tongs hw fun r => ?_
    | exact keeps_fault
    | refine keeps_next ?_
    | with_reducible refine foldl_wf _ (fun s x hs => ?_) _ _ ?_
    | split
    | simp
    | intro _
    | (dsimp only; split))

theorem execTkoFail_wf (cause : TkoCause) (s : State) (hw : s.mem.wf = true) : Keeps (fun t => t.mem.wf = true) (execTkoFail cause s) := keeps_live hw (takeoverFails_wf _ _ hw)

theorem execApplyTaken_wf (slot : Nat) (s : State) (hw : s.mem.wf = true) : Keeps (fun t => t.mem.wf = true) (execApplyTaken slot s) := by
  unfold execApplyTaken
  repeat' (first
    | with_reducible assumption
    | with_reducible apply takeApply_wf
    | refine keeps_live hw ?_
    | refine keeps_unit hw ?_
    | refine keeps_rec hw fun r => ?_
    | refine keeps_weld hw fun r => ?_
    | refine keeps_tongs hw fun r => ?_
    | exact keeps_fault
    | refine keeps_next ?_
    | with_reducible refine foldl_wf _ (fun s x hs => ?_) _ _ ?_
    | split
    | simp
    | intro _
    | (dsimp only; split))

theorem execBstStart_wf (s : State) (hw : s.mem.wf = true) : Keeps (fun t => t.mem.wf = true) (execBstStart s) := by
  intro t h
  rw [execBstStart_mem s t h]
  exact hw

theorem execBstDone_wf (fails : Nat) (s : State) (hw : s.mem.wf = true) : Keeps (fun t => t.mem.wf = true) (execBstDone fails s) := keeps_live hw (bstDone_wf _ _ hw)

end Sys2Proof.Machine
end

