-- ==== Sys2Proof/Laws/State.lean ====
section
/-! SUPPORT. The small laws of the state: what a register or a table reads as after it is set, and, for every operation that
sets one part of the state, that each other part is unchanged (memory: in
Laws/MemUnits.lean). -/

namespace Sys2Proof.Machine

open Sys2Proof

/-! Stores and tables -/

@[simp] theorem store_get_set_same (st : Store) (d v : Nat) (k : Key) : Store.get d (Store.set st k v) k = v := by
  induction st with
  | nil => simp [Store.set, Store.get]
  | cons e t ih =>
    obtain ⟨i, a⟩ := e
    unfold Store.set
    split
    · simp [Store.get]
    · simp [Store.get, *]

theorem store_get_set_other (st : Store) (d v : Nat) {k l : Key} (h : l ≠ k) : Store.get d (Store.set st k v) l = Store.get d st l := by
  induction st with
  | nil => simp [Store.set, Store.get, Ne.symm h]
  | cons e t ih =>
    obtain ⟨i, a⟩ := e
    unfold Store.set
    split
    · subst_vars
      simp [Store.get, Ne.symm h]
    · simp only [Store.get]
      split
      · rfl
      · exact ih

@[simp] theorem tbl_get_set_same {α : Type} (d v : α) (l : Tbl α) (k : Nat) : Tbl.get d (Tbl.set l k v) k = v := by
  induction l with
  | nil => simp [Tbl.set, Tbl.get]
  | cons e t ih =>
    obtain ⟨i, a⟩ := e
    unfold Tbl.set
    split
    · simp [Tbl.get]
    · simp [Tbl.get, *]

theorem tbl_get_set_other {α : Type} (d v : α) (l : Tbl α) {k j : Nat} (h : j ≠ k) : Tbl.get d (Tbl.set l k v) j = Tbl.get d l j := by
  induction l with
  | nil => simp [Tbl.set, Tbl.get, Ne.symm h]
  | cons e t ih =>
    obtain ⟨i, a⟩ := e
    unfold Tbl.set
    split
    · subst_vars
      simp [Tbl.get, Ne.symm h]
    · simp only [Tbl.get]
      split
      · rfl
      · exact ih

/-- A bit is the bit that `Nat.testBit` finds. -/
theorem bitOf_eq (v i : Nat) : bitOf v i = v.testBit i := by
  rw [Nat.testBit_eq_decide_div_mod_eq]
  unfold bitOf
  by_cases h : v / 2 ^ i % 2 = 1 <;> simp [h]

/-- A field reads back as set, cut to its width. -/
@[simp] theorem rd_wr_same (s : State) (f : Field) (i v : Nat) : (s.wr f i v).rd f i = v % 2 ^ f.width :=
  store_get_set_same _ _ _ _

/-- Setting a field leaves the fields under other keys alone. -/
theorem rd_wr_other (s : State) {f g : Field} {i j : Nat} (v : Nat) (h : g.key j ≠ f.key i) : (s.wr f i v).rd g j = s.rd g j :=
  store_get_set_other _ _ _ h

/-- A counter reads back raised, saturated at all ones. -/
@[simp] theorem rd_inc_same (s : State) (f : Field) (i n : Nat) : (s.inc f i n).rd f i = min (2 ^ f.width - 1) (s.rd f i + n) :=
  store_get_set_same _ _ _ _

/-- A header field reads back as set, cut to its width. -/
@[simp] theorem hrd_hwr_same (s : State) (f : Field) (slot v : Nat) : (s.hwr f slot v).hrd f slot = v % 2 ^ f.width :=
  store_get_set_same _ _ _ _

/-- Setting a header field leaves the fields under other keys alone. -/
theorem hrd_hwr_other (s : State) {f g : Field} {i j : Nat} (v : Nat) (h : hkey g j ≠ hkey f i) : (s.hwr f i v).hrd g j = s.hrd g j :=
  store_get_set_other _ _ _ h

/-- Setting a header field leaves the block fields under other keys alone. -/
theorem rd_hwr_other (s : State) {f g : Field} {i j : Nat} (v : Nat) (h : g.key j ≠ hkey f i) : (s.hwr f i v).rd g j = s.rd g j :=
  store_get_set_other _ _ _ h

/-- Setting a block field leaves the header fields under other keys alone. -/
theorem hrd_wr_other (s : State) {f g : Field} {i j : Nat} (v : Nat) (h : hkey g j ≠ f.key i) : (s.wr f i v).hrd g j = s.hrd g j :=
  store_get_set_other _ _ _ h

/-- Raising a counter leaves the fields under other keys alone. -/
theorem rd_inc_other (s : State) {f g : Field} {i j : Nat} (n : Nat) (h : g.key j ≠ f.key i) : (s.inc f i n).rd g j = s.rd g j :=
  store_get_set_other _ _ _ h

/-! `State.wr` sets `regs` alone. -/
@[simp] theorem State.wr_pending (s : State) (f : Field) (i v : Nat) : (s.wr f i v).pending = s.pending := rfl
@[simp] theorem State.wr_now (s : State) (f : Field) (i v : Nat) : (s.wr f i v).now = s.now := rfl
@[simp] theorem State.wr_clock (s : State) (f : Field) (i v : Nat) : (s.wr f i v).clock = s.clock := rfl
@[simp] theorem State.wr_free (s : State) (f : Field) (i v : Nat) : (s.wr f i v).free = s.free := rfl
@[simp] theorem State.wr_out (s : State) (f : Field) (i v : Nat) : (s.wr f i v).out = s.out := rfl
@[simp] theorem State.wr_shadow (s : State) (f : Field) (i v : Nat) : (s.wr f i v).shadow = s.shadow := rfl
@[simp] theorem State.wr_staged (s : State) (f : Field) (i v : Nat) : (s.wr f i v).staged = s.staged := rfl
@[simp] theorem State.wr_errlog (s : State) (f : Field) (i v : Nat) : (s.wr f i v).errlog = s.errlog := rfl
@[simp] theorem State.wr_snaps (s : State) (f : Field) (i v : Nat) : (s.wr f i v).snaps = s.snaps := rfl
@[simp] theorem State.wr_map (s : State) (f : Field) (i v : Nat) : (s.wr f i v).map = s.map := rfl
@[simp] theorem State.wr_tmp (s : State) (f : Field) (i v : Nat) : (s.wr f i v).tmp = s.tmp := rfl
@[simp] theorem State.wr_attempt (s : State) (f : Field) (i v : Nat) : (s.wr f i v).attempt = s.attempt := rfl
@[simp] theorem State.wr_ctxs (s : State) (f : Field) (i v : Nat) : (s.wr f i v).ctxs = s.ctxs := rfl
@[simp] theorem State.wr_served (s : State) (f : Field) (i v : Nat) : (s.wr f i v).served = s.served := rfl
@[simp] theorem State.wr_flights (s : State) (f : Field) (i v : Nat) : (s.wr f i v).flights = s.flights := rfl
@[simp] theorem State.wr_nextFlight (s : State) (f : Field) (i v : Nat) : (s.wr f i v).nextFlight = s.nextFlight := rfl
@[simp] theorem State.wr_syn (s : State) (f : Field) (i v : Nat) : (s.wr f i v).syn = s.syn := rfl
@[simp] theorem State.wr_xp (s : State) (f : Field) (i v : Nat) : (s.wr f i v).xp = s.xp := rfl
@[simp] theorem State.wr_links (s : State) (f : Field) (i v : Nat) : (s.wr f i v).links = s.links := rfl
@[simp] theorem State.wr_ledger (s : State) (f : Field) (i v : Nat) : (s.wr f i v).ledger = s.ledger := rfl
@[simp] theorem State.wr_health (s : State) (f : Field) (i v : Nat) : (s.wr f i v).health = s.health := rfl
@[simp] theorem State.wr_host (s : State) (f : Field) (i v : Nat) : (s.wr f i v).host = s.host := rfl
@[simp] theorem State.wr_hbmStacks (s : State) (f : Field) (i v : Nat) : (s.wr f i v).hbmStacks = s.hbmStacks := rfl
@[simp] theorem State.wr_eng (s : State) (f : Field) (i v : Nat) : (s.wr f i v).eng = s.eng := rfl
@[simp] theorem State.wr_bist (s : State) (f : Field) (i v : Nat) : (s.wr f i v).bist = s.bist := rfl
@[simp] theorem State.wr_heals (s : State) (f : Field) (i v : Nat) : (s.wr f i v).heals = s.heals := rfl
@[simp] theorem State.wr_hscrub (s : State) (f : Field) (i v : Nat) : (s.wr f i v).hscrub = s.hscrub := rfl
@[simp] theorem State.wr_gathers (s : State) (f : Field) (i v : Nat) : (s.wr f i v).gathers = s.gathers := rfl
@[simp] theorem State.wr_weld (s : State) (f : Field) (i v : Nat) : (s.wr f i v).weld = s.weld := rfl
@[simp] theorem State.wr_slots (s : State) (f : Field) (i v : Nat) : (s.wr f i v).slots = s.slots := rfl
@[simp] theorem State.wr_algSet (s : State) (f : Field) (i v : Nat) : (s.wr f i v).algSet = s.algSet := rfl
@[simp] theorem State.wr_tchZeroing (s : State) (f : Field) (i v : Nat) : (s.wr f i v).tchZeroing = s.tchZeroing := rfl
@[simp] theorem State.wr_ckp (s : State) (f : Field) (i v : Nat) : (s.wr f i v).ckp = s.ckp := rfl
@[simp] theorem State.wr_power (s : State) (f : Field) (i v : Nat) : (s.wr f i v).power = s.power := rfl
@[simp] theorem State.wr_seq (s : State) (f : Field) (i v : Nat) : (s.wr f i v).seq = s.seq := rfl
@[simp] theorem State.wr_smc (s : State) (f : Field) (i v : Nat) : (s.wr f i v).smc = s.smc := rfl
@[simp] theorem State.wr_guest (s : State) (f : Field) (i v : Nat) : (s.wr f i v).guest = s.guest := rfl

/-! `State.inc` sets `regs` alone. -/
@[simp] theorem State.inc_pending (s : State) (f : Field) (i n : Nat) : (s.inc f i n).pending = s.pending := rfl
@[simp] theorem State.inc_now (s : State) (f : Field) (i n : Nat) : (s.inc f i n).now = s.now := rfl
@[simp] theorem State.inc_clock (s : State) (f : Field) (i n : Nat) : (s.inc f i n).clock = s.clock := rfl
@[simp] theorem State.inc_free (s : State) (f : Field) (i n : Nat) : (s.inc f i n).free = s.free := rfl
@[simp] theorem State.inc_out (s : State) (f : Field) (i n : Nat) : (s.inc f i n).out = s.out := rfl
@[simp] theorem State.inc_shadow (s : State) (f : Field) (i n : Nat) : (s.inc f i n).shadow = s.shadow := rfl
@[simp] theorem State.inc_staged (s : State) (f : Field) (i n : Nat) : (s.inc f i n).staged = s.staged := rfl
@[simp] theorem State.inc_errlog (s : State) (f : Field) (i n : Nat) : (s.inc f i n).errlog = s.errlog := rfl
@[simp] theorem State.inc_snaps (s : State) (f : Field) (i n : Nat) : (s.inc f i n).snaps = s.snaps := rfl
@[simp] theorem State.inc_map (s : State) (f : Field) (i n : Nat) : (s.inc f i n).map = s.map := rfl
@[simp] theorem State.inc_tmp (s : State) (f : Field) (i n : Nat) : (s.inc f i n).tmp = s.tmp := rfl
@[simp] theorem State.inc_attempt (s : State) (f : Field) (i n : Nat) : (s.inc f i n).attempt = s.attempt := rfl
@[simp] theorem State.inc_ctxs (s : State) (f : Field) (i n : Nat) : (s.inc f i n).ctxs = s.ctxs := rfl
@[simp] theorem State.inc_served (s : State) (f : Field) (i n : Nat) : (s.inc f i n).served = s.served := rfl
@[simp] theorem State.inc_flights (s : State) (f : Field) (i n : Nat) : (s.inc f i n).flights = s.flights := rfl
@[simp] theorem State.inc_nextFlight (s : State) (f : Field) (i n : Nat) : (s.inc f i n).nextFlight = s.nextFlight := rfl
@[simp] theorem State.inc_syn (s : State) (f : Field) (i n : Nat) : (s.inc f i n).syn = s.syn := rfl
@[simp] theorem State.inc_xp (s : State) (f : Field) (i n : Nat) : (s.inc f i n).xp = s.xp := rfl
@[simp] theorem State.inc_links (s : State) (f : Field) (i n : Nat) : (s.inc f i n).links = s.links := rfl
@[simp] theorem State.inc_ledger (s : State) (f : Field) (i n : Nat) : (s.inc f i n).ledger = s.ledger := rfl
@[simp] theorem State.inc_health (s : State) (f : Field) (i n : Nat) : (s.inc f i n).health = s.health := rfl
@[simp] theorem State.inc_host (s : State) (f : Field) (i n : Nat) : (s.inc f i n).host = s.host := rfl
@[simp] theorem State.inc_hbmStacks (s : State) (f : Field) (i n : Nat) : (s.inc f i n).hbmStacks = s.hbmStacks := rfl
@[simp] theorem State.inc_eng (s : State) (f : Field) (i n : Nat) : (s.inc f i n).eng = s.eng := rfl
@[simp] theorem State.inc_bist (s : State) (f : Field) (i n : Nat) : (s.inc f i n).bist = s.bist := rfl
@[simp] theorem State.inc_heals (s : State) (f : Field) (i n : Nat) : (s.inc f i n).heals = s.heals := rfl
@[simp] theorem State.inc_hscrub (s : State) (f : Field) (i n : Nat) : (s.inc f i n).hscrub = s.hscrub := rfl
@[simp] theorem State.inc_gathers (s : State) (f : Field) (i n : Nat) : (s.inc f i n).gathers = s.gathers := rfl
@[simp] theorem State.inc_weld (s : State) (f : Field) (i n : Nat) : (s.inc f i n).weld = s.weld := rfl
@[simp] theorem State.inc_slots (s : State) (f : Field) (i n : Nat) : (s.inc f i n).slots = s.slots := rfl
@[simp] theorem State.inc_algSet (s : State) (f : Field) (i n : Nat) : (s.inc f i n).algSet = s.algSet := rfl
@[simp] theorem State.inc_tchZeroing (s : State) (f : Field) (i n : Nat) : (s.inc f i n).tchZeroing = s.tchZeroing := rfl
@[simp] theorem State.inc_ckp (s : State) (f : Field) (i n : Nat) : (s.inc f i n).ckp = s.ckp := rfl
@[simp] theorem State.inc_power (s : State) (f : Field) (i n : Nat) : (s.inc f i n).power = s.power := rfl
@[simp] theorem State.inc_seq (s : State) (f : Field) (i n : Nat) : (s.inc f i n).seq = s.seq := rfl
@[simp] theorem State.inc_smc (s : State) (f : Field) (i n : Nat) : (s.inc f i n).smc = s.smc := rfl
@[simp] theorem State.inc_guest (s : State) (f : Field) (i n : Nat) : (s.inc f i n).guest = s.guest := rfl

/-! `State.hwr` sets `regs` alone. -/
@[simp] theorem State.hwr_pending (s : State) (f : Field) (slot v : Nat) : (s.hwr f slot v).pending = s.pending := rfl
@[simp] theorem State.hwr_now (s : State) (f : Field) (slot v : Nat) : (s.hwr f slot v).now = s.now := rfl
@[simp] theorem State.hwr_clock (s : State) (f : Field) (slot v : Nat) : (s.hwr f slot v).clock = s.clock := rfl
@[simp] theorem State.hwr_free (s : State) (f : Field) (slot v : Nat) : (s.hwr f slot v).free = s.free := rfl
@[simp] theorem State.hwr_out (s : State) (f : Field) (slot v : Nat) : (s.hwr f slot v).out = s.out := rfl
@[simp] theorem State.hwr_shadow (s : State) (f : Field) (slot v : Nat) : (s.hwr f slot v).shadow = s.shadow := rfl
@[simp] theorem State.hwr_staged (s : State) (f : Field) (slot v : Nat) : (s.hwr f slot v).staged = s.staged := rfl
@[simp] theorem State.hwr_errlog (s : State) (f : Field) (slot v : Nat) : (s.hwr f slot v).errlog = s.errlog := rfl
@[simp] theorem State.hwr_snaps (s : State) (f : Field) (slot v : Nat) : (s.hwr f slot v).snaps = s.snaps := rfl
@[simp] theorem State.hwr_map (s : State) (f : Field) (slot v : Nat) : (s.hwr f slot v).map = s.map := rfl
@[simp] theorem State.hwr_tmp (s : State) (f : Field) (slot v : Nat) : (s.hwr f slot v).tmp = s.tmp := rfl
@[simp] theorem State.hwr_attempt (s : State) (f : Field) (slot v : Nat) : (s.hwr f slot v).attempt = s.attempt := rfl
@[simp] theorem State.hwr_ctxs (s : State) (f : Field) (slot v : Nat) : (s.hwr f slot v).ctxs = s.ctxs := rfl
@[simp] theorem State.hwr_served (s : State) (f : Field) (slot v : Nat) : (s.hwr f slot v).served = s.served := rfl
@[simp] theorem State.hwr_flights (s : State) (f : Field) (slot v : Nat) : (s.hwr f slot v).flights = s.flights := rfl
@[simp] theorem State.hwr_nextFlight (s : State) (f : Field) (slot v : Nat) : (s.hwr f slot v).nextFlight = s.nextFlight := rfl
@[simp] theorem State.hwr_syn (s : State) (f : Field) (slot v : Nat) : (s.hwr f slot v).syn = s.syn := rfl
@[simp] theorem State.hwr_xp (s : State) (f : Field) (slot v : Nat) : (s.hwr f slot v).xp = s.xp := rfl
@[simp] theorem State.hwr_links (s : State) (f : Field) (slot v : Nat) : (s.hwr f slot v).links = s.links := rfl
@[simp] theorem State.hwr_ledger (s : State) (f : Field) (slot v : Nat) : (s.hwr f slot v).ledger = s.ledger := rfl
@[simp] theorem State.hwr_health (s : State) (f : Field) (slot v : Nat) : (s.hwr f slot v).health = s.health := rfl
@[simp] theorem State.hwr_host (s : State) (f : Field) (slot v : Nat) : (s.hwr f slot v).host = s.host := rfl
@[simp] theorem State.hwr_hbmStacks (s : State) (f : Field) (slot v : Nat) : (s.hwr f slot v).hbmStacks = s.hbmStacks := rfl
@[simp] theorem State.hwr_eng (s : State) (f : Field) (slot v : Nat) : (s.hwr f slot v).eng = s.eng := rfl
@[simp] theorem State.hwr_bist (s : State) (f : Field) (slot v : Nat) : (s.hwr f slot v).bist = s.bist := rfl
@[simp] theorem State.hwr_heals (s : State) (f : Field) (slot v : Nat) : (s.hwr f slot v).heals = s.heals := rfl
@[simp] theorem State.hwr_hscrub (s : State) (f : Field) (slot v : Nat) : (s.hwr f slot v).hscrub = s.hscrub := rfl
@[simp] theorem State.hwr_gathers (s : State) (f : Field) (slot v : Nat) : (s.hwr f slot v).gathers = s.gathers := rfl
@[simp] theorem State.hwr_weld (s : State) (f : Field) (slot v : Nat) : (s.hwr f slot v).weld = s.weld := rfl
@[simp] theorem State.hwr_slots (s : State) (f : Field) (slot v : Nat) : (s.hwr f slot v).slots = s.slots := rfl
@[simp] theorem State.hwr_algSet (s : State) (f : Field) (slot v : Nat) : (s.hwr f slot v).algSet = s.algSet := rfl
@[simp] theorem State.hwr_tchZeroing (s : State) (f : Field) (slot v : Nat) : (s.hwr f slot v).tchZeroing = s.tchZeroing := rfl
@[simp] theorem State.hwr_ckp (s : State) (f : Field) (slot v : Nat) : (s.hwr f slot v).ckp = s.ckp := rfl
@[simp] theorem State.hwr_power (s : State) (f : Field) (slot v : Nat) : (s.hwr f slot v).power = s.power := rfl
@[simp] theorem State.hwr_seq (s : State) (f : Field) (slot v : Nat) : (s.hwr f slot v).seq = s.seq := rfl
@[simp] theorem State.hwr_smc (s : State) (f : Field) (slot v : Nat) : (s.hwr f slot v).smc = s.smc := rfl
@[simp] theorem State.hwr_guest (s : State) (f : Field) (slot v : Nat) : (s.hwr f slot v).guest = s.guest := rfl

/-! `State.emit` sets `out` alone. -/
@[simp] theorem State.emit_pending (s : State) (m : OutMsg) : (s.emit m).pending = s.pending := rfl
@[simp] theorem State.emit_now (s : State) (m : OutMsg) : (s.emit m).now = s.now := rfl
@[simp] theorem State.emit_clock (s : State) (m : OutMsg) : (s.emit m).clock = s.clock := rfl
@[simp] theorem State.emit_free (s : State) (m : OutMsg) : (s.emit m).free = s.free := rfl
@[simp] theorem State.emit_regs (s : State) (m : OutMsg) : (s.emit m).regs = s.regs := rfl
@[simp] theorem State.emit_shadow (s : State) (m : OutMsg) : (s.emit m).shadow = s.shadow := rfl
@[simp] theorem State.emit_staged (s : State) (m : OutMsg) : (s.emit m).staged = s.staged := rfl
@[simp] theorem State.emit_errlog (s : State) (m : OutMsg) : (s.emit m).errlog = s.errlog := rfl
@[simp] theorem State.emit_snaps (s : State) (m : OutMsg) : (s.emit m).snaps = s.snaps := rfl
@[simp] theorem State.emit_map (s : State) (m : OutMsg) : (s.emit m).map = s.map := rfl
@[simp] theorem State.emit_tmp (s : State) (m : OutMsg) : (s.emit m).tmp = s.tmp := rfl
@[simp] theorem State.emit_attempt (s : State) (m : OutMsg) : (s.emit m).attempt = s.attempt := rfl
@[simp] theorem State.emit_ctxs (s : State) (m : OutMsg) : (s.emit m).ctxs = s.ctxs := rfl
@[simp] theorem State.emit_served (s : State) (m : OutMsg) : (s.emit m).served = s.served := rfl
@[simp] theorem State.emit_flights (s : State) (m : OutMsg) : (s.emit m).flights = s.flights := rfl
@[simp] theorem State.emit_nextFlight (s : State) (m : OutMsg) : (s.emit m).nextFlight = s.nextFlight := rfl
@[simp] theorem State.emit_syn (s : State) (m : OutMsg) : (s.emit m).syn = s.syn := rfl
@[simp] theorem State.emit_xp (s : State) (m : OutMsg) : (s.emit m).xp = s.xp := rfl
@[simp] theorem State.emit_links (s : State) (m : OutMsg) : (s.emit m).links = s.links := rfl
@[simp] theorem State.emit_ledger (s : State) (m : OutMsg) : (s.emit m).ledger = s.ledger := rfl
@[simp] theorem State.emit_health (s : State) (m : OutMsg) : (s.emit m).health = s.health := rfl
@[simp] theorem State.emit_host (s : State) (m : OutMsg) : (s.emit m).host = s.host := rfl
@[simp] theorem State.emit_hbmStacks (s : State) (m : OutMsg) : (s.emit m).hbmStacks = s.hbmStacks := rfl
@[simp] theorem State.emit_eng (s : State) (m : OutMsg) : (s.emit m).eng = s.eng := rfl
@[simp] theorem State.emit_bist (s : State) (m : OutMsg) : (s.emit m).bist = s.bist := rfl
@[simp] theorem State.emit_heals (s : State) (m : OutMsg) : (s.emit m).heals = s.heals := rfl
@[simp] theorem State.emit_hscrub (s : State) (m : OutMsg) : (s.emit m).hscrub = s.hscrub := rfl
@[simp] theorem State.emit_gathers (s : State) (m : OutMsg) : (s.emit m).gathers = s.gathers := rfl
@[simp] theorem State.emit_weld (s : State) (m : OutMsg) : (s.emit m).weld = s.weld := rfl
@[simp] theorem State.emit_slots (s : State) (m : OutMsg) : (s.emit m).slots = s.slots := rfl
@[simp] theorem State.emit_algSet (s : State) (m : OutMsg) : (s.emit m).algSet = s.algSet := rfl
@[simp] theorem State.emit_tchZeroing (s : State) (m : OutMsg) : (s.emit m).tchZeroing = s.tchZeroing := rfl
@[simp] theorem State.emit_ckp (s : State) (m : OutMsg) : (s.emit m).ckp = s.ckp := rfl
@[simp] theorem State.emit_power (s : State) (m : OutMsg) : (s.emit m).power = s.power := rfl
@[simp] theorem State.emit_seq (s : State) (m : OutMsg) : (s.emit m).seq = s.seq := rfl
@[simp] theorem State.emit_smc (s : State) (m : OutMsg) : (s.emit m).smc = s.smc := rfl
@[simp] theorem State.emit_guest (s : State) (m : OutMsg) : (s.emit m).guest = s.guest := rfl

/-! `State.setLink` sets `links` alone. -/
@[simp] theorem State.setLink_pending (s : State) (k : Nat) (l : Link) : (s.setLink k l).pending = s.pending := rfl
@[simp] theorem State.setLink_now (s : State) (k : Nat) (l : Link) : (s.setLink k l).now = s.now := rfl
@[simp] theorem State.setLink_clock (s : State) (k : Nat) (l : Link) : (s.setLink k l).clock = s.clock := rfl
@[simp] theorem State.setLink_free (s : State) (k : Nat) (l : Link) : (s.setLink k l).free = s.free := rfl
@[simp] theorem State.setLink_out (s : State) (k : Nat) (l : Link) : (s.setLink k l).out = s.out := rfl
@[simp] theorem State.setLink_regs (s : State) (k : Nat) (l : Link) : (s.setLink k l).regs = s.regs := rfl
@[simp] theorem State.setLink_shadow (s : State) (k : Nat) (l : Link) : (s.setLink k l).shadow = s.shadow := rfl
@[simp] theorem State.setLink_staged (s : State) (k : Nat) (l : Link) : (s.setLink k l).staged = s.staged := rfl
@[simp] theorem State.setLink_errlog (s : State) (k : Nat) (l : Link) : (s.setLink k l).errlog = s.errlog := rfl
@[simp] theorem State.setLink_snaps (s : State) (k : Nat) (l : Link) : (s.setLink k l).snaps = s.snaps := rfl
@[simp] theorem State.setLink_map (s : State) (k : Nat) (l : Link) : (s.setLink k l).map = s.map := rfl
@[simp] theorem State.setLink_tmp (s : State) (k : Nat) (l : Link) : (s.setLink k l).tmp = s.tmp := rfl
@[simp] theorem State.setLink_attempt (s : State) (k : Nat) (l : Link) : (s.setLink k l).attempt = s.attempt := rfl
@[simp] theorem State.setLink_ctxs (s : State) (k : Nat) (l : Link) : (s.setLink k l).ctxs = s.ctxs := rfl
@[simp] theorem State.setLink_served (s : State) (k : Nat) (l : Link) : (s.setLink k l).served = s.served := rfl
@[simp] theorem State.setLink_flights (s : State) (k : Nat) (l : Link) : (s.setLink k l).flights = s.flights := rfl
@[simp] theorem State.setLink_nextFlight (s : State) (k : Nat) (l : Link) : (s.setLink k l).nextFlight = s.nextFlight := rfl
@[simp] theorem State.setLink_syn (s : State) (k : Nat) (l : Link) : (s.setLink k l).syn = s.syn := rfl
@[simp] theorem State.setLink_xp (s : State) (k : Nat) (l : Link) : (s.setLink k l).xp = s.xp := rfl
@[simp] theorem State.setLink_ledger (s : State) (k : Nat) (l : Link) : (s.setLink k l).ledger = s.ledger := rfl
@[simp] theorem State.setLink_health (s : State) (k : Nat) (l : Link) : (s.setLink k l).health = s.health := rfl
@[simp] theorem State.setLink_host (s : State) (k : Nat) (l : Link) : (s.setLink k l).host = s.host := rfl
@[simp] theorem State.setLink_hbmStacks (s : State) (k : Nat) (l : Link) : (s.setLink k l).hbmStacks = s.hbmStacks := rfl
@[simp] theorem State.setLink_eng (s : State) (k : Nat) (l : Link) : (s.setLink k l).eng = s.eng := rfl
@[simp] theorem State.setLink_bist (s : State) (k : Nat) (l : Link) : (s.setLink k l).bist = s.bist := rfl
@[simp] theorem State.setLink_heals (s : State) (k : Nat) (l : Link) : (s.setLink k l).heals = s.heals := rfl
@[simp] theorem State.setLink_hscrub (s : State) (k : Nat) (l : Link) : (s.setLink k l).hscrub = s.hscrub := rfl
@[simp] theorem State.setLink_gathers (s : State) (k : Nat) (l : Link) : (s.setLink k l).gathers = s.gathers := rfl
@[simp] theorem State.setLink_weld (s : State) (k : Nat) (l : Link) : (s.setLink k l).weld = s.weld := rfl
@[simp] theorem State.setLink_slots (s : State) (k : Nat) (l : Link) : (s.setLink k l).slots = s.slots := rfl
@[simp] theorem State.setLink_algSet (s : State) (k : Nat) (l : Link) : (s.setLink k l).algSet = s.algSet := rfl
@[simp] theorem State.setLink_tchZeroing (s : State) (k : Nat) (l : Link) : (s.setLink k l).tchZeroing = s.tchZeroing := rfl
@[simp] theorem State.setLink_ckp (s : State) (k : Nat) (l : Link) : (s.setLink k l).ckp = s.ckp := rfl
@[simp] theorem State.setLink_power (s : State) (k : Nat) (l : Link) : (s.setLink k l).power = s.power := rfl
@[simp] theorem State.setLink_seq (s : State) (k : Nat) (l : Link) : (s.setLink k l).seq = s.seq := rfl
@[simp] theorem State.setLink_smc (s : State) (k : Nat) (l : Link) : (s.setLink k l).smc = s.smc := rfl
@[simp] theorem State.setLink_guest (s : State) (k : Nat) (l : Link) : (s.setLink k l).guest = s.guest := rfl

/-! `State.setCtx` sets `ctxs` alone. -/
@[simp] theorem State.setCtx_pending (s : State) (c : Nat) (x : Ctx) : (s.setCtx c x).pending = s.pending := rfl
@[simp] theorem State.setCtx_now (s : State) (c : Nat) (x : Ctx) : (s.setCtx c x).now = s.now := rfl
@[simp] theorem State.setCtx_clock (s : State) (c : Nat) (x : Ctx) : (s.setCtx c x).clock = s.clock := rfl
@[simp] theorem State.setCtx_free (s : State) (c : Nat) (x : Ctx) : (s.setCtx c x).free = s.free := rfl
@[simp] theorem State.setCtx_out (s : State) (c : Nat) (x : Ctx) : (s.setCtx c x).out = s.out := rfl
@[simp] theorem State.setCtx_regs (s : State) (c : Nat) (x : Ctx) : (s.setCtx c x).regs = s.regs := rfl
@[simp] theorem State.setCtx_shadow (s : State) (c : Nat) (x : Ctx) : (s.setCtx c x).shadow = s.shadow := rfl
@[simp] theorem State.setCtx_staged (s : State) (c : Nat) (x : Ctx) : (s.setCtx c x).staged = s.staged := rfl
@[simp] theorem State.setCtx_errlog (s : State) (c : Nat) (x : Ctx) : (s.setCtx c x).errlog = s.errlog := rfl
@[simp] theorem State.setCtx_snaps (s : State) (c : Nat) (x : Ctx) : (s.setCtx c x).snaps = s.snaps := rfl
@[simp] theorem State.setCtx_map (s : State) (c : Nat) (x : Ctx) : (s.setCtx c x).map = s.map := rfl
@[simp] theorem State.setCtx_tmp (s : State) (c : Nat) (x : Ctx) : (s.setCtx c x).tmp = s.tmp := rfl
@[simp] theorem State.setCtx_attempt (s : State) (c : Nat) (x : Ctx) : (s.setCtx c x).attempt = s.attempt := rfl
@[simp] theorem State.setCtx_served (s : State) (c : Nat) (x : Ctx) : (s.setCtx c x).served = s.served := rfl
@[simp] theorem State.setCtx_flights (s : State) (c : Nat) (x : Ctx) : (s.setCtx c x).flights = s.flights := rfl
@[simp] theorem State.setCtx_nextFlight (s : State) (c : Nat) (x : Ctx) : (s.setCtx c x).nextFlight = s.nextFlight := rfl
@[simp] theorem State.setCtx_syn (s : State) (c : Nat) (x : Ctx) : (s.setCtx c x).syn = s.syn := rfl
@[simp] theorem State.setCtx_xp (s : State) (c : Nat) (x : Ctx) : (s.setCtx c x).xp = s.xp := rfl
@[simp] theorem State.setCtx_links (s : State) (c : Nat) (x : Ctx) : (s.setCtx c x).links = s.links := rfl
@[simp] theorem State.setCtx_ledger (s : State) (c : Nat) (x : Ctx) : (s.setCtx c x).ledger = s.ledger := rfl
@[simp] theorem State.setCtx_health (s : State) (c : Nat) (x : Ctx) : (s.setCtx c x).health = s.health := rfl
@[simp] theorem State.setCtx_host (s : State) (c : Nat) (x : Ctx) : (s.setCtx c x).host = s.host := rfl
@[simp] theorem State.setCtx_hbmStacks (s : State) (c : Nat) (x : Ctx) : (s.setCtx c x).hbmStacks = s.hbmStacks := rfl
@[simp] theorem State.setCtx_eng (s : State) (c : Nat) (x : Ctx) : (s.setCtx c x).eng = s.eng := rfl
@[simp] theorem State.setCtx_bist (s : State) (c : Nat) (x : Ctx) : (s.setCtx c x).bist = s.bist := rfl
@[simp] theorem State.setCtx_heals (s : State) (c : Nat) (x : Ctx) : (s.setCtx c x).heals = s.heals := rfl
@[simp] theorem State.setCtx_hscrub (s : State) (c : Nat) (x : Ctx) : (s.setCtx c x).hscrub = s.hscrub := rfl
@[simp] theorem State.setCtx_gathers (s : State) (c : Nat) (x : Ctx) : (s.setCtx c x).gathers = s.gathers := rfl
@[simp] theorem State.setCtx_weld (s : State) (c : Nat) (x : Ctx) : (s.setCtx c x).weld = s.weld := rfl
@[simp] theorem State.setCtx_slots (s : State) (c : Nat) (x : Ctx) : (s.setCtx c x).slots = s.slots := rfl
@[simp] theorem State.setCtx_algSet (s : State) (c : Nat) (x : Ctx) : (s.setCtx c x).algSet = s.algSet := rfl
@[simp] theorem State.setCtx_tchZeroing (s : State) (c : Nat) (x : Ctx) : (s.setCtx c x).tchZeroing = s.tchZeroing := rfl
@[simp] theorem State.setCtx_ckp (s : State) (c : Nat) (x : Ctx) : (s.setCtx c x).ckp = s.ckp := rfl
@[simp] theorem State.setCtx_power (s : State) (c : Nat) (x : Ctx) : (s.setCtx c x).power = s.power := rfl
@[simp] theorem State.setCtx_seq (s : State) (c : Nat) (x : Ctx) : (s.setCtx c x).seq = s.seq := rfl
@[simp] theorem State.setCtx_smc (s : State) (c : Nat) (x : Ctx) : (s.setCtx c x).smc = s.smc := rfl
@[simp] theorem State.setCtx_guest (s : State) (c : Nat) (x : Ctx) : (s.setCtx c x).guest = s.guest := rfl

/-! `State.setAnvil` sets `eng` alone. -/
@[simp] theorem State.setAnvil_pending (s : State) (die m : Nat) (a : Anvil) : (s.setAnvil die m a).pending = s.pending := rfl
@[simp] theorem State.setAnvil_now (s : State) (die m : Nat) (a : Anvil) : (s.setAnvil die m a).now = s.now := rfl
@[simp] theorem State.setAnvil_clock (s : State) (die m : Nat) (a : Anvil) : (s.setAnvil die m a).clock = s.clock := rfl
@[simp] theorem State.setAnvil_free (s : State) (die m : Nat) (a : Anvil) : (s.setAnvil die m a).free = s.free := rfl
@[simp] theorem State.setAnvil_out (s : State) (die m : Nat) (a : Anvil) : (s.setAnvil die m a).out = s.out := rfl
@[simp] theorem State.setAnvil_regs (s : State) (die m : Nat) (a : Anvil) : (s.setAnvil die m a).regs = s.regs := rfl
@[simp] theorem State.setAnvil_shadow (s : State) (die m : Nat) (a : Anvil) : (s.setAnvil die m a).shadow = s.shadow := rfl
@[simp] theorem State.setAnvil_staged (s : State) (die m : Nat) (a : Anvil) : (s.setAnvil die m a).staged = s.staged := rfl
@[simp] theorem State.setAnvil_errlog (s : State) (die m : Nat) (a : Anvil) : (s.setAnvil die m a).errlog = s.errlog := rfl
@[simp] theorem State.setAnvil_snaps (s : State) (die m : Nat) (a : Anvil) : (s.setAnvil die m a).snaps = s.snaps := rfl
@[simp] theorem State.setAnvil_map (s : State) (die m : Nat) (a : Anvil) : (s.setAnvil die m a).map = s.map := rfl
@[simp] theorem State.setAnvil_tmp (s : State) (die m : Nat) (a : Anvil) : (s.setAnvil die m a).tmp = s.tmp := rfl
@[simp] theorem State.setAnvil_attempt (s : State) (die m : Nat) (a : Anvil) : (s.setAnvil die m a).attempt = s.attempt := rfl
@[simp] theorem State.setAnvil_ctxs (s : State) (die m : Nat) (a : Anvil) : (s.setAnvil die m a).ctxs = s.ctxs := rfl
@[simp] theorem State.setAnvil_served (s : State) (die m : Nat) (a : Anvil) : (s.setAnvil die m a).served = s.served := rfl
@[simp] theorem State.setAnvil_flights (s : State) (die m : Nat) (a : Anvil) : (s.setAnvil die m a).flights = s.flights := rfl
@[simp] theorem State.setAnvil_nextFlight (s : State) (die m : Nat) (a : Anvil) : (s.setAnvil die m a).nextFlight = s.nextFlight := rfl
@[simp] theorem State.setAnvil_syn (s : State) (die m : Nat) (a : Anvil) : (s.setAnvil die m a).syn = s.syn := rfl
@[simp] theorem State.setAnvil_xp (s : State) (die m : Nat) (a : Anvil) : (s.setAnvil die m a).xp = s.xp := rfl
@[simp] theorem State.setAnvil_links (s : State) (die m : Nat) (a : Anvil) : (s.setAnvil die m a).links = s.links := rfl
@[simp] theorem State.setAnvil_ledger (s : State) (die m : Nat) (a : Anvil) : (s.setAnvil die m a).ledger = s.ledger := rfl
@[simp] theorem State.setAnvil_health (s : State) (die m : Nat) (a : Anvil) : (s.setAnvil die m a).health = s.health := rfl
@[simp] theorem State.setAnvil_host (s : State) (die m : Nat) (a : Anvil) : (s.setAnvil die m a).host = s.host := rfl
@[simp] theorem State.setAnvil_hbmStacks (s : State) (die m : Nat) (a : Anvil) : (s.setAnvil die m a).hbmStacks = s.hbmStacks := rfl
@[simp] theorem State.setAnvil_bist (s : State) (die m : Nat) (a : Anvil) : (s.setAnvil die m a).bist = s.bist := rfl
@[simp] theorem State.setAnvil_heals (s : State) (die m : Nat) (a : Anvil) : (s.setAnvil die m a).heals = s.heals := rfl
@[simp] theorem State.setAnvil_hscrub (s : State) (die m : Nat) (a : Anvil) : (s.setAnvil die m a).hscrub = s.hscrub := rfl
@[simp] theorem State.setAnvil_gathers (s : State) (die m : Nat) (a : Anvil) : (s.setAnvil die m a).gathers = s.gathers := rfl
@[simp] theorem State.setAnvil_weld (s : State) (die m : Nat) (a : Anvil) : (s.setAnvil die m a).weld = s.weld := rfl
@[simp] theorem State.setAnvil_slots (s : State) (die m : Nat) (a : Anvil) : (s.setAnvil die m a).slots = s.slots := rfl
@[simp] theorem State.setAnvil_algSet (s : State) (die m : Nat) (a : Anvil) : (s.setAnvil die m a).algSet = s.algSet := rfl
@[simp] theorem State.setAnvil_tchZeroing (s : State) (die m : Nat) (a : Anvil) : (s.setAnvil die m a).tchZeroing = s.tchZeroing := rfl
@[simp] theorem State.setAnvil_ckp (s : State) (die m : Nat) (a : Anvil) : (s.setAnvil die m a).ckp = s.ckp := rfl
@[simp] theorem State.setAnvil_power (s : State) (die m : Nat) (a : Anvil) : (s.setAnvil die m a).power = s.power := rfl
@[simp] theorem State.setAnvil_seq (s : State) (die m : Nat) (a : Anvil) : (s.setAnvil die m a).seq = s.seq := rfl
@[simp] theorem State.setAnvil_smc (s : State) (die m : Nat) (a : Anvil) : (s.setAnvil die m a).smc = s.smc := rfl
@[simp] theorem State.setAnvil_guest (s : State) (die m : Nat) (a : Anvil) : (s.setAnvil die m a).guest = s.guest := rfl

/-! `State.setSwage` sets `eng` alone. -/
@[simp] theorem State.setSwage_pending (s : State) (die m : Nat) (x : Swage) : (s.setSwage die m x).pending = s.pending := rfl
@[simp] theorem State.setSwage_now (s : State) (die m : Nat) (x : Swage) : (s.setSwage die m x).now = s.now := rfl
@[simp] theorem State.setSwage_clock (s : State) (die m : Nat) (x : Swage) : (s.setSwage die m x).clock = s.clock := rfl
@[simp] theorem State.setSwage_free (s : State) (die m : Nat) (x : Swage) : (s.setSwage die m x).free = s.free := rfl
@[simp] theorem State.setSwage_out (s : State) (die m : Nat) (x : Swage) : (s.setSwage die m x).out = s.out := rfl
@[simp] theorem State.setSwage_regs (s : State) (die m : Nat) (x : Swage) : (s.setSwage die m x).regs = s.regs := rfl
@[simp] theorem State.setSwage_shadow (s : State) (die m : Nat) (x : Swage) : (s.setSwage die m x).shadow = s.shadow := rfl
@[simp] theorem State.setSwage_staged (s : State) (die m : Nat) (x : Swage) : (s.setSwage die m x).staged = s.staged := rfl
@[simp] theorem State.setSwage_errlog (s : State) (die m : Nat) (x : Swage) : (s.setSwage die m x).errlog = s.errlog := rfl
@[simp] theorem State.setSwage_snaps (s : State) (die m : Nat) (x : Swage) : (s.setSwage die m x).snaps = s.snaps := rfl
@[simp] theorem State.setSwage_map (s : State) (die m : Nat) (x : Swage) : (s.setSwage die m x).map = s.map := rfl
@[simp] theorem State.setSwage_tmp (s : State) (die m : Nat) (x : Swage) : (s.setSwage die m x).tmp = s.tmp := rfl
@[simp] theorem State.setSwage_attempt (s : State) (die m : Nat) (x : Swage) : (s.setSwage die m x).attempt = s.attempt := rfl
@[simp] theorem State.setSwage_ctxs (s : State) (die m : Nat) (x : Swage) : (s.setSwage die m x).ctxs = s.ctxs := rfl
@[simp] theorem State.setSwage_served (s : State) (die m : Nat) (x : Swage) : (s.setSwage die m x).served = s.served := rfl
@[simp] theorem State.setSwage_flights (s : State) (die m : Nat) (x : Swage) : (s.setSwage die m x).flights = s.flights := rfl
@[simp] theorem State.setSwage_nextFlight (s : State) (die m : Nat) (x : Swage) : (s.setSwage die m x).nextFlight = s.nextFlight := rfl
@[simp] theorem State.setSwage_syn (s : State) (die m : Nat) (x : Swage) : (s.setSwage die m x).syn = s.syn := rfl
@[simp] theorem State.setSwage_xp (s : State) (die m : Nat) (x : Swage) : (s.setSwage die m x).xp = s.xp := rfl
@[simp] theorem State.setSwage_links (s : State) (die m : Nat) (x : Swage) : (s.setSwage die m x).links = s.links := rfl
@[simp] theorem State.setSwage_ledger (s : State) (die m : Nat) (x : Swage) : (s.setSwage die m x).ledger = s.ledger := rfl
@[simp] theorem State.setSwage_health (s : State) (die m : Nat) (x : Swage) : (s.setSwage die m x).health = s.health := rfl
@[simp] theorem State.setSwage_host (s : State) (die m : Nat) (x : Swage) : (s.setSwage die m x).host = s.host := rfl
@[simp] theorem State.setSwage_hbmStacks (s : State) (die m : Nat) (x : Swage) : (s.setSwage die m x).hbmStacks = s.hbmStacks := rfl
@[simp] theorem State.setSwage_bist (s : State) (die m : Nat) (x : Swage) : (s.setSwage die m x).bist = s.bist := rfl
@[simp] theorem State.setSwage_heals (s : State) (die m : Nat) (x : Swage) : (s.setSwage die m x).heals = s.heals := rfl
@[simp] theorem State.setSwage_hscrub (s : State) (die m : Nat) (x : Swage) : (s.setSwage die m x).hscrub = s.hscrub := rfl
@[simp] theorem State.setSwage_gathers (s : State) (die m : Nat) (x : Swage) : (s.setSwage die m x).gathers = s.gathers := rfl
@[simp] theorem State.setSwage_weld (s : State) (die m : Nat) (x : Swage) : (s.setSwage die m x).weld = s.weld := rfl
@[simp] theorem State.setSwage_slots (s : State) (die m : Nat) (x : Swage) : (s.setSwage die m x).slots = s.slots := rfl
@[simp] theorem State.setSwage_algSet (s : State) (die m : Nat) (x : Swage) : (s.setSwage die m x).algSet = s.algSet := rfl
@[simp] theorem State.setSwage_tchZeroing (s : State) (die m : Nat) (x : Swage) : (s.setSwage die m x).tchZeroing = s.tchZeroing := rfl
@[simp] theorem State.setSwage_ckp (s : State) (die m : Nat) (x : Swage) : (s.setSwage die m x).ckp = s.ckp := rfl
@[simp] theorem State.setSwage_power (s : State) (die m : Nat) (x : Swage) : (s.setSwage die m x).power = s.power := rfl
@[simp] theorem State.setSwage_seq (s : State) (die m : Nat) (x : Swage) : (s.setSwage die m x).seq = s.seq := rfl
@[simp] theorem State.setSwage_smc (s : State) (die m : Nat) (x : Swage) : (s.setSwage die m x).smc = s.smc := rfl
@[simp] theorem State.setSwage_guest (s : State) (die m : Nat) (x : Swage) : (s.setSwage die m x).guest = s.guest := rfl

/-! `State.store` sets `mem` alone. -/
@[simp] theorem State.store_pending (s : State) (a : Nat) (bs : List Byte) : (s.store a bs).pending = s.pending := rfl
@[simp] theorem State.store_now (s : State) (a : Nat) (bs : List Byte) : (s.store a bs).now = s.now := rfl
@[simp] theorem State.store_clock (s : State) (a : Nat) (bs : List Byte) : (s.store a bs).clock = s.clock := rfl
@[simp] theorem State.store_free (s : State) (a : Nat) (bs : List Byte) : (s.store a bs).free = s.free := rfl
@[simp] theorem State.store_out (s : State) (a : Nat) (bs : List Byte) : (s.store a bs).out = s.out := rfl
@[simp] theorem State.store_regs (s : State) (a : Nat) (bs : List Byte) : (s.store a bs).regs = s.regs := rfl
@[simp] theorem State.store_shadow (s : State) (a : Nat) (bs : List Byte) : (s.store a bs).shadow = s.shadow := rfl
@[simp] theorem State.store_staged (s : State) (a : Nat) (bs : List Byte) : (s.store a bs).staged = s.staged := rfl
@[simp] theorem State.store_errlog (s : State) (a : Nat) (bs : List Byte) : (s.store a bs).errlog = s.errlog := rfl
@[simp] theorem State.store_snaps (s : State) (a : Nat) (bs : List Byte) : (s.store a bs).snaps = s.snaps := rfl
@[simp] theorem State.store_map (s : State) (a : Nat) (bs : List Byte) : (s.store a bs).map = s.map := rfl
@[simp] theorem State.store_tmp (s : State) (a : Nat) (bs : List Byte) : (s.store a bs).tmp = s.tmp := rfl
@[simp] theorem State.store_attempt (s : State) (a : Nat) (bs : List Byte) : (s.store a bs).attempt = s.attempt := rfl
@[simp] theorem State.store_ctxs (s : State) (a : Nat) (bs : List Byte) : (s.store a bs).ctxs = s.ctxs := rfl
@[simp] theorem State.store_served (s : State) (a : Nat) (bs : List Byte) : (s.store a bs).served = s.served := rfl
@[simp] theorem State.store_flights (s : State) (a : Nat) (bs : List Byte) : (s.store a bs).flights = s.flights := rfl
@[simp] theorem State.store_nextFlight (s : State) (a : Nat) (bs : List Byte) : (s.store a bs).nextFlight = s.nextFlight := rfl
@[simp] theorem State.store_syn (s : State) (a : Nat) (bs : List Byte) : (s.store a bs).syn = s.syn := rfl
@[simp] theorem State.store_xp (s : State) (a : Nat) (bs : List Byte) : (s.store a bs).xp = s.xp := rfl
@[simp] theorem State.store_links (s : State) (a : Nat) (bs : List Byte) : (s.store a bs).links = s.links := rfl
@[simp] theorem State.store_ledger (s : State) (a : Nat) (bs : List Byte) : (s.store a bs).ledger = s.ledger := rfl
@[simp] theorem State.store_health (s : State) (a : Nat) (bs : List Byte) : (s.store a bs).health = s.health := rfl
@[simp] theorem State.store_host (s : State) (a : Nat) (bs : List Byte) : (s.store a bs).host = s.host := rfl
@[simp] theorem State.store_hbmStacks (s : State) (a : Nat) (bs : List Byte) : (s.store a bs).hbmStacks = s.hbmStacks := rfl
@[simp] theorem State.store_eng (s : State) (a : Nat) (bs : List Byte) : (s.store a bs).eng = s.eng := rfl
@[simp] theorem State.store_bist (s : State) (a : Nat) (bs : List Byte) : (s.store a bs).bist = s.bist := rfl
@[simp] theorem State.store_heals (s : State) (a : Nat) (bs : List Byte) : (s.store a bs).heals = s.heals := rfl
@[simp] theorem State.store_hscrub (s : State) (a : Nat) (bs : List Byte) : (s.store a bs).hscrub = s.hscrub := rfl
@[simp] theorem State.store_gathers (s : State) (a : Nat) (bs : List Byte) : (s.store a bs).gathers = s.gathers := rfl
@[simp] theorem State.store_weld (s : State) (a : Nat) (bs : List Byte) : (s.store a bs).weld = s.weld := rfl
@[simp] theorem State.store_slots (s : State) (a : Nat) (bs : List Byte) : (s.store a bs).slots = s.slots := rfl
@[simp] theorem State.store_algSet (s : State) (a : Nat) (bs : List Byte) : (s.store a bs).algSet = s.algSet := rfl
@[simp] theorem State.store_tchZeroing (s : State) (a : Nat) (bs : List Byte) : (s.store a bs).tchZeroing = s.tchZeroing := rfl
@[simp] theorem State.store_ckp (s : State) (a : Nat) (bs : List Byte) : (s.store a bs).ckp = s.ckp := rfl
@[simp] theorem State.store_power (s : State) (a : Nat) (bs : List Byte) : (s.store a bs).power = s.power := rfl
@[simp] theorem State.store_seq (s : State) (a : Nat) (bs : List Byte) : (s.store a bs).seq = s.seq := rfl
@[simp] theorem State.store_smc (s : State) (a : Nat) (bs : List Byte) : (s.store a bs).smc = s.smc := rfl
@[simp] theorem State.store_guest (s : State) (a : Nat) (bs : List Byte) : (s.store a bs).guest = s.guest := rfl

/-! `State.undefine` sets `mem` and `free` alone. -/
@[simp] theorem State.undefine_pending (s : State) (lo len : Nat) : (s.undefine lo len).pending = s.pending := rfl
@[simp] theorem State.undefine_now (s : State) (lo len : Nat) : (s.undefine lo len).now = s.now := rfl
@[simp] theorem State.undefine_clock (s : State) (lo len : Nat) : (s.undefine lo len).clock = s.clock := rfl
@[simp] theorem State.undefine_out (s : State) (lo len : Nat) : (s.undefine lo len).out = s.out := rfl
@[simp] theorem State.undefine_regs (s : State) (lo len : Nat) : (s.undefine lo len).regs = s.regs := rfl
@[simp] theorem State.undefine_shadow (s : State) (lo len : Nat) : (s.undefine lo len).shadow = s.shadow := rfl
@[simp] theorem State.undefine_staged (s : State) (lo len : Nat) : (s.undefine lo len).staged = s.staged := rfl
@[simp] theorem State.undefine_errlog (s : State) (lo len : Nat) : (s.undefine lo len).errlog = s.errlog := rfl
@[simp] theorem State.undefine_snaps (s : State) (lo len : Nat) : (s.undefine lo len).snaps = s.snaps := rfl
@[simp] theorem State.undefine_map (s : State) (lo len : Nat) : (s.undefine lo len).map = s.map := rfl
@[simp] theorem State.undefine_tmp (s : State) (lo len : Nat) : (s.undefine lo len).tmp = s.tmp := rfl
@[simp] theorem State.undefine_attempt (s : State) (lo len : Nat) : (s.undefine lo len).attempt = s.attempt := rfl
@[simp] theorem State.undefine_ctxs (s : State) (lo len : Nat) : (s.undefine lo len).ctxs = s.ctxs := rfl
@[simp] theorem State.undefine_served (s : State) (lo len : Nat) : (s.undefine lo len).served = s.served := rfl
@[simp] theorem State.undefine_flights (s : State) (lo len : Nat) : (s.undefine lo len).flights = s.flights := rfl
@[simp] theorem State.undefine_nextFlight (s : State) (lo len : Nat) : (s.undefine lo len).nextFlight = s.nextFlight := rfl
@[simp] theorem State.undefine_syn (s : State) (lo len : Nat) : (s.undefine lo len).syn = s.syn := rfl
@[simp] theorem State.undefine_xp (s : State) (lo len : Nat) : (s.undefine lo len).xp = s.xp := rfl
@[simp] theorem State.undefine_links (s : State) (lo len : Nat) : (s.undefine lo len).links = s.links := rfl
@[simp] theorem State.undefine_ledger (s : State) (lo len : Nat) : (s.undefine lo len).ledger = s.ledger := rfl
@[simp] theorem State.undefine_health (s : State) (lo len : Nat) : (s.undefine lo len).health = s.health := rfl
@[simp] theorem State.undefine_host (s : State) (lo len : Nat) : (s.undefine lo len).host = s.host := rfl
@[simp] theorem State.undefine_hbmStacks (s : State) (lo len : Nat) : (s.undefine lo len).hbmStacks = s.hbmStacks := rfl
@[simp] theorem State.undefine_eng (s : State) (lo len : Nat) : (s.undefine lo len).eng = s.eng := rfl
@[simp] theorem State.undefine_bist (s : State) (lo len : Nat) : (s.undefine lo len).bist = s.bist := rfl
@[simp] theorem State.undefine_heals (s : State) (lo len : Nat) : (s.undefine lo len).heals = s.heals := rfl
@[simp] theorem State.undefine_hscrub (s : State) (lo len : Nat) : (s.undefine lo len).hscrub = s.hscrub := rfl
@[simp] theorem State.undefine_gathers (s : State) (lo len : Nat) : (s.undefine lo len).gathers = s.gathers := rfl
@[simp] theorem State.undefine_weld (s : State) (lo len : Nat) : (s.undefine lo len).weld = s.weld := rfl
@[simp] theorem State.undefine_slots (s : State) (lo len : Nat) : (s.undefine lo len).slots = s.slots := rfl
@[simp] theorem State.undefine_algSet (s : State) (lo len : Nat) : (s.undefine lo len).algSet = s.algSet := rfl
@[simp] theorem State.undefine_tchZeroing (s : State) (lo len : Nat) : (s.undefine lo len).tchZeroing = s.tchZeroing := rfl
@[simp] theorem State.undefine_ckp (s : State) (lo len : Nat) : (s.undefine lo len).ckp = s.ckp := rfl
@[simp] theorem State.undefine_power (s : State) (lo len : Nat) : (s.undefine lo len).power = s.power := rfl
@[simp] theorem State.undefine_seq (s : State) (lo len : Nat) : (s.undefine lo len).seq = s.seq := rfl
@[simp] theorem State.undefine_smc (s : State) (lo len : Nat) : (s.undefine lo len).smc = s.smc := rfl
@[simp] theorem State.undefine_guest (s : State) (lo len : Nat) : (s.undefine lo len).guest = s.guest := rfl

/-! `State.zero` sets `mem` alone. -/
@[simp] theorem State.zero_pending (s : State) (lo len : Nat) : (s.zero lo len).pending = s.pending := rfl
@[simp] theorem State.zero_now (s : State) (lo len : Nat) : (s.zero lo len).now = s.now := rfl
@[simp] theorem State.zero_clock (s : State) (lo len : Nat) : (s.zero lo len).clock = s.clock := rfl
@[simp] theorem State.zero_free (s : State) (lo len : Nat) : (s.zero lo len).free = s.free := rfl
@[simp] theorem State.zero_out (s : State) (lo len : Nat) : (s.zero lo len).out = s.out := rfl
@[simp] theorem State.zero_regs (s : State) (lo len : Nat) : (s.zero lo len).regs = s.regs := rfl
@[simp] theorem State.zero_shadow (s : State) (lo len : Nat) : (s.zero lo len).shadow = s.shadow := rfl
@[simp] theorem State.zero_staged (s : State) (lo len : Nat) : (s.zero lo len).staged = s.staged := rfl
@[simp] theorem State.zero_errlog (s : State) (lo len : Nat) : (s.zero lo len).errlog = s.errlog := rfl
@[simp] theorem State.zero_snaps (s : State) (lo len : Nat) : (s.zero lo len).snaps = s.snaps := rfl
@[simp] theorem State.zero_map (s : State) (lo len : Nat) : (s.zero lo len).map = s.map := rfl
@[simp] theorem State.zero_tmp (s : State) (lo len : Nat) : (s.zero lo len).tmp = s.tmp := rfl
@[simp] theorem State.zero_attempt (s : State) (lo len : Nat) : (s.zero lo len).attempt = s.attempt := rfl
@[simp] theorem State.zero_ctxs (s : State) (lo len : Nat) : (s.zero lo len).ctxs = s.ctxs := rfl
@[simp] theorem State.zero_served (s : State) (lo len : Nat) : (s.zero lo len).served = s.served := rfl
@[simp] theorem State.zero_flights (s : State) (lo len : Nat) : (s.zero lo len).flights = s.flights := rfl
@[simp] theorem State.zero_nextFlight (s : State) (lo len : Nat) : (s.zero lo len).nextFlight = s.nextFlight := rfl
@[simp] theorem State.zero_syn (s : State) (lo len : Nat) : (s.zero lo len).syn = s.syn := rfl
@[simp] theorem State.zero_xp (s : State) (lo len : Nat) : (s.zero lo len).xp = s.xp := rfl
@[simp] theorem State.zero_links (s : State) (lo len : Nat) : (s.zero lo len).links = s.links := rfl
@[simp] theorem State.zero_ledger (s : State) (lo len : Nat) : (s.zero lo len).ledger = s.ledger := rfl
@[simp] theorem State.zero_health (s : State) (lo len : Nat) : (s.zero lo len).health = s.health := rfl
@[simp] theorem State.zero_host (s : State) (lo len : Nat) : (s.zero lo len).host = s.host := rfl
@[simp] theorem State.zero_hbmStacks (s : State) (lo len : Nat) : (s.zero lo len).hbmStacks = s.hbmStacks := rfl
@[simp] theorem State.zero_eng (s : State) (lo len : Nat) : (s.zero lo len).eng = s.eng := rfl
@[simp] theorem State.zero_bist (s : State) (lo len : Nat) : (s.zero lo len).bist = s.bist := rfl
@[simp] theorem State.zero_heals (s : State) (lo len : Nat) : (s.zero lo len).heals = s.heals := rfl
@[simp] theorem State.zero_hscrub (s : State) (lo len : Nat) : (s.zero lo len).hscrub = s.hscrub := rfl
@[simp] theorem State.zero_gathers (s : State) (lo len : Nat) : (s.zero lo len).gathers = s.gathers := rfl
@[simp] theorem State.zero_weld (s : State) (lo len : Nat) : (s.zero lo len).weld = s.weld := rfl
@[simp] theorem State.zero_slots (s : State) (lo len : Nat) : (s.zero lo len).slots = s.slots := rfl
@[simp] theorem State.zero_algSet (s : State) (lo len : Nat) : (s.zero lo len).algSet = s.algSet := rfl
@[simp] theorem State.zero_tchZeroing (s : State) (lo len : Nat) : (s.zero lo len).tchZeroing = s.tchZeroing := rfl
@[simp] theorem State.zero_ckp (s : State) (lo len : Nat) : (s.zero lo len).ckp = s.ckp := rfl
@[simp] theorem State.zero_power (s : State) (lo len : Nat) : (s.zero lo len).power = s.power := rfl
@[simp] theorem State.zero_seq (s : State) (lo len : Nat) : (s.zero lo len).seq = s.seq := rfl
@[simp] theorem State.zero_smc (s : State) (lo len : Nat) : (s.zero lo len).smc = s.smc := rfl
@[simp] theorem State.zero_guest (s : State) (lo len : Nat) : (s.zero lo len).guest = s.guest := rfl

/-! `State.setStack` sets `hbmStacks` alone. -/
@[simp] theorem State.setStack_pending (s : State) (n : Nat) (x : Stack) : (s.setStack n x).pending = s.pending := rfl
@[simp] theorem State.setStack_now (s : State) (n : Nat) (x : Stack) : (s.setStack n x).now = s.now := rfl
@[simp] theorem State.setStack_clock (s : State) (n : Nat) (x : Stack) : (s.setStack n x).clock = s.clock := rfl
@[simp] theorem State.setStack_free (s : State) (n : Nat) (x : Stack) : (s.setStack n x).free = s.free := rfl
@[simp] theorem State.setStack_out (s : State) (n : Nat) (x : Stack) : (s.setStack n x).out = s.out := rfl
@[simp] theorem State.setStack_regs (s : State) (n : Nat) (x : Stack) : (s.setStack n x).regs = s.regs := rfl
@[simp] theorem State.setStack_shadow (s : State) (n : Nat) (x : Stack) : (s.setStack n x).shadow = s.shadow := rfl
@[simp] theorem State.setStack_staged (s : State) (n : Nat) (x : Stack) : (s.setStack n x).staged = s.staged := rfl
@[simp] theorem State.setStack_errlog (s : State) (n : Nat) (x : Stack) : (s.setStack n x).errlog = s.errlog := rfl
@[simp] theorem State.setStack_snaps (s : State) (n : Nat) (x : Stack) : (s.setStack n x).snaps = s.snaps := rfl
@[simp] theorem State.setStack_map (s : State) (n : Nat) (x : Stack) : (s.setStack n x).map = s.map := rfl
@[simp] theorem State.setStack_tmp (s : State) (n : Nat) (x : Stack) : (s.setStack n x).tmp = s.tmp := rfl
@[simp] theorem State.setStack_attempt (s : State) (n : Nat) (x : Stack) : (s.setStack n x).attempt = s.attempt := rfl
@[simp] theorem State.setStack_ctxs (s : State) (n : Nat) (x : Stack) : (s.setStack n x).ctxs = s.ctxs := rfl
@[simp] theorem State.setStack_served (s : State) (n : Nat) (x : Stack) : (s.setStack n x).served = s.served := rfl
@[simp] theorem State.setStack_flights (s : State) (n : Nat) (x : Stack) : (s.setStack n x).flights = s.flights := rfl
@[simp] theorem State.setStack_nextFlight (s : State) (n : Nat) (x : Stack) : (s.setStack n x).nextFlight = s.nextFlight := rfl
@[simp] theorem State.setStack_syn (s : State) (n : Nat) (x : Stack) : (s.setStack n x).syn = s.syn := rfl
@[simp] theorem State.setStack_xp (s : State) (n : Nat) (x : Stack) : (s.setStack n x).xp = s.xp := rfl
@[simp] theorem State.setStack_links (s : State) (n : Nat) (x : Stack) : (s.setStack n x).links = s.links := rfl
@[simp] theorem State.setStack_ledger (s : State) (n : Nat) (x : Stack) : (s.setStack n x).ledger = s.ledger := rfl
@[simp] theorem State.setStack_health (s : State) (n : Nat) (x : Stack) : (s.setStack n x).health = s.health := rfl
@[simp] theorem State.setStack_host (s : State) (n : Nat) (x : Stack) : (s.setStack n x).host = s.host := rfl
@[simp] theorem State.setStack_eng (s : State) (n : Nat) (x : Stack) : (s.setStack n x).eng = s.eng := rfl
@[simp] theorem State.setStack_bist (s : State) (n : Nat) (x : Stack) : (s.setStack n x).bist = s.bist := rfl
@[simp] theorem State.setStack_heals (s : State) (n : Nat) (x : Stack) : (s.setStack n x).heals = s.heals := rfl
@[simp] theorem State.setStack_hscrub (s : State) (n : Nat) (x : Stack) : (s.setStack n x).hscrub = s.hscrub := rfl
@[simp] theorem State.setStack_gathers (s : State) (n : Nat) (x : Stack) : (s.setStack n x).gathers = s.gathers := rfl
@[simp] theorem State.setStack_weld (s : State) (n : Nat) (x : Stack) : (s.setStack n x).weld = s.weld := rfl
@[simp] theorem State.setStack_slots (s : State) (n : Nat) (x : Stack) : (s.setStack n x).slots = s.slots := rfl
@[simp] theorem State.setStack_algSet (s : State) (n : Nat) (x : Stack) : (s.setStack n x).algSet = s.algSet := rfl
@[simp] theorem State.setStack_tchZeroing (s : State) (n : Nat) (x : Stack) : (s.setStack n x).tchZeroing = s.tchZeroing := rfl
@[simp] theorem State.setStack_ckp (s : State) (n : Nat) (x : Stack) : (s.setStack n x).ckp = s.ckp := rfl
@[simp] theorem State.setStack_power (s : State) (n : Nat) (x : Stack) : (s.setStack n x).power = s.power := rfl
@[simp] theorem State.setStack_seq (s : State) (n : Nat) (x : Stack) : (s.setStack n x).seq = s.seq := rfl
@[simp] theorem State.setStack_smc (s : State) (n : Nat) (x : Stack) : (s.setStack n x).smc = s.smc := rfl
@[simp] theorem State.setStack_guest (s : State) (n : Nat) (x : Stack) : (s.setStack n x).guest = s.guest := rfl

/-! `State.setFlow` sets `xp` alone. -/
@[simp] theorem State.setFlow_pending (s : State) (f : Nat) (x : Flow) : (s.setFlow f x).pending = s.pending := rfl
@[simp] theorem State.setFlow_now (s : State) (f : Nat) (x : Flow) : (s.setFlow f x).now = s.now := rfl
@[simp] theorem State.setFlow_clock (s : State) (f : Nat) (x : Flow) : (s.setFlow f x).clock = s.clock := rfl
@[simp] theorem State.setFlow_free (s : State) (f : Nat) (x : Flow) : (s.setFlow f x).free = s.free := rfl
@[simp] theorem State.setFlow_out (s : State) (f : Nat) (x : Flow) : (s.setFlow f x).out = s.out := rfl
@[simp] theorem State.setFlow_regs (s : State) (f : Nat) (x : Flow) : (s.setFlow f x).regs = s.regs := rfl
@[simp] theorem State.setFlow_shadow (s : State) (f : Nat) (x : Flow) : (s.setFlow f x).shadow = s.shadow := rfl
@[simp] theorem State.setFlow_staged (s : State) (f : Nat) (x : Flow) : (s.setFlow f x).staged = s.staged := rfl
@[simp] theorem State.setFlow_errlog (s : State) (f : Nat) (x : Flow) : (s.setFlow f x).errlog = s.errlog := rfl
@[simp] theorem State.setFlow_snaps (s : State) (f : Nat) (x : Flow) : (s.setFlow f x).snaps = s.snaps := rfl
@[simp] theorem State.setFlow_map (s : State) (f : Nat) (x : Flow) : (s.setFlow f x).map = s.map := rfl
@[simp] theorem State.setFlow_tmp (s : State) (f : Nat) (x : Flow) : (s.setFlow f x).tmp = s.tmp := rfl
@[simp] theorem State.setFlow_attempt (s : State) (f : Nat) (x : Flow) : (s.setFlow f x).attempt = s.attempt := rfl
@[simp] theorem State.setFlow_ctxs (s : State) (f : Nat) (x : Flow) : (s.setFlow f x).ctxs = s.ctxs := rfl
@[simp] theorem State.setFlow_served (s : State) (f : Nat) (x : Flow) : (s.setFlow f x).served = s.served := rfl
@[simp] theorem State.setFlow_flights (s : State) (f : Nat) (x : Flow) : (s.setFlow f x).flights = s.flights := rfl
@[simp] theorem State.setFlow_nextFlight (s : State) (f : Nat) (x : Flow) : (s.setFlow f x).nextFlight = s.nextFlight := rfl
@[simp] theorem State.setFlow_syn (s : State) (f : Nat) (x : Flow) : (s.setFlow f x).syn = s.syn := rfl
@[simp] theorem State.setFlow_links (s : State) (f : Nat) (x : Flow) : (s.setFlow f x).links = s.links := rfl
@[simp] theorem State.setFlow_ledger (s : State) (f : Nat) (x : Flow) : (s.setFlow f x).ledger = s.ledger := rfl
@[simp] theorem State.setFlow_health (s : State) (f : Nat) (x : Flow) : (s.setFlow f x).health = s.health := rfl
@[simp] theorem State.setFlow_host (s : State) (f : Nat) (x : Flow) : (s.setFlow f x).host = s.host := rfl
@[simp] theorem State.setFlow_hbmStacks (s : State) (f : Nat) (x : Flow) : (s.setFlow f x).hbmStacks = s.hbmStacks := rfl
@[simp] theorem State.setFlow_eng (s : State) (f : Nat) (x : Flow) : (s.setFlow f x).eng = s.eng := rfl
@[simp] theorem State.setFlow_bist (s : State) (f : Nat) (x : Flow) : (s.setFlow f x).bist = s.bist := rfl
@[simp] theorem State.setFlow_heals (s : State) (f : Nat) (x : Flow) : (s.setFlow f x).heals = s.heals := rfl
@[simp] theorem State.setFlow_hscrub (s : State) (f : Nat) (x : Flow) : (s.setFlow f x).hscrub = s.hscrub := rfl
@[simp] theorem State.setFlow_gathers (s : State) (f : Nat) (x : Flow) : (s.setFlow f x).gathers = s.gathers := rfl
@[simp] theorem State.setFlow_weld (s : State) (f : Nat) (x : Flow) : (s.setFlow f x).weld = s.weld := rfl
@[simp] theorem State.setFlow_slots (s : State) (f : Nat) (x : Flow) : (s.setFlow f x).slots = s.slots := rfl
@[simp] theorem State.setFlow_algSet (s : State) (f : Nat) (x : Flow) : (s.setFlow f x).algSet = s.algSet := rfl
@[simp] theorem State.setFlow_tchZeroing (s : State) (f : Nat) (x : Flow) : (s.setFlow f x).tchZeroing = s.tchZeroing := rfl
@[simp] theorem State.setFlow_ckp (s : State) (f : Nat) (x : Flow) : (s.setFlow f x).ckp = s.ckp := rfl
@[simp] theorem State.setFlow_power (s : State) (f : Nat) (x : Flow) : (s.setFlow f x).power = s.power := rfl
@[simp] theorem State.setFlow_seq (s : State) (f : Nat) (x : Flow) : (s.setFlow f x).seq = s.seq := rfl
@[simp] theorem State.setFlow_smc (s : State) (f : Nat) (x : Flow) : (s.setFlow f x).smc = s.smc := rfl
@[simp] theorem State.setFlow_guest (s : State) (f : Nat) (x : Flow) : (s.setFlow f x).guest = s.guest := rfl

/-! `State.setFlight` sets `flights` alone. -/
@[simp] theorem State.setFlight_pending (s : State) (id : Nat) (f : Flight) : (s.setFlight id f).pending = s.pending := rfl
@[simp] theorem State.setFlight_now (s : State) (id : Nat) (f : Flight) : (s.setFlight id f).now = s.now := rfl
@[simp] theorem State.setFlight_clock (s : State) (id : Nat) (f : Flight) : (s.setFlight id f).clock = s.clock := rfl
@[simp] theorem State.setFlight_free (s : State) (id : Nat) (f : Flight) : (s.setFlight id f).free = s.free := rfl
@[simp] theorem State.setFlight_out (s : State) (id : Nat) (f : Flight) : (s.setFlight id f).out = s.out := rfl
@[simp] theorem State.setFlight_regs (s : State) (id : Nat) (f : Flight) : (s.setFlight id f).regs = s.regs := rfl
@[simp] theorem State.setFlight_shadow (s : State) (id : Nat) (f : Flight) : (s.setFlight id f).shadow = s.shadow := rfl
@[simp] theorem State.setFlight_staged (s : State) (id : Nat) (f : Flight) : (s.setFlight id f).staged = s.staged := rfl
@[simp] theorem State.setFlight_errlog (s : State) (id : Nat) (f : Flight) : (s.setFlight id f).errlog = s.errlog := rfl
@[simp] theorem State.setFlight_snaps (s : State) (id : Nat) (f : Flight) : (s.setFlight id f).snaps = s.snaps := rfl
@[simp] theorem State.setFlight_map (s : State) (id : Nat) (f : Flight) : (s.setFlight id f).map = s.map := rfl
@[simp] theorem State.setFlight_tmp (s : State) (id : Nat) (f : Flight) : (s.setFlight id f).tmp = s.tmp := rfl
@[simp] theorem State.setFlight_attempt (s : State) (id : Nat) (f : Flight) : (s.setFlight id f).attempt = s.attempt := rfl
@[simp] theorem State.setFlight_ctxs (s : State) (id : Nat) (f : Flight) : (s.setFlight id f).ctxs = s.ctxs := rfl
@[simp] theorem State.setFlight_served (s : State) (id : Nat) (f : Flight) : (s.setFlight id f).served = s.served := rfl
@[simp] theorem State.setFlight_nextFlight (s : State) (id : Nat) (f : Flight) : (s.setFlight id f).nextFlight = s.nextFlight := rfl
@[simp] theorem State.setFlight_syn (s : State) (id : Nat) (f : Flight) : (s.setFlight id f).syn = s.syn := rfl
@[simp] theorem State.setFlight_xp (s : State) (id : Nat) (f : Flight) : (s.setFlight id f).xp = s.xp := rfl
@[simp] theorem State.setFlight_links (s : State) (id : Nat) (f : Flight) : (s.setFlight id f).links = s.links := rfl
@[simp] theorem State.setFlight_ledger (s : State) (id : Nat) (f : Flight) : (s.setFlight id f).ledger = s.ledger := rfl
@[simp] theorem State.setFlight_health (s : State) (id : Nat) (f : Flight) : (s.setFlight id f).health = s.health := rfl
@[simp] theorem State.setFlight_host (s : State) (id : Nat) (f : Flight) : (s.setFlight id f).host = s.host := rfl
@[simp] theorem State.setFlight_hbmStacks (s : State) (id : Nat) (f : Flight) : (s.setFlight id f).hbmStacks = s.hbmStacks := rfl
@[simp] theorem State.setFlight_eng (s : State) (id : Nat) (f : Flight) : (s.setFlight id f).eng = s.eng := rfl
@[simp] theorem State.setFlight_bist (s : State) (id : Nat) (f : Flight) : (s.setFlight id f).bist = s.bist := rfl
@[simp] theorem State.setFlight_heals (s : State) (id : Nat) (f : Flight) : (s.setFlight id f).heals = s.heals := rfl
@[simp] theorem State.setFlight_hscrub (s : State) (id : Nat) (f : Flight) : (s.setFlight id f).hscrub = s.hscrub := rfl
@[simp] theorem State.setFlight_gathers (s : State) (id : Nat) (f : Flight) : (s.setFlight id f).gathers = s.gathers := rfl
@[simp] theorem State.setFlight_weld (s : State) (id : Nat) (f : Flight) : (s.setFlight id f).weld = s.weld := rfl
@[simp] theorem State.setFlight_slots (s : State) (id : Nat) (f : Flight) : (s.setFlight id f).slots = s.slots := rfl
@[simp] theorem State.setFlight_algSet (s : State) (id : Nat) (f : Flight) : (s.setFlight id f).algSet = s.algSet := rfl
@[simp] theorem State.setFlight_tchZeroing (s : State) (id : Nat) (f : Flight) : (s.setFlight id f).tchZeroing = s.tchZeroing := rfl
@[simp] theorem State.setFlight_ckp (s : State) (id : Nat) (f : Flight) : (s.setFlight id f).ckp = s.ckp := rfl
@[simp] theorem State.setFlight_power (s : State) (id : Nat) (f : Flight) : (s.setFlight id f).power = s.power := rfl
@[simp] theorem State.setFlight_seq (s : State) (id : Nat) (f : Flight) : (s.setFlight id f).seq = s.seq := rfl
@[simp] theorem State.setFlight_smc (s : State) (id : Nat) (f : Flight) : (s.setFlight id f).smc = s.smc := rfl
@[simp] theorem State.setFlight_guest (s : State) (id : Nat) (f : Flight) : (s.setFlight id f).guest = s.guest := rfl

/-! `State.setCounter` sets `syn` alone. -/
@[simp] theorem State.setCounter_pending (s : State) (k : Nat) (x : Counter) : (s.setCounter k x).pending = s.pending := rfl
@[simp] theorem State.setCounter_now (s : State) (k : Nat) (x : Counter) : (s.setCounter k x).now = s.now := rfl
@[simp] theorem State.setCounter_clock (s : State) (k : Nat) (x : Counter) : (s.setCounter k x).clock = s.clock := rfl
@[simp] theorem State.setCounter_free (s : State) (k : Nat) (x : Counter) : (s.setCounter k x).free = s.free := rfl
@[simp] theorem State.setCounter_out (s : State) (k : Nat) (x : Counter) : (s.setCounter k x).out = s.out := rfl
@[simp] theorem State.setCounter_regs (s : State) (k : Nat) (x : Counter) : (s.setCounter k x).regs = s.regs := rfl
@[simp] theorem State.setCounter_shadow (s : State) (k : Nat) (x : Counter) : (s.setCounter k x).shadow = s.shadow := rfl
@[simp] theorem State.setCounter_staged (s : State) (k : Nat) (x : Counter) : (s.setCounter k x).staged = s.staged := rfl
@[simp] theorem State.setCounter_errlog (s : State) (k : Nat) (x : Counter) : (s.setCounter k x).errlog = s.errlog := rfl
@[simp] theorem State.setCounter_snaps (s : State) (k : Nat) (x : Counter) : (s.setCounter k x).snaps = s.snaps := rfl
@[simp] theorem State.setCounter_map (s : State) (k : Nat) (x : Counter) : (s.setCounter k x).map = s.map := rfl
@[simp] theorem State.setCounter_tmp (s : State) (k : Nat) (x : Counter) : (s.setCounter k x).tmp = s.tmp := rfl
@[simp] theorem State.setCounter_attempt (s : State) (k : Nat) (x : Counter) : (s.setCounter k x).attempt = s.attempt := rfl
@[simp] theorem State.setCounter_ctxs (s : State) (k : Nat) (x : Counter) : (s.setCounter k x).ctxs = s.ctxs := rfl
@[simp] theorem State.setCounter_served (s : State) (k : Nat) (x : Counter) : (s.setCounter k x).served = s.served := rfl
@[simp] theorem State.setCounter_flights (s : State) (k : Nat) (x : Counter) : (s.setCounter k x).flights = s.flights := rfl
@[simp] theorem State.setCounter_nextFlight (s : State) (k : Nat) (x : Counter) : (s.setCounter k x).nextFlight = s.nextFlight := rfl
@[simp] theorem State.setCounter_xp (s : State) (k : Nat) (x : Counter) : (s.setCounter k x).xp = s.xp := rfl
@[simp] theorem State.setCounter_links (s : State) (k : Nat) (x : Counter) : (s.setCounter k x).links = s.links := rfl
@[simp] theorem State.setCounter_ledger (s : State) (k : Nat) (x : Counter) : (s.setCounter k x).ledger = s.ledger := rfl
@[simp] theorem State.setCounter_health (s : State) (k : Nat) (x : Counter) : (s.setCounter k x).health = s.health := rfl
@[simp] theorem State.setCounter_host (s : State) (k : Nat) (x : Counter) : (s.setCounter k x).host = s.host := rfl
@[simp] theorem State.setCounter_hbmStacks (s : State) (k : Nat) (x : Counter) : (s.setCounter k x).hbmStacks = s.hbmStacks := rfl
@[simp] theorem State.setCounter_eng (s : State) (k : Nat) (x : Counter) : (s.setCounter k x).eng = s.eng := rfl
@[simp] theorem State.setCounter_bist (s : State) (k : Nat) (x : Counter) : (s.setCounter k x).bist = s.bist := rfl
@[simp] theorem State.setCounter_heals (s : State) (k : Nat) (x : Counter) : (s.setCounter k x).heals = s.heals := rfl
@[simp] theorem State.setCounter_hscrub (s : State) (k : Nat) (x : Counter) : (s.setCounter k x).hscrub = s.hscrub := rfl
@[simp] theorem State.setCounter_gathers (s : State) (k : Nat) (x : Counter) : (s.setCounter k x).gathers = s.gathers := rfl
@[simp] theorem State.setCounter_weld (s : State) (k : Nat) (x : Counter) : (s.setCounter k x).weld = s.weld := rfl
@[simp] theorem State.setCounter_slots (s : State) (k : Nat) (x : Counter) : (s.setCounter k x).slots = s.slots := rfl
@[simp] theorem State.setCounter_algSet (s : State) (k : Nat) (x : Counter) : (s.setCounter k x).algSet = s.algSet := rfl
@[simp] theorem State.setCounter_tchZeroing (s : State) (k : Nat) (x : Counter) : (s.setCounter k x).tchZeroing = s.tchZeroing := rfl
@[simp] theorem State.setCounter_ckp (s : State) (k : Nat) (x : Counter) : (s.setCounter k x).ckp = s.ckp := rfl
@[simp] theorem State.setCounter_power (s : State) (k : Nat) (x : Counter) : (s.setCounter k x).power = s.power := rfl
@[simp] theorem State.setCounter_seq (s : State) (k : Nat) (x : Counter) : (s.setCounter k x).seq = s.seq := rfl
@[simp] theorem State.setCounter_smc (s : State) (k : Nat) (x : Counter) : (s.setCounter k x).smc = s.smc := rfl
@[simp] theorem State.setCounter_guest (s : State) (k : Nat) (x : Counter) : (s.setCounter k x).guest = s.guest := rfl

/-! `State.setMma` sets `eng` alone. -/
@[simp] theorem State.setMma_pending (s : State) (id : Nat) (m : Mma) : (s.setMma id m).pending = s.pending := rfl
@[simp] theorem State.setMma_now (s : State) (id : Nat) (m : Mma) : (s.setMma id m).now = s.now := rfl
@[simp] theorem State.setMma_clock (s : State) (id : Nat) (m : Mma) : (s.setMma id m).clock = s.clock := rfl
@[simp] theorem State.setMma_free (s : State) (id : Nat) (m : Mma) : (s.setMma id m).free = s.free := rfl
@[simp] theorem State.setMma_out (s : State) (id : Nat) (m : Mma) : (s.setMma id m).out = s.out := rfl
@[simp] theorem State.setMma_regs (s : State) (id : Nat) (m : Mma) : (s.setMma id m).regs = s.regs := rfl
@[simp] theorem State.setMma_shadow (s : State) (id : Nat) (m : Mma) : (s.setMma id m).shadow = s.shadow := rfl
@[simp] theorem State.setMma_staged (s : State) (id : Nat) (m : Mma) : (s.setMma id m).staged = s.staged := rfl
@[simp] theorem State.setMma_errlog (s : State) (id : Nat) (m : Mma) : (s.setMma id m).errlog = s.errlog := rfl
@[simp] theorem State.setMma_snaps (s : State) (id : Nat) (m : Mma) : (s.setMma id m).snaps = s.snaps := rfl
@[simp] theorem State.setMma_map (s : State) (id : Nat) (m : Mma) : (s.setMma id m).map = s.map := rfl
@[simp] theorem State.setMma_tmp (s : State) (id : Nat) (m : Mma) : (s.setMma id m).tmp = s.tmp := rfl
@[simp] theorem State.setMma_attempt (s : State) (id : Nat) (m : Mma) : (s.setMma id m).attempt = s.attempt := rfl
@[simp] theorem State.setMma_ctxs (s : State) (id : Nat) (m : Mma) : (s.setMma id m).ctxs = s.ctxs := rfl
@[simp] theorem State.setMma_served (s : State) (id : Nat) (m : Mma) : (s.setMma id m).served = s.served := rfl
@[simp] theorem State.setMma_flights (s : State) (id : Nat) (m : Mma) : (s.setMma id m).flights = s.flights := rfl
@[simp] theorem State.setMma_nextFlight (s : State) (id : Nat) (m : Mma) : (s.setMma id m).nextFlight = s.nextFlight := rfl
@[simp] theorem State.setMma_syn (s : State) (id : Nat) (m : Mma) : (s.setMma id m).syn = s.syn := rfl
@[simp] theorem State.setMma_xp (s : State) (id : Nat) (m : Mma) : (s.setMma id m).xp = s.xp := rfl
@[simp] theorem State.setMma_links (s : State) (id : Nat) (m : Mma) : (s.setMma id m).links = s.links := rfl
@[simp] theorem State.setMma_ledger (s : State) (id : Nat) (m : Mma) : (s.setMma id m).ledger = s.ledger := rfl
@[simp] theorem State.setMma_health (s : State) (id : Nat) (m : Mma) : (s.setMma id m).health = s.health := rfl
@[simp] theorem State.setMma_host (s : State) (id : Nat) (m : Mma) : (s.setMma id m).host = s.host := rfl
@[simp] theorem State.setMma_hbmStacks (s : State) (id : Nat) (m : Mma) : (s.setMma id m).hbmStacks = s.hbmStacks := rfl
@[simp] theorem State.setMma_bist (s : State) (id : Nat) (m : Mma) : (s.setMma id m).bist = s.bist := rfl
@[simp] theorem State.setMma_heals (s : State) (id : Nat) (m : Mma) : (s.setMma id m).heals = s.heals := rfl
@[simp] theorem State.setMma_hscrub (s : State) (id : Nat) (m : Mma) : (s.setMma id m).hscrub = s.hscrub := rfl
@[simp] theorem State.setMma_gathers (s : State) (id : Nat) (m : Mma) : (s.setMma id m).gathers = s.gathers := rfl
@[simp] theorem State.setMma_weld (s : State) (id : Nat) (m : Mma) : (s.setMma id m).weld = s.weld := rfl
@[simp] theorem State.setMma_slots (s : State) (id : Nat) (m : Mma) : (s.setMma id m).slots = s.slots := rfl
@[simp] theorem State.setMma_algSet (s : State) (id : Nat) (m : Mma) : (s.setMma id m).algSet = s.algSet := rfl
@[simp] theorem State.setMma_tchZeroing (s : State) (id : Nat) (m : Mma) : (s.setMma id m).tchZeroing = s.tchZeroing := rfl
@[simp] theorem State.setMma_ckp (s : State) (id : Nat) (m : Mma) : (s.setMma id m).ckp = s.ckp := rfl
@[simp] theorem State.setMma_power (s : State) (id : Nat) (m : Mma) : (s.setMma id m).power = s.power := rfl
@[simp] theorem State.setMma_seq (s : State) (id : Nat) (m : Mma) : (s.setMma id m).seq = s.seq := rfl
@[simp] theorem State.setMma_smc (s : State) (id : Nat) (m : Mma) : (s.setMma id m).smc = s.smc := rfl
@[simp] theorem State.setMma_guest (s : State) (id : Nat) (m : Mma) : (s.setMma id m).guest = s.guest := rfl

/-! `State.setVec` sets `eng` alone. -/
@[simp] theorem State.setVec_pending (s : State) (id : Nat) (v : Vec) : (s.setVec id v).pending = s.pending := rfl
@[simp] theorem State.setVec_now (s : State) (id : Nat) (v : Vec) : (s.setVec id v).now = s.now := rfl
@[simp] theorem State.setVec_clock (s : State) (id : Nat) (v : Vec) : (s.setVec id v).clock = s.clock := rfl
@[simp] theorem State.setVec_free (s : State) (id : Nat) (v : Vec) : (s.setVec id v).free = s.free := rfl
@[simp] theorem State.setVec_out (s : State) (id : Nat) (v : Vec) : (s.setVec id v).out = s.out := rfl
@[simp] theorem State.setVec_regs (s : State) (id : Nat) (v : Vec) : (s.setVec id v).regs = s.regs := rfl
@[simp] theorem State.setVec_shadow (s : State) (id : Nat) (v : Vec) : (s.setVec id v).shadow = s.shadow := rfl
@[simp] theorem State.setVec_staged (s : State) (id : Nat) (v : Vec) : (s.setVec id v).staged = s.staged := rfl
@[simp] theorem State.setVec_errlog (s : State) (id : Nat) (v : Vec) : (s.setVec id v).errlog = s.errlog := rfl
@[simp] theorem State.setVec_snaps (s : State) (id : Nat) (v : Vec) : (s.setVec id v).snaps = s.snaps := rfl
@[simp] theorem State.setVec_map (s : State) (id : Nat) (v : Vec) : (s.setVec id v).map = s.map := rfl
@[simp] theorem State.setVec_tmp (s : State) (id : Nat) (v : Vec) : (s.setVec id v).tmp = s.tmp := rfl
@[simp] theorem State.setVec_attempt (s : State) (id : Nat) (v : Vec) : (s.setVec id v).attempt = s.attempt := rfl
@[simp] theorem State.setVec_ctxs (s : State) (id : Nat) (v : Vec) : (s.setVec id v).ctxs = s.ctxs := rfl
@[simp] theorem State.setVec_served (s : State) (id : Nat) (v : Vec) : (s.setVec id v).served = s.served := rfl
@[simp] theorem State.setVec_flights (s : State) (id : Nat) (v : Vec) : (s.setVec id v).flights = s.flights := rfl
@[simp] theorem State.setVec_nextFlight (s : State) (id : Nat) (v : Vec) : (s.setVec id v).nextFlight = s.nextFlight := rfl
@[simp] theorem State.setVec_syn (s : State) (id : Nat) (v : Vec) : (s.setVec id v).syn = s.syn := rfl
@[simp] theorem State.setVec_xp (s : State) (id : Nat) (v : Vec) : (s.setVec id v).xp = s.xp := rfl
@[simp] theorem State.setVec_links (s : State) (id : Nat) (v : Vec) : (s.setVec id v).links = s.links := rfl
@[simp] theorem State.setVec_ledger (s : State) (id : Nat) (v : Vec) : (s.setVec id v).ledger = s.ledger := rfl
@[simp] theorem State.setVec_health (s : State) (id : Nat) (v : Vec) : (s.setVec id v).health = s.health := rfl
@[simp] theorem State.setVec_host (s : State) (id : Nat) (v : Vec) : (s.setVec id v).host = s.host := rfl
@[simp] theorem State.setVec_hbmStacks (s : State) (id : Nat) (v : Vec) : (s.setVec id v).hbmStacks = s.hbmStacks := rfl
@[simp] theorem State.setVec_bist (s : State) (id : Nat) (v : Vec) : (s.setVec id v).bist = s.bist := rfl
@[simp] theorem State.setVec_heals (s : State) (id : Nat) (v : Vec) : (s.setVec id v).heals = s.heals := rfl
@[simp] theorem State.setVec_hscrub (s : State) (id : Nat) (v : Vec) : (s.setVec id v).hscrub = s.hscrub := rfl
@[simp] theorem State.setVec_gathers (s : State) (id : Nat) (v : Vec) : (s.setVec id v).gathers = s.gathers := rfl
@[simp] theorem State.setVec_weld (s : State) (id : Nat) (v : Vec) : (s.setVec id v).weld = s.weld := rfl
@[simp] theorem State.setVec_slots (s : State) (id : Nat) (v : Vec) : (s.setVec id v).slots = s.slots := rfl
@[simp] theorem State.setVec_algSet (s : State) (id : Nat) (v : Vec) : (s.setVec id v).algSet = s.algSet := rfl
@[simp] theorem State.setVec_tchZeroing (s : State) (id : Nat) (v : Vec) : (s.setVec id v).tchZeroing = s.tchZeroing := rfl
@[simp] theorem State.setVec_ckp (s : State) (id : Nat) (v : Vec) : (s.setVec id v).ckp = s.ckp := rfl
@[simp] theorem State.setVec_power (s : State) (id : Nat) (v : Vec) : (s.setVec id v).power = s.power := rfl
@[simp] theorem State.setVec_seq (s : State) (id : Nat) (v : Vec) : (s.setVec id v).seq = s.seq := rfl
@[simp] theorem State.setVec_smc (s : State) (id : Nat) (v : Vec) : (s.setVec id v).smc = s.smc := rfl
@[simp] theorem State.setVec_guest (s : State) (id : Nat) (v : Vec) : (s.setVec id v).guest = s.guest := rfl

/-! `State.setColl` sets `weld` alone. -/
@[simp] theorem State.setColl_pending (s : State) (id : Nat) (c : Coll) : (s.setColl id c).pending = s.pending := rfl
@[simp] theorem State.setColl_now (s : State) (id : Nat) (c : Coll) : (s.setColl id c).now = s.now := rfl
@[simp] theorem State.setColl_clock (s : State) (id : Nat) (c : Coll) : (s.setColl id c).clock = s.clock := rfl
@[simp] theorem State.setColl_free (s : State) (id : Nat) (c : Coll) : (s.setColl id c).free = s.free := rfl
@[simp] theorem State.setColl_out (s : State) (id : Nat) (c : Coll) : (s.setColl id c).out = s.out := rfl
@[simp] theorem State.setColl_regs (s : State) (id : Nat) (c : Coll) : (s.setColl id c).regs = s.regs := rfl
@[simp] theorem State.setColl_shadow (s : State) (id : Nat) (c : Coll) : (s.setColl id c).shadow = s.shadow := rfl
@[simp] theorem State.setColl_staged (s : State) (id : Nat) (c : Coll) : (s.setColl id c).staged = s.staged := rfl
@[simp] theorem State.setColl_errlog (s : State) (id : Nat) (c : Coll) : (s.setColl id c).errlog = s.errlog := rfl
@[simp] theorem State.setColl_snaps (s : State) (id : Nat) (c : Coll) : (s.setColl id c).snaps = s.snaps := rfl
@[simp] theorem State.setColl_map (s : State) (id : Nat) (c : Coll) : (s.setColl id c).map = s.map := rfl
@[simp] theorem State.setColl_tmp (s : State) (id : Nat) (c : Coll) : (s.setColl id c).tmp = s.tmp := rfl
@[simp] theorem State.setColl_attempt (s : State) (id : Nat) (c : Coll) : (s.setColl id c).attempt = s.attempt := rfl
@[simp] theorem State.setColl_ctxs (s : State) (id : Nat) (c : Coll) : (s.setColl id c).ctxs = s.ctxs := rfl
@[simp] theorem State.setColl_served (s : State) (id : Nat) (c : Coll) : (s.setColl id c).served = s.served := rfl
@[simp] theorem State.setColl_flights (s : State) (id : Nat) (c : Coll) : (s.setColl id c).flights = s.flights := rfl
@[simp] theorem State.setColl_nextFlight (s : State) (id : Nat) (c : Coll) : (s.setColl id c).nextFlight = s.nextFlight := rfl
@[simp] theorem State.setColl_syn (s : State) (id : Nat) (c : Coll) : (s.setColl id c).syn = s.syn := rfl
@[simp] theorem State.setColl_xp (s : State) (id : Nat) (c : Coll) : (s.setColl id c).xp = s.xp := rfl
@[simp] theorem State.setColl_links (s : State) (id : Nat) (c : Coll) : (s.setColl id c).links = s.links := rfl
@[simp] theorem State.setColl_ledger (s : State) (id : Nat) (c : Coll) : (s.setColl id c).ledger = s.ledger := rfl
@[simp] theorem State.setColl_health (s : State) (id : Nat) (c : Coll) : (s.setColl id c).health = s.health := rfl
@[simp] theorem State.setColl_host (s : State) (id : Nat) (c : Coll) : (s.setColl id c).host = s.host := rfl
@[simp] theorem State.setColl_hbmStacks (s : State) (id : Nat) (c : Coll) : (s.setColl id c).hbmStacks = s.hbmStacks := rfl
@[simp] theorem State.setColl_eng (s : State) (id : Nat) (c : Coll) : (s.setColl id c).eng = s.eng := rfl
@[simp] theorem State.setColl_bist (s : State) (id : Nat) (c : Coll) : (s.setColl id c).bist = s.bist := rfl
@[simp] theorem State.setColl_heals (s : State) (id : Nat) (c : Coll) : (s.setColl id c).heals = s.heals := rfl
@[simp] theorem State.setColl_hscrub (s : State) (id : Nat) (c : Coll) : (s.setColl id c).hscrub = s.hscrub := rfl
@[simp] theorem State.setColl_gathers (s : State) (id : Nat) (c : Coll) : (s.setColl id c).gathers = s.gathers := rfl
@[simp] theorem State.setColl_slots (s : State) (id : Nat) (c : Coll) : (s.setColl id c).slots = s.slots := rfl
@[simp] theorem State.setColl_algSet (s : State) (id : Nat) (c : Coll) : (s.setColl id c).algSet = s.algSet := rfl
@[simp] theorem State.setColl_tchZeroing (s : State) (id : Nat) (c : Coll) : (s.setColl id c).tchZeroing = s.tchZeroing := rfl
@[simp] theorem State.setColl_ckp (s : State) (id : Nat) (c : Coll) : (s.setColl id c).ckp = s.ckp := rfl
@[simp] theorem State.setColl_power (s : State) (id : Nat) (c : Coll) : (s.setColl id c).power = s.power := rfl
@[simp] theorem State.setColl_seq (s : State) (id : Nat) (c : Coll) : (s.setColl id c).seq = s.seq := rfl
@[simp] theorem State.setColl_smc (s : State) (id : Nat) (c : Coll) : (s.setColl id c).smc = s.smc := rfl
@[simp] theorem State.setColl_guest (s : State) (id : Nat) (c : Coll) : (s.setColl id c).guest = s.guest := rfl

/-! `State.setSlot` sets `slots` alone. -/
@[simp] theorem State.setSlot_pending (s : State) (n : Nat) (x : SeqSlot) : (s.setSlot n x).pending = s.pending := rfl
@[simp] theorem State.setSlot_now (s : State) (n : Nat) (x : SeqSlot) : (s.setSlot n x).now = s.now := rfl
@[simp] theorem State.setSlot_clock (s : State) (n : Nat) (x : SeqSlot) : (s.setSlot n x).clock = s.clock := rfl
@[simp] theorem State.setSlot_free (s : State) (n : Nat) (x : SeqSlot) : (s.setSlot n x).free = s.free := rfl
@[simp] theorem State.setSlot_out (s : State) (n : Nat) (x : SeqSlot) : (s.setSlot n x).out = s.out := rfl
@[simp] theorem State.setSlot_regs (s : State) (n : Nat) (x : SeqSlot) : (s.setSlot n x).regs = s.regs := rfl
@[simp] theorem State.setSlot_shadow (s : State) (n : Nat) (x : SeqSlot) : (s.setSlot n x).shadow = s.shadow := rfl
@[simp] theorem State.setSlot_staged (s : State) (n : Nat) (x : SeqSlot) : (s.setSlot n x).staged = s.staged := rfl
@[simp] theorem State.setSlot_errlog (s : State) (n : Nat) (x : SeqSlot) : (s.setSlot n x).errlog = s.errlog := rfl
@[simp] theorem State.setSlot_snaps (s : State) (n : Nat) (x : SeqSlot) : (s.setSlot n x).snaps = s.snaps := rfl
@[simp] theorem State.setSlot_map (s : State) (n : Nat) (x : SeqSlot) : (s.setSlot n x).map = s.map := rfl
@[simp] theorem State.setSlot_tmp (s : State) (n : Nat) (x : SeqSlot) : (s.setSlot n x).tmp = s.tmp := rfl
@[simp] theorem State.setSlot_attempt (s : State) (n : Nat) (x : SeqSlot) : (s.setSlot n x).attempt = s.attempt := rfl
@[simp] theorem State.setSlot_ctxs (s : State) (n : Nat) (x : SeqSlot) : (s.setSlot n x).ctxs = s.ctxs := rfl
@[simp] theorem State.setSlot_served (s : State) (n : Nat) (x : SeqSlot) : (s.setSlot n x).served = s.served := rfl
@[simp] theorem State.setSlot_flights (s : State) (n : Nat) (x : SeqSlot) : (s.setSlot n x).flights = s.flights := rfl
@[simp] theorem State.setSlot_nextFlight (s : State) (n : Nat) (x : SeqSlot) : (s.setSlot n x).nextFlight = s.nextFlight := rfl
@[simp] theorem State.setSlot_syn (s : State) (n : Nat) (x : SeqSlot) : (s.setSlot n x).syn = s.syn := rfl
@[simp] theorem State.setSlot_xp (s : State) (n : Nat) (x : SeqSlot) : (s.setSlot n x).xp = s.xp := rfl
@[simp] theorem State.setSlot_links (s : State) (n : Nat) (x : SeqSlot) : (s.setSlot n x).links = s.links := rfl
@[simp] theorem State.setSlot_ledger (s : State) (n : Nat) (x : SeqSlot) : (s.setSlot n x).ledger = s.ledger := rfl
@[simp] theorem State.setSlot_health (s : State) (n : Nat) (x : SeqSlot) : (s.setSlot n x).health = s.health := rfl
@[simp] theorem State.setSlot_host (s : State) (n : Nat) (x : SeqSlot) : (s.setSlot n x).host = s.host := rfl
@[simp] theorem State.setSlot_hbmStacks (s : State) (n : Nat) (x : SeqSlot) : (s.setSlot n x).hbmStacks = s.hbmStacks := rfl
@[simp] theorem State.setSlot_eng (s : State) (n : Nat) (x : SeqSlot) : (s.setSlot n x).eng = s.eng := rfl
@[simp] theorem State.setSlot_bist (s : State) (n : Nat) (x : SeqSlot) : (s.setSlot n x).bist = s.bist := rfl
@[simp] theorem State.setSlot_heals (s : State) (n : Nat) (x : SeqSlot) : (s.setSlot n x).heals = s.heals := rfl
@[simp] theorem State.setSlot_hscrub (s : State) (n : Nat) (x : SeqSlot) : (s.setSlot n x).hscrub = s.hscrub := rfl
@[simp] theorem State.setSlot_gathers (s : State) (n : Nat) (x : SeqSlot) : (s.setSlot n x).gathers = s.gathers := rfl
@[simp] theorem State.setSlot_weld (s : State) (n : Nat) (x : SeqSlot) : (s.setSlot n x).weld = s.weld := rfl
@[simp] theorem State.setSlot_algSet (s : State) (n : Nat) (x : SeqSlot) : (s.setSlot n x).algSet = s.algSet := rfl
@[simp] theorem State.setSlot_tchZeroing (s : State) (n : Nat) (x : SeqSlot) : (s.setSlot n x).tchZeroing = s.tchZeroing := rfl
@[simp] theorem State.setSlot_ckp (s : State) (n : Nat) (x : SeqSlot) : (s.setSlot n x).ckp = s.ckp := rfl
@[simp] theorem State.setSlot_power (s : State) (n : Nat) (x : SeqSlot) : (s.setSlot n x).power = s.power := rfl
@[simp] theorem State.setSlot_seq (s : State) (n : Nat) (x : SeqSlot) : (s.setSlot n x).seq = s.seq := rfl
@[simp] theorem State.setSlot_smc (s : State) (n : Nat) (x : SeqSlot) : (s.setSlot n x).smc = s.smc := rfl
@[simp] theorem State.setSlot_guest (s : State) (n : Nat) (x : SeqSlot) : (s.setSlot n x).guest = s.guest := rfl

/-! `State.setTime` sets `xp` alone. -/
@[simp] theorem State.setTime_pending (s : State) (t : TimeSvc) : (s.setTime t).pending = s.pending := rfl
@[simp] theorem State.setTime_now (s : State) (t : TimeSvc) : (s.setTime t).now = s.now := rfl
@[simp] theorem State.setTime_clock (s : State) (t : TimeSvc) : (s.setTime t).clock = s.clock := rfl
@[simp] theorem State.setTime_free (s : State) (t : TimeSvc) : (s.setTime t).free = s.free := rfl
@[simp] theorem State.setTime_out (s : State) (t : TimeSvc) : (s.setTime t).out = s.out := rfl
@[simp] theorem State.setTime_regs (s : State) (t : TimeSvc) : (s.setTime t).regs = s.regs := rfl
@[simp] theorem State.setTime_shadow (s : State) (t : TimeSvc) : (s.setTime t).shadow = s.shadow := rfl
@[simp] theorem State.setTime_staged (s : State) (t : TimeSvc) : (s.setTime t).staged = s.staged := rfl
@[simp] theorem State.setTime_errlog (s : State) (t : TimeSvc) : (s.setTime t).errlog = s.errlog := rfl
@[simp] theorem State.setTime_snaps (s : State) (t : TimeSvc) : (s.setTime t).snaps = s.snaps := rfl
@[simp] theorem State.setTime_map (s : State) (t : TimeSvc) : (s.setTime t).map = s.map := rfl
@[simp] theorem State.setTime_tmp (s : State) (t : TimeSvc) : (s.setTime t).tmp = s.tmp := rfl
@[simp] theorem State.setTime_attempt (s : State) (t : TimeSvc) : (s.setTime t).attempt = s.attempt := rfl
@[simp] theorem State.setTime_ctxs (s : State) (t : TimeSvc) : (s.setTime t).ctxs = s.ctxs := rfl
@[simp] theorem State.setTime_served (s : State) (t : TimeSvc) : (s.setTime t).served = s.served := rfl
@[simp] theorem State.setTime_flights (s : State) (t : TimeSvc) : (s.setTime t).flights = s.flights := rfl
@[simp] theorem State.setTime_nextFlight (s : State) (t : TimeSvc) : (s.setTime t).nextFlight = s.nextFlight := rfl
@[simp] theorem State.setTime_syn (s : State) (t : TimeSvc) : (s.setTime t).syn = s.syn := rfl
@[simp] theorem State.setTime_links (s : State) (t : TimeSvc) : (s.setTime t).links = s.links := rfl
@[simp] theorem State.setTime_ledger (s : State) (t : TimeSvc) : (s.setTime t).ledger = s.ledger := rfl
@[simp] theorem State.setTime_health (s : State) (t : TimeSvc) : (s.setTime t).health = s.health := rfl
@[simp] theorem State.setTime_host (s : State) (t : TimeSvc) : (s.setTime t).host = s.host := rfl
@[simp] theorem State.setTime_hbmStacks (s : State) (t : TimeSvc) : (s.setTime t).hbmStacks = s.hbmStacks := rfl
@[simp] theorem State.setTime_eng (s : State) (t : TimeSvc) : (s.setTime t).eng = s.eng := rfl
@[simp] theorem State.setTime_bist (s : State) (t : TimeSvc) : (s.setTime t).bist = s.bist := rfl
@[simp] theorem State.setTime_heals (s : State) (t : TimeSvc) : (s.setTime t).heals = s.heals := rfl
@[simp] theorem State.setTime_hscrub (s : State) (t : TimeSvc) : (s.setTime t).hscrub = s.hscrub := rfl
@[simp] theorem State.setTime_gathers (s : State) (t : TimeSvc) : (s.setTime t).gathers = s.gathers := rfl
@[simp] theorem State.setTime_weld (s : State) (t : TimeSvc) : (s.setTime t).weld = s.weld := rfl
@[simp] theorem State.setTime_slots (s : State) (t : TimeSvc) : (s.setTime t).slots = s.slots := rfl
@[simp] theorem State.setTime_algSet (s : State) (t : TimeSvc) : (s.setTime t).algSet = s.algSet := rfl
@[simp] theorem State.setTime_tchZeroing (s : State) (t : TimeSvc) : (s.setTime t).tchZeroing = s.tchZeroing := rfl
@[simp] theorem State.setTime_ckp (s : State) (t : TimeSvc) : (s.setTime t).ckp = s.ckp := rfl
@[simp] theorem State.setTime_power (s : State) (t : TimeSvc) : (s.setTime t).power = s.power := rfl
@[simp] theorem State.setTime_seq (s : State) (t : TimeSvc) : (s.setTime t).seq = s.seq := rfl
@[simp] theorem State.setTime_smc (s : State) (t : TimeSvc) : (s.setTime t).smc = s.smc := rfl
@[simp] theorem State.setTime_guest (s : State) (t : TimeSvc) : (s.setTime t).guest = s.guest := rfl

/-! `State.setCapture` sets `eng` alone. -/
@[simp] theorem State.setCapture_pending (s : State) (die : Nat) (c : Capture) : (s.setCapture die c).pending = s.pending := rfl
@[simp] theorem State.setCapture_now (s : State) (die : Nat) (c : Capture) : (s.setCapture die c).now = s.now := rfl
@[simp] theorem State.setCapture_clock (s : State) (die : Nat) (c : Capture) : (s.setCapture die c).clock = s.clock := rfl
@[simp] theorem State.setCapture_free (s : State) (die : Nat) (c : Capture) : (s.setCapture die c).free = s.free := rfl
@[simp] theorem State.setCapture_out (s : State) (die : Nat) (c : Capture) : (s.setCapture die c).out = s.out := rfl
@[simp] theorem State.setCapture_regs (s : State) (die : Nat) (c : Capture) : (s.setCapture die c).regs = s.regs := rfl
@[simp] theorem State.setCapture_shadow (s : State) (die : Nat) (c : Capture) : (s.setCapture die c).shadow = s.shadow := rfl
@[simp] theorem State.setCapture_staged (s : State) (die : Nat) (c : Capture) : (s.setCapture die c).staged = s.staged := rfl
@[simp] theorem State.setCapture_errlog (s : State) (die : Nat) (c : Capture) : (s.setCapture die c).errlog = s.errlog := rfl
@[simp] theorem State.setCapture_snaps (s : State) (die : Nat) (c : Capture) : (s.setCapture die c).snaps = s.snaps := rfl
@[simp] theorem State.setCapture_map (s : State) (die : Nat) (c : Capture) : (s.setCapture die c).map = s.map := rfl
@[simp] theorem State.setCapture_tmp (s : State) (die : Nat) (c : Capture) : (s.setCapture die c).tmp = s.tmp := rfl
@[simp] theorem State.setCapture_attempt (s : State) (die : Nat) (c : Capture) : (s.setCapture die c).attempt = s.attempt := rfl
@[simp] theorem State.setCapture_ctxs (s : State) (die : Nat) (c : Capture) : (s.setCapture die c).ctxs = s.ctxs := rfl
@[simp] theorem State.setCapture_served (s : State) (die : Nat) (c : Capture) : (s.setCapture die c).served = s.served := rfl
@[simp] theorem State.setCapture_flights (s : State) (die : Nat) (c : Capture) : (s.setCapture die c).flights = s.flights := rfl
@[simp] theorem State.setCapture_nextFlight (s : State) (die : Nat) (c : Capture) : (s.setCapture die c).nextFlight = s.nextFlight := rfl
@[simp] theorem State.setCapture_syn (s : State) (die : Nat) (c : Capture) : (s.setCapture die c).syn = s.syn := rfl
@[simp] theorem State.setCapture_xp (s : State) (die : Nat) (c : Capture) : (s.setCapture die c).xp = s.xp := rfl
@[simp] theorem State.setCapture_links (s : State) (die : Nat) (c : Capture) : (s.setCapture die c).links = s.links := rfl
@[simp] theorem State.setCapture_ledger (s : State) (die : Nat) (c : Capture) : (s.setCapture die c).ledger = s.ledger := rfl
@[simp] theorem State.setCapture_health (s : State) (die : Nat) (c : Capture) : (s.setCapture die c).health = s.health := rfl
@[simp] theorem State.setCapture_host (s : State) (die : Nat) (c : Capture) : (s.setCapture die c).host = s.host := rfl
@[simp] theorem State.setCapture_hbmStacks (s : State) (die : Nat) (c : Capture) : (s.setCapture die c).hbmStacks = s.hbmStacks := rfl
@[simp] theorem State.setCapture_bist (s : State) (die : Nat) (c : Capture) : (s.setCapture die c).bist = s.bist := rfl
@[simp] theorem State.setCapture_heals (s : State) (die : Nat) (c : Capture) : (s.setCapture die c).heals = s.heals := rfl
@[simp] theorem State.setCapture_hscrub (s : State) (die : Nat) (c : Capture) : (s.setCapture die c).hscrub = s.hscrub := rfl
@[simp] theorem State.setCapture_gathers (s : State) (die : Nat) (c : Capture) : (s.setCapture die c).gathers = s.gathers := rfl
@[simp] theorem State.setCapture_weld (s : State) (die : Nat) (c : Capture) : (s.setCapture die c).weld = s.weld := rfl
@[simp] theorem State.setCapture_slots (s : State) (die : Nat) (c : Capture) : (s.setCapture die c).slots = s.slots := rfl
@[simp] theorem State.setCapture_algSet (s : State) (die : Nat) (c : Capture) : (s.setCapture die c).algSet = s.algSet := rfl
@[simp] theorem State.setCapture_tchZeroing (s : State) (die : Nat) (c : Capture) : (s.setCapture die c).tchZeroing = s.tchZeroing := rfl
@[simp] theorem State.setCapture_ckp (s : State) (die : Nat) (c : Capture) : (s.setCapture die c).ckp = s.ckp := rfl
@[simp] theorem State.setCapture_power (s : State) (die : Nat) (c : Capture) : (s.setCapture die c).power = s.power := rfl
@[simp] theorem State.setCapture_seq (s : State) (die : Nat) (c : Capture) : (s.setCapture die c).seq = s.seq := rfl
@[simp] theorem State.setCapture_smc (s : State) (die : Nat) (c : Capture) : (s.setCapture die c).smc = s.smc := rfl
@[simp] theorem State.setCapture_guest (s : State) (die : Nat) (c : Capture) : (s.setCapture die c).guest = s.guest := rfl

/-! `State.setCut` sets `ckp` alone. -/
@[simp] theorem State.setCut_pending (s : State) (c : Option Cut) : (s.setCut c).pending = s.pending := rfl
@[simp] theorem State.setCut_now (s : State) (c : Option Cut) : (s.setCut c).now = s.now := rfl
@[simp] theorem State.setCut_clock (s : State) (c : Option Cut) : (s.setCut c).clock = s.clock := rfl
@[simp] theorem State.setCut_free (s : State) (c : Option Cut) : (s.setCut c).free = s.free := rfl
@[simp] theorem State.setCut_out (s : State) (c : Option Cut) : (s.setCut c).out = s.out := rfl
@[simp] theorem State.setCut_regs (s : State) (c : Option Cut) : (s.setCut c).regs = s.regs := rfl
@[simp] theorem State.setCut_shadow (s : State) (c : Option Cut) : (s.setCut c).shadow = s.shadow := rfl
@[simp] theorem State.setCut_staged (s : State) (c : Option Cut) : (s.setCut c).staged = s.staged := rfl
@[simp] theorem State.setCut_errlog (s : State) (c : Option Cut) : (s.setCut c).errlog = s.errlog := rfl
@[simp] theorem State.setCut_snaps (s : State) (c : Option Cut) : (s.setCut c).snaps = s.snaps := rfl
@[simp] theorem State.setCut_map (s : State) (c : Option Cut) : (s.setCut c).map = s.map := rfl
@[simp] theorem State.setCut_tmp (s : State) (c : Option Cut) : (s.setCut c).tmp = s.tmp := rfl
@[simp] theorem State.setCut_attempt (s : State) (c : Option Cut) : (s.setCut c).attempt = s.attempt := rfl
@[simp] theorem State.setCut_ctxs (s : State) (c : Option Cut) : (s.setCut c).ctxs = s.ctxs := rfl
@[simp] theorem State.setCut_served (s : State) (c : Option Cut) : (s.setCut c).served = s.served := rfl
@[simp] theorem State.setCut_flights (s : State) (c : Option Cut) : (s.setCut c).flights = s.flights := rfl
@[simp] theorem State.setCut_nextFlight (s : State) (c : Option Cut) : (s.setCut c).nextFlight = s.nextFlight := rfl
@[simp] theorem State.setCut_syn (s : State) (c : Option Cut) : (s.setCut c).syn = s.syn := rfl
@[simp] theorem State.setCut_xp (s : State) (c : Option Cut) : (s.setCut c).xp = s.xp := rfl
@[simp] theorem State.setCut_links (s : State) (c : Option Cut) : (s.setCut c).links = s.links := rfl
@[simp] theorem State.setCut_ledger (s : State) (c : Option Cut) : (s.setCut c).ledger = s.ledger := rfl
@[simp] theorem State.setCut_health (s : State) (c : Option Cut) : (s.setCut c).health = s.health := rfl
@[simp] theorem State.setCut_host (s : State) (c : Option Cut) : (s.setCut c).host = s.host := rfl
@[simp] theorem State.setCut_hbmStacks (s : State) (c : Option Cut) : (s.setCut c).hbmStacks = s.hbmStacks := rfl
@[simp] theorem State.setCut_eng (s : State) (c : Option Cut) : (s.setCut c).eng = s.eng := rfl
@[simp] theorem State.setCut_bist (s : State) (c : Option Cut) : (s.setCut c).bist = s.bist := rfl
@[simp] theorem State.setCut_heals (s : State) (c : Option Cut) : (s.setCut c).heals = s.heals := rfl
@[simp] theorem State.setCut_hscrub (s : State) (c : Option Cut) : (s.setCut c).hscrub = s.hscrub := rfl
@[simp] theorem State.setCut_gathers (s : State) (c : Option Cut) : (s.setCut c).gathers = s.gathers := rfl
@[simp] theorem State.setCut_weld (s : State) (c : Option Cut) : (s.setCut c).weld = s.weld := rfl
@[simp] theorem State.setCut_slots (s : State) (c : Option Cut) : (s.setCut c).slots = s.slots := rfl
@[simp] theorem State.setCut_algSet (s : State) (c : Option Cut) : (s.setCut c).algSet = s.algSet := rfl
@[simp] theorem State.setCut_tchZeroing (s : State) (c : Option Cut) : (s.setCut c).tchZeroing = s.tchZeroing := rfl
@[simp] theorem State.setCut_power (s : State) (c : Option Cut) : (s.setCut c).power = s.power := rfl
@[simp] theorem State.setCut_seq (s : State) (c : Option Cut) : (s.setCut c).seq = s.seq := rfl
@[simp] theorem State.setCut_smc (s : State) (c : Option Cut) : (s.setCut c).smc = s.smc := rfl
@[simp] theorem State.setCut_guest (s : State) (c : Option Cut) : (s.setCut c).guest = s.guest := rfl

end Sys2Proof.Machine
end

