-- ==== Sys2Proof/Tests/Slice0.lean ====
section
/-! SUPPORT. The model's own tests. -/

open Sys2Proof Sys2Proof.Machine
end

namespace Sys2Proof.Machine

open Sys2Proof

/-! ## Register pages: what an event changes

An event (R47) sets its bit of EVT_STS and may send a message, which two counters of the HIF page count (R438). Every field of a
page other than HIF keeps its value. -/

/-! ### Where a page and its fields stand -/

/-- The field table of a page type lists fields of that page, all in the block region above the common header (R45). -/
theorem page_off_of_mem_blockFields (p : Page) : ∀ f ∈ blockFields p, f.page = p ∧ 0x100 ≤ f.off := by
  cases p
  case HRT =>
    simp only [blockFields, fieldsHRT, List.forall_mem_append, List.forall_mem_map]
    exact ⟨⟨by decide, by decide⟩, fun n _ => ⟨rfl, Nat.le_add_right_of_le (by decide)⟩⟩
  case SMC =>
    simp only [blockFields, fieldsSMC, List.forall_mem_append, List.forall_mem_map]
    refine ⟨⟨⟨by decide, by decide⟩, ?_⟩, ?_⟩ <;> exact fun n _ => ⟨rfl, Nat.le_add_right_of_le (by decide)⟩
  case PSC =>
    simp only [blockFields, fieldsPSC, List.forall_mem_append, List.forall_mem_map]
    refine ⟨⟨⟨by decide, ?_⟩, ?_⟩, ?_⟩ <;> exact fun n _ => ⟨rfl, Nat.le_add_right_of_le (by decide)⟩
  all_goals decide

/-- The populated slots end below 0x180 (Table 2.5). -/
theorem slot_lt_of_pageAt {slot : Nat} {x : Page × Nat} (h : pageAt slot = some x) : slot < 0x180 := by
  refine Decidable.byContradiction fun hge => ?_
  have hnone : pageAt slot = none := by
    unfold pageAt
    simp [show ¬ slot < 0x015 by omega, show ¬ slot < 0x018 by omega, show ¬ slot < 0x020 by omega, show slot ≠ 0x020 by omega,
      show ¬ slot < 0x040 by omega, show ¬ slot < 0x0C0 by omega, show ¬ slot < 0x0D0 by omega, show ¬ slot < 0x0E0 by omega,
      show ¬ slot < 0x100 by omega, show ¬ slot < 0x120 by omega, show ¬ slot < 0x140 by omega, hge]
  simp [hnone] at h

/-- The page in slot 3 is HIF (Table 2.5). -/
theorem slotOf_ne_hif {p : Page} {i : Nat} (hat : pageAt (slotOf p i) = some (p, i)) (hp : p ≠ .HIF) : slotOf p i ≠ 3 := by
  intro h3
  rw [h3] at hat
  have hhif : pageAt 3 = some (.HIF, 0) := rfl
  simp_all

/-! ### Keys -/

/-- The counters of MSI-X messages, the only registers beside EVT_STS that an event changes (R438). -/
def countsMsix (k : Key) : Prop := k = R.HIF_MSIX_SENT_SENT.key 0 ∨ k = R.HIF_MSIX_MERGED_MERGED.key 0

/-- A block field and a header field have different keys (R45). -/
theorem key_ne_hkey {f g : Field} (hf : 0x100 ≤ f.off) (hg : g.off < 0x100) (i slot : Nat) : f.key i ≠ hkey g slot := by
  intro h
  have hoff : f.off = g.off := congrArg Key.off h
  omega

/-- A header field counts no message. -/
theorem not_countsMsix_hkey {f : Field} (hf : f.off < 0x100) (slot : Nat) : ¬ countsMsix (hkey f slot) := by
  rintro (h | h)
  · exact key_ne_hkey (by decide) hf _ _ h.symm
  · exact key_ne_hkey (by decide) hf _ _ h.symm

/-- A field outside slot 3, the HIF page, counts no message. -/
theorem not_countsMsix_key {f : Field} {i : Nat} (h3 : slotOf f.page i ≠ 3) : ¬ countsMsix (f.key i) := by
  have hcanon : canonSlot (slotOf f.page i) ≠ 3 := by
    unfold canonSlot
    split
    · decide
    · exact h3
  rintro (h | h)
  · exact hcanon (congrArg Key.slot h)
  · exact hcanon (congrArg Key.slot h)

/-! ### Messages, notices and events -/

/-- A request for a message changes no register but the counters of messages (R438). -/
theorem get_msixRequest_regs (s : State) (v d : Nat) {k : Key} (hk : ¬ countsMsix k) :
    Store.get d (msixRequest s v).regs k = Store.get d s.regs k := by
  obtain ⟨hsent, hmerged⟩ := not_or.mp hk
  unfold msixRequest
  split
  · rfl
  · split
    · exact store_get_set_other _ _ _ hmerged
    · exact store_get_set_other _ _ _ hsent

/-- A notice changes no register but the counters of messages (R47). -/
theorem get_notice_regs (s : State) (slot b d : Nat) {k : Key} (hk : ¬ countsMsix k) :
    Store.get d (notice s slot b).regs k = Store.get d s.regs k := by
  unfold notice
  dsimp only
  split <;> split <;> simp [get_msixRequest_regs _ _ _ hk]

/-- An event changes no register but EVT_STS of its slot and the counters of messages (R47). -/
theorem get_raiseSlot_regs (s : State) (slot b d : Nat) {k : Key} (hk : ¬ countsMsix k) (hev : k ≠ hkey R.EVT_STS slot) :
    Store.get d (raiseSlot s slot b).regs k = Store.get d s.regs k := by
  have hset (v : Nat) : Store.get d (s.hwr R.EVT_STS slot v).regs k = Store.get d s.regs k := store_get_set_other _ _ _ hev
  unfold raiseSlot
  dsimp only
  split
  · rfl
  · split
    · exact hset _
    · rw [get_notice_regs _ _ _ _ hk, hset]

/-- A request for a message changes registers, the host link and what leaves the module, and nothing else. -/
theorem msixRequest_frame (s : State) (v : Nat) : ∃ r h o, msixRequest s v = { s with regs := r, host := h, out := o } := by
  unfold msixRequest
  split
  · exact ⟨_, _, _, rfl⟩
  · split <;> exact ⟨_, _, _, rfl⟩

/-- A notice changes registers, the host link and what leaves the module, and nothing else. -/
theorem notice_frame (s : State) (slot b : Nat) : ∃ r h o, notice s slot b = { s with regs := r, host := h, out := o } := by
  obtain ⟨r, h, o, heq⟩ := msixRequest_frame s (s.hrd R.EVT_ROUTE_VECTOR slot)
  unfold notice
  rw [heq]
  dsimp only
  split <;> split <;> exact ⟨_, _, _, rfl⟩

/-- An event changes registers, the host link and what leaves the module, and nothing else. -/
theorem raiseSlot_frame (s : State) (slot b : Nat) : ∃ r h o, raiseSlot s slot b = { s with regs := r, host := h, out := o } := by
  unfold raiseSlot
  dsimp only
  split
  · exact ⟨_, _, _, rfl⟩
  · split
    · exact ⟨_, _, _, rfl⟩
    · exact notice_frame _ slot b

@[simp] theorem raiseSlot_shadow (s : State) (slot b : Nat) : (raiseSlot s slot b).shadow = s.shadow := by
  obtain ⟨r, h, o, heq⟩ := raiseSlot_frame s slot b
  rw [heq]

@[simp] theorem raiseSlot_staged (s : State) (slot b : Nat) : (raiseSlot s slot b).staged = s.staged := by
  obtain ⟨r, h, o, heq⟩ := raiseSlot_frame s slot b
  rw [heq]

/-- An event leaves the header fields other than EVT_STS. -/
theorem hrd_raiseSlot (s : State) (slot b j : Nat) {f : Field} (hf : f.off < 0x100) (hev : f.off ≠ R.EVT_STS.off) :
    (raiseSlot s slot b).hrd f j = s.hrd f j :=
  get_raiseSlot_regs s slot b _ (not_countsMsix_hkey hf j) (fun h => hev (congrArg Key.off h))

/-- An event leaves the block fields of every page but HIF. -/
theorem rd_raiseSlot (s : State) (slot b : Nat) {p : Page} {i : Nat} {f : Field} (hf : f ∈ blockFields p) (h3 : slotOf p i ≠ 3) :
    (raiseSlot s slot b).rd f i = s.rd f i := by
  obtain ⟨rfl, hoff⟩ := page_off_of_mem_blockFields p f hf
  exact get_raiseSlot_regs s slot b _ (not_countsMsix_key h3) (key_ne_hkey hoff (by decide) i slot)

/-- A bit that is 0 becomes 1 when its weight is added, within the 32 bits of EVT_STS. -/
theorem bitOf_add_two_pow {v b : Nat} (hb : b < 32) (h : bitOf v b = false) : bitOf ((v + 2 ^ b) % 2 ^ 32) b = true := by
  rw [bitOf_eq] at h ⊢
  rw [Nat.testBit_mod_two_pow, Nat.add_comm, Nat.testBit_two_pow_add_eq, h]
  simp [hb]

/-- After an event its bit of EVT_STS is 1, masked or not (R47). -/
theorem bitOf_raiseSlot (s : State) (slot : Nat) {b : Nat} (hb : b < 32) : bitOf ((raiseSlot s slot b).hrd R.EVT_STS slot) b = true := by
  unfold raiseSlot
  dsimp only
  split
  · assumption
  next hclear =>
    have hset : bitOf ((s.hwr R.EVT_STS slot (s.hrd R.EVT_STS slot + 2 ^ b)).hrd R.EVT_STS slot) b = true := by
      rw [hrd_hwr_same]
      exact bitOf_add_two_pow hb (Bool.eq_false_iff.mpr hclear)
    split
    · exact hset
    · have hnotice := get_notice_regs (s.hwr R.EVT_STS slot (s.hrd R.EVT_STS slot + 2 ^ b)) slot b R.EVT_STS.reset
        (not_countsMsix_hkey (f := R.EVT_STS) (by decide) slot)
      exact (congrArg (bitOf · b) hnotice).trans hset

/-! ## APPLY while an apply is pending -/

/-- An APPLY that meets a pending one is WR_BUSY and nothing else (R54). -/
theorem applyOp_pending {s : State} {p : Page} {i : Nat} (harmed : (capsOf p).hasArmed = true) (hpend : armPending s p i = true) :
    applyOp s p i = raiseSlot s (slotOf p i) 0 := by
  have hone : s.hrd R.PAGE_STS_ARM_PENDING (slotOf p i) = 1 := by simpa [armPending] using hpend
  simp [applyOp, harmed, hone]

/-- Settles O16: the APPLY raises WR_BUSY alone, and an event touches neither ARM_PENDING nor a field of a page other than HIF,
which has no ARMED set. -/
theorem applyWhilePendingIsDropped : Obligations.ApplyWhilePendingIsDropped := by
  rintro s _ i p hon hat rfl harmed hpend
  have h3 : slotOf p i ≠ 3 := slotOf_ne_hif hat (by rintro rfl; simp [capsOf] at harmed)
  refine ⟨raiseSlot s (slotOf p i) 0, ?_, by simp, by simp, ?_, ?_, bitOf_raiseSlot s _ (by decide), by simp⟩
  · simp [exec, execApply, hat, live_on hon, applyOp_pending harmed hpend]
  · rw [armPending, hrd_raiseSlot s _ _ _ (by decide) (by decide)]
    exact hpend
  · exact fun f hf => rd_raiseSlot s _ _ (List.mem_filter.mp hf).1 h3

/-! ## Host writes to a page the host may not write -/

/-- An aligned whole write inside a populated slot is a write of that slot (R40, R41). -/
theorem regWriteOp_slot (s : State) (who : Writer) {slot o w : Nat} {x : Page × Nat} (v : Nat) (hat : pageAt slot = some x)
    (ho : o < 0x1000) (hw : w = 32 ∧ o % 4 = 0 ∨ w = 64 ∧ o % 8 = 0) :
    regWriteOp s who (slot * 0x1000 + o) w true v = writeSlot s who slot o w (v % 2 ^ w) := by
  have hslot := slot_lt_of_pageAt hat
  have hlt : slot * 0x1000 + o < 0x200000 := by omega
  have hdiv : (slot * 0x1000 + o) / 0x1000 = slot := by omega
  have hmod : (slot * 0x1000 + o) % 0x1000 = o := by omega
  have halign : ¬ ((w ≠ 32 ∧ w ≠ 64) ∨ (slot * 0x1000 + o) % (w / 8) ≠ 0 ∨ (!true) = true) := by
    obtain ⟨rfl, h4⟩ | ⟨rfl, h8⟩ := hw
    · simp only [Nat.reduceDiv, Bool.not_true, Bool.false_eq_true, or_false]
      omega
    · simp only [Nat.reduceDiv, Bool.not_true, Bool.false_eq_true, or_false]
      omega
  rw [regWriteOp, if_neg halign, if_pos hlt, hdiv, hmod]

section ReadOnly

variable {s : State} {p : Page} {i o v : Nat} (hro : (capsOf p).hostWritable = false)
include hro

/-- A host write of a block register of a page with HOST_WRITABLE = 0 is HOST_WR_DROP and nothing else (R58). -/
theorem writeBlockReg_readOnly (base mask : Nat) : writeBlockReg s .host p i base mask v = raise s p i 3 := by
  simp [writeBlockReg, hro]

/-- The 32-bit form, for either half of a register (R42). -/
theorem writeHalf_readOnly (ho : 0x100 ≤ o) (hreg : (regBaseOf (blockFields p) o).isSome = true) :
    writeHalf s .host p i o v = raise s p i 3 := by
  obtain ⟨base, hbase⟩ := Option.isSome_iff_exists.mp hreg
  have hmsx : p ≠ .MSX := by rintro rfl; simp [capsOf] at hro
  have hpba : p ≠ .PBA := by rintro rfl; simp [capsOf] at hro
  have hdir : p ≠ .DIR := by rintro rfl; simp [capsOf] at hro
  have hhrt : p ≠ .HRT := by rintro rfl; simp [capsOf] at hro
  have hldg : p ≠ .LDG := by rintro rfl; simp [capsOf] at hro
  simp [writeHalf, hmsx, hpba, hdir, hhrt, hldg, Nat.not_lt.mpr ho, hbase, writeBlockReg_readOnly hro]

/-- A host write of one whole register, out of reset, is HOST_WR_DROP and nothing else (R58). -/
theorem writeSlot_readOnly {w : Nat} (hat : pageAt (slotOf p i) = some (p, i)) (hreset : pageInReset s p i = false) (ho : 0x100 ≤ o)
    (hreg : w = 32 ∧ (regBaseOf (blockFields p) o).isSome = true ∨ w = 64 ∧ is64 (blockFields p) o = true) :
    writeSlot s .host (slotOf p i) o w v = raise s p i 3 := by
  obtain ⟨rfl, hbase⟩ | ⟨rfl, h64⟩ := hreg
  · simp [writeSlot, hat, hreset, writeHalf_readOnly hro ho hbase]
  · simp [writeSlot, hat, hreset, ho, h64, writeBlockReg_readOnly hro]

end ReadOnly

/-- Settles O17: the write raises HOST_WR_DROP alone, and an event touches no field of a page other than HIF, which the host may
write. -/
theorem hostWritesToReadOnlyPagesAreDropped : Obligations.HostWritesToReadOnlyPagesAreDropped := by
  intro s p i o v w hon hat hreset hro hlo hhi hw
  have h3 : slotOf p i ≠ 3 := slotOf_ne_hif hat (by rintro rfl; simp [capsOf] at hro)
  have halign : w = 32 ∧ o % 4 = 0 ∨ w = 64 ∧ o % 8 = 0 := hw.imp (fun h => ⟨h.1, h.2.1⟩) (fun h => ⟨h.1, h.2.1⟩)
  have hreg : w = 32 ∧ (regBaseOf (blockFields p) o).isSome = true ∨ w = 64 ∧ is64 (blockFields p) o = true :=
    hw.imp (fun h => ⟨h.1, h.2.2⟩) (fun h => ⟨h.1, h.2.2⟩)
  refine ⟨raiseSlot s (slotOf p i) 3, ?_, by simp, by simp, fun f hf => rd_raiseSlot s _ _ hf h3,
    bitOf_raiseSlot s _ (by decide), by simp⟩
  simp [exec, execRegWrite, live_on hon, regWriteOp_slot s .host v hat hhi halign, writeSlot_readOnly hro hat hreset hlo hreg, raise]

end Sys2Proof.Machine

namespace Sys2Proof.Machine

open Sys2Proof

/-! ## Frames of every command

One table per question, with one line per command: what it may change of what `State.kept` collects, whether memory keeps its
canonical form, whether memory stays, and how it answers. -/

/-- The part of what `State.kept` collects that a command may change. -/
inductive Part where
  /-- Nothing. -/
  | none
  /-- The progress of the steps and ACTIVE_BANK. -/
  | bank
  /-- The progress of the steps. -/
  | progress
  /-- The address map. -/
  | map
  /-- The supply goes off. -/
  | off
  /-- The supply goes off, and after a long removal of the input the trip latch opens. -/
  | input (long : Bool)
  /-- The module trips. -/
  | trip
  /-- A COLD reset. -/
  | cold
  /-- The image slots. -/
  | slots
  /-- The SVN counter. -/
  | svn
  /-- The revocation bits. -/
  | key

/-- Which part a command may change. -/
def part : Instr → Part
  | .flip | .resolveForward | .voteSend | .vote _ _ | .result _ _ | .restoreDone _ _ | .tkoDone _ _ _ _ _ | .chipResetRequest
  | .perst => .bank
  | .resolveDiscard | .replayResume | .takeoverRealign | .applyTaken _ => .progress
  | .mapSet | .hbmRetrain _ | .hbmTrain _ => .map
  | .pwrEnFall => .off
  | .inputRemoved long => .input long
  | .thermalTrip _ _ => .trip
  | .powerOn => .cold
  | .fwStage _ _ => .slots
  | .svnCommit => .svn
  | .keyRevoke => .key
  | _ => .none

/-- What a change of that part comes to. -/
def Part.Moved (s t : State) : Part → Prop
  | .none => t.kept = s.kept
  | .bank => t.rest = s.rest
  | .progress => t.flat = s.flat
  | .map => t.kept = { s.kept with map := t.map }
  | .off => t.kept = s.kept ∨ t.kept = { s.kept with on := false }
  | .input long => t.kept = { s.kept with on := false, trip := if long then Option.none else s.power.trip }
  | .trip => t.kept = s.kept ∨ ∃ x, t.kept = { s.kept with on := false, trip := some x }
  | .cold => t.kept = s.kept ∨ (s.power.on = false ∧ s.power.trip = Option.none ∧
      t.kept = { s.kept with clock := 0, map := AddrMap.coldDefault 0, bank := false, prog := Tmp.reset.progress, on := true })
  | .slots => ∃ a b, t.kept = { s.kept with slotA := a, slotB := b }
  | .svn => ∃ n, s.smc.fuseSvn ≤ n ∧ (s.smc.fuseSvn ≤ 64 → n ≤ 64) ∧ t.kept = { s.kept with fuseSvn := n }
  | .key => t.kept = s.kept ∨ ∃ n < 4, t.kept = { s.kept with revoked := s.smc.revoked ||| 2 ^ n }

/-- Every command changes at most its part. -/
theorem exec_moved : ∀ (c : Instr) (s : State), Keeps (fun t => (part c).Moved s t) (exec c s)
  | .regWrite who off width full val, s => execRegWrite_kept who off width full val s
  | .apply slot, s => execApply_kept slot s
  | .armDiscard slot, s => execArmDiscard_kept slot s
  | .applyTaken slot, s => execApplyTaken_flat slot s
  | .errlogClear slot, s => execErrlogClear_kept slot s
  | .evtStsClear slot mask, s => execEvtStsClear_kept slot mask s
  | .evtForce slot mask, s => execEvtForce_kept slot mask s
  | .evtMaskWrite slot mask, s => execEvtMaskWrite_kept slot mask s
  | .telemetrySnapshot slot, s => execTelemetrySnapshot_kept slot s
  | .hold ctx, s => execHold_kept ctx s
  | .wardHoldAck, s => execWardHoldAck_kept s
  | .step ctx, s => execStep_kept ctx s
  | .temper ctx, s => execTemper_kept ctx s
  | .checkStart, s => execCheckStart_kept s
  | .voteSend, s => execVoteSend_rest s
  | .vote plane p, s => execVote_rest plane p s
  | .result plane p, s => execResult_rest plane p s
  | .flip, s => execFlip_rest s
  | .replayStart, s => execReplayStart_kept s
  | .voteTimeout, s => execVoteTimeout_kept s
  | .resolveForward, s => execResolveForward_rest s
  | .resolveDiscard, s => execResolveDiscard_flat s
  | .replayResume, s => execReplayResume_flat s
  | .mma ctx, s => execMma_kept ctx s
  | .anvTileIssue die unit par, s => execAnvTileIssue_kept die unit par s
  | .anvTileEnd die unit par faults, s => execAnvTileEnd_kept die unit par faults s
  | .anvIssueWaitEnd die unit, s => execAnvIssueWaitEnd_kept die unit s
  | .mmaComplete id, s => execMmaComplete_kept id s
  | .anvClkGate die unit, s => execAnvClkGate_kept die unit s
  | .bistClaimAnvil die, s => execBistClaimAnvil_kept die s
  | .anvTestEnter die, s => execAnvTestEnter_kept die s
  | .anvClaimForced die, s => execAnvClaimForced_kept die s
  | .vec ctx, s => execVec_kept ctx s
  | .vecBlockStart die unit slot, s => execVecBlockStart_kept die unit slot s
  | .vecBlockCommit die unit slot par, s => execVecBlockCommit_kept die unit slot par s
  | .vecComplete id, s => execVecComplete_kept id s
  | .swgClkGate die unit, s => execSwgClkGate_kept die unit s
  | .bistClaimSwage die, s => execBistClaimSwage_kept die s
  | .swgTestEnter die, s => execSwgTestEnter_kept die s
  | .swgClaimForced die, s => execSwgClaimForced_kept die s
  | .bistTestEnd die swage sig sig2, s => execBistTestEnd_kept die swage sig sig2 s
  | .sparkKat good, s => execSparkKat_kept good s
  | .hearthScrubRead die bank ecc, s => execHearthScrubRead_kept die bank ecc s
  | .hearthInitDone die, s => execHearthInitDone_kept die s
  | .halt die on, s => execHalt_kept die on s
  | .hbmTrain reports, s => execHbmTrain_map reports s
  | .hbmRead addr ecc ctx, s => execHbmRead_kept addr ecc ctx s
  | .healDone row src readBack, s => execHealDone_kept row src readBack s
  | .hbmParityError addr write errors ctx, s => execHbmParityError_kept addr write errors ctx s
  | .hbmRefresh stack pc bank, s => execHbmRefresh_kept stack pc bank s
  | .hbmTempRead stack temp, s => execHbmTempRead_kept stack temp s
  | .hbmPatrolScrub stack pc ecc, s => execHbmPatrolScrub_kept stack pc ecc s
  | .gather ctx, s => execGather_kept ctx s
  | .gatherComplete id, s => execGatherComplete_kept id s
  | .hbmSelfRefreshExit die bad0 bad1, s => execHbmSelfRefreshExit_kept die bad0 bad1 s
  | .recordSubmit off data, s => execRecordSubmit_kept off data s
  | .create ctx, s => execCreate_kept ctx s
  | .destroy ctx, s => execDestroy_kept ctx s
  | .ctxReset ctx, s => execCtxReset_kept ctx s
  | .quarantineEnd ctx, s => execQuarantineEnd_kept ctx s
  | .preempt ctx, s => execPreempt_kept ctx s
  | .resume ctx, s => execResume_kept ctx s
  | .skip ctx, s => execSkip_kept ctx s
  | .ctxSave ctx, s => execCtxSave_kept ctx s
  | .ctxLoad ctx, s => execCtxLoad_kept ctx s
  | .recordIssue die, s => execRecordIssue_kept die s
  | .nop ctx, s => execNop_kept ctx s
  | .call ctx, s => execCall_kept ctx s
  | .ret ctx, s => execRet_kept ctx s
  | .loop ctx, s => execLoop_kept ctx s
  | .copy ctx, s => execCopy_kept ctx s
  | .copyComplete id, s => execCopyComplete_kept id s
  | .signal ctx, s => execSignal_kept ctx s
  | .wait ctx, s => execWait_kept ctx s
  | .waitWake ctx, s => execWaitWake_kept ctx s
  | .waitTimeout ctx, s => execWaitTimeout_kept ctx s
  | .heat ctx, s => execHeat_kept ctx s
  | .stamp ctx, s => execStamp_kept ctx s
  | .aflags ctx, s => execAflags_kept ctx s
  | .signalOp plane p, s => execSignalOp_kept plane p s
  | .subscribe plane p, s => execSubscribe_kept plane p s
  | .notify plane p, s => execNotify_kept plane p s
  | .broken plane p, s => execBroken_kept plane p s
  | .cancel plane p, s => execCancel_kept plane p s
  | .busy plane p, s => execBusy_kept plane p s
  | .subscribeRetry ctx, s => execSubscribeRetry_kept ctx s
  | .alloc, s => execAlloc_kept s
  | .free, s => execFree_kept s
  | .bind, s => execBind_kept s
  | .unbind, s => execUnbind_kept s
  | .clearBroken, s => execClearBroken_kept s
  | .periscopeEval, s => execPeriscopeEval_kept s
  | .linkEnable k, s => execLinkEnable_kept k s
  | .linkDisable k, s => execLinkDisable_kept k s
  | .linkTraining k rep, s => execLinkTraining_kept k rep s
  | .retrain k, s => execRetrain_kept k s
  | .linkRetry k, s => execLinkRetry_kept k s
  | .autoRestore k, s => execAutoRestore_kept k s
  | .codewordRx k seq symbols uncorrectable packets slots, s => execCodewordRx_kept k seq symbols uncorrectable packets slots s
  | .controlSlotRx k cs, s => execControlSlotRx_kept k cs s
  | .packetTx k, s => execPacketTx_kept k s
  | .laneFault k lane cause, s => execLaneFault_kept k lane cause s
  | .serWindowEnd k, s => execSerWindowEnd_kept k s
  | .degradeReq k lanes, s => execDegradeReq_kept k lanes s
  | .degradeAck k lanes rep, s => execDegradeAck_kept k lanes rep s
  | .degradeTimeout k, s => execDegradeTimeout_kept k s
  | .downNotice k, s => execDownNotice_kept k s
  | .txeqReq k lane up, s => execTxeqReq_kept k lane up s
  | .txeqAck k lane, s => execTxeqAck_kept k lane s
  | .txeqWindowEnd k lane, s => execTxeqWindowEnd_kept k lane s
  | .data plane p, s => execData_kept plane p s
  | .read plane p ecc, s => execRead_kept plane p ecc s
  | .write plane p, s => execWrite_kept plane p s
  | .ack plane p, s => execAck_kept plane p s
  | .ackSend flow, s => execAckSend_kept flow s
  | .flowOpen plane p, s => execFlowOpen_kept plane p s
  | .openAck plane p, s => execOpenAck_kept plane p s
  | .close plane p, s => execClose_kept plane p s
  | .packetInject flow, s => execPacketInject_kept flow s
  | .resendTimeout flow seq ecc, s => execResendTimeout_kept flow seq ecc s
  | .readmit d mask, s => execReadmit_kept d mask s
  | .epochSwitch, s => execEpochSwitch_kept s
  | .epochRetire, s => execEpochRetire_kept s
  | .drainSet, s => execDrainSet_kept s
  | .drained, s => execDrained_kept s
  | .drainClear, s => execDrainClear_kept s
  | .sendCut, s => execSendCut_kept s
  | .sendStop, s => execSendStop_kept s
  | .copyCur d, s => execCopyCur_kept d s
  | .rteDataWrite d val, s => execRteDataWrite_kept d val s
  | .rteDataRead d, s => execRteDataRead_kept d s
  | .stop plane p, s => execStop_kept plane p s
  | .stopRepeat, s => execStopRepeat_kept s
  | .cut plane p, s => execCut_kept plane p s
  | .timeSend, s => execTimeSend_kept s
  | .time plane p, s => execTime_kept plane p s
  | .holdover, s => execHoldover_kept s
  | .reduceScatter ctx, s => execReduceScatter_kept ctx s
  | .allGather ctx, s => execAllGather_kept ctx s
  | .allReduce ctx, s => execAllReduce_kept ctx s
  | .broadcast ctx, s => execBroadcast_kept ctx s
  | .mirror ctx, s => execMirror_kept ctx s
  | .collStart id, s => execCollStart_kept id s
  | .ready plane p, s => execReady_kept plane p s
  | .partialSum plane p par, s => execPartialSum_kept plane p par s
  | .weldGather plane p, s => execWeldGather_kept plane p s
  | .scatter plane p, s => execScatter_kept plane p s
  | .weldMirror plane p, s => execWeldMirror_kept plane p s
  | .weldHold plane p, s => execWeldHold_kept plane p s
  | .collComplete id, s => execCollComplete_kept id s
  | .stall id, s => execStall_kept id s
  | .tallyTimeout, s => execTallyTimeout_kept s
  | .tongsOpen ctx, s => execTongsOpen_kept ctx s
  | .put ctx, s => execPut_kept ctx s
  | .release ctx, s => execRelease_kept ctx s
  | .fetch ctx, s => execFetch_kept ctx s
  | .tongsClose ctx, s => execTongsClose_kept ctx s
  | .offloadStart slot, s => execOffloadStart_kept slot s
  | .offloadDone slot, s => execOffloadDone_kept slot s
  | .fetchStart slot, s => execFetchStart_kept slot s
  | .fetchDone slot, s => execFetchDone_kept slot s
  | .forceDown mask, s => execForceDown_kept mask s
  | .clearDown mask, s => execClearDown_kept mask s
  | .loupeCheckDone die slip, s => execLoupeCheckDone_kept die slip s
  | .loupeRerunDone die faults, s => execLoupeRerunDone_kept die faults s
  | .loupeSettle die agrees, s => execLoupeSettle_kept die agrees s
  | .tchZeroDone, s => execTchZeroDone_kept s
  | .bstStart, s => execBstStart_kept s
  | .bstDone fails, s => execBstDone_kept fails s
  | .ldgClear unit, s => execLdgClear_kept unit s
  | .ledgerWrite ok, s => execLedgerWrite_kept ok s
  | .pohSave, s => execPohSave_kept s
  | .healthDecay, s => execHealthDecay_kept s
  | .score, s => execScore_kept s
  | .chipResetRequest, s => execChipResetRequest_rest s
  | .dieResetRequest, s => execDieResetRequest_kept s
  | .portResetRequest, s => execPortResetRequest_kept s
  | .resetDone, s => execResetDone_kept s
  | .frecAck, s => execFrecAck_kept s
  | .wdog, s => execWdog_kept s
  | .takeoverLoad, s => execTakeoverLoad_kept s
  | .takeoverRealign, s => execTakeoverRealign_flat s
  | .tkoDone ms mr wc hold wardHold, s => execTkoDone_rest ms mr wc hold wardHold s
  | .tkoFail cause, s => execTkoFail_kept cause s
  | .preCutResult plane p, s => execPreCutResult_kept plane p s
  | .nvmeCompletion status data, s => execNvmeCompletion_kept status data s
  | .nvmeTimeout, s => execNvmeTimeout_kept s
  | .postCutResult plane p, s => execPostCutResult_kept plane p s
  | .cutTimeout, s => execCutTimeout_kept s
  | .restore imgA imgB imgHost, s => execRestore_kept imgA imgB imgHost s
  | .restoreDone ms wc, s => execRestoreDone_rest ms wc s
  | .fill, s => execFill_kept s
  | .fillDone mr stripes, s => execFillDone_kept mr stripes s
  | .driveInit, s => execDriveInit_kept s
  | .powerEval slow pkg input, s => execPowerEval_kept slow pkg input s
  | .rampEval die heldBack level, s => execRampEval_kept die heldBack level s
  | .hintPrepare die, s => execHintPrepare_kept die s
  | .hintWindow die, s => execHintWindow_kept die s
  | .sensorRead id temp good, s => execSensorRead_kept id temp good s
  | .thermalEval slow, s => execThermalEval_kept slow s
  | .thermalTrip sensor temp, s => keeps_mono (execThermalTrip_power sensor temp s) fun _ h => h.imp_right fun h => ⟨_, h⟩
  | .pllUnlock d, s => execPllUnlock_kept d s
  | .dieSleep die, s => execDieSleep_kept die s
  | .dieWake die ns, s => execDieWake_kept die ns s
  | .powerOn, s => execPowerOn_power s
  | .pwrEnFall, s => execPwrEnFall_on s
  | .perst, s => execPerst_rest s
  | .hotReset, s => execHotReset_kept s
  | .linkDown, s => execLinkDown_kept s
  | .hostwRequestError who err, s => execHostwRequestError_kept who err s
  | .apertureAccess off write len data poisoned, s => execApertureAccess_kept off write len data poisoned s
  | .msixGapEnd vector, s => execMsixGapEnd_kept vector s
  | .msixUnmask vector, s => execMsixUnmask_kept vector s
  | .doorbell, s => execDoorbell_kept s
  | .getInfo, s => execGetInfo_kept s
  | .mapSet, s => execMapSet_map s
  | .hbmClearMapout, s => execHbmClearMapout_kept s
  | .hbmRetrain reports, s => execHbmRetrain_map reports s
  | .fwStage image flashOk, s => execFwStage_slots image flashOk s
  | .fwActivate, s => execFwActivate_kept s
  | .svnCommit, s => execSvnCommit_fuse s
  | .keyRevoke, s => execKeyRevoke_fuse s
  | .smcBoot failed diff, s => execSmcBoot_kept failed diff s
  | .getVersion, s => execGetVersion_kept s
  | .getCapabilities version, s => execGetCapabilities_kept version s
  | .negotiateAlgorithms offersEcdsaP384 offersSha384, s => execNegotiateAlgorithms_kept offersEcdsaP384 offersSha384 s
  | .getDigests, s => execGetDigests_kept s
  | .getCertificate slot off len, s => execGetCertificate_kept slot off len s
  | .challenge slot nonce, s => execChallenge_kept slot nonce s
  | .getMeasurements index signed nonce, s => execGetMeasurements_kept index signed nonce s
  | .entdaa addr, s => execEntdaa_kept addr s
  | .getEndpointId, s => execGetEndpointId_kept s
  | .tripStatus, s => execTripStatus_kept s
  | .pldmSensorRead sensor, s => execPldmSensorRead_kept sensor s
  | .flitCrcError d edge module retries ids, s => execFlitCrcError_kept d edge module retries ids s
  | .guestAdmission partner modules desc, s => execGuestAdmission_kept partner modules desc s
  | .gstReadmit, s => execGstReadmit_kept s
  | .withdraw cause, s => execWithdraw_kept cause s
  | .guestBlockResend seq, s => execGuestBlockResend_kept seq s
  | .rd dir tag addr len, s => execRd_kept dir tag addr len s
  | .wr dir tag addr data, s => execWr_kept dir tag addr data s
  | .cpl tag status data, s => execCpl_kept tag status data s
  | .recMsg ctx data, s => execRecMsg_kept ctx data s
  | .reg dir off width val, s => execReg_kept dir off width val s
  | .inputRemoved long, s => execInputRemoved_power long s
  | .linkUp gen width, s => execLinkUp_kept gen width s
  | .configurationRequest req, s => execConfigurationRequest_kept req s
  | .doeDiscovery index, s => execDoeDiscovery_kept index s
  | .driveMemoryRequest addr len write, s => execDriveMemoryRequest_kept addr len write s

/-- Every command keeps the canonical form of memory. -/
theorem exec_wf (s : State) (hw : s.mem.wf = true) : ∀ c : Instr, Keeps (fun t => t.mem.wf = true) (exec c s)
  | .regWrite who off width full val => execRegWrite_wf who off width full val s hw
  | .apply slot => execApply_wf slot s hw
  | .armDiscard slot => execArmDiscard_wf slot s hw
  | .applyTaken slot => execApplyTaken_wf slot s hw
  | .errlogClear slot => execErrlogClear_wf slot s hw
  | .evtStsClear slot mask => execEvtStsClear_wf slot mask s hw
  | .evtForce slot mask => execEvtForce_wf slot mask s hw
  | .evtMaskWrite slot mask => execEvtMaskWrite_wf slot mask s hw
  | .telemetrySnapshot slot => execTelemetrySnapshot_wf slot s hw
  | .hold ctx => execHold_wf ctx s hw
  | .wardHoldAck => execWardHoldAck_wf s hw
  | .step ctx => execStep_wf ctx s hw
  | .temper ctx => execTemper_wf ctx s hw
  | .checkStart => execCheckStart_wf s hw
  | .voteSend => execVoteSend_wf s hw
  | .vote plane p => execVote_wf plane p s hw
  | .result plane p => execResult_wf plane p s hw
  | .flip => execFlip_wf s hw
  | .replayStart => execReplayStart_wf s hw
  | .voteTimeout => execVoteTimeout_wf s hw
  | .resolveForward => execResolveForward_wf s hw
  | .resolveDiscard => execResolveDiscard_wf s hw
  | .replayResume => execReplayResume_wf s hw
  | .mma ctx => execMma_wf ctx s hw
  | .anvTileIssue die unit par => execAnvTileIssue_wf die unit par s hw
  | .anvTileEnd die unit par faults => execAnvTileEnd_wf die unit par faults s hw
  | .anvIssueWaitEnd die unit => execAnvIssueWaitEnd_wf die unit s hw
  | .mmaComplete id => execMmaComplete_wf id s hw
  | .anvClkGate die unit => execAnvClkGate_wf die unit s hw
  | .bistClaimAnvil die => execBistClaimAnvil_wf die s hw
  | .anvTestEnter die => execAnvTestEnter_wf die s hw
  | .anvClaimForced die => execAnvClaimForced_wf die s hw
  | .vec ctx => execVec_wf ctx s hw
  | .vecBlockStart die unit slot => execVecBlockStart_wf die unit slot s hw
  | .vecBlockCommit die unit slot par => execVecBlockCommit_wf die unit slot par s hw
  | .vecComplete id => execVecComplete_wf id s hw
  | .swgClkGate die unit => execSwgClkGate_wf die unit s hw
  | .bistClaimSwage die => execBistClaimSwage_wf die s hw
  | .swgTestEnter die => execSwgTestEnter_wf die s hw
  | .swgClaimForced die => execSwgClaimForced_wf die s hw
  | .bistTestEnd die swage sig sig2 => execBistTestEnd_wf die swage sig sig2 s hw
  | .sparkKat good => execSparkKat_wf good s hw
  | .hearthScrubRead die bank ecc => execHearthScrubRead_wf die bank ecc s hw
  | .hearthInitDone die => execHearthInitDone_wf die s hw
  | .halt die on => execHalt_wf die on s hw
  | .hbmTrain reports => execHbmTrain_wf reports s hw
  | .hbmRead addr ecc ctx => execHbmRead_wf addr ecc ctx s hw
  | .healDone row src readBack => execHealDone_wf row src readBack s hw
  | .hbmParityError addr write errors ctx => execHbmParityError_wf addr write errors ctx s hw
  | .hbmRefresh stack pc bank => execHbmRefresh_wf stack pc bank s hw
  | .hbmTempRead stack temp => execHbmTempRead_wf stack temp s hw
  | .hbmPatrolScrub stack pc ecc => execHbmPatrolScrub_wf stack pc ecc s hw
  | .gather ctx => execGather_wf ctx s hw
  | .gatherComplete id => execGatherComplete_wf id s hw
  | .hbmSelfRefreshExit die bad0 bad1 => execHbmSelfRefreshExit_wf die bad0 bad1 s hw
  | .recordSubmit off data => execRecordSubmit_wf off data s hw
  | .create ctx => execCreate_wf ctx s hw
  | .destroy ctx => execDestroy_wf ctx s hw
  | .ctxReset ctx => execCtxReset_wf ctx s hw
  | .quarantineEnd ctx => execQuarantineEnd_wf ctx s hw
  | .preempt ctx => execPreempt_wf ctx s hw
  | .resume ctx => execResume_wf ctx s hw
  | .skip ctx => execSkip_wf ctx s hw
  | .ctxSave ctx => execCtxSave_wf ctx s hw
  | .ctxLoad ctx => execCtxLoad_wf ctx s hw
  | .recordIssue die => execRecordIssue_wf die s hw
  | .nop ctx => execNop_wf ctx s hw
  | .call ctx => execCall_wf ctx s hw
  | .ret ctx => execRet_wf ctx s hw
  | .loop ctx => execLoop_wf ctx s hw
  | .copy ctx => execCopy_wf ctx s hw
  | .copyComplete id => execCopyComplete_wf id s hw
  | .signal ctx => execSignal_wf ctx s hw
  | .wait ctx => execWait_wf ctx s hw
  | .waitWake ctx => execWaitWake_wf ctx s hw
  | .waitTimeout ctx => execWaitTimeout_wf ctx s hw
  | .heat ctx => execHeat_wf ctx s hw
  | .stamp ctx => execStamp_wf ctx s hw
  | .aflags ctx => execAflags_wf ctx s hw
  | .signalOp plane p => execSignalOp_wf plane p s hw
  | .subscribe plane p => execSubscribe_wf plane p s hw
  | .notify plane p => execNotify_wf plane p s hw
  | .broken plane p => execBroken_wf plane p s hw
  | .cancel plane p => execCancel_wf plane p s hw
  | .busy plane p => execBusy_wf plane p s hw
  | .subscribeRetry ctx => execSubscribeRetry_wf ctx s hw
  | .alloc => execAlloc_wf s hw
  | .free => execFree_wf s hw
  | .bind => execBind_wf s hw
  | .unbind => execUnbind_wf s hw
  | .clearBroken => execClearBroken_wf s hw
  | .periscopeEval => execPeriscopeEval_wf s hw
  | .linkEnable k => execLinkEnable_wf k s hw
  | .linkDisable k => execLinkDisable_wf k s hw
  | .linkTraining k rep => execLinkTraining_wf k rep s hw
  | .retrain k => execRetrain_wf k s hw
  | .linkRetry k => execLinkRetry_wf k s hw
  | .autoRestore k => execAutoRestore_wf k s hw
  | .codewordRx k seq symbols uncorrectable packets slots => execCodewordRx_wf k seq symbols uncorrectable packets slots s hw
  | .controlSlotRx k cs => execControlSlotRx_wf k cs s hw
  | .packetTx k => execPacketTx_wf k s hw
  | .laneFault k lane cause => execLaneFault_wf k lane cause s hw
  | .serWindowEnd k => execSerWindowEnd_wf k s hw
  | .degradeReq k lanes => execDegradeReq_wf k lanes s hw
  | .degradeAck k lanes rep => execDegradeAck_wf k lanes rep s hw
  | .degradeTimeout k => execDegradeTimeout_wf k s hw
  | .downNotice k => execDownNotice_wf k s hw
  | .txeqReq k lane up => execTxeqReq_wf k lane up s hw
  | .txeqAck k lane => execTxeqAck_wf k lane s hw
  | .txeqWindowEnd k lane => execTxeqWindowEnd_wf k lane s hw
  | .data plane p => execData_wf plane p s hw
  | .read plane p ecc => execRead_wf plane p ecc s hw
  | .write plane p => execWrite_wf plane p s hw
  | .ack plane p => execAck_wf plane p s hw
  | .ackSend flow => execAckSend_wf flow s hw
  | .flowOpen plane p => execFlowOpen_wf plane p s hw
  | .openAck plane p => execOpenAck_wf plane p s hw
  | .close plane p => execClose_wf plane p s hw
  | .packetInject flow => execPacketInject_wf flow s hw
  | .resendTimeout flow seq ecc => execResendTimeout_wf flow seq ecc s hw
  | .readmit d mask => execReadmit_wf d mask s hw
  | .epochSwitch => execEpochSwitch_wf s hw
  | .epochRetire => execEpochRetire_wf s hw
  | .drainSet => execDrainSet_wf s hw
  | .drained => execDrained_wf s hw
  | .drainClear => execDrainClear_wf s hw
  | .sendCut => execSendCut_wf s hw
  | .sendStop => execSendStop_wf s hw
  | .copyCur d => execCopyCur_wf d s hw
  | .rteDataWrite d val => execRteDataWrite_wf d val s hw
  | .rteDataRead d => execRteDataRead_wf d s hw
  | .stop plane p => execStop_wf plane p s hw
  | .stopRepeat => execStopRepeat_wf s hw
  | .cut plane p => execCut_wf plane p s hw
  | .timeSend => execTimeSend_wf s hw
  | .time plane p => execTime_wf plane p s hw
  | .holdover => execHoldover_wf s hw
  | .reduceScatter ctx => execReduceScatter_wf ctx s hw
  | .allGather ctx => execAllGather_wf ctx s hw
  | .allReduce ctx => execAllReduce_wf ctx s hw
  | .broadcast ctx => execBroadcast_wf ctx s hw
  | .mirror ctx => execMirror_wf ctx s hw
  | .collStart id => execCollStart_wf id s hw
  | .ready plane p => execReady_wf plane p s hw
  | .partialSum plane p par => execPartialSum_wf plane p par s hw
  | .weldGather plane p => execWeldGather_wf plane p s hw
  | .scatter plane p => execScatter_wf plane p s hw
  | .weldMirror plane p => execWeldMirror_wf plane p s hw
  | .weldHold plane p => execWeldHold_wf plane p s hw
  | .collComplete id => execCollComplete_wf id s hw
  | .stall id => execStall_wf id s hw
  | .tallyTimeout => execTallyTimeout_wf s hw
  | .tongsOpen ctx => execTongsOpen_wf ctx s hw
  | .put ctx => execPut_wf ctx s hw
  | .release ctx => execRelease_wf ctx s hw
  | .fetch ctx => execFetch_wf ctx s hw
  | .tongsClose ctx => execTongsClose_wf ctx s hw
  | .offloadStart slot => execOffloadStart_wf slot s hw
  | .offloadDone slot => execOffloadDone_wf slot s hw
  | .fetchStart slot => execFetchStart_wf slot s hw
  | .fetchDone slot => execFetchDone_wf slot s hw
  | .forceDown mask => execForceDown_wf mask s hw
  | .clearDown mask => execClearDown_wf mask s hw
  | .loupeCheckDone die slip => execLoupeCheckDone_wf die slip s hw
  | .loupeRerunDone die faults => execLoupeRerunDone_wf die faults s hw
  | .loupeSettle die agrees => execLoupeSettle_wf die agrees s hw
  | .tchZeroDone => execTchZeroDone_wf s hw
  | .bstStart => execBstStart_wf s hw
  | .bstDone fails => execBstDone_wf fails s hw
  | .ldgClear unit => execLdgClear_wf unit s hw
  | .ledgerWrite ok => execLedgerWrite_wf ok s hw
  | .pohSave => execPohSave_wf s hw
  | .healthDecay => execHealthDecay_wf s hw
  | .score => execScore_wf s hw
  | .chipResetRequest => execChipResetRequest_wf s hw
  | .dieResetRequest => execDieResetRequest_wf s hw
  | .portResetRequest => execPortResetRequest_wf s hw
  | .resetDone => execResetDone_wf s hw
  | .frecAck => execFrecAck_wf s hw
  | .wdog => execWdog_wf s hw
  | .takeoverLoad => execTakeoverLoad_wf s hw
  | .takeoverRealign => execTakeoverRealign_wf s hw
  | .tkoDone ms mr wc hold wardHold => execTkoDone_wf ms mr wc hold wardHold s hw
  | .tkoFail cause => execTkoFail_wf cause s hw
  | .preCutResult plane p => execPreCutResult_wf plane p s hw
  | .nvmeCompletion status data => execNvmeCompletion_wf status data s hw
  | .nvmeTimeout => execNvmeTimeout_wf s hw
  | .postCutResult plane p => execPostCutResult_wf plane p s hw
  | .cutTimeout => execCutTimeout_wf s hw
  | .restore imgA imgB imgHost => execRestore_wf imgA imgB imgHost s hw
  | .restoreDone ms wc => execRestoreDone_wf ms wc s hw
  | .fill => execFill_wf s hw
  | .fillDone mr stripes => execFillDone_wf mr stripes s hw
  | .driveInit => execDriveInit_wf s hw
  | .powerEval slow pkg input => execPowerEval_wf slow pkg input s hw
  | .rampEval die heldBack level => execRampEval_wf die heldBack level s hw
  | .hintPrepare die => execHintPrepare_wf die s hw
  | .hintWindow die => execHintWindow_wf die s hw
  | .sensorRead id temp good => execSensorRead_wf id temp good s hw
  | .thermalEval slow => execThermalEval_wf slow s hw
  | .thermalTrip sensor temp => execThermalTrip_wf sensor temp s hw
  | .pllUnlock d => execPllUnlock_wf d s hw
  | .dieSleep die => execDieSleep_wf die s hw
  | .dieWake die ns => execDieWake_wf die ns s hw
  | .powerOn => execPowerOn_wf s hw
  | .pwrEnFall => execPwrEnFall_wf s hw
  | .perst => execPerst_wf s hw
  | .hotReset => execHotReset_wf s hw
  | .linkDown => execLinkDown_wf s hw
  | .hostwRequestError who err => execHostwRequestError_wf who err s hw
  | .apertureAccess off write len data poisoned => execApertureAccess_wf off write len data poisoned s hw
  | .msixGapEnd vector => execMsixGapEnd_wf vector s hw
  | .msixUnmask vector => execMsixUnmask_wf vector s hw
  | .doorbell => execDoorbell_wf s hw
  | .getInfo => execGetInfo_wf s hw
  | .mapSet => execMapSet_wf s hw
  | .hbmClearMapout => execHbmClearMapout_wf s hw
  | .hbmRetrain reports => execHbmRetrain_wf reports s hw
  | .fwStage image flashOk => execFwStage_wf image flashOk s hw
  | .fwActivate => execFwActivate_wf s hw
  | .svnCommit => execSvnCommit_wf s hw
  | .keyRevoke => execKeyRevoke_wf s hw
  | .smcBoot failed diff => execSmcBoot_wf failed diff s hw
  | .getVersion => execGetVersion_wf s hw
  | .getCapabilities version => execGetCapabilities_wf version s hw
  | .negotiateAlgorithms offersEcdsaP384 offersSha384 => execNegotiateAlgorithms_wf offersEcdsaP384 offersSha384 s hw
  | .getDigests => execGetDigests_wf s hw
  | .getCertificate slot off len => execGetCertificate_wf slot off len s hw
  | .challenge slot nonce => execChallenge_wf slot nonce s hw
  | .getMeasurements index signed nonce => execGetMeasurements_wf index signed nonce s hw
  | .entdaa addr => execEntdaa_wf addr s hw
  | .getEndpointId => execGetEndpointId_wf s hw
  | .tripStatus => execTripStatus_wf s hw
  | .pldmSensorRead sensor => execPldmSensorRead_wf sensor s hw
  | .flitCrcError d edge module retries ids => execFlitCrcError_wf d edge module retries ids s hw
  | .guestAdmission partner modules desc => execGuestAdmission_wf partner modules desc s hw
  | .gstReadmit => execGstReadmit_wf s hw
  | .withdraw cause => execWithdraw_wf cause s hw
  | .guestBlockResend seq => execGuestBlockResend_wf seq s hw
  | .rd dir tag addr len => execRd_wf dir tag addr len s hw
  | .wr dir tag addr data => execWr_wf dir tag addr data s hw
  | .cpl tag status data => execCpl_wf tag status data s hw
  | .recMsg ctx data => execRecMsg_wf ctx data s hw
  | .reg dir off width val => execReg_wf dir off width val s hw
  | .inputRemoved long => execInputRemoved_wf long s hw
  | .linkUp gen width => execLinkUp_wf gen width s hw
  | .configurationRequest req => execConfigurationRequest_wf req s hw
  | .doeDiscovery index => execDoeDiscovery_wf index s hw
  | .driveMemoryRequest addr len write => execDriveMemoryRequest_wf addr len write s hw

/-- A command outside `writesMemory` leaves memory as it is. -/
theorem exec_mem (s : State) : ∀ c : Instr, writesMemory c = false → Keeps (fun t => t.mem = s.mem) (exec c s)
  | .regWrite who off width full val, _ => execRegWrite_mem who off width full val s
  | .apply slot, _ => execApply_mem slot s
  | .armDiscard slot, _ => execArmDiscard_mem slot s
  | .applyTaken _, h => nomatch h
  | .errlogClear slot, _ => execErrlogClear_mem slot s
  | .evtStsClear slot mask, _ => execEvtStsClear_mem slot mask s
  | .evtForce slot mask, _ => execEvtForce_mem slot mask s
  | .evtMaskWrite slot mask, _ => execEvtMaskWrite_mem slot mask s
  | .telemetrySnapshot slot, _ => execTelemetrySnapshot_mem slot s
  | .hold _, h => nomatch h
  | .wardHoldAck, h => nomatch h
  | .step _, h => nomatch h
  | .temper ctx, _ => execTemper_mem ctx s
  | .checkStart, _ => execCheckStart_mem s
  | .voteSend, h => nomatch h
  | .vote _ _, h => nomatch h
  | .result _ _, h => nomatch h
  | .flip, h => nomatch h
  | .replayStart, _ => execReplayStart_mem s
  | .voteTimeout, _ => execVoteTimeout_mem s
  | .resolveForward, h => nomatch h
  | .resolveDiscard, h => nomatch h
  | .replayResume, h => nomatch h
  | .mma _, h => nomatch h
  | .anvTileIssue _ _ _, h => nomatch h
  | .anvTileEnd _ _ _ _, h => nomatch h
  | .anvIssueWaitEnd die unit, _ => execAnvIssueWaitEnd_mem die unit s
  | .mmaComplete _, h => nomatch h
  | .anvClkGate die unit, _ => execAnvClkGate_mem die unit s
  | .bistClaimAnvil die, _ => execBistClaimAnvil_mem die s
  | .anvTestEnter _, h => nomatch h
  | .anvClaimForced die, _ => execAnvClaimForced_mem die s
  | .vec _, h => nomatch h
  | .vecBlockStart die unit slot, _ => execVecBlockStart_mem die unit slot s
  | .vecBlockCommit _ _ _ _, h => nomatch h
  | .vecComplete _, h => nomatch h
  | .swgClkGate die unit, _ => execSwgClkGate_mem die unit s
  | .bistClaimSwage die, _ => execBistClaimSwage_mem die s
  | .swgTestEnter die, _ => execSwgTestEnter_mem die s
  | .swgClaimForced die, _ => execSwgClaimForced_mem die s
  | .bistTestEnd _ _ _ _, h => nomatch h
  | .sparkKat good, _ => execSparkKat_mem good s
  | .hearthScrubRead die bank ecc, _ => execHearthScrubRead_mem die bank ecc s
  | .hearthInitDone _, h => nomatch h
  | .halt die on, _ => execHalt_mem die on s
  | .hbmTrain _, h => nomatch h
  | .hbmRead addr ecc ctx, _ => execHbmRead_mem addr ecc ctx s
  | .healDone _ _ _, h => nomatch h
  | .hbmParityError _ _ _ _, h => nomatch h
  | .hbmRefresh stack pc bank, _ => execHbmRefresh_mem stack pc bank s
  | .hbmTempRead stack temp, _ => execHbmTempRead_mem stack temp s
  | .hbmPatrolScrub stack pc ecc, _ => execHbmPatrolScrub_mem stack pc ecc s
  | .gather _, h => nomatch h
  | .gatherComplete _, h => nomatch h
  | .hbmSelfRefreshExit die bad0 bad1, _ => execHbmSelfRefreshExit_mem die bad0 bad1 s
  | .recordSubmit _ _, h => nomatch h
  | .create ctx, _ => execCreate_mem ctx s
  | .destroy _, h => nomatch h
  | .ctxReset _, h => nomatch h
  | .quarantineEnd _, h => nomatch h
  | .preempt _, h => nomatch h
  | .resume _, h => nomatch h
  | .skip _, h => nomatch h
  | .ctxSave _, h => nomatch h
  | .ctxLoad ctx, _ => execCtxLoad_mem ctx s
  | .recordIssue die, _ => execRecordIssue_mem die s
  | .nop _, h => nomatch h
  | .call _, h => nomatch h
  | .ret _, h => nomatch h
  | .loop _, h => nomatch h
  | .copy _, h => nomatch h
  | .copyComplete _, h => nomatch h
  | .signal _, h => nomatch h
  | .wait _, h => nomatch h
  | .waitWake _, h => nomatch h
  | .waitTimeout ctx, _ => execWaitTimeout_mem ctx s
  | .heat _, h => nomatch h
  | .stamp _, h => nomatch h
  | .aflags _, h => nomatch h
  | .signalOp plane p, _ => execSignalOp_mem plane p s
  | .subscribe plane p, _ => execSubscribe_mem plane p s
  | .notify plane p, _ => execNotify_mem plane p s
  | .broken plane p, _ => execBroken_mem plane p s
  | .cancel plane p, _ => execCancel_mem plane p s
  | .busy plane p, _ => execBusy_mem plane p s
  | .subscribeRetry ctx, _ => execSubscribeRetry_mem ctx s
  | .alloc, _ => execAlloc_mem s
  | .free, _ => execFree_mem s
  | .bind, _ => execBind_mem s
  | .unbind, _ => execUnbind_mem s
  | .clearBroken, _ => execClearBroken_mem s
  | .periscopeEval, _ => execPeriscopeEval_mem s
  | .linkEnable k, _ => execLinkEnable_mem k s
  | .linkDisable k, _ => execLinkDisable_mem k s
  | .linkTraining k rep, _ => execLinkTraining_mem k rep s
  | .retrain k, _ => execRetrain_mem k s
  | .linkRetry k, _ => execLinkRetry_mem k s
  | .autoRestore k, _ => execAutoRestore_mem k s
  | .codewordRx k seq symbols uncorrectable packets slots, _ => execCodewordRx_mem k seq symbols uncorrectable packets slots s
  | .controlSlotRx k cs, _ => execControlSlotRx_mem k cs s
  | .packetTx k, _ => execPacketTx_mem k s
  | .laneFault k lane cause, _ => execLaneFault_mem k lane cause s
  | .serWindowEnd k, _ => execSerWindowEnd_mem k s
  | .degradeReq k lanes, _ => execDegradeReq_mem k lanes s
  | .degradeAck k lanes rep, _ => execDegradeAck_mem k lanes rep s
  | .degradeTimeout k, _ => execDegradeTimeout_mem k s
  | .downNotice k, _ => execDownNotice_mem k s
  | .txeqReq k lane up, _ => execTxeqReq_mem k lane up s
  | .txeqAck k lane, _ => execTxeqAck_mem k lane s
  | .txeqWindowEnd k lane, _ => execTxeqWindowEnd_mem k lane s
  | .data _ _, h => nomatch h
  | .read plane p ecc, _ => execRead_mem plane p ecc s
  | .write _ _, h => nomatch h
  | .ack _ _, h => nomatch h
  | .ackSend flow, _ => execAckSend_mem flow s
  | .flowOpen _ _, h => nomatch h
  | .openAck plane p, _ => execOpenAck_mem plane p s
  | .close plane p, _ => execClose_mem plane p s
  | .packetInject flow, _ => execPacketInject_mem flow s
  | .resendTimeout _ _ _, h => nomatch h
  | .readmit d mask, _ => execReadmit_mem d mask s
  | .epochSwitch, _ => execEpochSwitch_mem s
  | .epochRetire, _ => execEpochRetire_mem s
  | .drainSet, _ => execDrainSet_mem s
  | .drained, _ => execDrained_mem s
  | .drainClear, _ => execDrainClear_mem s
  | .sendCut, _ => execSendCut_mem s
  | .sendStop, _ => execSendStop_mem s
  | .copyCur d, _ => execCopyCur_mem d s
  | .rteDataWrite d val, _ => execRteDataWrite_mem d val s
  | .rteDataRead d, _ => execRteDataRead_mem d s
  | .stop plane p, _ => execStop_mem plane p s
  | .stopRepeat, _ => execStopRepeat_mem s
  | .cut plane p, _ => execCut_mem plane p s
  | .timeSend, _ => execTimeSend_mem s
  | .time plane p, _ => execTime_mem plane p s
  | .holdover, _ => execHoldover_mem s
  | .reduceScatter _, h => nomatch h
  | .allGather _, h => nomatch h
  | .allReduce _, h => nomatch h
  | .broadcast _, h => nomatch h
  | .mirror _, h => nomatch h
  | .collStart _, h => nomatch h
  | .ready plane p, _ => execReady_mem plane p s
  | .partialSum _ _ _, h => nomatch h
  | .weldGather _ _, h => nomatch h
  | .scatter _ _, h => nomatch h
  | .weldMirror _ _, h => nomatch h
  | .weldHold _ _, h => nomatch h
  | .collComplete _, h => nomatch h
  | .stall id, _ => execStall_mem id s
  | .tallyTimeout, _ => execTallyTimeout_mem s
  | .tongsOpen _, h => nomatch h
  | .put _, h => nomatch h
  | .release _, h => nomatch h
  | .fetch _, h => nomatch h
  | .tongsClose _, h => nomatch h
  | .offloadStart _, h => nomatch h
  | .offloadDone _, h => nomatch h
  | .fetchStart _, h => nomatch h
  | .fetchDone _, h => nomatch h
  | .forceDown _, h => nomatch h
  | .clearDown mask, _ => execClearDown_mem mask s
  | .loupeCheckDone die slip, _ => execLoupeCheckDone_mem die slip s
  | .loupeRerunDone die faults, _ => execLoupeRerunDone_mem die faults s
  | .loupeSettle die agrees, _ => execLoupeSettle_mem die agrees s
  | .tchZeroDone, h => nomatch h
  | .bstStart, _ => execBstStart_mem s
  | .bstDone _, h => nomatch h
  | .ldgClear unit, _ => execLdgClear_mem unit s
  | .ledgerWrite ok, _ => execLedgerWrite_mem ok s
  | .pohSave, _ => execPohSave_mem s
  | .healthDecay, _ => execHealthDecay_mem s
  | .score, _ => execScore_mem s
  | .chipResetRequest, h => nomatch h
  | .dieResetRequest, h => nomatch h
  | .portResetRequest, h => nomatch h
  | .resetDone, _ => execResetDone_mem s
  | .frecAck, _ => execFrecAck_mem s
  | .wdog, _ => execWdog_mem s
  | .takeoverLoad, _ => execTakeoverLoad_mem s
  | .takeoverRealign, _ => execTakeoverRealign_mem s
  | .tkoDone _ _ _ _ _, h => nomatch h
  | .tkoFail _, h => nomatch h
  | .preCutResult _ _, h => nomatch h
  | .nvmeCompletion status data, _ => execNvmeCompletion_mem status data s
  | .nvmeTimeout, _ => execNvmeTimeout_mem s
  | .postCutResult _ _, h => nomatch h
  | .cutTimeout, _ => execCutTimeout_mem s
  | .restore imgA imgB imgHost, _ => execRestore_mem imgA imgB imgHost s
  | .restoreDone _ _, h => nomatch h
  | .fill, _ => execFill_mem s
  | .fillDone _ _, h => nomatch h
  | .driveInit, _ => execDriveInit_mem s
  | .powerEval slow pkg input, _ => execPowerEval_mem slow pkg input s
  | .rampEval die heldBack level, _ => execRampEval_mem die heldBack level s
  | .hintPrepare die, _ => execHintPrepare_mem die s
  | .hintWindow die, _ => execHintWindow_mem die s
  | .sensorRead id temp good, _ => execSensorRead_mem id temp good s
  | .thermalEval slow, _ => execThermalEval_mem slow s
  | .thermalTrip _ _, h => nomatch h
  | .pllUnlock d, _ => execPllUnlock_mem d s
  | .dieSleep die, _ => execDieSleep_mem die s
  | .dieWake die ns, _ => execDieWake_mem die ns s
  | .powerOn, h => nomatch h
  | .pwrEnFall, h => nomatch h
  | .perst, h => nomatch h
  | .hotReset, h => nomatch h
  | .linkDown, h => nomatch h
  | .hostwRequestError _ _, h => nomatch h
  | .apertureAccess _ _ _ _ _, h => nomatch h
  | .msixGapEnd vector, _ => execMsixGapEnd_mem vector s
  | .msixUnmask vector, _ => execMsixUnmask_mem vector s
  | .doorbell, _ => execDoorbell_mem s
  | .getInfo, _ => execGetInfo_mem s
  | .mapSet, h => nomatch h
  | .hbmClearMapout, _ => execHbmClearMapout_mem s
  | .hbmRetrain _, h => nomatch h
  | .fwStage image flashOk, _ => execFwStage_mem image flashOk s
  | .fwActivate, _ => execFwActivate_mem s
  | .svnCommit, _ => execSvnCommit_mem s
  | .keyRevoke, _ => execKeyRevoke_mem s
  | .smcBoot failed diff, _ => execSmcBoot_mem failed diff s
  | .getVersion, _ => execGetVersion_mem s
  | .getCapabilities version, _ => execGetCapabilities_mem version s
  | .negotiateAlgorithms offersEcdsaP384 offersSha384, _ => execNegotiateAlgorithms_mem offersEcdsaP384 offersSha384 s
  | .getDigests, _ => execGetDigests_mem s
  | .getCertificate slot off len, _ => execGetCertificate_mem slot off len s
  | .challenge slot nonce, _ => execChallenge_mem slot nonce s
  | .getMeasurements index signed nonce, _ => execGetMeasurements_mem index signed nonce s
  | .entdaa addr, _ => execEntdaa_mem addr s
  | .getEndpointId, _ => execGetEndpointId_mem s
  | .tripStatus, _ => execTripStatus_mem s
  | .pldmSensorRead sensor, _ => execPldmSensorRead_mem sensor s
  | .flitCrcError d edge module retries ids, _ => execFlitCrcError_mem d edge module retries ids s
  | .guestAdmission _ _ _, h => nomatch h
  | .gstReadmit, _ => execGstReadmit_mem s
  | .withdraw _, h => nomatch h
  | .guestBlockResend _, h => nomatch h
  | .rd dir tag addr len, _ => execRd_mem dir tag addr len s
  | .wr _ _ _ _, h => nomatch h
  | .cpl tag status data, _ => execCpl_mem tag status data s
  | .recMsg _ _, h => nomatch h
  | .reg _ _ _ _, h => nomatch h
  | .inputRemoved _, h => nomatch h
  | .linkUp gen width, _ => execLinkUp_mem gen width s
  | .configurationRequest req, _ => execConfigurationRequest_mem req s
  | .doeDiscovery index, _ => execDoeDiscovery_mem index s
  | .driveMemoryRequest addr len write, _ => execDriveMemoryRequest_mem addr len write s

/-! ### How a command answers -/

/-- A well-formed command is answered by a next state, which without main power is the state as it was unless the command is served
then; any other command faults. -/
def Answers (s : State) (formed served : Bool) (o : Outcome) : Prop :=
  if formed then ∃ t, o = .next t ∧ (served = false → s.power.on = false → t = s) else o = .fault .noSuchUnit

theorem answers_next {s : State} (t : State) : Answers s true true (.next t) := ⟨t, rfl, nofun⟩

theorem answers_live (s t : State) : Answers s true false (live s t) :=
  ⟨_, rfl, fun _ hoff => by simp [hoff]⟩

theorem answers_guard {s t : State} {formed : Bool} {p : Prop} [Decidable p] (hp : formed = true ↔ p) :
    Answers s formed false (if p then live s t else .fault .noSuchUnit) := by
  by_cases h : p
  · simpa [h, hp.mpr h] using answers_live s t
  · simp [h, mt hp.mp h, Answers]

theorem answers_unit (s : State) (u n : Nat) (t : State) : Answers s (decide (u < n)) false (onUnit s u n t) :=
  answers_guard decide_eq_true_iff

theorem answers_rec (s : State) (c op : Nat) (f : Rec → State) : Answers s (decide (c < 64)) false (onRec s c op f) :=
  answers_unit _ _ _ _

theorem answers_page {s : State} {slot : Nat} {f : Page × Nat → State} {o : Outcome} (hf : ∀ x, pageAt slot = some x → o = live s (f x))
    (hn : pageAt slot = none → o = .fault .noSuchUnit) : Answers s (pageAt slot).isSome false o := by
  cases h : pageAt slot with
  | none => simpa [Answers] using hn h
  | some x => rw [hf x h]; exact answers_live s _

/-- Every command is answered under its operands, and one that main power serves stands still without it. -/
theorem exec_answers (s : State) : ∀ c : Instr, Answers s (wellFormed c) (servedOff c) (exec c s)
  | .regWrite who off width full val => answers_live _ _
  | .apply slot => answers_page (fun x h => by simp only [exec, execApply, h]; rfl) (fun h => by simp only [exec, execApply, h])
  | .armDiscard slot => answers_page (fun x h => by simp only [exec, execArmDiscard, h]; rfl) (fun h => by simp only [exec, execArmDiscard, h])
  | .applyTaken slot => answers_page (fun x h => by simp only [exec, execApplyTaken, h]; rfl) (fun h => by simp only [exec, execApplyTaken, h])
  | .errlogClear slot => answers_page (fun x h => by simp only [exec, execErrlogClear, h]; rfl) (fun h => by simp only [exec, execErrlogClear, h])
  | .evtStsClear slot mask => answers_page (fun x h => by simp only [exec, execEvtStsClear, h]; rfl) (fun h => by simp only [exec, execEvtStsClear, h])
  | .evtForce slot mask => answers_page (fun x h => by simp only [exec, execEvtForce, h]; rfl) (fun h => by simp only [exec, execEvtForce, h])
  | .evtMaskWrite slot mask => answers_page (fun x h => by simp only [exec, execEvtMaskWrite, h]; rfl) (fun h => by simp only [exec, execEvtMaskWrite, h])
  | .telemetrySnapshot slot => by
    refine answers_page (f := fun x => if (capsOf x.1).shadowed then { s with snaps := Tbl.set s.snaps slot ⟨s.now, pageImage s slot⟩ } else s)
      (fun x h => ?_) (fun h => by simp only [exec, execTelemetrySnapshot, h])
    simp only [exec, execTelemetrySnapshot, h]
    split <;> rfl
  | .hold ctx => answers_unit _ _ _ _
  | .wardHoldAck => answers_live _ _
  | .step ctx => answers_unit _ _ _ _
  | .temper ctx => answers_rec _ _ _ _
  | .checkStart => answers_live _ _
  | .voteSend => answers_live _ _
  | .vote plane p => answers_unit _ _ _ _
  | .result plane p => answers_unit _ _ _ _
  | .flip => answers_live _ _
  | .replayStart => answers_live _ _
  | .voteTimeout => answers_live _ _
  | .resolveForward => answers_live _ _
  | .resolveDiscard => answers_live _ _
  | .replayResume => answers_live _ _
  | .mma ctx => answers_rec _ _ _ _
  | .anvTileIssue die unit par => answers_guard (by simp [wellFormed])
  | .anvTileEnd die unit par faults => answers_guard (by simp [wellFormed])
  | .anvIssueWaitEnd die unit => answers_guard (by simp [wellFormed])
  | .mmaComplete id => answers_live _ _
  | .anvClkGate die unit => answers_guard (by simp [wellFormed])
  | .bistClaimAnvil die => answers_unit _ _ _ _
  | .anvTestEnter die => answers_unit _ _ _ _
  | .anvClaimForced die => answers_unit _ _ _ _
  | .vec ctx => answers_rec _ _ _ _
  | .vecBlockStart die unit slot => answers_guard (by simp [wellFormed, and_assoc])
  | .vecBlockCommit die unit slot par => answers_guard (by simp [wellFormed, and_assoc])
  | .vecComplete id => answers_live _ _
  | .swgClkGate die unit => answers_guard (by simp [wellFormed])
  | .bistClaimSwage die => answers_unit _ _ _ _
  | .swgTestEnter die => answers_unit _ _ _ _
  | .swgClaimForced die => answers_unit _ _ _ _
  | .bistTestEnd die swage sig sig2 => answers_unit _ _ _ _
  | .sparkKat good => answers_live _ _
  | .hearthScrubRead die bank ecc => answers_guard (by simp [wellFormed])
  | .hearthInitDone die => answers_unit _ _ _ _
  | .halt die on => answers_unit _ _ _ _
  | .hbmTrain reports => answers_guard (by simp [wellFormed])
  | .hbmRead addr ecc ctx => answers_live _ _
  | .healDone row src readBack => answers_live _ _
  | .hbmParityError addr write errors ctx => answers_live _ _
  | .hbmRefresh stack pc bank => answers_guard (by simp [wellFormed])
  | .hbmTempRead stack temp => answers_unit _ _ _ _
  | .hbmPatrolScrub stack pc ecc => answers_guard (by simp [wellFormed])
  | .gather ctx => answers_rec _ _ _ _
  | .gatherComplete id => answers_live _ _
  | .hbmSelfRefreshExit die bad0 bad1 => answers_unit _ _ _ _
  | .recordSubmit off data => answers_unit _ _ _ _
  | .create ctx => answers_unit _ _ _ _
  | .destroy ctx => answers_unit _ _ _ _
  | .ctxReset ctx => answers_unit _ _ _ _
  | .quarantineEnd ctx => answers_unit _ _ _ _
  | .preempt ctx => answers_unit _ _ _ _
  | .resume ctx => answers_unit _ _ _ _
  | .skip ctx => answers_unit _ _ _ _
  | .ctxSave ctx => answers_unit _ _ _ _
  | .ctxLoad ctx => answers_unit _ _ _ _
  | .recordIssue die => answers_unit _ _ _ _
  | .nop ctx => answers_rec _ _ _ _
  | .call ctx => answers_rec _ _ _ _
  | .ret ctx => answers_rec _ _ _ _
  | .loop ctx => answers_rec _ _ _ _
  | .copy ctx => answers_rec _ _ _ _
  | .copyComplete id => answers_live _ _
  | .signal ctx => answers_rec _ _ _ _
  | .wait ctx => answers_rec _ _ _ _
  | .waitWake ctx => answers_unit _ _ _ _
  | .waitTimeout ctx => answers_unit _ _ _ _
  | .heat ctx => answers_rec _ _ _ _
  | .stamp ctx => answers_rec _ _ _ _
  | .aflags ctx => answers_rec _ _ _ _
  | .signalOp plane p => answers_unit _ _ _ _
  | .subscribe plane p => answers_unit _ _ _ _
  | .notify plane p => answers_unit _ _ _ _
  | .broken plane p => answers_unit _ _ _ _
  | .cancel plane p => answers_unit _ _ _ _
  | .busy plane p => answers_unit _ _ _ _
  | .subscribeRetry ctx => answers_unit _ _ _ _
  | .alloc => answers_live _ _
  | .free => answers_live _ _
  | .bind => answers_live _ _
  | .unbind => answers_live _ _
  | .clearBroken => answers_live _ _
  | .periscopeEval => answers_live _ _
  | .linkEnable k => answers_unit _ _ _ _
  | .linkDisable k => answers_unit _ _ _ _
  | .linkTraining k rep => answers_unit _ _ _ _
  | .retrain k => answers_unit _ _ _ _
  | .linkRetry k => answers_unit _ _ _ _
  | .autoRestore k => answers_unit _ _ _ _
  | .codewordRx k seq symbols uncorrectable packets slots => answers_unit _ _ _ _
  | .controlSlotRx k cs => answers_unit _ _ _ _
  | .packetTx k => answers_unit _ _ _ _
  | .laneFault k lane cause => answers_guard (by simp [wellFormed])
  | .serWindowEnd k => answers_unit _ _ _ _
  | .degradeReq k lanes => answers_unit _ _ _ _
  | .degradeAck k lanes rep => answers_unit _ _ _ _
  | .degradeTimeout k => answers_unit _ _ _ _
  | .downNotice k => answers_unit _ _ _ _
  | .txeqReq k lane up => answers_guard (by simp [wellFormed])
  | .txeqAck k lane => answers_guard (by simp [wellFormed])
  | .txeqWindowEnd k lane => answers_guard (by simp [wellFormed])
  | .data plane p => answers_unit _ _ _ _
  | .read plane p ecc => answers_unit _ _ _ _
  | .write plane p => answers_unit _ _ _ _
  | .ack plane p => answers_unit _ _ _ _
  | .ackSend flow => answers_unit _ _ _ _
  | .flowOpen plane p => answers_unit _ _ _ _
  | .openAck plane p => answers_unit _ _ _ _
  | .close plane p => answers_unit _ _ _ _
  | .packetInject flow => answers_unit _ _ _ _
  | .resendTimeout flow seq ecc => answers_unit _ _ _ _
  | .readmit d mask => answers_unit _ _ _ _
  | .epochSwitch => answers_live _ _
  | .epochRetire => answers_live _ _
  | .drainSet => answers_live _ _
  | .drained => answers_live _ _
  | .drainClear => answers_live _ _
  | .sendCut => answers_live _ _
  | .sendStop => answers_live _ _
  | .copyCur d => answers_unit _ _ _ _
  | .rteDataWrite d val => answers_unit _ _ _ _
  | .rteDataRead d => answers_unit _ _ _ _
  | .stop plane p => answers_unit _ _ _ _
  | .stopRepeat => answers_live _ _
  | .cut plane p => answers_unit _ _ _ _
  | .timeSend => answers_live _ _
  | .time plane p => answers_unit _ _ _ _
  | .holdover => answers_live _ _
  | .reduceScatter ctx => answers_rec _ _ _ _
  | .allGather ctx => answers_rec _ _ _ _
  | .allReduce ctx => answers_rec _ _ _ _
  | .broadcast ctx => answers_rec _ _ _ _
  | .mirror ctx => answers_rec _ _ _ _
  | .collStart id => answers_live _ _
  | .ready plane p => answers_unit _ _ _ _
  | .partialSum plane p par => answers_unit _ _ _ _
  | .weldGather plane p => answers_unit _ _ _ _
  | .scatter plane p => answers_unit _ _ _ _
  | .weldMirror plane p => answers_unit _ _ _ _
  | .weldHold plane p => answers_unit _ _ _ _
  | .collComplete id => answers_live _ _
  | .stall id => answers_live _ _
  | .tallyTimeout => answers_live _ _
  | .tongsOpen ctx => answers_rec _ _ _ _
  | .put ctx => answers_rec _ _ _ _
  | .release ctx => answers_rec _ _ _ _
  | .fetch ctx => answers_rec _ _ _ _
  | .tongsClose ctx => answers_rec _ _ _ _
  | .offloadStart slot => answers_unit _ _ _ _
  | .offloadDone slot => answers_unit _ _ _ _
  | .fetchStart slot => answers_unit _ _ _ _
  | .fetchDone slot => answers_unit _ _ _ _
  | .forceDown mask => answers_live _ _
  | .clearDown mask => answers_live _ _
  | .loupeCheckDone die slip => answers_unit _ _ _ _
  | .loupeRerunDone die faults => answers_unit _ _ _ _
  | .loupeSettle die agrees => answers_unit _ _ _ _
  | .tchZeroDone => answers_live _ _
  | .bstStart => answers_live _ _
  | .bstDone fails => answers_live _ _
  | .ldgClear unit => answers_live _ _
  | .ledgerWrite ok => answers_live _ _
  | .pohSave => answers_live _ _
  | .healthDecay => answers_live _ _
  | .score => answers_live _ _
  | .chipResetRequest => answers_live _ _
  | .dieResetRequest => answers_live _ _
  | .portResetRequest => answers_live _ _
  | .resetDone => answers_live _ _
  | .frecAck => answers_live _ _
  | .wdog => answers_live _ _
  | .takeoverLoad => answers_live _ _
  | .takeoverRealign => answers_live _ _
  | .tkoDone ms mr wc hold wardHold => answers_live _ _
  | .tkoFail cause => answers_live _ _
  | .preCutResult plane p => answers_unit _ _ _ _
  | .nvmeCompletion status data => answers_live _ _
  | .nvmeTimeout => answers_live _ _
  | .postCutResult plane p => answers_unit _ _ _ _
  | .cutTimeout => answers_live _ _
  | .restore imgA imgB imgHost => answers_live _ _
  | .restoreDone ms wc => answers_live _ _
  | .fill => answers_live _ _
  | .fillDone mr stripes => answers_live _ _
  | .driveInit => answers_live _ _
  | .powerEval slow pkg input => answers_live _ _
  | .rampEval die heldBack level => answers_unit _ _ _ _
  | .hintPrepare die => answers_unit _ _ _ _
  | .hintWindow die => answers_unit _ _ _ _
  | .sensorRead id temp good => answers_unit _ _ _ _
  | .thermalEval slow => answers_live _ _
  | .thermalTrip sensor temp => answers_unit _ _ _ _
  | .pllUnlock d => answers_unit _ _ _ _
  | .dieSleep die => answers_unit _ _ _ _
  | .dieWake die ns => answers_unit _ _ _ _
  | .powerOn => answers_next _
  | .pwrEnFall => answers_next _
  | .perst => answers_live _ _
  | .hotReset => answers_live _ _
  | .linkDown => answers_live _ _
  | .hostwRequestError who err => answers_live _ _
  | .apertureAccess off write len data poisoned => answers_live _ _
  | .msixGapEnd vector => answers_unit _ _ _ _
  | .msixUnmask vector => answers_unit _ _ _ _
  | .doorbell => answers_live _ _
  | .getInfo => answers_live _ _
  | .mapSet => answers_live _ _
  | .hbmClearMapout => answers_live _ _
  | .hbmRetrain reports => answers_guard (by simp [wellFormed])
  | .fwStage image flashOk => answers_live _ _
  | .fwActivate => answers_live _ _
  | .svnCommit => answers_live _ _
  | .keyRevoke => answers_live _ _
  | .smcBoot failed diff => answers_guard (by simp [wellFormed])
  | .getVersion => answers_live _ _
  | .getCapabilities version => answers_live _ _
  | .negotiateAlgorithms offersEcdsaP384 offersSha384 => answers_live _ _
  | .getDigests => answers_live _ _
  | .getCertificate slot off len => answers_live _ _
  | .challenge slot nonce => answers_live _ _
  | .getMeasurements index signed nonce => answers_live _ _
  | .entdaa addr => by
    by_cases h : addr < 128
    · simpa [exec, execEntdaa, wellFormed, servedOff, h] using answers_next _
    · simp [exec, execEntdaa, wellFormed, h, Answers]
  | .getEndpointId => answers_next _
  | .tripStatus => answers_next _
  | .pldmSensorRead sensor => answers_live _ _
  | .flitCrcError d edge module retries ids => answers_guard (by simp [wellFormed, and_assoc])
  | .guestAdmission partner modules desc => answers_live _ _
  | .gstReadmit => answers_live _ _
  | .withdraw cause => answers_live _ _
  | .guestBlockResend seq => answers_unit _ _ _ _
  | .rd dir tag addr len => answers_live _ _
  | .wr dir tag addr data => answers_live _ _
  | .cpl tag status data => answers_live _ _
  | .recMsg ctx data => answers_live _ _
  | .reg dir off width val => answers_live _ _
  | .inputRemoved long => answers_next _
  | .linkUp gen width => answers_live _ _
  | .configurationRequest req => answers_live _ _
  | .doeDiscovery index => answers_live _ _
  | .driveMemoryRequest addr len write => answers_live _ _

/-! ### The obligations on all commands -/

/-- Settles O3: how every command answers. -/
theorem wellFormedCommandsComplete : Obligations.WellFormedCommandsComplete := by
  intro c s
  have h := exec_answers s c
  refine ⟨fun hw => ?_, fun hw => ?_⟩
  · rw [hw] at h
    obtain ⟨t, ht, -⟩ := h
    exact ⟨t, ht⟩
  · rw [hw] at h
    exact h

/-- Settles O11: without main power a command that is not served then answers the state as it was. -/
theorem offModuleStandsStill : Obligations.OffModuleStandsStill := by
  intro c s t hoff hserved hexec
  have h := exec_answers s c
  unfold Answers at h
  split at h
  · obtain ⟨u, hu, hstill⟩ := h
    rw [hu] at hexec
    cases hexec
    exact hstill hserved hoff
  · rw [h] at hexec
    cases hexec

/-- Settles O12: memory is the same, so each byte reads the same. -/
theorem memoryUntouchedByCommands : Obligations.MemoryUntouchedByCommands :=
  fun c s t hw hexec a => congrArg (fun m => Memory.byte m a) (exec_mem s c hw t hexec)

/-- Settles O1: `step` runs the command at the front on the queue's rest. -/
theorem frontCommandRuns : Obligations.FrontCommandRuns := fun _ _ _ => rfl

/-- Settles O2: a tick moves the clock by 10 ns, and with it only fabric time and its service. -/
theorem emptyQueueTicks : Obligations.EmptyQueueTicks := by
  intro s hq
  refine ⟨tick s, by simp [step, hq], ?_⟩
  unfold tick
  dsimp only
  split <;> exact ⟨rfl, rfl⟩

/-! The part of a command against the classes of Safety -/

/-- Whether the part holds ACTIVE_BANK. -/
def Part.flips : Part → Bool
  | .bank | .cold => true
  | _ => false

/-- Whether the part holds the progress of the steps. -/
def Part.steps : Part → Bool
  | .bank | .progress | .cold => true
  | _ => false

/-- Whether the part holds the address map. -/
def Part.maps : Part → Bool
  | .map | .cold => true
  | _ => false

/-- Whether the part holds the supply. -/
def Part.switches : Part → Bool
  | .off | .input _ | .trip | .cold => true
  | _ => false

theorem mayFlip_eq (c : Instr) : mayFlip c = (part c).flips := by cases c <;> rfl

theorem mayMoveStep_eq (c : Instr) : mayMoveStep c = (part c).steps := by cases c <;> rfl

theorem maySetMap_eq (c : Instr) : maySetMap c = (part c).maps := by cases c <;> rfl

theorem maySwitchPower_eq (c : Instr) : maySwitchPower c = (part c).switches := by cases c <;> rfl

/-- What stays under a change of part `p`. -/
structure Part.Stays (p : Part) (s t : State) : Prop where
  pending : t.pending = s.pending
  bank : p.flips = false → t.tmp.activeBank = s.tmp.activeBank
  progress : p.steps = false → t.tmp.progress = s.tmp.progress
  map : p.maps = false → t.map = s.map
  supply : p.switches = false → t.power.on = s.power.on ∧ t.power.trip = s.power.trip
  latched : s.power.trip.isSome = true → p ≠ .input true → t.power.trip.isSome = true
  dark : s.power.trip.isSome = true → s.power.on = false → t.power.on = false
  slots : p ≠ .slots → t.smc.slotA = s.smc.slotA ∧ t.smc.slotB = s.smc.slotB
  svn : p ≠ .svn → t.smc.fuseSvn = s.smc.fuseSvn
  svnGrows : s.smc.fuseSvn ≤ t.smc.fuseSvn
  key : p ≠ .key → t.smc.revoked = s.smc.revoked
  keyGrows : s.smc.revoked ||| t.smc.revoked = t.smc.revoked

/-- A change of one part leaves the others. -/
theorem Part.Moved.stays {p : Part} {s t : State} (h : p.Moved s t) : p.Stays s t := by
  cases p
  all_goals
    simp only [Part.Moved, State.rest, State.flat, State.kept, Kept.mk.injEq] at h
    constructor <;> grind [Part.flips, Part.steps, Part.maps, Part.switches]

/-- Every next state of a command leaves what is outside its part. -/
theorem exec_stays {c : Instr} {s t : State} (h : exec c s = .next t) : (part c).Stays s t := (exec_moved c s t h).stays

/-- Settles O8: the classes of Safety are those of the parts that hold ACTIVE_BANK and the progress. -/
theorem activeBankAndStepOnlyMoveByTheirCommands : Obligations.ActiveBankAndStepOnlyMoveByTheirCommands := by
  intro c s t h
  have hs := exec_stays h
  refine ⟨fun hc => hs.bank (mayFlip_eq c ▸ hc), fun hc => ?_⟩
  have hp := hs.progress (mayMoveStep_eq c ▸ hc)
  simp only [Tmp.progress, Tmp.mk.injEq] at hp
  obtain ⟨-, -, -, -, hreplay, -, hlate, hstep, htempered, hflip, hatt⟩ := hp
  exact ⟨hstep, htempered, hflip, hatt, hreplay, hlate⟩

/-- Settles O9: only a training, MAP_SET and a COLD reset hold the map in their part. -/
theorem addressMapOnlyMovesByItsCommands : Obligations.AddressMapOnlyMovesByItsCommands :=
  fun c _ _ h hc => (exec_stays h).map (maySetMap_eq c ▸ hc)

/-- Settles O10: a trip latches, a removal of the input opens the latch, and a COLD reset asks for an open one. -/
theorem supplyOnlyMovesByItsCommands : Obligations.SupplyOnlyMovesByItsCommands := by
  intro c s t h
  have hs := exec_stays h
  refine ⟨fun hc => hs.supply (maySwitchPower_eq c ▸ hc), fun htrip hc => hs.latched htrip fun hp => hc ?_, hs.dark⟩
  cases c <;> cases hp
  rfl

/-- Settles O7: the queue is in no part, and the slots, the counter and the bits are each in the part of their one command. -/
theorem commandsLeaveTheQueueAndTheFlash : Obligations.CommandsLeaveTheQueueAndTheFlash := by
  intro c s t h
  have hs := exec_stays h
  refine ⟨hs.pending, fun hc => hs.slots fun hp => ?_, fun hc => hs.svn fun hp => ?_, hs.svnGrows, fun hc => hs.key fun hp => ?_,
    hs.keyGrows⟩
  · cases c <;> cases hp
    exact hc _ _ rfl
  · cases c <;> cases hp
    exact hc rfl
  · cases c <;> cases hp
    exact hc rfl

/-! ### Runs of the queue -/

/-- A command of the queue, or a tick, leaves the waiting commands behind it. -/
theorem pending_of_step {s t : State} (h : step s = .next t) : t.pending = s.pending.tail := by
  cases hq : s.pending with
  | nil =>
    simp only [step, hq] at h
    cases h
    simp only [tick]
    split <;> exact hq
  | cons c cs =>
    simp only [step, hq] at h
    exact (exec_stays h).pending

/-- A step on a queue of well-formed commands answers a next state. -/
theorem step_next {s : State} (hq : ∀ c ∈ s.pending, wellFormed c = true) : ∃ t, step s = .next t := by
  cases h : s.pending with
  | nil => exact ⟨tick s, by simp [step, h]⟩
  | cons c cs =>
    obtain ⟨t, ht⟩ := (wellFormedCommandsComplete c { s with pending := cs }).1 (hq c (by simp [h]))
    exact ⟨t, by simpa [step, h] using ht⟩

/-- Settles O4, by induction on the number of steps: each step answers a next state and leaves a part of the queue. -/
theorem queueOfWellFormedCommandsNeverStops : Obligations.QueueOfWellFormedCommandsNeverStops := by
  intro n
  induction n with
  | zero => exact fun s _ => ⟨s, rfl⟩
  | succ n ih =>
    intro s hq
    obtain ⟨t, ht⟩ := step_next hq
    obtain ⟨u, hu⟩ := ih t fun c hc => hq c (List.mem_of_mem_tail (pending_of_step ht ▸ hc))
    exact ⟨u, by simpa [stepsFrom, ht] using hu⟩

/-! ### The invariant -/

/-- The COLD default map is legal: it has no region (R162). -/
theorem mapOk_coldDefault (seq : Nat) : MapOk (AddrMap.coldDefault seq) where
  cold _ := rfl
  split := Nat.zero_le _
  aligned := by simp [mapRegions, AddrMap.coldDefault]
  apart := by simp [mapRegions, AddrMap.coldDefault, anyMeet, regionsMeet]

/-- A map that Table 6.3 does not refuse is legal. -/
theorem mapOk_of_mapRefusal {s : State} {m : AddrMap} (hv : m.valid = true) (h : mapRefusal s m = 0) : MapOk m := by
  have hrefuse : m.split ≤ 16 ∧ (mapRegions m).any (fun r => r.1 % 2 ^ 21 != 0 || r.2 % 2 ^ 21 != 0) = false ∧
      anyMeet (mapRegions m) = false := by
    simp only [mapRefusal] at h
    repeat (split at h; · simp at h)
    rename_i hsplit halign _ hapart
    exact ⟨Nat.le_of_not_lt hsplit, Bool.eq_false_iff.mpr halign, Bool.eq_false_iff.mpr hapart⟩
  obtain ⟨hsplit, halign, hapart⟩ := hrefuse
  refine ⟨by simp [hv], hsplit, fun r hr => ?_, hapart⟩
  simpa using List.any_eq_false.mp halign r hr

theorem map_of_kept {s t : State} (h : t.kept = s.kept) : t.map = s.map := congrArg Kept.map h

/-- Training ends in the COLD default map with the MAP_SEQ given (R162, R185). -/
theorem trainAll_mapOk (s : State) (rs : List StackReport) (seq : Nat) : MapOk (trainAll s rs seq).map := mapOk_coldDefault seq

theorem hbmTrain_mapOk {s : State} (rs : List StackReport) (hm : MapOk s.map) : MapOk (hbmTrain s rs).map := by
  unfold hbmTrain
  split
  · dsimp only
    split
    · rw [map_of_kept (haltBringup_kept _ _)]
      exact trainAll_mapOk s rs _
    · rw [map_of_kept (refreshReady_kept _)]
      exact trainAll_mapOk s rs _
  · exact hm

theorem hbmRetrain_mapOk {s : State} (rs : List StackReport) (hm : MapOk s.map) : MapOk (hbmRetrain s rs).map := by
  unfold hbmRetrain
  split
  · rwa [map_of_kept (mbDone_kept _ _ _)]
  · rw [map_of_kept (mbDone_kept _ _ _), map_of_kept (refreshReady_kept _)]
    exact trainAll_mapOk _ _ _

theorem mapSet_mapOk {s : State} (hm : MapOk s.map) : MapOk (mapSet s).map := by
  unfold mapSet
  dsimp only
  split
  · rwa [map_of_kept (mbDone_kept _ _ _)]
  next h =>
    rw [map_of_kept (mbDone_kept _ _ _)]
    exact mapOk_of_mapRefusal rfl (Decidable.not_not.mp h)

theorem onMailbox_mapOk {s : State} (op : Nat) {f : State → State} (hm : MapOk s.map) (hf : MapOk (f s).map) :
    MapOk (onMailbox s op f).map := by
  unfold onMailbox
  split
  · exact hf
  · exact hm

/-- Every command keeps the address map legal. -/
theorem exec_mapOk {c : Instr} {s t : State} (hm : MapOk s.map) (h : exec c s = .next t) : MapOk t.map := by
  by_cases hc : maySetMap c = false
  · rwa [addressMapOnlyMovesByItsCommands c s t h hc]
  · revert t
    have hkeep : Keeps (fun t => MapOk t.map) (exec c s) := by
      cases c with
      | mapSet => exact keeps_live hm (onMailbox_mapOk _ hm (mapSet_mapOk hm))
      | hbmRetrain rs =>
        simp only [exec, execHbmRetrain]
        split
        · exact keeps_live hm (onMailbox_mapOk _ hm (hbmRetrain_mapOk rs hm))
        · exact keeps_fault
      | hbmTrain rs =>
        simp only [exec, execHbmTrain]
        split
        · exact keeps_live hm (hbmTrain_mapOk rs hm)
        · exact keeps_fault
      | powerOn =>
        refine keeps_mono (execPowerOn_power s) fun t ht => ?_
        obtain hsame | ⟨-, -, hcold⟩ := ht
        · rwa [map_of_kept hsame]
        · rw [show t.map = AddrMap.coldDefault 0 from congrArg Kept.map hcold]
          exact mapOk_coldDefault 0
      | _ => exact absurd rfl hc
    exact hkeep

/-- Every command keeps a tripped module off, the SVN counter within its fuses and the revocation bits within their four. -/
theorem exec_latches {c : Instr} {s t : State} (hi : Inv s) (h : exec c s = .next t) :
    (t.power.trip.isSome = true → t.power.on = false) ∧ t.smc.fuseSvn ≤ 64 ∧ t.smc.revoked < 16 := by
  obtain ⟨-, -, htrip, hsvn, hrev, -⟩ := hi
  have hor : ∀ n < 4, s.smc.revoked ||| 2 ^ n < 16 := fun n hn =>
    Nat.or_lt_two_pow (n := 4) hrev (Nat.pow_lt_pow_right (by decide) hn)
  have hm := exec_moved c s t h
  generalize part c = p at hm
  cases p <;> simp only [Part.Moved, State.rest, State.flat, State.kept, Kept.mk.injEq] at hm <;> grind

/-- A tick leaves the queue, memory, the map, the supply and the fuses. -/
theorem tick_inv {s : State} (hi : Inv s) : Inv (tick s) := by
  obtain ⟨hmem, hmap, htrip, hsvn, hrev, hq⟩ := hi
  unfold tick
  dsimp only
  split <;> exact ⟨hmem, hmap, htrip, hsvn, hrev, hq⟩

/-- Settles O5: each part of the invariant under the command at the front, and under a tick. -/
theorem invariantKept : Obligations.InvariantKept := by
  intro s t hi h
  cases hq : s.pending with
  | nil =>
    simp only [step, hq] at h
    cases h
    exact tick_inv hi
  | cons c cs =>
    have hpend := pending_of_step h
    simp only [step, hq] at h
    have hi' : Inv { s with pending := cs } :=
      ⟨hi.mem, hi.map, hi.tripped, hi.svn, hi.revoked, fun c' hc' => hi.queue c' (by simp [hq, hc'])⟩
    obtain ⟨htrip, hsvn, hrev⟩ := exec_latches hi' h
    exact ⟨exec_wf _ hi'.mem c t h, exec_mapOk hi'.map h, htrip, hsvn, hrev,
      fun c' hc' => hi.queue c' (List.mem_of_mem_tail (hpend ▸ hc'))⟩

/-- Settles O6: memory is one free range, the map is the COLD default, and nothing is latched, burnt or queued. -/
theorem invariantAtReset : Obligations.InvariantAtReset where
  mem := by decide
  map := mapOk_coldDefault 0
  tripped := nofun
  svn := by decide
  revoked := by decide
  queue := nofun

end Sys2Proof.Machine

namespace Sys2Proof.Machine

open Sys2Proof

/-! ## The step: flip, discard and replay -/

/-- What a flip makes of the progress of the steps (R27). -/
def Tmp.flipped (t : Tmp) (time : Nat) (late : Bool) : Tmp :=
  { t with
    activeBank := !t.activeBank, tempered := t.step, flipTime := time, step := (t.step + 1) % 2 ^ 64, replayCount := 0, att := 0,
    lateFlips := if late then min 0xFF (t.lateFlips + 1) else t.lateFlips }

theorem flipAct_keeps (s : State) (time : Nat) (cap : Option Nat) (late : Bool) :
    (flipAct s time cap late).kept =
      { s.kept with bank := !s.tmp.activeBank, prog := (s.tmp.flipped time late).progress } := by
  unfold flipAct
  dsimp only
  rw [applyHeldStop_kept, sendDeferredCut_kept, startCut_kept, foldl_kept _ (fun s c => by split <;> simp), raiseIf_kept, raise_kept,
    wr_kept, applyDeferred_kept, resetStepCounters_kept, endAttempt_kept, wr_kept, dropHeldHeals_kept, undefineInactive_kept]
  split
  · rw [lockAt_kept]
    rfl
  · rfl

/-- What a discard makes of the progress of the steps (R28, R225). -/
def Tmp.discarded (t : Tmp) : Tmp := { t with att := (t.att + 1) % 256, replayCount := min 0xFF (t.replayCount + 1) }

theorem nextAtt_keeps {s : State} {k : Kept} (h : s.kept = k) :
    (nextAtt s).kept = { k with prog := { k.prog with att := (k.prog.att + 1) % 256 } } := by
  subst h
  rfl

theorem discardAct_keeps (s : State) (r : Reason) (resume : Nat) (result : Bool) :
    (discardAct s r resume result).kept = { s.kept with prog := s.tmp.discarded.progress } := by
  unfold discardAct
  extract_lets a t s1 s2 x1 s3 s4 s5 s6 x2 x3 s7
  have h1 : s1.kept = { s.kept with prog := { s.tmp.progress with replayCount := min 0xFF (t.replayCount + 1) } } :=
    (rewindStep_kept _).trans rfl
  have h2 : s2.kept = { s.kept with prog := s.tmp.discarded.progress } := by
    have := nextAtt_keeps ((undefineInactive_kept s1).trans h1)
    exact this
  clear_value s2
  have h3 : s3.kept = s2.kept := rfl
  have h6 : s6.kept = s3.kept := by simp [s6, s5, s4]
  have h7 : s7.kept = s6.kept := by
    show (if _ then _ else _ : State).kept = _
    repeat' split
    · exact enterStopped_kept _ _
    · exact exhaust_kept _
    · rfl
    · exact startReplay_kept _ _
  exact (applyHeldStop_kept _).trans ((sendDeferredCut_kept _).trans ((startHeldHeals_kept _).trans (h7.trans (h6.trans (h3.trans h2)))))

/-- REPLAY_RESUME changes no more of the progress than REPLAY_COUNT and ATT. -/
theorem resumeReplay_keeps {s : State} (hp : s.tmp.phase = .stopped) (hv : s.tmp.holdValid = true) :
    ∃ n, (resumeReplay s).kept = { s.kept with prog := { s.tmp.progress with att := n, replayCount := 0 } } := by
  unfold resumeReplay
  rw [if_pos ⟨hp, hv⟩]
  extract_lets done s1 a x1 x2 s2
  have h1 : ∃ n, s1.kept = { s.kept with prog := { s.tmp.progress with att := n } } := by
    show ∃ n, (if done then s else _).kept = _
    split
    · exact ⟨_, rfl⟩
    · refine ⟨_, (applyDeferred_kept _).trans ((resetStepCounters_kept _).trans ((endAttempt_kept _).trans (nextAtt_keeps ?_)))⟩
      exact (undefineInactive_kept _).trans (rewindStep_kept _)
  obtain ⟨n, h1⟩ := h1
  refine ⟨n, (applyHeldStop_kept _).trans ((startReplay_kept _ _).trans ?_)⟩
  show ({ s1.kept with prog := { s1.kept.prog with replayCount := 0 } } : Kept) = _
  rw [h1]

/-- The fields of TMP_STS that `k` holds read so in `t`. -/
structure Shows (t : State) (k : Kept) : Prop where
  bank : t.tmp.activeBank = k.bank
  step : t.tmp.step = k.prog.step
  tempered : t.tmp.tempered = k.prog.tempered
  flipTime : t.tmp.flipTime = k.prog.flipTime
  att : t.tmp.att = k.prog.att
  replays : t.tmp.replayCount = k.prog.replayCount
  late : t.tmp.lateFlips = k.prog.lateFlips
  map : t.map = k.map

theorem shows_of_kept {t : State} {k : Kept} (h : t.kept = k) : Shows t k := by
  subst h
  exact ⟨rfl, rfl, rfl, rfl, rfl, rfl, rfl, rfl⟩

/-- Settles O20. -/
theorem flipTempersTheStep : Obligations.FlipTempersTheStep := by
  refine fun s on => ⟨fun tf cap hp hr ht => ?_, fun hp => ?_⟩
  · have h := shows_of_kept (flipAct_keeps s tf (some cap) false)
    refine ⟨flipAct s tf (some cap) false, ?_, h.bank, h.tempered, h.step, h.flipTime, h.att, h.replays, h.late, h.map⟩
    show live s (flipDue s) = _
    rw [live_on on]
    unfold flipDue
    rw [hp, hr]
    exact congrArg _ (if_pos ht)
  · have h := shows_of_kept (flipAct_keeps s s.now none true)
    refine ⟨flipAct s s.now none true, ?_, h.bank, h.tempered, h.step, h.flipTime, h.att, h.replays, h.late, h.map⟩
    show live s _ = _
    rw [live_on on, if_pos hp]

/-- Settles O21. -/
theorem discardMovesToTheNextAttempt : Obligations.DiscardMovesToTheNextAttempt := by
  refine fun s on => ⟨fun hp => ?_, fun hp hv => ?_, fun u hu ht => ?_⟩
  · have h := shows_of_kept (discardAct_keeps s .resolvedDiscard s.now false)
    refine ⟨discardAct s .resolvedDiscard s.now false, ?_, h.att, h.replays, h.step, h.tempered, h.bank, h.flipTime, h.late, h.map⟩
    show live s _ = _
    rw [live_on on, if_pos hp]
  · obtain ⟨n, hk⟩ := resumeReplay_keeps hp hv
    have h := shows_of_kept hk
    exact ⟨resumeReplay s, live_on on _, h.replays, h.step, h.tempered, h.bank, h.late, h.map⟩
  · show live s (resumeIssue s) = _
    rw [live_on on]
    unfold resumeIssue
    rw [hu]
    exact congrArg _ (if_pos ht)

end Sys2Proof.Machine

namespace Sys2Proof.Machine

open Sys2Proof

/-! ## What a write reaches -/

theorem length_leBytes (n v : Nat) : (leBytes n v).length = n := by
  induction n generalizing v with
  | zero => rfl
  | succ n ih => exact congrArg Nat.succ (ih _)

/-- The address lies outside Touchmark's table for a covered range of `len` bytes. -/
def OffTable (t len x : Nat) : Prop := x < t ∨ t + 32 * ((len + 65535) / 65536) ≤ x

/-- A tap writes the entry of its block alone. -/
theorem byte_touchFold_other {m : Memory} {t len b o x : Nat} {bs : List Byte} (h : x < t + 32 * b ∨ t + 32 * b + 20 ≤ x) :
    (touchFold m t len b o bs).byte x = m.byte x :=
  byte_write_other _ _ (by simpa [length_leBytes] using h)

theorem byte_foldl_other {α : Type} {g : Memory → α → Memory} {x : Nat} :
    ∀ (l : List α), (∀ m, ∀ i ∈ l, (g m i).byte x = m.byte x) → ∀ m, (l.foldl g m).byte x = m.byte x
  | [], _, _ => rfl
  | i :: t, h, m => by
    rw [List.foldl_cons, byte_foldl_other t fun m j hj => h m j (List.mem_cons_of_mem _ hj)]
    exact h m i List.mem_cons_self

/-- The taps leave every byte outside the table alone. -/
theorem byte_touchTap_other (s : State) (m : Memory) (a : Nat) (bs : List Byte) {x : Nat}
    (h : OffTable (s.rd R.TCH_TABLE_BASE 0) (s.rd R.TCH_LEN_LEN 0) x) : (touchTap s m a bs).byte x = m.byte x := by
  unfold touchTap
  dsimp only
  split
  · rfl
  · refine byte_foldl_other _ (fun m b hb => byte_touchFold_other ?_) m
    obtain ⟨j, hj, rfl⟩ := List.mem_map.mp hb
    have hj := List.mem_range.mp hj
    unfold OffTable at h
    omega

/-- Bytes stored leave every address alone that they do not name, outside the table. -/
theorem byte_store_other (s : State) {a x : Nat} {bs : List Byte} (ht : OffTable (s.rd R.TCH_TABLE_BASE 0) (s.rd R.TCH_LEN_LEN 0) x)
    (h : x < a ∨ a + bs.length ≤ x) : (s.store a bs).mem.byte x = s.mem.byte x :=
  (byte_touchTap_other s _ a bs ht).trans (byte_write_other _ _ h)

/-- Each byte stored reads back, outside the table. -/
theorem byte_store_same (s : State) {a i : Nat} {bs : List Byte} (ht : OffTable (s.rd R.TCH_TABLE_BASE 0) (s.rd R.TCH_LEN_LEN 0) (a + i))
    (h : i < bs.length) : (s.store a bs).mem.byte (a + i) = bs[i] :=
  (byte_touchTap_other s _ a bs ht).trans (byte_write_same _ _ _ _ h)

/-- A write to HOSTW or GX leaves the module's memory alone. -/
theorem writeAny_mem_outside {s : State} {a : Nat} (bs : List Byte) (h : windowOf s a = .hostw ∨ windowOf s a = .gx) :
    (writeAny s a bs).mem = s.mem := by
  unfold writeAny
  rcases h with h | h <;> rw [h] <;> rfl

/-- A write elsewhere stores its bytes at the direct address. -/
theorem writeAny_mem_inside {s : State} {a : Nat} (bs : List Byte) (hh : windowOf s a ≠ .hostw) (hg : windowOf s a ≠ .gx) :
    (writeAny s a bs).mem = (s.store (direct s a) bs).mem := by
  unfold writeAny
  split
  · exact absurd ‹_› hh
  · exact absurd ‹_› hg
  · exact countBytes_mem _ _ _ _

/-- Settles O38. -/
theorem writesReachExactlyTheirBytes : Obligations.WritesReachExactlyTheirBytes := by
  refine fun s a bs => ⟨writeAny_mem_outside bs, fun hh hg x ht => ?_⟩
  rw [writeAny_mem_inside bs hh hg]
  refine ⟨byte_store_other s ht, fun i h hx => ?_⟩
  subst hx
  exact byte_store_same s ht h

end Sys2Proof.Machine

namespace Sys2Proof.Machine

open Sys2Proof

/-! ## What the bookkeeping of events, error logs, the ledger and health scores writes

Events, error counts, ledger entries and the messages that follow from them change the registers of `loud` keys alone; every
other field reads as before. -/

/-- The keys that bookkeeping writes: header fields, the counters of messages, the class counts of FLT, DIE and PDC, the
counts and marks of the ledger and of health scores, and the STOP and CUT counters of SLC. -/
def loud (k : Key) : Bool :=
  decide (k.off < 0x100 ∨ (k.slot = 3 ∧ (k.off = 0x148 ∨ k.off = 0x150)) ∨ (k.slot = 0xB ∧ 0x140 ≤ k.off ∧ k.off < 0x15C) ∨
    (k.lo = 0 ∧ 0x120 ≤ k.off ∧ k.off < 0x13C ∧ k.slot % 16 = 0 ∧ 0x40 ≤ k.slot) ∨ (k.slot = 0xC ∧ k.off = 0x120) ∨
    (k.slot = 0xD ∧ k.off = 0x128) ∨ (k.lo = 2 ∧ k.off = 0x104 ∧ k.slot % 16 = 5 ∧ 0x40 ≤ k.slot) ∨
    (k.lo = 0 ∧ k.off = 0x118 ∧ (k.slot % 16 = 1 ∨ k.slot % 16 = 2) ∧ 0x40 ≤ k.slot) ∨
    (k.lo = 16 ∧ k.off = 0x108 ∧ k.slot % 16 = 3 ∧ 0x40 ≤ k.slot) ∨
    (k.slot = 0x104 ∧ (k.off = 0x148 ∨ k.off = 0x150 ∨ k.off = 0x158)))

theorem canonSlot_eq {slot : Nat} (h : slot ≠ 0x114) : canonSlot slot = slot := if_neg h

/-- A header field is a loud one. -/
theorem loud_hkey {f : Field} (h : f.off < 0x100) (slot : Nat) : loud (hkey f slot) = true := decide_eq_true (.inl h)

@[simp] theorem loud_evtSts (slot : Nat) : loud (hkey R.EVT_STS slot) = true := loud_hkey (by decide) slot

@[simp] theorem loud_fltClass (c : EClass) : loud ((R.FLT_CLASS_CNT_COUNT c.code).key 0) = true := by
  cases c <;> decide

/-- A die's or a port die's class counts are loud. -/
theorem loud_class {k : Key} (c : EClass) (hs : k.slot % 16 = 0) (h4 : 0x40 ≤ k.slot) (hl : k.lo = 0) (ho : k.off = 0x120 + 4 * c.code) :
    loud k = true := by
  have hc : c.code < 7 := by cases c <;> decide
  unfold loud
  rw [decide_eq_true_eq]
  omega

@[simp] theorem loud_dieClass (c : EClass) (n : Nat) : loud ((R.DIE_CLASS_CNT_COUNT c.code).key n) = true := by
  have hs : canonSlot (0x040 + 16 * n) = 0x040 + 16 * n := canonSlot_eq (by omega)
  refine loud_class c ?_ ?_ rfl rfl
  · show canonSlot (0x040 + 16 * n) % 16 = 0
    omega
  · show 0x40 ≤ canonSlot (0x040 + 16 * n)
    omega

@[simp] theorem loud_pdcClass (c : EClass) (d : Nat) : loud ((R.PDC_CLASS_CNT_COUNT c.code).key d) = true := by
  have hs : canonSlot (0x100 + 16 * d) = 0x100 + 16 * d := canonSlot_eq (by omega)
  refine loud_class c ?_ ?_ rfl rfl
  · show canonSlot (0x100 + 16 * d) % 16 = 0
    omega
  · show 0x40 ≤ canonSlot (0x100 + 16 * d)
    omega

@[simp] theorem loud_loupeRetired (n : Nat) : loud (R.LPE_STS_RETIRED.key n) = true := by
  have hs : canonSlot (0x045 + 16 * n) = 0x045 + 16 * n := canonSlot_eq (by omega)
  simp [loud, Field.key, R.LPE_STS_RETIRED, slotOf, hs]
  omega

@[simp] theorem loud_anvilSuspect (i : Nat) : loud (R.ANV_SUSPECT_SUSPECT.key i) = true := by
  have hs : canonSlot (0x041 + 16 * (i / 2) + i % 2) = 0x041 + 16 * (i / 2) + i % 2 := canonSlot_eq (by omega)
  simp [loud, Field.key, R.ANV_SUSPECT_SUSPECT, slotOf, hs]
  omega

@[simp] theorem loud_swageSuspect (n : Nat) : loud (R.SWG_UNIT_STS_SUSPECT.key n) = true := by
  have hs : canonSlot (0x043 + 16 * n) = 0x043 + 16 * n := canonSlot_eq (by omega)
  simp [loud, Field.key, R.SWG_UNIT_STS_SUSPECT, slotOf, hs]
  omega

@[simp] theorem loud_msixSent : loud (R.HIF_MSIX_SENT_SENT.key 0) = true := rfl
@[simp] theorem loud_msixMerged : loud (R.HIF_MSIX_MERGED_MERGED.key 0) = true := rfl
@[simp] theorem loud_coalesced : loud (R.LDG_COALESCED_COALESCED.key 0) = true := rfl
@[simp] theorem loud_cuts : loud (R.HLT_CUTS_CUTS.key 0) = true := rfl
@[simp] theorem loud_stopTx : loud (R.SLC_STOP_TX.key slcI) = true := rfl
@[simp] theorem loud_stopRx : loud (R.SLC_STOP_RX.key slcI) = true := rfl
@[simp] theorem loud_cutTx : loud (R.SLC_CUT_TX.key slcI) = true := rfl
@[simp] theorem loud_stale : loud (R.SLC_STALE_STALE.key slcI) = true := rfl

theorem ne_of_loud {k j : Key} (hj : loud j = true) (hk : loud k = false) : k ≠ j := by
  rintro rfl
  exact Bool.noConfusion (hj.symm.trans hk)

section

variable {k : Key} (d : Nat)

@[simp] theorem wr_quiet (s : State) (f : Field) (i v : Nat) (hl : loud (f.key i) = true) (hk : loud k = false) :
    Store.get d (s.wr f i v).regs k = Store.get d s.regs k := store_get_set_other _ _ _ (ne_of_loud hl hk)

@[simp] theorem inc_quiet (s : State) (f : Field) (i n : Nat) (hl : loud (f.key i) = true) (hk : loud k = false) :
    Store.get d (s.inc f i n).regs k = Store.get d s.regs k := store_get_set_other _ _ _ (ne_of_loud hl hk)

@[simp] theorem hwr_quiet (s : State) (f : Field) (slot v : Nat) (hl : loud (hkey f slot) = true) (hk : loud k = false) :
    Store.get d (s.hwr f slot v).regs k = Store.get d s.regs k := store_get_set_other _ _ _ (ne_of_loud hl hk)

end

end Sys2Proof.Machine

namespace Sys2Proof.Machine

open Sys2Proof

/-! ## Frames: what leaves `ctxs` as it is -/

@[simp] theorem ctxs_ite (c : Prop) [Decidable c] (a b : State) : (if c then a else b).ctxs = if c then a.ctxs else b.ctxs := by
  split <;> rfl

@[simp] theorem foldl_ctxs {α : Type} (g : State → α → State) (h : ∀ s x, (g s x).ctxs = s.ctxs) (l : List α) :
    ∀ s : State, (l.foldl g s).ctxs = s.ctxs := by
  induction l with
  | nil => intro s; rfl
  | cons x t ih => intro s; simp only [List.foldl_cons]; rw [ih, h]

@[simp] theorem foldl_fst_ctxs {α β : Type} (g : State × β → α → State × β) (h : ∀ x a, (g x a).1.ctxs = x.1.ctxs) (l : List α) :
    ∀ x : State × β, (l.foldl g x).1.ctxs = x.1.ctxs := by
  induction l with
  | nil => intro x; rfl
  | cons a t ih => intro x; simp only [List.foldl_cons]; rw [ih, h]

@[simp] theorem fresh_ctxs (s : State) :
    (State.fresh s).2.ctxs = s.ctxs := by simp [State.fresh]

@[simp] theorem msixSend_ctxs (s : State) (v : Nat) :
    (msixSend s v).ctxs = s.ctxs := by simp [msixSend]

@[simp] theorem msixRequest_ctxs (s : State) (v : Nat) :
    (msixRequest s v).ctxs = s.ctxs := by simp [msixRequest]

@[simp] theorem notice_ctxs (s : State) (slot b : Nat) :
    (notice s slot b).ctxs = s.ctxs := by simp [notice]

@[simp] theorem raiseSlot_ctxs (s : State) (slot b : Nat) :
    (raiseSlot s slot b).ctxs = s.ctxs := by simp [raiseSlot]

@[simp] theorem raise_ctxs (s : State) (p : Page) (i b : Nat) :
    (raise s p i b).ctxs = s.ctxs := by simp [raise]

@[simp] theorem raiseIf_ctxs (c : Bool) (s : State) (p : Page) (i b : Nat) :
    (raiseIf c s p i b).ctxs = s.ctxs := by simp [raiseIf]

@[simp] theorem countClass_ctxs (s : State) (p : Page) (i : Nat) (c : EClass) :
    (countClass s p i c).ctxs = s.ctxs := by
  unfold countClass
  repeat' split
  all_goals simp -implicitDefEqProofs

@[simp] theorem logErr_ctxs (s : State) (p : Page) (i code : Nat) (c : EClass) (unit addr : Nat) (detail : List Nat) :
    (logErr s p i code c unit addr detail).ctxs = s.ctxs := by simp [logErr]

@[simp] theorem stepFault_ctxs (s : State) (r : Reason) :
    (stepFault s r).ctxs = s.ctxs := by simp [stepFault]

@[simp] theorem sendPrio_ctxs (s : State) (k : Nat) (c : PClass) (p : Packet) :
    (sendPrio s k c p).ctxs = s.ctxs := by simp [sendPrio]

@[simp] theorem sendEgress_ctxs (s : State) (k : Nat) (c : PClass) (p : Packet) :
    (sendEgress s k c p).ctxs = s.ctxs := by simp [sendEgress]

@[simp] theorem sendCopies_ctxs (s : State) (b : Burst) :
    (sendCopies s b).ctxs = s.ctxs := by simp [sendCopies]

@[simp] theorem startBurst_ctxs (s : State) (c : PClass) (payload : List Byte) :
    (startBurst s c payload).ctxs = s.ctxs := by simp [startBurst]

@[simp] theorem stopApply_ctxs (s : State) :
    (stopApply s).ctxs = s.ctxs := by simp [stopApply]

@[simp] theorem sendStopBurst_ctxs (s : State) (r : Reason) :
    (sendStopBurst s r).ctxs = s.ctxs := by simp [sendStopBurst]

@[simp] theorem cutBurst_ctxs (s : State) (step cause : Nat) :
    (cutBurst s step cause).ctxs = s.ctxs := by simp [cutBurst]

@[simp] theorem setCutPending_ctxs (s : State) (step cause : Nat) :
    (setCutPending s step cause).ctxs = s.ctxs := by simp [setCutPending]

@[simp] theorem takeCut_ctxs (s : State) (step cause : Nat) :
    (takeCut s step cause).ctxs = s.ctxs := by
  unfold takeCut
  repeat' split
  all_goals simp -implicitDefEqProofs

@[simp] theorem requestCut_ctxs (s : State) (cause : Nat) :
    (requestCut s cause).ctxs = s.ctxs := by
  unfold requestCut
  split <;> simp

@[simp] theorem ledgerAdd_ctxs (s : State) (unit kind cls weight : Nat) (detail : List Nat) :
    (ledgerAdd s unit kind cls weight detail).ctxs = s.ctxs := by simp [ledgerAdd]

@[simp] theorem ledgerEvent_ctxs (s : State) (unit kind cls weight : Nat) (odd : Bool) (detail : List Nat) :
    (ledgerEvent s unit kind cls weight odd detail).ctxs = s.ctxs := by simp [ledgerEvent]

@[simp] theorem warnCut_ctxs (s : State) (unit : Nat) :
    (warnCut s unit).ctxs = s.ctxs := by simp [warnCut]

@[simp] theorem levelRise_ctxs (s : State) (unit old lv : Nat) :
    (levelRise s unit old lv).ctxs = s.ctxs := by simp [levelRise]

@[simp] theorem updateLevel_ctxs (s : State) (unit : Nat) :
    (updateLevel s unit).ctxs = s.ctxs := by simp [updateLevel]

@[simp] theorem healthInput_ctxs (s : State) (n unit : Nat) :
    (healthInput s n unit).ctxs = s.ctxs := by simp [healthInput]

@[simp] theorem parityEvent_ctxs (s : State) (unit page code : Nat) :
    (parityEvent s unit page code).ctxs = s.ctxs := by simp [parityEvent]

@[simp] theorem refuseEffects_ctxs (s : State) (r : Req) (write : Bool) (ctx a n : Nat) :
    (refuseEffects s r write ctx a n).ctxs = s.ctxs := by
  unfold refuseEffects
  repeat' split
  all_goals simp -implicitDefEqProofs

@[simp] theorem countBytes_ctxs (s : State) (write : Bool) (a n : Nat) :
    (countBytes s write a n).ctxs = s.ctxs := by
  unfold countBytes
  split <;> simp

@[simp] theorem readAny_ctxs (s : State) (a n : Nat) :
    (readAny s a n).2.ctxs = s.ctxs := by
  unfold readAny
  split <;> simp

@[simp] theorem writeAny_ctxs (s : State) (a : Nat) (bs : List Byte) :
    (writeAny s a bs).ctxs = s.ctxs := by
  unfold writeAny
  split <;> simp

@[simp] theorem rebuildScores_ctxs (s : State) :
    (rebuildScores s).ctxs = s.ctxs := by simp [rebuildScores]

@[simp] theorem refreshDie_ctxs (s : State) (d : Nat) :
    (refreshDie s d).ctxs = s.ctxs := by simp [refreshDie]

@[simp] theorem bringupEnd_ctxs (s : State) :
    (bringupEnd s).ctxs = s.ctxs := by simp [bringupEnd]

@[simp] theorem chipTrained_ctxs (s : State) :
    (chipTrained s).ctxs = s.ctxs := by simp [chipTrained]

@[simp] theorem bringupDone_ctxs (s : State) :
    (bringupDone s).ctxs = s.ctxs := by simp [bringupDone]

@[simp] theorem refreshReady_ctxs (s : State) :
    (refreshReady s).ctxs = s.ctxs := by simp [refreshReady]

@[simp] theorem haltBringup_ctxs (s : State) (cause : Nat) :
    (haltBringup s cause).ctxs = s.ctxs := by simp [haltBringup]

@[simp] theorem orAflags_ctxs (s : State) (c v : Nat) :
    (orAflags s c v).ctxs = s.ctxs := by simp [orAflags]

@[simp] theorem clearAflags_ctxs (s : State) (c : Nat) :
    (clearAflags s c).ctxs = s.ctxs := by simp [clearAflags]

@[simp] theorem commitApply_ctxs (s : State) (p : Page) (i : Nat) :
    (commitApply s p i).ctxs = s.ctxs := by simp [commitApply]

@[simp] theorem sendCtrl_ctxs (s : State) (node kind flowField flowId last : Nat) :
    (sendCtrl s node kind flowField flowId last).1.ctxs = s.ctxs := by
  unfold sendCtrl
  split <;> simp

@[simp] theorem openFlow_ctxs (s : State) (f node : Nat) (w : List OutPkt) :
    (openFlow s f node w).ctxs = s.ctxs := by simp [openFlow]

@[simp] theorem closeFlow_ctxs (s : State) (f : Nat) :
    (closeFlow s f).ctxs = s.ctxs := by simp [closeFlow]

@[simp] theorem queuePkt_ctxs (s : State) (node : Nat) (p : OutPkt) :
    (queuePkt s node p).ctxs = s.ctxs := by
  unfold queuePkt
  repeat' split
  all_goals simp -implicitDefEqProofs

@[simp] theorem queueAll_ctxs (s : State) (node : Nat) (ps : List OutPkt) :
    (queueAll s node ps).ctxs = s.ctxs := by simp [queueAll]

@[simp] theorem sendAckTo_ctxs (s : State) (node flowField last : Nat) (payload : List Byte) :
    (sendAckTo s node flowField last payload).ctxs = s.ctxs := by
  unfold sendAckTo
  split <;> simp

@[simp] theorem sendFlowNak_ctxs (s : State) (f seq reason : Nat) :
    (sendFlowNak s f seq reason).ctxs = s.ctxs := by simp [sendFlowNak]

@[simp] theorem abandonPackets_ctxs (s : State) (mine : Owner → Bool) :
    (abandonPackets s mine).ctxs = s.ctxs := by simp [abandonPackets]

@[simp] theorem fillBegin_ctxs (s : State) (xx : List Load) :
    (fillBegin s xx).ctxs = s.ctxs := by
  induction xx generalizing s with
  | nil => rfl
  | cons l t ih =>
    unfold fillBegin
    split
    · rw [ih]; simp -implicitDefEqProofs
    · rfl

@[simp] theorem fillAdvance_ctxs (s : State) :
    (fillAdvance s).ctxs = s.ctxs := by simp [fillAdvance]

@[simp] theorem notifySubs_ctxs (s : State) (k value : Nat) (stepFlag : Bool) :
    (notifySubs s k value stepFlag).ctxs = s.ctxs := by simp [notifySubs]

@[simp] theorem fillErr_ctxs (s : State) (c source code : Nat) (at' : Pc) (e : SyncErr) :
    (fillErr s c source code at' e).ctxs = s.ctxs := by simp [fillErr]

@[simp] theorem clearErr_ctxs (s : State) (c : Nat) :
    (clearErr s c).ctxs = s.ctxs := by simp [clearErr]

@[simp] theorem cancelSub_ctxs (s : State) (c : Nat) :
    (cancelSub s c).ctxs = s.ctxs := by
  unfold cancelSub
  repeat' split
  all_goals simp -implicitDefEqProofs

@[simp] theorem prune_ctxs (s : State) :
    (prune s).ctxs = s.ctxs := by simp [prune]

@[simp] theorem abandonFlights_ctxs (s : State) (ids : List Nat) :
    (abandonFlights s ids).ctxs = s.ctxs := by simp [abandonFlights]

@[simp] theorem sendSubscribe_ctxs (s : State) (c : Nat) (w : WaitState) :
    (sendSubscribe s c w).ctxs = s.ctxs := by simp [sendSubscribe]

@[simp] theorem writeEdge_ctxs (s : State) (c : Nat) :
    (writeEdge s c).ctxs = s.ctxs := by
  unfold writeEdge
  split <;> simp

@[simp] theorem writeTile_ctxs (s : State) (p : MmaParams) (t : Nat) (res : List Nat) :
    (writeTile s p t res).1.ctxs = s.ctxs := by
  unfold writeTile
  rw [foldl_fst_ctxs _ (fun x a => by dsimp only; split <;> simp -implicitDefEqProofs)]

@[simp] theorem capacityCheck_ctxs (old s : State) (die : Nat) :
    (capacityCheck old s die).ctxs = s.ctxs := by simp [capacityCheck]

@[simp] theorem anvParity_ctxs (s : State) (die m : Nat) (par : AnvParity) (r : TileRun) (x : Mma) :
    (anvParity s die m par r x).ctxs = s.ctxs := by simp [anvParity]

@[simp] theorem satTile_ctxs (s : State) (i u : Nat) (x : Mma) (r : TileRun) :
    (satTile s i u x r).ctxs = s.ctxs := by simp [satTile]

@[simp] theorem handOn_ctxs (s : State) (id : Nat) (x : Mma) (r : TileRun) (res : List Nat) :
    (handOn s id x r res).1.ctxs = s.ctxs := by
  unfold handOn
  dsimp only
  repeat' split
  all_goals simp -implicitDefEqProofs

@[simp] theorem tileCounters_ctxs (s : State) (i cycles level : Nat) (nan : Bool) :
    (tileCounters s i cycles level nan).ctxs = s.ctxs := by simp [tileCounters]

@[simp] theorem abandonCapture_ctxs (s : State) (die u : Nat) :
    (abandonCapture s die u).ctxs = s.ctxs := by
  unfold abandonCapture
  split <;> simp

@[simp] theorem abandonAnvils_ctxs (s : State) (ids : List Nat) (log : Bool) :
    (abandonAnvils s ids log).ctxs = s.ctxs := by simp [abandonAnvils]

@[simp] theorem swgParity_ctxs (s : State) (die u : Nat) (par : SwgParity) (ctx b : Nat) :
    (swgParity s die u par ctx b).ctxs = s.ctxs := by simp [swgParity]

@[simp] theorem swgCapacity_ctxs (old s : State) (die : Nat) :
    (swgCapacity old s die).ctxs = s.ctxs := by simp [swgCapacity]

@[simp] theorem drainSwage_ctxs (s : State) (die u : Nat) :
    (drainSwage s die u).ctxs = s.ctxs := by simp [drainSwage]

@[simp] theorem abandonSwages_ctxs (s : State) (ids : List Nat) (log : Bool) :
    (abandonSwages s ids log).ctxs = s.ctxs := by
  unfold abandonSwages
  dsimp only
  repeat' split
  all_goals simp -implicitDefEqProofs

@[simp] theorem hearthCe_ctxs (s : State) (die bank addr ctx : Nat) :
    (hearthCe s die bank addr ctx).ctxs = s.ctxs := by simp [hearthCe]

@[simp] theorem hearthUe_ctxs (s : State) (die bank addr ctx : Nat) :
    (hearthUe s die bank addr ctx).ctxs = s.ctxs := by simp [hearthUe]

@[simp] theorem hearthScrub_ctxs (s : State) (die bank : Nat) (ecc : Ecc) :
    (hearthScrub s die bank ecc).ctxs = s.ctxs := by
  unfold hearthScrub
  split
  · simp 
  · split <;> simp

@[simp] theorem hearthInit_ctxs (s : State) (die : Nat) :
    (hearthInit s die).ctxs = s.ctxs := by simp [hearthInit]

@[simp] theorem enterStopped_ctxs (s : State) (r : Reason) :
    (enterStopped s r).ctxs = s.ctxs := by simp [enterStopped]

@[simp] theorem mapoutEntry_ctxs (s : State) (stack ch : Nat) (on : Bool) :
    (mapoutEntry s stack ch on).ctxs = s.ctxs := by simp [mapoutEntry]

@[simp] theorem listMapout_ctxs (s : State) (stack m : Nat) :
    (listMapout s stack m).ctxs = s.ctxs := by simp [listMapout]

@[simp] theorem trainStack_ctxs (s : State) (n : Nat) (r : StackReport) :
    (trainStack s n r).ctxs = s.ctxs := by simp [trainStack]

@[simp] theorem reportUe_ctxs (s : State) (a ctx : Nat) :
    (reportUe s a ctx).ctxs = s.ctxs := by simp [reportUe]

@[simp] theorem holdLost_ctxs (s : State) (a ctx : Nat) (c : EClass) :
    (holdLost s a ctx c).ctxs = s.ctxs := by simp [holdLost]

@[simp] theorem loseHold_ctxs (s : State) (a ctx : Nat) :
    (loseHold s a ctx).ctxs = s.ctxs := by simp [loseHold]

@[simp] theorem loseWardHold_ctxs (s : State) (a ctx : Nat) :
    (loseWardHold s a ctx).ctxs = s.ctxs := by simp [loseWardHold]

@[simp] theorem failHeal_ctxs (s : State) (row : Nat) :
    (failHeal s row).ctxs = s.ctxs := by simp [failHeal]

@[simp] theorem startHeal_ctxs (s : State) (row : Nat) :
    (startHeal s row).ctxs = s.ctxs := by
  unfold startHeal
  dsimp only
  repeat' split
  all_goals simp -implicitDefEqProofs

@[simp] theorem healOrHold_ctxs (s : State) (a : Nat) :
    (healOrHold s a).ctxs = s.ctxs := by simp [healOrHold]

@[simp] theorem ueAction_ctxs (s : State) (a ctx : Nat) :
    (ueAction s a ctx).ctxs = s.ctxs := by
  unfold ueAction
  split <;> simp

@[simp] theorem hbmUe_ctxs (s : State) (a ctx : Nat) :
    (hbmUe s a ctx).ctxs = s.ctxs := by simp [hbmUe]

@[simp] theorem hbmCe_ctxs (s : State) (a : Nat) :
    (hbmCe s a).ctxs = s.ctxs := by simp [hbmCe]

@[simp] theorem hbmOutcome_ctxs (s : State) (a ctx : Nat) (ecc : Ecc) :
    (hbmOutcome s a ctx ecc).ctxs = s.ctxs := by
  unfold hbmOutcome
  split <;> simp

@[simp] theorem flagChannel_ctxs (s : State) (stack ch : Nat) :
    (flagChannel s stack ch).ctxs = s.ctxs := by simp [flagChannel]

@[simp] theorem parityError_ctxs (s : State) (a : Nat) (write : Bool) (errors ctx : Nat) :
    (parityError s a write errors ctx).ctxs = s.ctxs := by simp [parityError]

@[simp] theorem readTemp_ctxs (s : State) (stack temp : Nat) :
    (readTemp s stack temp).ctxs = s.ctxs := by simp [readTemp]

@[simp] theorem patrolScrub_ctxs (s : State) (stack pc : Nat) (ecc : Ecc) :
    (patrolScrub s stack pc ecc).ctxs = s.ctxs := by simp [patrolScrub]

@[simp] theorem moveGather_ctxs (s : State) (src dst : Nat) (is : List Nat) :
    (moveGather s src dst is).ctxs = s.ctxs := by simp [moveGather]

@[simp] theorem exitSelfRefresh_ctxs (s : State) (n bad : Nat) :
    (exitSelfRefresh s n bad).ctxs = s.ctxs := by simp [exitSelfRefresh]

@[simp] theorem exitDie_ctxs (s : State) (die bad0 bad1 : Nat) :
    (exitDie s die bad0 bad1).ctxs = s.ctxs := by simp [exitDie]

@[simp] theorem sendControl_ctxs (s : State) (k cmd lanes arg : Nat) :
    (sendControl s k cmd lanes arg).ctxs = s.ctxs := by simp [sendControl]

@[simp] theorem linkLeave_ctxs (s : State) (k : Nat) (st : LinkState) :
    (linkLeave s k st).ctxs = s.ctxs := by simp [linkLeave]

@[simp] theorem startTraining_ctxs (s : State) (k : Nat) (fast restoring : Bool) :
    (startTraining s k fast restoring).ctxs = s.ctxs := by simp [startTraining]

@[simp] theorem failLink_ctxs (s : State) (k reason : Nat) :
    (failLink s k reason).ctxs = s.ctxs := by simp [failLink]

@[simp] theorem linkUpOn_ctxs (s : State) (k lanes : Nat) (up : Bool) (rep : LinkReport) :
    (linkUpOn s k lanes up rep).ctxs = s.ctxs := by simp [linkUpOn]

@[simp] theorem enterX2_ctxs (s : State) (k good : Nat) (partner : Bool) :
    (enterX2 s k good partner).ctxs = s.ctxs := by simp [enterX2]

@[simp] theorem askStep_ctxs (s : State) (k lane : Nat) :
    (askStep s k lane).ctxs = s.ctxs := by simp [askStep]

@[simp] theorem setRec_ctxs (s : State) (slot layer : Nat) (r : LayerRec) :
    (setRec s slot layer r).ctxs = s.ctxs := by
  unfold setRec
  split <;> simp

@[simp] theorem loseRec_ctxs (s : State) (slot layer : Nat) (r : LayerRec) (owner : Nat) :
    (loseRec s slot layer r owner).ctxs = s.ctxs := by simp [loseRec]

@[simp] theorem loseSlot_ctxs (s : State) (d n : Nat) (x : SeqSlot) :
    (loseSlot s d n x).ctxs = s.ctxs := by simp [loseSlot]

@[simp] theorem destDown_ctxs (s : State) (d : Nat) :
    (destDown s d).ctxs = s.ctxs := by simp [destDown]

@[simp] theorem setUnacked_ctxs (s : State) (f : Nat) (u : Unacked) :
    (State.setUnacked s f u).ctxs = s.ctxs := by simp [State.setUnacked]

@[simp] theorem sourceRead_ctxs (s : State) (p : OutPkt) :
    (sourceRead s p).ctxs = s.ctxs := by
  unfold sourceRead
  split <;> simp

@[simp] theorem sendData_ctxs (s : State) (k : Nat) (c : PClass) (p : Packet) :
    (sendData s k c p).ctxs = s.ctxs := by simp [sendData]

@[simp] theorem sendTry_ctxs (s : State) (f k seq att tries : Nat) (p : OutPkt) (payload : List Byte) :
    (sendTry s f k seq att tries p payload).ctxs = s.ctxs := by simp [sendTry]

@[simp] theorem planeTimeout_ctxs (s : State) (k peer : Nat) :
    (planeTimeout s k peer).ctxs = s.ctxs := by simp [planeTimeout]

@[simp] theorem abandonWork_ctxs (s : State) (ids : List Nat) (log : Bool) :
    (abandonWork s ids log).ctxs = s.ctxs := by simp [abandonWork]

@[simp] theorem abandonSlots_ctxs (s : State) (c : Nat) :
    (abandonSlots s c).ctxs = s.ctxs := by simp [abandonSlots]

@[simp] theorem abandonHoldWrite_ctxs (s : State) :
    (abandonHoldWrite s).ctxs = s.ctxs := by simp [abandonHoldWrite]

@[simp] theorem resetCfg_ctxs (s : State) (c : Nat) :
    (resetCfg s c).ctxs = s.ctxs := by simp [resetCfg]

@[simp] theorem suspectAnvil_ctxs (s : State) (die m : Nat) :
    (suspectAnvil s die m).ctxs = s.ctxs := by simp [suspectAnvil]

@[simp] theorem suspectSwage_ctxs (s : State) (die u : Nat) :
    (suspectSwage s die u).ctxs = s.ctxs := by simp [suspectSwage]

@[simp] theorem settleUnits_ctxs (s : State) (die : Nat) (c : Capture) (out : Nat) :
    (settleUnits s die c out).ctxs = s.ctxs := by
  unfold settleUnits
  repeat' split
  all_goals simp -implicitDefEqProofs

@[simp] theorem settleRegs_ctxs (s : State) (die : Nat) (c : Capture) (out : Nat) (cls : EClass) :
    (settleRegs s die c out cls).ctxs = s.ctxs := by simp [settleRegs]

@[simp] theorem foldTouch_ctxs (s : State) :
    (foldTouch s).ctxs = s.ctxs := by
  unfold foldTouch
  dsimp only
  split <;> simp -implicitDefEqProofs

@[simp] theorem bistFail_ctxs (s : State) (die m : Nat) (swage pers : Bool) (id sig : Nat) :
    (bistFail s die m swage pers id sig).ctxs = s.ctxs := by simp [bistFail]

@[simp] theorem ldgClear_ctxs (s : State) (unit : Nat) :
    (ldgClear s unit).ctxs = s.ctxs := by simp [ldgClear]

@[simp] theorem healthDecay_ctxs (s : State) :
    (healthDecay s).ctxs = s.ctxs := by simp [healthDecay]

@[simp] theorem sendTree_ctxs (s : State) (node : Nat) (p : OutPkt) :
    (sendTree s node p).ctxs = s.ctxs := by simp [sendTree]

@[simp] theorem sendResult_ctxs (s : State) (tree : Nat) (bs : List Byte) :
    (sendResult s tree bs).ctxs = s.ctxs := by simp [sendResult]

@[simp] theorem dropEntry_ctxs (s : State) (tree step att : Nat) :
    (dropEntry s tree step att).ctxs = s.ctxs := by simp [dropEntry]

@[simp] theorem contribute_ctxs (s : State) (tree : Nat) (level : Option Nat) (bs : List Byte) :
    (contribute s tree level bs).1.ctxs = s.ctxs := by
  unfold contribute
  dsimp only
  repeat' split
  all_goals simp -implicitDefEqProofs

@[simp] theorem setCkpState_ctxs (s : State) (v : Nat) :
    (setCkpState s v).ctxs = s.ctxs := by simp [setCkpState]

@[simp] theorem clearPending_ctxs (s : State) :
    (clearPending s).ctxs = s.ctxs := by
  unfold clearPending
  dsimp only
  split <;> simp -implicitDefEqProofs

@[simp] theorem clearOwnPending_ctxs (s : State) (step : Nat) :
    (clearOwnPending s step).ctxs = s.ctxs := by simp [clearOwnPending]

@[simp] theorem endCut_ctxs (s : State) (ok : Bool) :
    (endCut s ok).ctxs = s.ctxs := by
  unfold endCut
  split <;> simp

@[simp] theorem logDrive_ctxs (s : State) (slot addr status : Nat) :
    (logDrive s slot addr status).ctxs = s.ctxs := by simp [logDrive]

@[simp] theorem refreshCap_ctxs (s : State) (n : Nat) :
    (refreshCap s n).ctxs = s.ctxs := by simp [refreshCap]

@[simp] theorem refreshCaps_ctxs (s : State) :
    (refreshCaps s).ctxs = s.ctxs := by simp [refreshCaps]

@[simp] theorem powerFast_ctxs (s : State) (pkg : Nat) :
    (powerFast s pkg).ctxs = s.ctxs := by simp [powerFast]

@[simp] theorem powerSlow_ctxs (s : State) (pkg input : Nat) :
    (powerSlow s pkg input).ctxs = s.ctxs := by simp [powerSlow]

@[simp] theorem rampEval_ctxs (s : State) (n : Nat) (held : Bool) (level : Nat) :
    (rampEval s n held level).ctxs = s.ctxs := by simp [rampEval]

@[simp] theorem hintDie_ctxs (s : State) (n target lead : Nat) :
    (hintDie s n target lead).ctxs = s.ctxs := by simp [hintDie]

@[simp] theorem updateTemp_ctxs (s : State) (d : Nat) :
    (updateTemp s d).ctxs = s.ctxs := by
  unfold updateTemp
  split <;> simp

@[simp] theorem thermalEval_ctxs (s : State) (slow : Bool) :
    (thermalEval s slow).ctxs = s.ctxs := by simp [thermalEval]

@[simp] theorem pllUnlock_ctxs (s : State) (d : Nat) :
    (pllUnlock s d).ctxs = s.ctxs := by simp [pllUnlock]

@[simp] theorem dieWake_ctxs (s : State) (n ns : Nat) :
    (dieWake s n ns).ctxs = s.ctxs := by simp [dieWake]

@[simp] theorem sendHold_ctxs (s : State) :
    (sendHold s).ctxs = s.ctxs := by simp [sendHold]

@[simp] theorem noteReset_ctxs (s : State) (dom target cause : Nat) :
    (noteReset s dom target cause).ctxs = s.ctxs := by simp [noteReset]

@[simp] theorem smcRestart_ctxs (s : State) :
    (smcRestart s).ctxs = s.ctxs := by simp [smcRestart]

@[simp] theorem bstEnd_ctxs (s : State) (fails : Nat) :
    (bstEnd s fails).ctxs = s.ctxs := by simp [bstEnd]

/-! ## Frames: what leaves `tmp` as it is -/

@[simp] theorem tmp_ite (c : Prop) [Decidable c] (a b : State) : (if c then a else b).tmp = if c then a.tmp else b.tmp := by
  split <;> rfl

@[simp] theorem foldl_tmp {α : Type} (g : State → α → State) (h : ∀ s x, (g s x).tmp = s.tmp) (l : List α) :
    ∀ s : State, (l.foldl g s).tmp = s.tmp := by
  induction l with
  | nil => intro s; rfl
  | cons x t ih => intro s; simp only [List.foldl_cons]; rw [ih, h]

@[simp] theorem foldl_fst_tmp {α β : Type} (g : State × β → α → State × β) (h : ∀ x a, (g x a).1.tmp = x.1.tmp) (l : List α) :
    ∀ x : State × β, (l.foldl g x).1.tmp = x.1.tmp := by
  induction l with
  | nil => intro x; rfl
  | cons a t ih => intro x; simp only [List.foldl_cons]; rw [ih, h]

@[simp] theorem fresh_tmp (s : State) :
    (State.fresh s).2.tmp = s.tmp := by simp [State.fresh]

@[simp] theorem msixSend_tmp (s : State) (v : Nat) :
    (msixSend s v).tmp = s.tmp := by simp [msixSend]

@[simp] theorem msixRequest_tmp (s : State) (v : Nat) :
    (msixRequest s v).tmp = s.tmp := by simp [msixRequest]

@[simp] theorem notice_tmp (s : State) (slot b : Nat) :
    (notice s slot b).tmp = s.tmp := by simp [notice]

@[simp] theorem raiseSlot_tmp (s : State) (slot b : Nat) :
    (raiseSlot s slot b).tmp = s.tmp := by simp [raiseSlot]

@[simp] theorem raise_tmp (s : State) (p : Page) (i b : Nat) :
    (raise s p i b).tmp = s.tmp := by simp [raise]

@[simp] theorem raiseIf_tmp (c : Bool) (s : State) (p : Page) (i b : Nat) :
    (raiseIf c s p i b).tmp = s.tmp := by simp [raiseIf]

@[simp] theorem countClass_tmp (s : State) (p : Page) (i : Nat) (c : EClass) :
    (countClass s p i c).tmp = s.tmp := by
  unfold countClass
  repeat' split
  all_goals simp -implicitDefEqProofs

@[simp] theorem logErr_tmp (s : State) (p : Page) (i code : Nat) (c : EClass) (unit addr : Nat) (detail : List Nat) :
    (logErr s p i code c unit addr detail).tmp = s.tmp := by simp [logErr]

@[simp] theorem stepFault_tmp (s : State) (r : Reason) :
    (stepFault s r).tmp = s.tmp := by simp [stepFault]

@[simp] theorem sendPrio_tmp (s : State) (k : Nat) (c : PClass) (p : Packet) :
    (sendPrio s k c p).tmp = s.tmp := by simp [sendPrio]

@[simp] theorem sendEgress_tmp (s : State) (k : Nat) (c : PClass) (p : Packet) :
    (sendEgress s k c p).tmp = s.tmp := by simp [sendEgress]

@[simp] theorem sendCopies_tmp (s : State) (b : Burst) :
    (sendCopies s b).tmp = s.tmp := by simp [sendCopies]

@[simp] theorem startBurst_tmp (s : State) (c : PClass) (payload : List Byte) :
    (startBurst s c payload).tmp = s.tmp := by simp [startBurst]

@[simp] theorem cutBurst_tmp (s : State) (step cause : Nat) :
    (cutBurst s step cause).tmp = s.tmp := by simp [cutBurst]

@[simp] theorem setCutPending_tmp (s : State) (step cause : Nat) :
    (setCutPending s step cause).tmp = s.tmp := by simp [setCutPending]

@[simp] theorem takeCut_tmp (s : State) (step cause : Nat) :
    (takeCut s step cause).tmp = s.tmp := by
  unfold takeCut
  repeat' split
  all_goals simp -implicitDefEqProofs

@[simp] theorem requestCut_tmp (s : State) (cause : Nat) :
    (requestCut s cause).tmp = s.tmp := by
  unfold requestCut
  split <;> simp

@[simp] theorem ledgerAdd_tmp (s : State) (unit kind cls weight : Nat) (detail : List Nat) :
    (ledgerAdd s unit kind cls weight detail).tmp = s.tmp := by simp [ledgerAdd]

@[simp] theorem ledgerEvent_tmp (s : State) (unit kind cls weight : Nat) (odd : Bool) (detail : List Nat) :
    (ledgerEvent s unit kind cls weight odd detail).tmp = s.tmp := by simp [ledgerEvent]

@[simp] theorem warnCut_tmp (s : State) (unit : Nat) :
    (warnCut s unit).tmp = s.tmp := by simp [warnCut]

@[simp] theorem levelRise_tmp (s : State) (unit old lv : Nat) :
    (levelRise s unit old lv).tmp = s.tmp := by simp [levelRise]

@[simp] theorem updateLevel_tmp (s : State) (unit : Nat) :
    (updateLevel s unit).tmp = s.tmp := by simp [updateLevel]

@[simp] theorem healthInput_tmp (s : State) (n unit : Nat) :
    (healthInput s n unit).tmp = s.tmp := by simp [healthInput]

@[simp] theorem parityEvent_tmp (s : State) (unit page code : Nat) :
    (parityEvent s unit page code).tmp = s.tmp := by simp [parityEvent]

@[simp] theorem refuseEffects_tmp (s : State) (r : Req) (write : Bool) (ctx a n : Nat) :
    (refuseEffects s r write ctx a n).tmp = s.tmp := by
  unfold refuseEffects
  repeat' split
  all_goals simp -implicitDefEqProofs

@[simp] theorem countBytes_tmp (s : State) (write : Bool) (a n : Nat) :
    (countBytes s write a n).tmp = s.tmp := by
  unfold countBytes
  split <;> simp

@[simp] theorem readAny_tmp (s : State) (a n : Nat) :
    (readAny s a n).2.tmp = s.tmp := by
  unfold readAny
  split <;> simp

@[simp] theorem writeAny_tmp (s : State) (a : Nat) (bs : List Byte) :
    (writeAny s a bs).tmp = s.tmp := by
  unfold writeAny
  split <;> simp

@[simp] theorem rebuildScores_tmp (s : State) :
    (rebuildScores s).tmp = s.tmp := by simp [rebuildScores]

@[simp] theorem refreshDie_tmp (s : State) (d : Nat) :
    (refreshDie s d).tmp = s.tmp := by simp [refreshDie]

@[simp] theorem bringupEnd_tmp (s : State) :
    (bringupEnd s).tmp = s.tmp := by simp [bringupEnd]

@[simp] theorem chipTrained_tmp (s : State) :
    (chipTrained s).tmp = s.tmp := by simp [chipTrained]

@[simp] theorem bringupDone_tmp (s : State) :
    (bringupDone s).tmp = s.tmp := by simp [bringupDone]

@[simp] theorem refreshReady_tmp (s : State) :
    (refreshReady s).tmp = s.tmp := by simp [refreshReady]

@[simp] theorem haltBringup_tmp (s : State) (cause : Nat) :
    (haltBringup s cause).tmp = s.tmp := by simp [haltBringup]

@[simp] theorem orAflags_tmp (s : State) (c v : Nat) :
    (orAflags s c v).tmp = s.tmp := by simp [orAflags]

@[simp] theorem clearAflags_tmp (s : State) (c : Nat) :
    (clearAflags s c).tmp = s.tmp := by simp [clearAflags]

@[simp] theorem sendCtrl_tmp (s : State) (node kind flowField flowId last : Nat) :
    (sendCtrl s node kind flowField flowId last).1.tmp = s.tmp := by
  unfold sendCtrl
  split <;> simp

@[simp] theorem openFlow_tmp (s : State) (f node : Nat) (w : List OutPkt) :
    (openFlow s f node w).tmp = s.tmp := by simp [openFlow]

@[simp] theorem closeFlow_tmp (s : State) (f : Nat) :
    (closeFlow s f).tmp = s.tmp := by simp [closeFlow]

@[simp] theorem queuePkt_tmp (s : State) (node : Nat) (p : OutPkt) :
    (queuePkt s node p).tmp = s.tmp := by
  unfold queuePkt
  repeat' split
  all_goals simp -implicitDefEqProofs

@[simp] theorem queueAll_tmp (s : State) (node : Nat) (ps : List OutPkt) :
    (queueAll s node ps).tmp = s.tmp := by simp [queueAll]

@[simp] theorem sendAckTo_tmp (s : State) (node flowField last : Nat) (payload : List Byte) :
    (sendAckTo s node flowField last payload).tmp = s.tmp := by
  unfold sendAckTo
  split <;> simp

@[simp] theorem sendFlowNak_tmp (s : State) (f seq reason : Nat) :
    (sendFlowNak s f seq reason).tmp = s.tmp := by simp [sendFlowNak]

@[simp] theorem abandonPackets_tmp (s : State) (mine : Owner → Bool) :
    (abandonPackets s mine).tmp = s.tmp := by simp [abandonPackets]

@[simp] theorem fillBegin_tmp (s : State) (xx : List Load) :
    (fillBegin s xx).tmp = s.tmp := by
  induction xx generalizing s with
  | nil => rfl
  | cons l t ih =>
    unfold fillBegin
    split
    · rw [ih]; simp -implicitDefEqProofs
    · rfl

@[simp] theorem fillAdvance_tmp (s : State) :
    (fillAdvance s).tmp = s.tmp := by simp [fillAdvance]

@[simp] theorem saveCtx_tmp (s : State) (c : Nat) :
    (saveCtx s c).tmp = s.tmp := by simp [saveCtx]

@[simp] theorem settle_tmp (s : State) (c : Nat) :
    (settle s c).tmp = s.tmp := by
  unfold settle
  dsimp only
  split <;> simp -implicitDefEqProofs

@[simp] theorem wakeLocal_tmp (s : State) (k value : Nat) :
    (wakeLocal s k value).tmp = s.tmp := by
  unfold wakeLocal
  refine foldl_tmp _ (fun s c => ?_) _ _
  dsimp only
  repeat' split
  all_goals simp -implicitDefEqProofs

@[simp] theorem notifySubs_tmp (s : State) (k value : Nat) (stepFlag : Bool) :
    (notifySubs s k value stepFlag).tmp = s.tmp := by simp [notifySubs]

@[simp] theorem counterSet_tmp (s : State) (k : Nat) (x : Counter) (v : Nat) :
    (counterSet s k x v).tmp = s.tmp := by simp [counterSet]

@[simp] theorem counterOp_tmp (s : State) (k op v : Nat) :
    (counterOp s k op v).tmp = s.tmp := by
  unfold counterOp
  split <;> simp

@[simp] theorem fillErr_tmp (s : State) (c source code : Nat) (at' : Pc) (e : SyncErr) :
    (fillErr s c source code at' e).tmp = s.tmp := by simp [fillErr]

@[simp] theorem clearErr_tmp (s : State) (c : Nat) :
    (clearErr s c).tmp = s.tmp := by simp [clearErr]

@[simp] theorem completeRec_tmp (s : State) (c : Nat) (r : Rec) :
    (completeRec s c r).tmp = s.tmp := by
  unfold completeRec
  dsimp only
  repeat' split
  all_goals simp -implicitDefEqProofs

@[simp] theorem finishCur_tmp (s : State) (c : Nat) (r : Rec) :
    (finishCur s c r).tmp = s.tmp := by simp [finishCur]

@[simp] theorem releaseCur_tmp (s : State) (c : Nat) :
    (releaseCur s c).tmp = s.tmp := by simp [releaseCur]

@[simp] theorem cancelSub_tmp (s : State) (c : Nat) :
    (cancelSub s c).tmp = s.tmp := by
  unfold cancelSub
  repeat' split
  all_goals simp -implicitDefEqProofs

@[simp] theorem prune_tmp (s : State) :
    (prune s).tmp = s.tmp := by simp [prune]

@[simp] theorem abandonFlights_tmp (s : State) (ids : List Nat) :
    (abandonFlights s ids).tmp = s.tmp := by simp [abandonFlights]

@[simp] theorem sendSubscribe_tmp (s : State) (c : Nat) (w : WaitState) :
    (sendSubscribe s c w).tmp = s.tmp := by simp [sendSubscribe]

@[simp] theorem writeTile_tmp (s : State) (p : MmaParams) (t : Nat) (res : List Nat) :
    (writeTile s p t res).1.tmp = s.tmp := by
  unfold writeTile
  rw [foldl_fst_tmp _ (fun x a => by dsimp only; split <;> simp -implicitDefEqProofs)]

@[simp] theorem capacityCheck_tmp (old s : State) (die : Nat) :
    (capacityCheck old s die).tmp = s.tmp := by simp [capacityCheck]

@[simp] theorem anvParity_tmp (s : State) (die m : Nat) (par : AnvParity) (r : TileRun) (x : Mma) :
    (anvParity s die m par r x).tmp = s.tmp := by simp [anvParity]

@[simp] theorem satTile_tmp (s : State) (i u : Nat) (x : Mma) (r : TileRun) :
    (satTile s i u x r).tmp = s.tmp := by simp [satTile]

@[simp] theorem handOn_tmp (s : State) (id : Nat) (x : Mma) (r : TileRun) (res : List Nat) :
    (handOn s id x r res).1.tmp = s.tmp := by
  unfold handOn
  dsimp only
  repeat' split
  all_goals simp -implicitDefEqProofs

@[simp] theorem tileCounters_tmp (s : State) (i cycles level : Nat) (nan : Bool) :
    (tileCounters s i cycles level nan).tmp = s.tmp := by simp [tileCounters]

@[simp] theorem abandonCapture_tmp (s : State) (die u : Nat) :
    (abandonCapture s die u).tmp = s.tmp := by
  unfold abandonCapture
  split <;> simp

@[simp] theorem abandonAnvils_tmp (s : State) (ids : List Nat) (log : Bool) :
    (abandonAnvils s ids log).tmp = s.tmp := by simp [abandonAnvils]

@[simp] theorem swgParity_tmp (s : State) (die u : Nat) (par : SwgParity) (ctx b : Nat) :
    (swgParity s die u par ctx b).tmp = s.tmp := by simp [swgParity]

@[simp] theorem swgCapacity_tmp (old s : State) (die : Nat) :
    (swgCapacity old s die).tmp = s.tmp := by simp [swgCapacity]

@[simp] theorem drainSwage_tmp (s : State) (die u : Nat) :
    (drainSwage s die u).tmp = s.tmp := by simp [drainSwage]

@[simp] theorem abandonSwages_tmp (s : State) (ids : List Nat) (log : Bool) :
    (abandonSwages s ids log).tmp = s.tmp := by
  unfold abandonSwages
  dsimp only
  repeat' split
  all_goals simp -implicitDefEqProofs

@[simp] theorem hearthInit_tmp (s : State) (die : Nat) :
    (hearthInit s die).tmp = s.tmp := by simp [hearthInit]

@[simp] theorem mapoutEntry_tmp (s : State) (stack ch : Nat) (on : Bool) :
    (mapoutEntry s stack ch on).tmp = s.tmp := by simp [mapoutEntry]

@[simp] theorem listMapout_tmp (s : State) (stack m : Nat) :
    (listMapout s stack m).tmp = s.tmp := by simp [listMapout]

@[simp] theorem trainStack_tmp (s : State) (n : Nat) (r : StackReport) :
    (trainStack s n r).tmp = s.tmp := by simp [trainStack]

@[simp] theorem reportUe_tmp (s : State) (a ctx : Nat) :
    (reportUe s a ctx).tmp = s.tmp := by simp [reportUe]

@[simp] theorem holdLost_tmp (s : State) (a ctx : Nat) (c : EClass) :
    (holdLost s a ctx c).tmp = s.tmp := by simp [holdLost]

@[simp] theorem hbmCe_tmp (s : State) (a : Nat) :
    (hbmCe s a).tmp = s.tmp := by simp [hbmCe]

@[simp] theorem flagChannel_tmp (s : State) (stack ch : Nat) :
    (flagChannel s stack ch).tmp = s.tmp := by simp [flagChannel]

@[simp] theorem readTemp_tmp (s : State) (stack temp : Nat) :
    (readTemp s stack temp).tmp = s.tmp := by simp [readTemp]

@[simp] theorem moveGather_tmp (s : State) (src dst : Nat) (is : List Nat) :
    (moveGather s src dst is).tmp = s.tmp := by simp [moveGather]

@[simp] theorem exitSelfRefresh_tmp (s : State) (n bad : Nat) :
    (exitSelfRefresh s n bad).tmp = s.tmp := by simp [exitSelfRefresh]

@[simp] theorem exitDie_tmp (s : State) (die bad0 bad1 : Nat) :
    (exitDie s die bad0 bad1).tmp = s.tmp := by simp [exitDie]

@[simp] theorem sendControl_tmp (s : State) (k cmd lanes arg : Nat) :
    (sendControl s k cmd lanes arg).tmp = s.tmp := by simp [sendControl]

@[simp] theorem linkLeave_tmp (s : State) (k : Nat) (st : LinkState) :
    (linkLeave s k st).tmp = s.tmp := by simp [linkLeave]

@[simp] theorem startTraining_tmp (s : State) (k : Nat) (fast restoring : Bool) :
    (startTraining s k fast restoring).tmp = s.tmp := by simp [startTraining]

@[simp] theorem failLink_tmp (s : State) (k reason : Nat) :
    (failLink s k reason).tmp = s.tmp := by simp [failLink]

@[simp] theorem linkUpOn_tmp (s : State) (k lanes : Nat) (up : Bool) (rep : LinkReport) :
    (linkUpOn s k lanes up rep).tmp = s.tmp := by simp [linkUpOn]

@[simp] theorem enterX2_tmp (s : State) (k good : Nat) (partner : Bool) :
    (enterX2 s k good partner).tmp = s.tmp := by simp [enterX2]

@[simp] theorem askStep_tmp (s : State) (k lane : Nat) :
    (askStep s k lane).tmp = s.tmp := by simp [askStep]

@[simp] theorem setRec_tmp (s : State) (slot layer : Nat) (r : LayerRec) :
    (setRec s slot layer r).tmp = s.tmp := by
  unfold setRec
  split <;> simp

@[simp] theorem loseRec_tmp (s : State) (slot layer : Nat) (r : LayerRec) (owner : Nat) :
    (loseRec s slot layer r owner).tmp = s.tmp := by simp [loseRec]

@[simp] theorem loseSlot_tmp (s : State) (d n : Nat) (x : SeqSlot) :
    (loseSlot s d n x).tmp = s.tmp := by simp [loseSlot]

@[simp] theorem setUnacked_tmp (s : State) (f : Nat) (u : Unacked) :
    (State.setUnacked s f u).tmp = s.tmp := by simp [State.setUnacked]

@[simp] theorem sourceRead_tmp (s : State) (p : OutPkt) :
    (sourceRead s p).tmp = s.tmp := by
  unfold sourceRead
  split <;> simp

@[simp] theorem sendData_tmp (s : State) (k : Nat) (c : PClass) (p : Packet) :
    (sendData s k c p).tmp = s.tmp := by simp [sendData]

@[simp] theorem sendTry_tmp (s : State) (f k seq att tries : Nat) (p : OutPkt) (payload : List Byte) :
    (sendTry s f k seq att tries p payload).tmp = s.tmp := by simp [sendTry]

@[simp] theorem planeTimeout_tmp (s : State) (k peer : Nat) :
    (planeTimeout s k peer).tmp = s.tmp := by simp [planeTimeout]

@[simp] theorem abandonWork_tmp (s : State) (ids : List Nat) (log : Bool) :
    (abandonWork s ids log).tmp = s.tmp := by simp [abandonWork]

@[simp] theorem abandonSlots_tmp (s : State) (c : Nat) :
    (abandonSlots s c).tmp = s.tmp := by simp [abandonSlots]

@[simp] theorem abandonHoldWrite_tmp (s : State) :
    (abandonHoldWrite s).tmp = s.tmp := by simp [abandonHoldWrite]

@[simp] theorem resetCfg_tmp (s : State) (c : Nat) :
    (resetCfg s c).tmp = s.tmp := by simp [resetCfg]

@[simp] theorem suspectAnvil_tmp (s : State) (die m : Nat) :
    (suspectAnvil s die m).tmp = s.tmp := by simp [suspectAnvil]

@[simp] theorem suspectSwage_tmp (s : State) (die u : Nat) :
    (suspectSwage s die u).tmp = s.tmp := by simp [suspectSwage]

@[simp] theorem settleUnits_tmp (s : State) (die : Nat) (c : Capture) (out : Nat) :
    (settleUnits s die c out).tmp = s.tmp := by
  unfold settleUnits
  repeat' split
  all_goals simp -implicitDefEqProofs

@[simp] theorem settleRegs_tmp (s : State) (die : Nat) (c : Capture) (out : Nat) (cls : EClass) :
    (settleRegs s die c out cls).tmp = s.tmp := by simp [settleRegs]

@[simp] theorem foldTouch_tmp (s : State) :
    (foldTouch s).tmp = s.tmp := by
  unfold foldTouch
  dsimp only
  split <;> simp -implicitDefEqProofs

@[simp] theorem bistFail_tmp (s : State) (die m : Nat) (swage pers : Bool) (id sig : Nat) :
    (bistFail s die m swage pers id sig).tmp = s.tmp := by simp [bistFail]

@[simp] theorem ldgClear_tmp (s : State) (unit : Nat) :
    (ldgClear s unit).tmp = s.tmp := by simp [ldgClear]

@[simp] theorem healthDecay_tmp (s : State) :
    (healthDecay s).tmp = s.tmp := by simp [healthDecay]

@[simp] theorem sendTree_tmp (s : State) (node : Nat) (p : OutPkt) :
    (sendTree s node p).tmp = s.tmp := by simp [sendTree]

@[simp] theorem sendResult_tmp (s : State) (tree : Nat) (bs : List Byte) :
    (sendResult s tree bs).tmp = s.tmp := by simp [sendResult]

@[simp] theorem dropEntry_tmp (s : State) (tree step att : Nat) :
    (dropEntry s tree step att).tmp = s.tmp := by simp [dropEntry]

@[simp] theorem contribute_tmp (s : State) (tree : Nat) (level : Option Nat) (bs : List Byte) :
    (contribute s tree level bs).1.tmp = s.tmp := by
  unfold contribute
  dsimp only
  repeat' split
  all_goals simp -implicitDefEqProofs

@[simp] theorem setCkpState_tmp (s : State) (v : Nat) :
    (setCkpState s v).tmp = s.tmp := by simp [setCkpState]

@[simp] theorem clearPending_tmp (s : State) :
    (clearPending s).tmp = s.tmp := by
  unfold clearPending
  dsimp only
  split <;> simp -implicitDefEqProofs

@[simp] theorem clearOwnPending_tmp (s : State) (step : Nat) :
    (clearOwnPending s step).tmp = s.tmp := by simp [clearOwnPending]

@[simp] theorem endCut_tmp (s : State) (ok : Bool) :
    (endCut s ok).tmp = s.tmp := by
  unfold endCut
  split <;> simp

@[simp] theorem logDrive_tmp (s : State) (slot addr status : Nat) :
    (logDrive s slot addr status).tmp = s.tmp := by simp [logDrive]

@[simp] theorem refreshCap_tmp (s : State) (n : Nat) :
    (refreshCap s n).tmp = s.tmp := by simp [refreshCap]

@[simp] theorem refreshCaps_tmp (s : State) :
    (refreshCaps s).tmp = s.tmp := by simp [refreshCaps]

@[simp] theorem powerFast_tmp (s : State) (pkg : Nat) :
    (powerFast s pkg).tmp = s.tmp := by simp [powerFast]

@[simp] theorem powerSlow_tmp (s : State) (pkg input : Nat) :
    (powerSlow s pkg input).tmp = s.tmp := by simp [powerSlow]

@[simp] theorem rampEval_tmp (s : State) (n : Nat) (held : Bool) (level : Nat) :
    (rampEval s n held level).tmp = s.tmp := by simp [rampEval]

@[simp] theorem hintDie_tmp (s : State) (n target lead : Nat) :
    (hintDie s n target lead).tmp = s.tmp := by simp [hintDie]

@[simp] theorem updateTemp_tmp (s : State) (d : Nat) :
    (updateTemp s d).tmp = s.tmp := by
  unfold updateTemp
  split <;> simp

@[simp] theorem thermalEval_tmp (s : State) (slow : Bool) :
    (thermalEval s slow).tmp = s.tmp := by simp [thermalEval]

@[simp] theorem pllUnlock_tmp (s : State) (d : Nat) :
    (pllUnlock s d).tmp = s.tmp := by simp [pllUnlock]

@[simp] theorem dieWake_tmp (s : State) (n ns : Nat) :
    (dieWake s n ns).tmp = s.tmp := by simp [dieWake]

@[simp] theorem sendHold_tmp (s : State) :
    (sendHold s).tmp = s.tmp := by simp [sendHold]

@[simp] theorem noteReset_tmp (s : State) (dom target cause : Nat) :
    (noteReset s dom target cause).tmp = s.tmp := by simp [noteReset]

@[simp] theorem smcRestart_tmp (s : State) :
    (smcRestart s).tmp = s.tmp := by simp [smcRestart]

@[simp] theorem bstEnd_tmp (s : State) (fails : Nat) :
    (bstEnd s fails).tmp = s.tmp := by simp [bstEnd]

/-! ## Frames: what leaves `attempt` as it is -/

@[simp] theorem attempt_ite (c : Prop) [Decidable c] (a b : State) : (if c then a else b).attempt = if c then a.attempt else b.attempt := by
  split <;> rfl

@[simp] theorem foldl_attempt {α : Type} (g : State → α → State) (h : ∀ s x, (g s x).attempt = s.attempt) (l : List α) :
    ∀ s : State, (l.foldl g s).attempt = s.attempt := by
  induction l with
  | nil => intro s; rfl
  | cons x t ih => intro s; simp only [List.foldl_cons]; rw [ih, h]

@[simp] theorem msixSend_attempt (s : State) (v : Nat) :
    (msixSend s v).attempt = s.attempt := by simp [msixSend]

@[simp] theorem msixRequest_attempt (s : State) (v : Nat) :
    (msixRequest s v).attempt = s.attempt := by simp [msixRequest]

@[simp] theorem notice_attempt (s : State) (slot b : Nat) :
    (notice s slot b).attempt = s.attempt := by simp [notice]

@[simp] theorem raiseSlot_attempt (s : State) (slot b : Nat) :
    (raiseSlot s slot b).attempt = s.attempt := by simp [raiseSlot]

@[simp] theorem raise_attempt (s : State) (p : Page) (i b : Nat) :
    (raise s p i b).attempt = s.attempt := by simp [raise]

@[simp] theorem raiseIf_attempt (c : Bool) (s : State) (p : Page) (i b : Nat) :
    (raiseIf c s p i b).attempt = s.attempt := by simp [raiseIf]

@[simp] theorem countClass_attempt (s : State) (p : Page) (i : Nat) (c : EClass) :
    (countClass s p i c).attempt = s.attempt := by
  unfold countClass
  repeat' split
  all_goals simp -implicitDefEqProofs

@[simp] theorem logErr_attempt (s : State) (p : Page) (i code : Nat) (c : EClass) (unit addr : Nat) (detail : List Nat) :
    (logErr s p i code c unit addr detail).attempt = s.attempt := by simp [logErr]

@[simp] theorem sendPrio_attempt (s : State) (k : Nat) (c : PClass) (p : Packet) :
    (sendPrio s k c p).attempt = s.attempt := by simp [sendPrio]

@[simp] theorem sendCopies_attempt (s : State) (b : Burst) :
    (sendCopies s b).attempt = s.attempt := by simp [sendCopies]

@[simp] theorem startBurst_attempt (s : State) (c : PClass) (payload : List Byte) :
    (startBurst s c payload).attempt = s.attempt := by simp [startBurst]

@[simp] theorem cutBurst_attempt (s : State) (step cause : Nat) :
    (cutBurst s step cause).attempt = s.attempt := by simp [cutBurst]

@[simp] theorem setCutPending_attempt (s : State) (step cause : Nat) :
    (setCutPending s step cause).attempt = s.attempt := by simp [setCutPending]

@[simp] theorem takeCut_attempt (s : State) (step cause : Nat) :
    (takeCut s step cause).attempt = s.attempt := by
  unfold takeCut
  repeat' split
  all_goals simp -implicitDefEqProofs

@[simp] theorem requestCut_attempt (s : State) (cause : Nat) :
    (requestCut s cause).attempt = s.attempt := by
  unfold requestCut
  split <;> simp

@[simp] theorem ledgerAdd_attempt (s : State) (unit kind cls weight : Nat) (detail : List Nat) :
    (ledgerAdd s unit kind cls weight detail).attempt = s.attempt := by simp [ledgerAdd]

@[simp] theorem ledgerEvent_attempt (s : State) (unit kind cls weight : Nat) (odd : Bool) (detail : List Nat) :
    (ledgerEvent s unit kind cls weight odd detail).attempt = s.attempt := by simp [ledgerEvent]

@[simp] theorem warnCut_attempt (s : State) (unit : Nat) :
    (warnCut s unit).attempt = s.attempt := by simp [warnCut]

@[simp] theorem levelRise_attempt (s : State) (unit old lv : Nat) :
    (levelRise s unit old lv).attempt = s.attempt := by simp [levelRise]

@[simp] theorem updateLevel_attempt (s : State) (unit : Nat) :
    (updateLevel s unit).attempt = s.attempt := by simp [updateLevel]

@[simp] theorem healthInput_attempt (s : State) (n unit : Nat) :
    (healthInput s n unit).attempt = s.attempt := by simp [healthInput]

@[simp] theorem countBytes_attempt (s : State) (write : Bool) (a n : Nat) :
    (countBytes s write a n).attempt = s.attempt := by
  unfold countBytes
  split <;> simp

@[simp] theorem readAny_attempt (s : State) (a n : Nat) :
    (readAny s a n).2.attempt = s.attempt := by
  unfold readAny
  split <;> simp

@[simp] theorem sendCtrl_attempt (s : State) (node kind flowField flowId last : Nat) :
    (sendCtrl s node kind flowField flowId last).1.attempt = s.attempt := by
  unfold sendCtrl
  split <;> simp

@[simp] theorem openFlow_attempt (s : State) (f node : Nat) (w : List OutPkt) :
    (openFlow s f node w).attempt = s.attempt := by simp [openFlow]

@[simp] theorem closeFlow_attempt (s : State) (f : Nat) :
    (closeFlow s f).attempt = s.attempt := by simp [closeFlow]

@[simp] theorem queuePkt_attempt (s : State) (node : Nat) (p : OutPkt) :
    (queuePkt s node p).attempt = s.attempt := by
  unfold queuePkt
  repeat' split
  all_goals simp -implicitDefEqProofs

@[simp] theorem saveCtx_attempt (s : State) (c : Nat) :
    (saveCtx s c).attempt = s.attempt := by simp [saveCtx]

@[simp] theorem settle_attempt (s : State) (c : Nat) :
    (settle s c).attempt = s.attempt := by
  unfold settle
  dsimp only
  split <;> simp -implicitDefEqProofs

@[simp] theorem wakeLocal_attempt (s : State) (k value : Nat) :
    (wakeLocal s k value).attempt = s.attempt := by
  unfold wakeLocal
  refine foldl_attempt _ (fun s c => ?_) _ _
  dsimp only
  repeat' split
  all_goals simp -implicitDefEqProofs

@[simp] theorem notifySubs_attempt (s : State) (k value : Nat) (stepFlag : Bool) :
    (notifySubs s k value stepFlag).attempt = s.attempt := by simp [notifySubs]

@[simp] theorem counterSet_attempt (s : State) (k : Nat) (x : Counter) (v : Nat) :
    (counterSet s k x v).attempt = s.attempt := by simp [counterSet]

@[simp] theorem counterOp_attempt (s : State) (k op v : Nat) :
    (counterOp s k op v).attempt = s.attempt := by
  unfold counterOp
  split <;> simp

@[simp] theorem completeRec_attempt (s : State) (c : Nat) (r : Rec) :
    (completeRec s c r).attempt = s.attempt := by
  unfold completeRec
  dsimp only
  repeat' split
  all_goals simp -implicitDefEqProofs

@[simp] theorem finishCur_attempt (s : State) (c : Nat) (r : Rec) :
    (finishCur s c r).attempt = s.attempt := by simp [finishCur]

@[simp] theorem suspectAnvil_attempt (s : State) (die m : Nat) :
    (suspectAnvil s die m).attempt = s.attempt := by simp [suspectAnvil]

@[simp] theorem settleUnits_attempt (s : State) (die : Nat) (c : Capture) (out : Nat) :
    (settleUnits s die c out).attempt = s.attempt := by
  unfold settleUnits
  repeat' split
  all_goals simp -implicitDefEqProofs

@[simp] theorem settleRegs_attempt (s : State) (die : Nat) (c : Capture) (out : Nat) (cls : EClass) :
    (settleRegs s die c out cls).attempt = s.attempt := by simp [settleRegs]

@[simp] theorem sendTree_attempt (s : State) (node : Nat) (p : OutPkt) :
    (sendTree s node p).attempt = s.attempt := by simp [sendTree]

@[simp] theorem sendResult_attempt (s : State) (tree : Nat) (bs : List Byte) :
    (sendResult s tree bs).attempt = s.attempt := by simp [sendResult]

@[simp] theorem dropEntry_attempt (s : State) (tree step att : Nat) :
    (dropEntry s tree step att).attempt = s.attempt := by simp [dropEntry]

@[simp] theorem contribute_attempt (s : State) (tree : Nat) (level : Option Nat) (bs : List Byte) :
    (contribute s tree level bs).1.attempt = s.attempt := by
  unfold contribute
  dsimp only
  repeat' split
  all_goals simp -implicitDefEqProofs

/-! ## Frames: what leaves `flights` as it is -/

@[simp] theorem flights_ite (c : Prop) [Decidable c] (a b : State) : (if c then a else b).flights = if c then a.flights else b.flights := by
  split <;> rfl

@[simp] theorem foldl_flights {α : Type} (g : State → α → State) (h : ∀ s x, (g s x).flights = s.flights) (l : List α) :
    ∀ s : State, (l.foldl g s).flights = s.flights := by
  induction l with
  | nil => intro s; rfl
  | cons x t ih => intro s; simp only [List.foldl_cons]; rw [ih, h]

@[simp] theorem foldl_fst_flights {α β : Type} (g : State × β → α → State × β) (h : ∀ x a, (g x a).1.flights = x.1.flights) (l : List α) :
    ∀ x : State × β, (l.foldl g x).1.flights = x.1.flights := by
  induction l with
  | nil => intro x; rfl
  | cons a t ih => intro x; simp only [List.foldl_cons]; rw [ih, h]

@[simp] theorem msixSend_flights (s : State) (v : Nat) :
    (msixSend s v).flights = s.flights := by simp [msixSend]

@[simp] theorem msixRequest_flights (s : State) (v : Nat) :
    (msixRequest s v).flights = s.flights := by simp [msixRequest]

@[simp] theorem notice_flights (s : State) (slot b : Nat) :
    (notice s slot b).flights = s.flights := by simp [notice]

@[simp] theorem raiseSlot_flights (s : State) (slot b : Nat) :
    (raiseSlot s slot b).flights = s.flights := by simp [raiseSlot]

@[simp] theorem raise_flights (s : State) (p : Page) (i b : Nat) :
    (raise s p i b).flights = s.flights := by simp [raise]

@[simp] theorem raiseIf_flights (c : Bool) (s : State) (p : Page) (i b : Nat) :
    (raiseIf c s p i b).flights = s.flights := by simp [raiseIf]

@[simp] theorem countClass_flights (s : State) (p : Page) (i : Nat) (c : EClass) :
    (countClass s p i c).flights = s.flights := by
  unfold countClass
  repeat' split
  all_goals simp -implicitDefEqProofs

@[simp] theorem logErr_flights (s : State) (p : Page) (i code : Nat) (c : EClass) (unit addr : Nat) (detail : List Nat) :
    (logErr s p i code c unit addr detail).flights = s.flights := by simp [logErr]

@[simp] theorem stepFault_flights (s : State) (r : Reason) :
    (stepFault s r).flights = s.flights := by simp [stepFault]

@[simp] theorem sendPrio_flights (s : State) (k : Nat) (c : PClass) (p : Packet) :
    (sendPrio s k c p).flights = s.flights := by simp [sendPrio]

@[simp] theorem sendCopies_flights (s : State) (b : Burst) :
    (sendCopies s b).flights = s.flights := by simp [sendCopies]

@[simp] theorem startBurst_flights (s : State) (c : PClass) (payload : List Byte) :
    (startBurst s c payload).flights = s.flights := by simp [startBurst]

@[simp] theorem cutBurst_flights (s : State) (step cause : Nat) :
    (cutBurst s step cause).flights = s.flights := by simp [cutBurst]

@[simp] theorem setCutPending_flights (s : State) (step cause : Nat) :
    (setCutPending s step cause).flights = s.flights := by simp [setCutPending]

@[simp] theorem takeCut_flights (s : State) (step cause : Nat) :
    (takeCut s step cause).flights = s.flights := by
  unfold takeCut
  repeat' split
  all_goals simp -implicitDefEqProofs

@[simp] theorem requestCut_flights (s : State) (cause : Nat) :
    (requestCut s cause).flights = s.flights := by
  unfold requestCut
  split <;> simp

@[simp] theorem ledgerAdd_flights (s : State) (unit kind cls weight : Nat) (detail : List Nat) :
    (ledgerAdd s unit kind cls weight detail).flights = s.flights := by simp [ledgerAdd]

@[simp] theorem ledgerEvent_flights (s : State) (unit kind cls weight : Nat) (odd : Bool) (detail : List Nat) :
    (ledgerEvent s unit kind cls weight odd detail).flights = s.flights := by simp [ledgerEvent]

@[simp] theorem warnCut_flights (s : State) (unit : Nat) :
    (warnCut s unit).flights = s.flights := by simp [warnCut]

@[simp] theorem levelRise_flights (s : State) (unit old lv : Nat) :
    (levelRise s unit old lv).flights = s.flights := by simp [levelRise]

@[simp] theorem updateLevel_flights (s : State) (unit : Nat) :
    (updateLevel s unit).flights = s.flights := by simp [updateLevel]

@[simp] theorem healthInput_flights (s : State) (n unit : Nat) :
    (healthInput s n unit).flights = s.flights := by simp [healthInput]

@[simp] theorem parityEvent_flights (s : State) (unit page code : Nat) :
    (parityEvent s unit page code).flights = s.flights := by simp [parityEvent]

@[simp] theorem refuseEffects_flights (s : State) (r : Req) (write : Bool) (ctx a n : Nat) :
    (refuseEffects s r write ctx a n).flights = s.flights := by
  unfold refuseEffects
  repeat' split
  all_goals simp -implicitDefEqProofs

@[simp] theorem countBytes_flights (s : State) (write : Bool) (a n : Nat) :
    (countBytes s write a n).flights = s.flights := by
  unfold countBytes
  split <;> simp

@[simp] theorem readAny_flights (s : State) (a n : Nat) :
    (readAny s a n).2.flights = s.flights := by
  unfold readAny
  split <;> simp

@[simp] theorem writeAny_flights (s : State) (a : Nat) (bs : List Byte) :
    (writeAny s a bs).flights = s.flights := by
  unfold writeAny
  split <;> simp

@[simp] theorem orAflags_flights (s : State) (c v : Nat) :
    (orAflags s c v).flights = s.flights := by simp [orAflags]

@[simp] theorem clearAflags_flights (s : State) (c : Nat) :
    (clearAflags s c).flights = s.flights := by simp [clearAflags]

@[simp] theorem sendCtrl_flights (s : State) (node kind flowField flowId last : Nat) :
    (sendCtrl s node kind flowField flowId last).1.flights = s.flights := by
  unfold sendCtrl
  split <;> simp

@[simp] theorem openFlow_flights (s : State) (f node : Nat) (w : List OutPkt) :
    (openFlow s f node w).flights = s.flights := by simp [openFlow]

@[simp] theorem closeFlow_flights (s : State) (f : Nat) :
    (closeFlow s f).flights = s.flights := by simp [closeFlow]

@[simp] theorem queuePkt_flights (s : State) (node : Nat) (p : OutPkt) :
    (queuePkt s node p).flights = s.flights := by
  unfold queuePkt
  repeat' split
  all_goals simp -implicitDefEqProofs

@[simp] theorem sendAckTo_flights (s : State) (node flowField last : Nat) (payload : List Byte) :
    (sendAckTo s node flowField last payload).flights = s.flights := by
  unfold sendAckTo
  split <;> simp

@[simp] theorem sendFlowNak_flights (s : State) (f seq reason : Nat) :
    (sendFlowNak s f seq reason).flights = s.flights := by simp [sendFlowNak]

@[simp] theorem saveCtx_flights (s : State) (c : Nat) :
    (saveCtx s c).flights = s.flights := by simp [saveCtx]

@[simp] theorem settle_flights (s : State) (c : Nat) :
    (settle s c).flights = s.flights := by
  unfold settle
  dsimp only
  split <;> simp -implicitDefEqProofs

@[simp] theorem wakeLocal_flights (s : State) (k value : Nat) :
    (wakeLocal s k value).flights = s.flights := by
  unfold wakeLocal
  refine foldl_flights _ (fun s c => ?_) _ _
  dsimp only
  repeat' split
  all_goals simp -implicitDefEqProofs

@[simp] theorem notifySubs_flights (s : State) (k value : Nat) (stepFlag : Bool) :
    (notifySubs s k value stepFlag).flights = s.flights := by simp [notifySubs]

@[simp] theorem counterSet_flights (s : State) (k : Nat) (x : Counter) (v : Nat) :
    (counterSet s k x v).flights = s.flights := by simp [counterSet]

@[simp] theorem counterOp_flights (s : State) (k op v : Nat) :
    (counterOp s k op v).flights = s.flights := by
  unfold counterOp
  split <;> simp

@[simp] theorem completeRec_flights (s : State) (c : Nat) (r : Rec) :
    (completeRec s c r).flights = s.flights := by
  unfold completeRec
  dsimp only
  repeat' split
  all_goals simp -implicitDefEqProofs

@[simp] theorem finishCur_flights (s : State) (c : Nat) (r : Rec) :
    (finishCur s c r).flights = s.flights := by simp [finishCur]

@[simp] theorem releaseCur_flights (s : State) (c : Nat) :
    (releaseCur s c).flights = s.flights := by simp [releaseCur]

@[simp] theorem cancelSub_flights (s : State) (c : Nat) :
    (cancelSub s c).flights = s.flights := by
  unfold cancelSub
  repeat' split
  all_goals simp -implicitDefEqProofs

@[simp] theorem writeTile_flights (s : State) (p : MmaParams) (t : Nat) (res : List Nat) :
    (writeTile s p t res).1.flights = s.flights := by
  unfold writeTile
  rw [foldl_fst_flights _ (fun x a => by dsimp only; split <;> simp -implicitDefEqProofs)]

@[simp] theorem capacityCheck_flights (old s : State) (die : Nat) :
    (capacityCheck old s die).flights = s.flights := by simp [capacityCheck]

@[simp] theorem anvParity_flights (s : State) (die m : Nat) (par : AnvParity) (r : TileRun) (x : Mma) :
    (anvParity s die m par r x).flights = s.flights := by simp [anvParity]

@[simp] theorem satTile_flights (s : State) (i u : Nat) (x : Mma) (r : TileRun) :
    (satTile s i u x r).flights = s.flights := by simp [satTile]

@[simp] theorem handOn_flights (s : State) (id : Nat) (x : Mma) (r : TileRun) (res : List Nat) :
    (handOn s id x r res).1.flights = s.flights := by
  unfold handOn
  dsimp only
  repeat' split
  all_goals simp -implicitDefEqProofs

@[simp] theorem tileCounters_flights (s : State) (i cycles level : Nat) (nan : Bool) :
    (tileCounters s i cycles level nan).flights = s.flights := by simp [tileCounters]

@[simp] theorem abandonCapture_flights (s : State) (die u : Nat) :
    (abandonCapture s die u).flights = s.flights := by
  unfold abandonCapture
  split <;> simp

@[simp] theorem swgParity_flights (s : State) (die u : Nat) (par : SwgParity) (ctx b : Nat) :
    (swgParity s die u par ctx b).flights = s.flights := by simp [swgParity]

@[simp] theorem swgCapacity_flights (old s : State) (die : Nat) :
    (swgCapacity old s die).flights = s.flights := by simp [swgCapacity]

@[simp] theorem drainSwage_flights (s : State) (die u : Nat) :
    (drainSwage s die u).flights = s.flights := by simp [drainSwage]

@[simp] theorem moveGather_flights (s : State) (src dst : Nat) (is : List Nat) :
    (moveGather s src dst is).flights = s.flights := by simp [moveGather]

@[simp] theorem resetCfg_flights (s : State) (c : Nat) :
    (resetCfg s c).flights = s.flights := by simp [resetCfg]

@[simp] theorem suspectAnvil_flights (s : State) (die m : Nat) :
    (suspectAnvil s die m).flights = s.flights := by simp [suspectAnvil]

@[simp] theorem suspectSwage_flights (s : State) (die u : Nat) :
    (suspectSwage s die u).flights = s.flights := by simp [suspectSwage]

@[simp] theorem bistFail_flights (s : State) (die m : Nat) (swage pers : Bool) (id sig : Nat) :
    (bistFail s die m swage pers id sig).flights = s.flights := by simp [bistFail]

@[simp] theorem hintDie_flights (s : State) (n target lead : Nat) :
    (hintDie s n target lead).flights = s.flights := by simp [hintDie]

/-! ## Frames: what leaves `syn` as it is -/

@[simp] theorem syn_ite (c : Prop) [Decidable c] (a b : State) : (if c then a else b).syn = if c then a.syn else b.syn := by
  split <;> rfl

@[simp] theorem foldl_syn {α : Type} (g : State → α → State) (h : ∀ s x, (g s x).syn = s.syn) (l : List α) :
    ∀ s : State, (l.foldl g s).syn = s.syn := by
  induction l with
  | nil => intro s; rfl
  | cons x t ih => intro s; simp only [List.foldl_cons]; rw [ih, h]

@[simp] theorem msixSend_syn (s : State) (v : Nat) :
    (msixSend s v).syn = s.syn := by simp [msixSend]

@[simp] theorem msixRequest_syn (s : State) (v : Nat) :
    (msixRequest s v).syn = s.syn := by simp [msixRequest]

@[simp] theorem notice_syn (s : State) (slot b : Nat) :
    (notice s slot b).syn = s.syn := by simp [notice]

@[simp] theorem raiseSlot_syn (s : State) (slot b : Nat) :
    (raiseSlot s slot b).syn = s.syn := by simp [raiseSlot]

@[simp] theorem raise_syn (s : State) (p : Page) (i b : Nat) :
    (raise s p i b).syn = s.syn := by simp [raise]

@[simp] theorem raiseIf_syn (c : Bool) (s : State) (p : Page) (i b : Nat) :
    (raiseIf c s p i b).syn = s.syn := by simp [raiseIf]

@[simp] theorem countClass_syn (s : State) (p : Page) (i : Nat) (c : EClass) :
    (countClass s p i c).syn = s.syn := by
  unfold countClass
  repeat' split
  all_goals simp -implicitDefEqProofs

@[simp] theorem logErr_syn (s : State) (p : Page) (i code : Nat) (c : EClass) (unit addr : Nat) (detail : List Nat) :
    (logErr s p i code c unit addr detail).syn = s.syn := by simp [logErr]

@[simp] theorem sendPrio_syn (s : State) (k : Nat) (c : PClass) (p : Packet) :
    (sendPrio s k c p).syn = s.syn := by simp [sendPrio]

@[simp] theorem countBytes_syn (s : State) (write : Bool) (a n : Nat) :
    (countBytes s write a n).syn = s.syn := by
  unfold countBytes
  split <;> simp

@[simp] theorem readAny_syn (s : State) (a n : Nat) :
    (readAny s a n).2.syn = s.syn := by
  unfold readAny
  split <;> simp

@[simp] theorem commitApply_syn (s : State) (p : Page) (i : Nat) :
    (commitApply s p i).syn = s.syn := by simp [commitApply]

@[simp] theorem sendCtrl_syn (s : State) (node kind flowField flowId last : Nat) :
    (sendCtrl s node kind flowField flowId last).1.syn = s.syn := by
  unfold sendCtrl
  split <;> simp

@[simp] theorem openFlow_syn (s : State) (f node : Nat) (w : List OutPkt) :
    (openFlow s f node w).syn = s.syn := by simp [openFlow]

@[simp] theorem closeFlow_syn (s : State) (f : Nat) :
    (closeFlow s f).syn = s.syn := by simp [closeFlow]

@[simp] theorem queuePkt_syn (s : State) (node : Nat) (p : OutPkt) :
    (queuePkt s node p).syn = s.syn := by
  unfold queuePkt
  repeat' split
  all_goals simp -implicitDefEqProofs

@[simp] theorem abandonPackets_syn (s : State) (mine : Owner → Bool) :
    (abandonPackets s mine).syn = s.syn := by simp [abandonPackets]

@[simp] theorem saveCtx_syn (s : State) (c : Nat) :
    (saveCtx s c).syn = s.syn := by simp [saveCtx]

@[simp] theorem settle_syn (s : State) (c : Nat) :
    (settle s c).syn = s.syn := by
  unfold settle
  dsimp only
  split <;> simp -implicitDefEqProofs

@[simp] theorem clearErr_syn (s : State) (c : Nat) :
    (clearErr s c).syn = s.syn := by simp [clearErr]

@[simp] theorem cancelSub_syn (s : State) (c : Nat) :
    (cancelSub s c).syn = s.syn := by
  unfold cancelSub
  repeat' split
  all_goals simp -implicitDefEqProofs

@[simp] theorem prune_syn (s : State) :
    (prune s).syn = s.syn := by simp [prune]

@[simp] theorem abandonFlights_syn (s : State) (ids : List Nat) :
    (abandonFlights s ids).syn = s.syn := by simp [abandonFlights]

@[simp] theorem sendSubscribe_syn (s : State) (c : Nat) (w : WaitState) :
    (sendSubscribe s c w).syn = s.syn := by simp [sendSubscribe]

@[simp] theorem abandonCapture_syn (s : State) (die u : Nat) :
    (abandonCapture s die u).syn = s.syn := by
  unfold abandonCapture
  split <;> simp

@[simp] theorem abandonAnvils_syn (s : State) (ids : List Nat) (log : Bool) :
    (abandonAnvils s ids log).syn = s.syn := by simp [abandonAnvils]

@[simp] theorem swgCapacity_syn (old s : State) (die : Nat) :
    (swgCapacity old s die).syn = s.syn := by simp [swgCapacity]

@[simp] theorem drainSwage_syn (s : State) (die u : Nat) :
    (drainSwage s die u).syn = s.syn := by simp [drainSwage]

@[simp] theorem abandonSwages_syn (s : State) (ids : List Nat) (log : Bool) :
    (abandonSwages s ids log).syn = s.syn := by
  unfold abandonSwages
  dsimp only
  repeat' split
  all_goals simp -implicitDefEqProofs

@[simp] theorem moveGather_syn (s : State) (src dst : Nat) (is : List Nat) :
    (moveGather s src dst is).syn = s.syn := by simp [moveGather]

@[simp] theorem abandonWork_syn (s : State) (ids : List Nat) (log : Bool) :
    (abandonWork s ids log).syn = s.syn := by simp [abandonWork]

@[simp] theorem abandonSlots_syn (s : State) (c : Nat) :
    (abandonSlots s c).syn = s.syn := by simp [abandonSlots]

@[simp] theorem abandonHoldWrite_syn (s : State) :
    (abandonHoldWrite s).syn = s.syn := by simp [abandonHoldWrite]

@[simp] theorem resetCfg_syn (s : State) (c : Nat) :
    (resetCfg s c).syn = s.syn := by simp [resetCfg]

/-! ## Frames: what leaves `xp` as it is -/

@[simp] theorem xp_ite (c : Prop) [Decidable c] (a b : State) : (if c then a else b).xp = if c then a.xp else b.xp := by
  split <;> rfl

@[simp] theorem foldl_xp {α : Type} (g : State → α → State) (h : ∀ s x, (g s x).xp = s.xp) (l : List α) :
    ∀ s : State, (l.foldl g s).xp = s.xp := by
  induction l with
  | nil => intro s; rfl
  | cons x t ih => intro s; simp only [List.foldl_cons]; rw [ih, h]

@[simp] theorem msixSend_xp (s : State) (v : Nat) :
    (msixSend s v).xp = s.xp := by simp [msixSend]

@[simp] theorem msixRequest_xp (s : State) (v : Nat) :
    (msixRequest s v).xp = s.xp := by simp [msixRequest]

@[simp] theorem notice_xp (s : State) (slot b : Nat) :
    (notice s slot b).xp = s.xp := by simp [notice]

@[simp] theorem raiseSlot_xp (s : State) (slot b : Nat) :
    (raiseSlot s slot b).xp = s.xp := by simp [raiseSlot]

@[simp] theorem raise_xp (s : State) (p : Page) (i b : Nat) :
    (raise s p i b).xp = s.xp := by simp [raise]

@[simp] theorem raiseIf_xp (c : Bool) (s : State) (p : Page) (i b : Nat) :
    (raiseIf c s p i b).xp = s.xp := by simp [raiseIf]

@[simp] theorem countClass_xp (s : State) (p : Page) (i : Nat) (c : EClass) :
    (countClass s p i c).xp = s.xp := by
  unfold countClass
  repeat' split
  all_goals simp -implicitDefEqProofs

@[simp] theorem logErr_xp (s : State) (p : Page) (i code : Nat) (c : EClass) (unit addr : Nat) (detail : List Nat) :
    (logErr s p i code c unit addr detail).xp = s.xp := by simp [logErr]

@[simp] theorem stepFault_xp (s : State) (r : Reason) :
    (stepFault s r).xp = s.xp := by simp [stepFault]

@[simp] theorem sendPrio_xp (s : State) (k : Nat) (c : PClass) (p : Packet) :
    (sendPrio s k c p).xp = s.xp := by simp [sendPrio]

@[simp] theorem sendCopies_xp (s : State) (b : Burst) :
    (sendCopies s b).xp = s.xp := by simp [sendCopies]

@[simp] theorem stopApply_xp (s : State) :
    (stopApply s).xp = s.xp := by simp [stopApply]

@[simp] theorem ledgerAdd_xp (s : State) (unit kind cls weight : Nat) (detail : List Nat) :
    (ledgerAdd s unit kind cls weight detail).xp = s.xp := by simp [ledgerAdd]

@[simp] theorem refuseEffects_xp (s : State) (r : Req) (write : Bool) (ctx a n : Nat) :
    (refuseEffects s r write ctx a n).xp = s.xp := by
  unfold refuseEffects
  repeat' split
  all_goals simp -implicitDefEqProofs

@[simp] theorem countBytes_xp (s : State) (write : Bool) (a n : Nat) :
    (countBytes s write a n).xp = s.xp := by
  unfold countBytes
  split <;> simp

@[simp] theorem readAny_xp (s : State) (a n : Nat) :
    (readAny s a n).2.xp = s.xp := by
  unfold readAny
  split <;> simp

@[simp] theorem writeAny_xp (s : State) (a : Nat) (bs : List Byte) :
    (writeAny s a bs).xp = s.xp := by
  unfold writeAny
  split <;> simp

@[simp] theorem sendCtrl_xp (s : State) (node kind flowField flowId last : Nat) :
    (sendCtrl s node kind flowField flowId last).1.xp = s.xp := by
  unfold sendCtrl
  split <;> simp

@[simp] theorem sendAckTo_xp (s : State) (node flowField last : Nat) (payload : List Byte) :
    (sendAckTo s node flowField last payload).xp = s.xp := by
  unfold sendAckTo
  split <;> simp

@[simp] theorem sendFlowNak_xp (s : State) (f seq reason : Nat) :
    (sendFlowNak s f seq reason).xp = s.xp := by simp [sendFlowNak]

@[simp] theorem fillErr_xp (s : State) (c source code : Nat) (at' : Pc) (e : SyncErr) :
    (fillErr s c source code at' e).xp = s.xp := by simp [fillErr]

@[simp] theorem prune_xp (s : State) :
    (prune s).xp = s.xp := by simp [prune]

@[simp] theorem linkLeave_xp (s : State) (k : Nat) (st : LinkState) :
    (linkLeave s k st).xp = s.xp := by simp [linkLeave]

@[simp] theorem startTraining_xp (s : State) (k : Nat) (fast restoring : Bool) :
    (startTraining s k fast restoring).xp = s.xp := by simp [startTraining]

@[simp] theorem stopLinks_xp (s : State) (d : Nat) :
    (stopLinks s d).xp = s.xp := by simp -implicitDefEqProofs [stopLinks]

@[simp] theorem trainLinks_xp (s : State) (d : Nat) :
    (trainLinks s d).xp = s.xp := by simp [trainLinks]

@[simp] theorem sourceRead_xp (s : State) (p : OutPkt) :
    (sourceRead s p).xp = s.xp := by
  unfold sourceRead
  split <;> simp

@[simp] theorem resetSlots_xp (s : State) (slots : List Nat) :
    (resetSlots s slots).xp = s.xp := by simp [resetSlots]

@[simp] theorem lockDie_xp (s : State) (d : Nat) :
    (lockDie s d).xp = s.xp := by simp [lockDie]

/-! ## Frames: what leaves `now` as it is -/

@[simp] theorem now_ite (c : Prop) [Decidable c] (a b : State) : (if c then a else b).now = if c then a.now else b.now := by
  split <;> rfl

@[simp] theorem foldl_now {α : Type} (g : State → α → State) (h : ∀ s x, (g s x).now = s.now) (l : List α) :
    ∀ s : State, (l.foldl g s).now = s.now := by
  induction l with
  | nil => intro s; rfl
  | cons x t ih => intro s; simp only [List.foldl_cons]; rw [ih, h]

@[simp] theorem msixSend_now (s : State) (v : Nat) :
    (msixSend s v).now = s.now := by simp [msixSend]

@[simp] theorem msixRequest_now (s : State) (v : Nat) :
    (msixRequest s v).now = s.now := by simp [msixRequest]

@[simp] theorem notice_now (s : State) (slot b : Nat) :
    (notice s slot b).now = s.now := by simp [notice]

@[simp] theorem raiseSlot_now (s : State) (slot b : Nat) :
    (raiseSlot s slot b).now = s.now := by simp [raiseSlot]

@[simp] theorem raise_now (s : State) (p : Page) (i b : Nat) :
    (raise s p i b).now = s.now := by simp [raise]

@[simp] theorem raiseIf_now (c : Bool) (s : State) (p : Page) (i b : Nat) :
    (raiseIf c s p i b).now = s.now := by simp [raiseIf]

@[simp] theorem countClass_now (s : State) (p : Page) (i : Nat) (c : EClass) :
    (countClass s p i c).now = s.now := by
  unfold countClass
  repeat' split
  all_goals simp -implicitDefEqProofs

@[simp] theorem logErr_now (s : State) (p : Page) (i code : Nat) (c : EClass) (unit addr : Nat) (detail : List Nat) :
    (logErr s p i code c unit addr detail).now = s.now := by simp [logErr]

@[simp] theorem stepFault_now (s : State) (r : Reason) :
    (stepFault s r).now = s.now := by simp [stepFault]

@[simp] theorem sendPrio_now (s : State) (k : Nat) (c : PClass) (p : Packet) :
    (sendPrio s k c p).now = s.now := by simp [sendPrio]

@[simp] theorem sendCopies_now (s : State) (b : Burst) :
    (sendCopies s b).now = s.now := by simp [sendCopies]

@[simp] theorem startBurst_now (s : State) (c : PClass) (payload : List Byte) :
    (startBurst s c payload).now = s.now := by simp [startBurst]

@[simp] theorem stopApply_now (s : State) :
    (stopApply s).now = s.now := by simp [stopApply]

@[simp] theorem sendStopBurst_now (s : State) (r : Reason) :
    (sendStopBurst s r).now = s.now := by simp [sendStopBurst]

@[simp] theorem ledgerAdd_now (s : State) (unit kind cls weight : Nat) (detail : List Nat) :
    (ledgerAdd s unit kind cls weight detail).now = s.now := by simp [ledgerAdd]

@[simp] theorem countBytes_now (s : State) (write : Bool) (a n : Nat) :
    (countBytes s write a n).now = s.now := by
  unfold countBytes
  split <;> simp

@[simp] theorem readAny_now (s : State) (a n : Nat) :
    (readAny s a n).2.now = s.now := by
  unfold readAny
  split <;> simp

@[simp] theorem sendCtrl_now (s : State) (node kind flowField flowId last : Nat) :
    (sendCtrl s node kind flowField flowId last).1.now = s.now := by
  unfold sendCtrl
  split <;> simp

@[simp] theorem openFlow_now (s : State) (f node : Nat) (w : List OutPkt) :
    (openFlow s f node w).now = s.now := by simp [openFlow]

@[simp] theorem closeFlow_now (s : State) (f : Nat) :
    (closeFlow s f).now = s.now := by simp [closeFlow]

@[simp] theorem queuePkt_now (s : State) (node : Nat) (p : OutPkt) :
    (queuePkt s node p).now = s.now := by
  unfold queuePkt
  repeat' split
  all_goals simp -implicitDefEqProofs

@[simp] theorem abandonPackets_now (s : State) (mine : Owner → Bool) :
    (abandonPackets s mine).now = s.now := by simp [abandonPackets]

@[simp] theorem dropFlight_now (s : State) (id : Nat) :
    (State.dropFlight s id).now = s.now := by simp [State.dropFlight]

@[simp] theorem fillErr_now (s : State) (c source code : Nat) (at' : Pc) (e : SyncErr) :
    (fillErr s c source code at' e).now = s.now := by simp [fillErr]

@[simp] theorem clearErr_now (s : State) (c : Nat) :
    (clearErr s c).now = s.now := by simp [clearErr]

@[simp] theorem cmdErrorAt_now (s : State) (c source code : Nat) (r : Rec) (e : SyncErr) :
    (cmdErrorAt s c source code r e).now = s.now := by
  unfold cmdErrorAt
  dsimp only
  repeat' split
  all_goals simp -implicitDefEqProofs

@[simp] theorem failFlight_now (s : State) (id : Nat) (f : Flight) (source code : Nat) :
    (failFlight s id f source code).now = s.now := by simp [failFlight]

@[simp] theorem brokenWake_now (s : State) (c : Nat) (w : WaitState) (value : Nat) :
    (brokenWake s c w value).now = s.now := by simp [brokenWake]

@[simp] theorem breakCounter_now (s : State) (k : Nat) :
    (breakCounter s k).now = s.now := by
  unfold breakCounter
  split
  · rfl
  · split
    · rfl
    · dsimp only
      rw [foldl_now _ (fun s x => by simp -implicitDefEqProofs)]
      dsimp only
      rw [foldl_now _ (fun s x => by split <;> simp -implicitDefEqProofs)]
      simp -implicitDefEqProofs

@[simp] theorem breakOwned_now (s : State) (c : Nat) :
    (breakOwned s c).now = s.now := by simp [breakOwned]

@[simp] theorem cancelSub_now (s : State) (c : Nat) :
    (cancelSub s c).now = s.now := by
  unfold cancelSub
  repeat' split
  all_goals simp -implicitDefEqProofs

@[simp] theorem prune_now (s : State) :
    (prune s).now = s.now := by simp [prune]

@[simp] theorem abandonFlights_now (s : State) (ids : List Nat) :
    (abandonFlights s ids).now = s.now := by simp [abandonFlights]

@[simp] theorem promote_now (s : State) (die : Nat) :
    (promote s die).now = s.now := by simp [promote]

@[simp] theorem abandonCapture_now (s : State) (die u : Nat) :
    (abandonCapture s die u).now = s.now := by
  unfold abandonCapture
  split <;> simp

@[simp] theorem abandonAnvils_now (s : State) (ids : List Nat) (log : Bool) :
    (abandonAnvils s ids log).now = s.now := by simp [abandonAnvils]

@[simp] theorem swgCapacity_now (old s : State) (die : Nat) :
    (swgCapacity old s die).now = s.now := by simp [swgCapacity]

@[simp] theorem drainSwage_now (s : State) (die u : Nat) :
    (drainSwage s die u).now = s.now := by simp [drainSwage]

@[simp] theorem abandonSwages_now (s : State) (ids : List Nat) (log : Bool) :
    (abandonSwages s ids log).now = s.now := by
  unfold abandonSwages
  dsimp only
  repeat' split
  all_goals simp -implicitDefEqProofs

@[simp] theorem linkLeave_now (s : State) (k : Nat) (st : LinkState) :
    (linkLeave s k st).now = s.now := by simp [linkLeave]

@[simp] theorem startTraining_now (s : State) (k : Nat) (fast restoring : Bool) :
    (startTraining s k fast restoring).now = s.now := by simp [startTraining]

@[simp] theorem stopLinks_now (s : State) (d : Nat) :
    (stopLinks s d).now = s.now := by simp -implicitDefEqProofs [stopLinks]

@[simp] theorem trainLinks_now (s : State) (d : Nat) :
    (trainLinks s d).now = s.now := by simp [trainLinks]

@[simp] theorem dropColl_now (s : State) (id : Nat) :
    (dropColl s id).now = s.now := by simp [dropColl]

@[simp] theorem endFlight_now (s : State) (id source code : Nat) :
    (endFlight s id source code).now = s.now := by
  unfold endFlight
  split <;> simp

@[simp] theorem failColl_now (s : State) (id code addr peer : Nat) :
    (failColl s id code addr peer).now = s.now := by
  unfold failColl
  split <;> simp

@[simp] theorem sourceRead_now (s : State) (p : OutPkt) :
    (sourceRead s p).now = s.now := by
  unfold sourceRead
  split <;> simp

@[simp] theorem abandonWork_now (s : State) (ids : List Nat) (log : Bool) :
    (abandonWork s ids log).now = s.now := by simp [abandonWork]

@[simp] theorem abandonSlots_now (s : State) (c : Nat) :
    (abandonSlots s c).now = s.now := by simp [abandonSlots]

@[simp] theorem abandonHoldWrite_now (s : State) :
    (abandonHoldWrite s).now = s.now := by simp [abandonHoldWrite]

@[simp] theorem resetCtx_now (s : State) (c : Nat) (destroy : Bool) :
    (resetCtx s c destroy).now = s.now := by
  unfold resetCtx
  dsimp only
  split <;> simp -implicitDefEqProofs

@[simp] theorem ledgerWrite_now (s : State) (ok : Bool) :
    (ledgerWrite s ok).now = s.now := by
  unfold ledgerWrite
  split <;> simp

@[simp] theorem savePoh_now (s : State) :
    (savePoh s).now = s.now := by simp [savePoh]

@[simp] theorem scoreEntries_now (s : State) :
    (scoreEntries s).now = s.now := by simp [scoreEntries]

@[simp] theorem sendTree_now (s : State) (node : Nat) (p : OutPkt) :
    (sendTree s node p).now = s.now := by simp [sendTree]

@[simp] theorem sendResult_now (s : State) (tree : Nat) (bs : List Byte) :
    (sendResult s tree bs).now = s.now := by simp [sendResult]

@[simp] theorem refreshCap_now (s : State) (n : Nat) :
    (refreshCap s n).now = s.now := by simp [refreshCap]

@[simp] theorem hintDie_now (s : State) (n target lead : Nat) :
    (hintDie s n target lead).now = s.now := by simp [hintDie]

@[simp] theorem placeFrec_now (s : State) (off : Nat) (bs : List Byte) :
    (placeFrec s off bs).now = s.now := by simp [placeFrec]

@[simp] theorem frecSection_now (s : State) (off : Nat) (bs : List Byte) :
    (frecSection s off bs).1.now = s.now := by simp [frecSection]

@[simp] theorem frecOpen_now (s : State) (off len : Nat) :
    (frecOpen s off len).1.now = s.now := by simp [frecOpen]

@[simp] theorem ctxSection_now (s : State) :
    (ctxSection s).1.now = s.now := by simp [ctxSection]

@[simp] theorem frecSections_now (s : State) :
    (frecSections s).1.now = s.now :=
  foldl_now _ (fun _ _ => by simp) _ _

@[simp] theorem writeRecord_now (s : State) :
    (writeRecord s).now = s.now := by
  unfold writeRecord
  dsimp only
  simp -implicitDefEqProofs

@[simp] theorem faultRecord_now (s : State) (dom target : Nat) :
    (faultRecord s dom target).now = s.now := by simp [faultRecord]

@[simp] theorem resetSlots_now (s : State) (slots : List Nat) :
    (resetSlots s slots).now = s.now := by simp [resetSlots]

@[simp] theorem loseColls_now (s : State) :
    (loseColls s).now = s.now := by simp [loseColls]

@[simp] theorem loseFlights_now (s : State) :
    (loseFlights s).now = s.now := by simp [loseFlights]

@[simp] theorem holdStack_now (s : State) (n : Nat) :
    (holdStack s n).now = s.now := by simp [holdStack]

@[simp] theorem restoreLoupe_now (s : State) (n : Nat) :
    (restoreLoupe s n).now = s.now := by simp [restoreLoupe]

@[simp] theorem lockDie_now (s : State) (d : Nat) :
    (lockDie s d).now = s.now := by simp [lockDie]

@[simp] theorem clearDie_now (s : State) (n : Nat) :
    (clearDie s n).now = s.now := by simp [clearDie]

@[simp] theorem dieReset_now (s : State) (n : Nat) :
    (dieReset s n).now = s.now := by simp [dieReset]

@[simp] theorem clearPort_now (s : State) (d : Nat) :
    (clearPort s d).now = s.now := by simp [clearPort]

@[simp] theorem portReset_now (s : State) (d : Nat) :
    (portReset s d).now = s.now := by simp [portReset]

@[simp] theorem noteReset_now (s : State) (dom target cause : Nat) :
    (noteReset s dom target cause).now = s.now := by simp [noteReset]

@[simp] theorem flushStops_now (s : State) :
    (flushStops s).now = s.now := by simp -implicitDefEqProofs [flushStops]

@[simp] theorem beforeReset_now (s : State) (dom target : Nat) :
    (beforeReset s dom target).now = s.now := by simp [beforeReset]

@[simp] theorem flushLedger_now (s : State) :
    (flushLedger s).now = s.now := by simp [flushLedger]

/-! ## Frames: what leaves `links` as it is -/

@[simp] theorem links_ite (c : Prop) [Decidable c] (a b : State) : (if c then a else b).links = if c then a.links else b.links := by
  split <;> rfl

@[simp] theorem msixSend_links (s : State) (v : Nat) :
    (msixSend s v).links = s.links := by simp [msixSend]

@[simp] theorem msixRequest_links (s : State) (v : Nat) :
    (msixRequest s v).links = s.links := by simp [msixRequest]

@[simp] theorem notice_links (s : State) (slot b : Nat) :
    (notice s slot b).links = s.links := by simp [notice]

@[simp] theorem raiseSlot_links (s : State) (slot b : Nat) :
    (raiseSlot s slot b).links = s.links := by simp [raiseSlot]

@[simp] theorem raise_links (s : State) (p : Page) (i b : Nat) :
    (raise s p i b).links = s.links := by simp [raise]

@[simp] theorem raiseIf_links (c : Bool) (s : State) (p : Page) (i b : Nat) :
    (raiseIf c s p i b).links = s.links := by simp [raiseIf]

@[simp] theorem countClass_links (s : State) (p : Page) (i : Nat) (c : EClass) :
    (countClass s p i c).links = s.links := by
  unfold countClass
  repeat' split
  all_goals simp -implicitDefEqProofs

@[simp] theorem logErr_links (s : State) (p : Page) (i code : Nat) (c : EClass) (unit addr : Nat) (detail : List Nat) :
    (logErr s p i code c unit addr detail).links = s.links := by simp [logErr]

@[simp] theorem setCutPending_links (s : State) (step cause : Nat) :
    (setCutPending s step cause).links = s.links := by simp [setCutPending]

@[simp] theorem takeCut_links (s : State) (step cause : Nat) :
    (takeCut s step cause).links = s.links := by
  unfold takeCut
  repeat' split
  all_goals simp -implicitDefEqProofs

@[simp] theorem ledgerAdd_links (s : State) (unit kind cls weight : Nat) (detail : List Nat) :
    (ledgerAdd s unit kind cls weight detail).links = s.links := by simp [ledgerAdd]

@[simp] theorem ledgerEvent_links (s : State) (unit kind cls weight : Nat) (odd : Bool) (detail : List Nat) :
    (ledgerEvent s unit kind cls weight odd detail).links = s.links := by simp [ledgerEvent]

@[simp] theorem countBytes_links (s : State) (write : Bool) (a n : Nat) :
    (countBytes s write a n).links = s.links := by
  unfold countBytes
  split <;> simp

@[simp] theorem readAny_links (s : State) (a n : Nat) :
    (readAny s a n).2.links = s.links := by
  unfold readAny
  split <;> simp

@[simp] theorem writeAny_links (s : State) (a : Nat) (bs : List Byte) :
    (writeAny s a bs).links = s.links := by
  unfold writeAny
  split <;> simp

@[simp] theorem sourceRead_links (s : State) (p : OutPkt) :
    (sourceRead s p).links = s.links := by
  unfold sourceRead
  split <;> simp

/-! ## Frames: what leaves `eng` as it is -/

@[simp] theorem eng_ite (c : Prop) [Decidable c] (a b : State) : (if c then a else b).eng = if c then a.eng else b.eng := by
  split <;> rfl

@[simp] theorem foldl_eng {α : Type} (g : State → α → State) (h : ∀ s x, (g s x).eng = s.eng) (l : List α) :
    ∀ s : State, (l.foldl g s).eng = s.eng := by
  induction l with
  | nil => intro s; rfl
  | cons x t ih => intro s; simp only [List.foldl_cons]; rw [ih, h]

@[simp] theorem msixSend_eng (s : State) (v : Nat) :
    (msixSend s v).eng = s.eng := by simp [msixSend]

@[simp] theorem msixRequest_eng (s : State) (v : Nat) :
    (msixRequest s v).eng = s.eng := by simp [msixRequest]

@[simp] theorem notice_eng (s : State) (slot b : Nat) :
    (notice s slot b).eng = s.eng := by simp [notice]

@[simp] theorem raiseSlot_eng (s : State) (slot b : Nat) :
    (raiseSlot s slot b).eng = s.eng := by simp [raiseSlot]

@[simp] theorem raise_eng (s : State) (p : Page) (i b : Nat) :
    (raise s p i b).eng = s.eng := by simp [raise]

@[simp] theorem raiseIf_eng (c : Bool) (s : State) (p : Page) (i b : Nat) :
    (raiseIf c s p i b).eng = s.eng := by simp [raiseIf]

@[simp] theorem countClass_eng (s : State) (p : Page) (i : Nat) (c : EClass) :
    (countClass s p i c).eng = s.eng := by
  unfold countClass
  repeat' split
  all_goals simp -implicitDefEqProofs

@[simp] theorem logErr_eng (s : State) (p : Page) (i code : Nat) (c : EClass) (unit addr : Nat) (detail : List Nat) :
    (logErr s p i code c unit addr detail).eng = s.eng := by simp [logErr]

@[simp] theorem stepFault_eng (s : State) (r : Reason) :
    (stepFault s r).eng = s.eng := by simp [stepFault]

@[simp] theorem sendPrio_eng (s : State) (k : Nat) (c : PClass) (p : Packet) :
    (sendPrio s k c p).eng = s.eng := by simp [sendPrio]

@[simp] theorem sendCopies_eng (s : State) (b : Burst) :
    (sendCopies s b).eng = s.eng := by simp [sendCopies]

@[simp] theorem startBurst_eng (s : State) (c : PClass) (payload : List Byte) :
    (startBurst s c payload).eng = s.eng := by simp [startBurst]

@[simp] theorem cutBurst_eng (s : State) (step cause : Nat) :
    (cutBurst s step cause).eng = s.eng := by simp [cutBurst]

@[simp] theorem setCutPending_eng (s : State) (step cause : Nat) :
    (setCutPending s step cause).eng = s.eng := by simp [setCutPending]

@[simp] theorem takeCut_eng (s : State) (step cause : Nat) :
    (takeCut s step cause).eng = s.eng := by
  unfold takeCut
  repeat' split
  all_goals simp -implicitDefEqProofs

@[simp] theorem requestCut_eng (s : State) (cause : Nat) :
    (requestCut s cause).eng = s.eng := by
  unfold requestCut
  split <;> simp

@[simp] theorem ledgerAdd_eng (s : State) (unit kind cls weight : Nat) (detail : List Nat) :
    (ledgerAdd s unit kind cls weight detail).eng = s.eng := by simp [ledgerAdd]

@[simp] theorem ledgerEvent_eng (s : State) (unit kind cls weight : Nat) (odd : Bool) (detail : List Nat) :
    (ledgerEvent s unit kind cls weight odd detail).eng = s.eng := by simp [ledgerEvent]

@[simp] theorem warnCut_eng (s : State) (unit : Nat) :
    (warnCut s unit).eng = s.eng := by simp [warnCut]

@[simp] theorem levelRise_eng (s : State) (unit old lv : Nat) :
    (levelRise s unit old lv).eng = s.eng := by simp [levelRise]

@[simp] theorem updateLevel_eng (s : State) (unit : Nat) :
    (updateLevel s unit).eng = s.eng := by simp [updateLevel]

@[simp] theorem healthInput_eng (s : State) (n unit : Nat) :
    (healthInput s n unit).eng = s.eng := by simp [healthInput]

@[simp] theorem parityEvent_eng (s : State) (unit page code : Nat) :
    (parityEvent s unit page code).eng = s.eng := by simp [parityEvent]

@[simp] theorem orAflags_eng (s : State) (c v : Nat) :
    (orAflags s c v).eng = s.eng := by simp [orAflags]

@[simp] theorem sendCtrl_eng (s : State) (node kind flowField flowId last : Nat) :
    (sendCtrl s node kind flowField flowId last).1.eng = s.eng := by
  unfold sendCtrl
  split <;> simp

@[simp] theorem openFlow_eng (s : State) (f node : Nat) (w : List OutPkt) :
    (openFlow s f node w).eng = s.eng := by simp [openFlow]

@[simp] theorem closeFlow_eng (s : State) (f : Nat) :
    (closeFlow s f).eng = s.eng := by simp [closeFlow]

@[simp] theorem queuePkt_eng (s : State) (node : Nat) (p : OutPkt) :
    (queuePkt s node p).eng = s.eng := by
  unfold queuePkt
  repeat' split
  all_goals simp -implicitDefEqProofs

@[simp] theorem dropFlight_eng (s : State) (id : Nat) :
    (State.dropFlight s id).eng = s.eng := by simp [State.dropFlight]

@[simp] theorem saveCtx_eng (s : State) (c : Nat) :
    (saveCtx s c).eng = s.eng := by simp [saveCtx]

@[simp] theorem settle_eng (s : State) (c : Nat) :
    (settle s c).eng = s.eng := by
  unfold settle
  dsimp only
  split <;> simp -implicitDefEqProofs

@[simp] theorem wakeLocal_eng (s : State) (k value : Nat) :
    (wakeLocal s k value).eng = s.eng := by
  unfold wakeLocal
  refine foldl_eng _ (fun s c => ?_) _ _
  dsimp only
  repeat' split
  all_goals simp -implicitDefEqProofs

@[simp] theorem notifySubs_eng (s : State) (k value : Nat) (stepFlag : Bool) :
    (notifySubs s k value stepFlag).eng = s.eng := by simp [notifySubs]

@[simp] theorem counterSet_eng (s : State) (k : Nat) (x : Counter) (v : Nat) :
    (counterSet s k x v).eng = s.eng := by simp [counterSet]

@[simp] theorem counterOp_eng (s : State) (k op v : Nat) :
    (counterOp s k op v).eng = s.eng := by
  unfold counterOp
  split <;> simp

@[simp] theorem completeRec_eng (s : State) (c : Nat) (r : Rec) :
    (completeRec s c r).eng = s.eng := by
  unfold completeRec
  dsimp only
  repeat' split
  all_goals simp -implicitDefEqProofs

@[simp] theorem releaseCur_eng (s : State) (c : Nat) :
    (releaseCur s c).eng = s.eng := by simp [releaseCur]

@[simp] theorem completeFlight_eng (s : State) (id : Nat) (f : Flight) :
    (completeFlight s id f).eng = s.eng := by simp [completeFlight]

@[simp] theorem capacityCheck_eng (old s : State) (die : Nat) :
    (capacityCheck old s die).eng = s.eng := by simp [capacityCheck]

@[simp] theorem anvParity_eng (s : State) (die m : Nat) (par : AnvParity) (r : TileRun) (x : Mma) :
    (anvParity s die m par r x).eng = s.eng := by simp [anvParity]

@[simp] theorem satTile_eng (s : State) (i u : Nat) (x : Mma) (r : TileRun) :
    (satTile s i u x r).eng = s.eng := by simp [satTile]

@[simp] theorem tileCounters_eng (s : State) (i cycles level : Nat) (nan : Bool) :
    (tileCounters s i cycles level nan).eng = s.eng := by simp [tileCounters]

@[simp] theorem swgParity_eng (s : State) (die u : Nat) (par : SwgParity) (ctx b : Nat) :
    (swgParity s die u par ctx b).eng = s.eng := by simp [swgParity]

@[simp] theorem swgCapacity_eng (old s : State) (die : Nat) :
    (swgCapacity old s die).eng = s.eng := by simp [swgCapacity]

@[simp] theorem suspectAnvil_eng (s : State) (die m : Nat) :
    (suspectAnvil s die m).eng = s.eng := by simp [suspectAnvil]

@[simp] theorem settleUnits_eng (s : State) (die : Nat) (c : Capture) (out : Nat) :
    (settleUnits s die c out).eng = s.eng := by
  unfold settleUnits
  repeat' split
  all_goals simp -implicitDefEqProofs

@[simp] theorem settleRegs_eng (s : State) (die : Nat) (c : Capture) (out : Nat) (cls : EClass) :
    (settleRegs s die c out cls).eng = s.eng := by simp [settleRegs]

@[simp] theorem refreshCap_eng (s : State) (n : Nat) :
    (refreshCap s n).eng = s.eng := by simp [refreshCap]

@[simp] theorem loseFlights_eng (s : State) :
    (loseFlights s).eng = s.eng := by simp [loseFlights]

@[simp] theorem holdStack_eng (s : State) (n : Nat) :
    (holdStack s n).eng = s.eng := by simp [holdStack]

@[simp] theorem restoreLoupe_eng (s : State) (n : Nat) :
    (restoreLoupe s n).eng = s.eng := by simp [restoreLoupe]

@[simp] theorem lockDie_eng (s : State) (d : Nat) :
    (lockDie s d).eng = s.eng := by simp [lockDie]

@[simp] theorem noteReset_eng (s : State) (dom target cause : Nat) :
    (noteReset s dom target cause).eng = s.eng := by simp [noteReset]

@[simp] theorem smcRestart_eng (s : State) :
    (smcRestart s).eng = s.eng := by simp [smcRestart]

/-! ## Frames: what leaves `bist` as it is -/

@[simp] theorem bist_ite (c : Prop) [Decidable c] (a b : State) : (if c then a else b).bist = if c then a.bist else b.bist := by
  split <;> rfl

@[simp] theorem foldl_bist {α : Type} (g : State → α → State) (h : ∀ s x, (g s x).bist = s.bist) (l : List α) :
    ∀ s : State, (l.foldl g s).bist = s.bist := by
  induction l with
  | nil => intro s; rfl
  | cons x t ih => intro s; simp only [List.foldl_cons]; rw [ih, h]

@[simp] theorem msixSend_bist (s : State) (v : Nat) :
    (msixSend s v).bist = s.bist := by simp [msixSend]

@[simp] theorem msixRequest_bist (s : State) (v : Nat) :
    (msixRequest s v).bist = s.bist := by simp [msixRequest]

@[simp] theorem notice_bist (s : State) (slot b : Nat) :
    (notice s slot b).bist = s.bist := by simp [notice]

@[simp] theorem raiseSlot_bist (s : State) (slot b : Nat) :
    (raiseSlot s slot b).bist = s.bist := by simp [raiseSlot]

@[simp] theorem raise_bist (s : State) (p : Page) (i b : Nat) :
    (raise s p i b).bist = s.bist := by simp [raise]

@[simp] theorem countClass_bist (s : State) (p : Page) (i : Nat) (c : EClass) :
    (countClass s p i c).bist = s.bist := by
  unfold countClass
  repeat' split
  all_goals simp -implicitDefEqProofs

@[simp] theorem logErr_bist (s : State) (p : Page) (i code : Nat) (c : EClass) (unit addr : Nat) (detail : List Nat) :
    (logErr s p i code c unit addr detail).bist = s.bist := by simp [logErr]

@[simp] theorem sendPrio_bist (s : State) (k : Nat) (c : PClass) (p : Packet) :
    (sendPrio s k c p).bist = s.bist := by simp [sendPrio]

@[simp] theorem sendCopies_bist (s : State) (b : Burst) :
    (sendCopies s b).bist = s.bist := by simp [sendCopies]

@[simp] theorem startBurst_bist (s : State) (c : PClass) (payload : List Byte) :
    (startBurst s c payload).bist = s.bist := by simp [startBurst]

@[simp] theorem cutBurst_bist (s : State) (step cause : Nat) :
    (cutBurst s step cause).bist = s.bist := by simp [cutBurst]

@[simp] theorem setCutPending_bist (s : State) (step cause : Nat) :
    (setCutPending s step cause).bist = s.bist := by simp [setCutPending]

@[simp] theorem takeCut_bist (s : State) (step cause : Nat) :
    (takeCut s step cause).bist = s.bist := by
  unfold takeCut
  repeat' split
  all_goals simp -implicitDefEqProofs

@[simp] theorem requestCut_bist (s : State) (cause : Nat) :
    (requestCut s cause).bist = s.bist := by
  unfold requestCut
  split <;> simp

@[simp] theorem ledgerAdd_bist (s : State) (unit kind cls weight : Nat) (detail : List Nat) :
    (ledgerAdd s unit kind cls weight detail).bist = s.bist := by simp [ledgerAdd]

@[simp] theorem warnCut_bist (s : State) (unit : Nat) :
    (warnCut s unit).bist = s.bist := by simp [warnCut]

@[simp] theorem levelRise_bist (s : State) (unit old lv : Nat) :
    (levelRise s unit old lv).bist = s.bist := by simp [levelRise]

@[simp] theorem updateLevel_bist (s : State) (unit : Nat) :
    (updateLevel s unit).bist = s.bist := by simp [updateLevel]

@[simp] theorem healthInput_bist (s : State) (n unit : Nat) :
    (healthInput s n unit).bist = s.bist := by simp [healthInput]

@[simp] theorem capacityCheck_bist (old s : State) (die : Nat) :
    (capacityCheck old s die).bist = s.bist := by simp [capacityCheck]

@[simp] theorem abandonCapture_bist (s : State) (die u : Nat) :
    (abandonCapture s die u).bist = s.bist := by
  unfold abandonCapture
  split <;> simp

@[simp] theorem swgCapacity_bist (old s : State) (die : Nat) :
    (swgCapacity old s die).bist = s.bist := by simp [swgCapacity]

@[simp] theorem suspectAnvil_bist (s : State) (die m : Nat) :
    (suspectAnvil s die m).bist = s.bist := by simp [suspectAnvil]

@[simp] theorem suspectSwage_bist (s : State) (die u : Nat) :
    (suspectSwage s die u).bist = s.bist := by simp [suspectSwage]

/-! ## Frames: what leaves `ckp` as it is -/

@[simp] theorem ckp_ite (c : Prop) [Decidable c] (a b : State) : (if c then a else b).ckp = if c then a.ckp else b.ckp := by
  split <;> rfl

@[simp] theorem foldl_ckp {α : Type} (g : State → α → State) (h : ∀ s x, (g s x).ckp = s.ckp) (l : List α) :
    ∀ s : State, (l.foldl g s).ckp = s.ckp := by
  induction l with
  | nil => intro s; rfl
  | cons x t ih => intro s; simp only [List.foldl_cons]; rw [ih, h]

@[simp] theorem msixSend_ckp (s : State) (v : Nat) :
    (msixSend s v).ckp = s.ckp := by simp [msixSend]

@[simp] theorem msixRequest_ckp (s : State) (v : Nat) :
    (msixRequest s v).ckp = s.ckp := by simp [msixRequest]

@[simp] theorem notice_ckp (s : State) (slot b : Nat) :
    (notice s slot b).ckp = s.ckp := by simp [notice]

@[simp] theorem raiseSlot_ckp (s : State) (slot b : Nat) :
    (raiseSlot s slot b).ckp = s.ckp := by simp [raiseSlot]

@[simp] theorem raise_ckp (s : State) (p : Page) (i b : Nat) :
    (raise s p i b).ckp = s.ckp := by simp [raise]

@[simp] theorem raiseIf_ckp (c : Bool) (s : State) (p : Page) (i b : Nat) :
    (raiseIf c s p i b).ckp = s.ckp := by simp [raiseIf]

@[simp] theorem countClass_ckp (s : State) (p : Page) (i : Nat) (c : EClass) :
    (countClass s p i c).ckp = s.ckp := by
  unfold countClass
  repeat' split
  all_goals simp -implicitDefEqProofs

@[simp] theorem logErr_ckp (s : State) (p : Page) (i code : Nat) (c : EClass) (unit addr : Nat) (detail : List Nat) :
    (logErr s p i code c unit addr detail).ckp = s.ckp := by simp [logErr]

@[simp] theorem sendPrio_ckp (s : State) (k : Nat) (c : PClass) (p : Packet) :
    (sendPrio s k c p).ckp = s.ckp := by simp [sendPrio]

@[simp] theorem setCutPending_ckp (s : State) (step cause : Nat) :
    (setCutPending s step cause).ckp = s.ckp := by simp [setCutPending]

@[simp] theorem sendCtrl_ckp (s : State) (node kind flowField flowId last : Nat) :
    (sendCtrl s node kind flowField flowId last).1.ckp = s.ckp := by
  unfold sendCtrl
  split <;> simp

@[simp] theorem openFlow_ckp (s : State) (f node : Nat) (w : List OutPkt) :
    (openFlow s f node w).ckp = s.ckp := by simp [openFlow]

@[simp] theorem closeFlow_ckp (s : State) (f : Nat) :
    (closeFlow s f).ckp = s.ckp := by simp [closeFlow]

@[simp] theorem queuePkt_ckp (s : State) (node : Nat) (p : OutPkt) :
    (queuePkt s node p).ckp = s.ckp := by
  unfold queuePkt
  repeat' split
  all_goals simp -implicitDefEqProofs

@[simp] theorem dropFlight_ckp (s : State) (id : Nat) :
    (State.dropFlight s id).ckp = s.ckp := by simp [State.dropFlight]

@[simp] theorem saveCtx_ckp (s : State) (c : Nat) :
    (saveCtx s c).ckp = s.ckp := by simp [saveCtx]

@[simp] theorem settle_ckp (s : State) (c : Nat) :
    (settle s c).ckp = s.ckp := by
  unfold settle
  dsimp only
  split <;> simp -implicitDefEqProofs

@[simp] theorem wakeLocal_ckp (s : State) (k value : Nat) :
    (wakeLocal s k value).ckp = s.ckp := by
  unfold wakeLocal
  refine foldl_ckp _ (fun s c => ?_) _ _
  dsimp only
  repeat' split
  all_goals simp -implicitDefEqProofs

@[simp] theorem notifySubs_ckp (s : State) (k value : Nat) (stepFlag : Bool) :
    (notifySubs s k value stepFlag).ckp = s.ckp := by simp [notifySubs]

@[simp] theorem counterSet_ckp (s : State) (k : Nat) (x : Counter) (v : Nat) :
    (counterSet s k x v).ckp = s.ckp := by simp [counterSet]

@[simp] theorem counterOp_ckp (s : State) (k op v : Nat) :
    (counterOp s k op v).ckp = s.ckp := by
  unfold counterOp
  split <;> simp

@[simp] theorem completeRec_ckp (s : State) (c : Nat) (r : Rec) :
    (completeRec s c r).ckp = s.ckp := by
  unfold completeRec
  dsimp only
  repeat' split
  all_goals simp -implicitDefEqProofs

@[simp] theorem completeFlight_ckp (s : State) (id : Nat) (f : Flight) :
    (completeFlight s id f).ckp = s.ckp := by simp [completeFlight]

@[simp] theorem prune_ckp (s : State) :
    (prune s).ckp = s.ckp := by simp [prune]

@[simp] theorem noteDrain_ckp (s : State) :
    (noteDrain s).ckp = s.ckp := by simp [noteDrain]

@[simp] theorem countDown_ckp (s : State) (o : Owner) :
    (countDown s o).ckp = s.ckp := by
  unfold countDown
  repeat' split
  all_goals simp -implicitDefEqProofs

@[simp] theorem ackOwner_ckp (s : State) (p : OutPkt) :
    (ackOwner s p).ckp = s.ckp := by
  unfold ackOwner
  repeat' split
  all_goals simp -implicitDefEqProofs

@[simp] theorem releaseAcked_ckp (s : State) (f cum sack : Nat) :
    (releaseAcked s f cum sack).ckp = s.ckp := by simp [releaseAcked]

@[simp] theorem sendTree_ckp (s : State) (node : Nat) (p : OutPkt) :
    (sendTree s node p).ckp = s.ckp := by simp [sendTree]

@[simp] theorem sendResult_ckp (s : State) (tree : Nat) (bs : List Byte) :
    (sendResult s tree bs).ckp = s.ckp := by simp [sendResult]

@[simp] theorem clearPending_ckp (s : State) :
    (clearPending s).ckp = s.ckp := by
  unfold clearPending
  dsimp only
  split <;> simp -implicitDefEqProofs

@[simp] theorem clearOwnPending_ckp (s : State) (step : Nat) :
    (clearOwnPending s step).ckp = s.ckp := by simp [clearOwnPending]

@[simp] theorem logDrive_ckp (s : State) (slot addr status : Nat) :
    (logDrive s slot addr status).ckp = s.ckp := by simp [logDrive]

/-! ## Frames: what leaves `clock` as it is -/

@[simp] theorem clock_ite (c : Prop) [Decidable c] (a b : State) : (if c then a else b).clock = if c then a.clock else b.clock := by
  split <;> rfl

@[simp] theorem msixSend_clock (s : State) (v : Nat) :
    (msixSend s v).clock = s.clock := by simp [msixSend]

@[simp] theorem msixRequest_clock (s : State) (v : Nat) :
    (msixRequest s v).clock = s.clock := by simp [msixRequest]

@[simp] theorem notice_clock (s : State) (slot b : Nat) :
    (notice s slot b).clock = s.clock := by simp [notice]

@[simp] theorem raiseSlot_clock (s : State) (slot b : Nat) :
    (raiseSlot s slot b).clock = s.clock := by simp [raiseSlot]

@[simp] theorem raise_clock (s : State) (p : Page) (i b : Nat) :
    (raise s p i b).clock = s.clock := by simp [raise]

@[simp] theorem countClass_clock (s : State) (p : Page) (i : Nat) (c : EClass) :
    (countClass s p i c).clock = s.clock := by
  unfold countClass
  repeat' split
  all_goals simp -implicitDefEqProofs

@[simp] theorem logErr_clock (s : State) (p : Page) (i code : Nat) (c : EClass) (unit addr : Nat) (detail : List Nat) :
    (logErr s p i code c unit addr detail).clock = s.clock := by simp [logErr]

@[simp] theorem planeTimeout_clock (s : State) (k peer : Nat) :
    (planeTimeout s k peer).clock = s.clock := by simp [planeTimeout]

/-! ## Frames: what leaves `gathers` as it is -/

@[simp] theorem gathers_ite (c : Prop) [Decidable c] (a b : State) : (if c then a else b).gathers = if c then a.gathers else b.gathers := by
  split <;> rfl

@[simp] theorem foldl_gathers {α : Type} (g : State → α → State) (h : ∀ s x, (g s x).gathers = s.gathers) (l : List α) :
    ∀ s : State, (l.foldl g s).gathers = s.gathers := by
  induction l with
  | nil => intro s; rfl
  | cons x t ih => intro s; simp only [List.foldl_cons]; rw [ih, h]

@[simp] theorem msixSend_gathers (s : State) (v : Nat) :
    (msixSend s v).gathers = s.gathers := by simp [msixSend]

@[simp] theorem msixRequest_gathers (s : State) (v : Nat) :
    (msixRequest s v).gathers = s.gathers := by simp [msixRequest]

@[simp] theorem notice_gathers (s : State) (slot b : Nat) :
    (notice s slot b).gathers = s.gathers := by simp [notice]

@[simp] theorem raiseSlot_gathers (s : State) (slot b : Nat) :
    (raiseSlot s slot b).gathers = s.gathers := by simp [raiseSlot]

@[simp] theorem raise_gathers (s : State) (p : Page) (i b : Nat) :
    (raise s p i b).gathers = s.gathers := by simp [raise]

@[simp] theorem raiseIf_gathers (c : Bool) (s : State) (p : Page) (i b : Nat) :
    (raiseIf c s p i b).gathers = s.gathers := by simp [raiseIf]

@[simp] theorem sendPrio_gathers (s : State) (k : Nat) (c : PClass) (p : Packet) :
    (sendPrio s k c p).gathers = s.gathers := by simp [sendPrio]

@[simp] theorem countBytes_gathers (s : State) (write : Bool) (a n : Nat) :
    (countBytes s write a n).gathers = s.gathers := by
  unfold countBytes
  split <;> simp

@[simp] theorem sendCtrl_gathers (s : State) (node kind flowField flowId last : Nat) :
    (sendCtrl s node kind flowField flowId last).1.gathers = s.gathers := by
  unfold sendCtrl
  split <;> simp

@[simp] theorem openFlow_gathers (s : State) (f node : Nat) (w : List OutPkt) :
    (openFlow s f node w).gathers = s.gathers := by simp [openFlow]

@[simp] theorem closeFlow_gathers (s : State) (f : Nat) :
    (closeFlow s f).gathers = s.gathers := by simp [closeFlow]

@[simp] theorem queuePkt_gathers (s : State) (node : Nat) (p : OutPkt) :
    (queuePkt s node p).gathers = s.gathers := by
  unfold queuePkt
  repeat' split
  all_goals simp -implicitDefEqProofs

@[simp] theorem dropFlight_gathers (s : State) (id : Nat) :
    (State.dropFlight s id).gathers = s.gathers := by simp [State.dropFlight]

@[simp] theorem saveCtx_gathers (s : State) (c : Nat) :
    (saveCtx s c).gathers = s.gathers := by simp [saveCtx]

@[simp] theorem settle_gathers (s : State) (c : Nat) :
    (settle s c).gathers = s.gathers := by
  unfold settle
  dsimp only
  split <;> simp -implicitDefEqProofs

@[simp] theorem wakeLocal_gathers (s : State) (k value : Nat) :
    (wakeLocal s k value).gathers = s.gathers := by
  unfold wakeLocal
  refine foldl_gathers _ (fun s c => ?_) _ _
  dsimp only
  repeat' split
  all_goals simp -implicitDefEqProofs

@[simp] theorem notifySubs_gathers (s : State) (k value : Nat) (stepFlag : Bool) :
    (notifySubs s k value stepFlag).gathers = s.gathers := by simp [notifySubs]

@[simp] theorem counterSet_gathers (s : State) (k : Nat) (x : Counter) (v : Nat) :
    (counterSet s k x v).gathers = s.gathers := by simp [counterSet]

@[simp] theorem counterOp_gathers (s : State) (k op v : Nat) :
    (counterOp s k op v).gathers = s.gathers := by
  unfold counterOp
  split <;> simp

@[simp] theorem completeRec_gathers (s : State) (c : Nat) (r : Rec) :
    (completeRec s c r).gathers = s.gathers := by
  unfold completeRec
  dsimp only
  repeat' split
  all_goals simp -implicitDefEqProofs

@[simp] theorem releaseCur_gathers (s : State) (c : Nat) :
    (releaseCur s c).gathers = s.gathers := by simp [releaseCur]

@[simp] theorem completeFlight_gathers (s : State) (id : Nat) (f : Flight) :
    (completeFlight s id f).gathers = s.gathers := by simp [completeFlight]

@[simp] theorem moveGather_gathers (s : State) (src dst : Nat) (is : List Nat) :
    (moveGather s src dst is).gathers = s.gathers := by simp [moveGather]

/-! ## Frames: what leaves `hbmStacks` as it is -/

@[simp] theorem hbmStacks_ite (c : Prop) [Decidable c] (a b : State) : (if c then a else b).hbmStacks = if c then a.hbmStacks else b.hbmStacks := by
  split <;> rfl

@[simp] theorem foldl_hbmStacks {α : Type} (g : State → α → State) (h : ∀ s x, (g s x).hbmStacks = s.hbmStacks) (l : List α) :
    ∀ s : State, (l.foldl g s).hbmStacks = s.hbmStacks := by
  induction l with
  | nil => intro s; rfl
  | cons x t ih => intro s; simp only [List.foldl_cons]; rw [ih, h]

@[simp] theorem msixSend_hbmStacks (s : State) (v : Nat) :
    (msixSend s v).hbmStacks = s.hbmStacks := by simp [msixSend]

@[simp] theorem msixRequest_hbmStacks (s : State) (v : Nat) :
    (msixRequest s v).hbmStacks = s.hbmStacks := by simp [msixRequest]

@[simp] theorem notice_hbmStacks (s : State) (slot b : Nat) :
    (notice s slot b).hbmStacks = s.hbmStacks := by simp [notice]

@[simp] theorem raiseSlot_hbmStacks (s : State) (slot b : Nat) :
    (raiseSlot s slot b).hbmStacks = s.hbmStacks := by simp [raiseSlot]

@[simp] theorem raise_hbmStacks (s : State) (p : Page) (i b : Nat) :
    (raise s p i b).hbmStacks = s.hbmStacks := by simp [raise]

@[simp] theorem raiseIf_hbmStacks (c : Bool) (s : State) (p : Page) (i b : Nat) :
    (raiseIf c s p i b).hbmStacks = s.hbmStacks := by simp [raiseIf]

@[simp] theorem countClass_hbmStacks (s : State) (p : Page) (i : Nat) (c : EClass) :
    (countClass s p i c).hbmStacks = s.hbmStacks := by
  unfold countClass
  repeat' split
  all_goals simp -implicitDefEqProofs

@[simp] theorem logErr_hbmStacks (s : State) (p : Page) (i code : Nat) (c : EClass) (unit addr : Nat) (detail : List Nat) :
    (logErr s p i code c unit addr detail).hbmStacks = s.hbmStacks := by simp [logErr]

@[simp] theorem stepFault_hbmStacks (s : State) (r : Reason) :
    (stepFault s r).hbmStacks = s.hbmStacks := by simp [stepFault]

@[simp] theorem sendPrio_hbmStacks (s : State) (k : Nat) (c : PClass) (p : Packet) :
    (sendPrio s k c p).hbmStacks = s.hbmStacks := by simp [sendPrio]

@[simp] theorem sendCopies_hbmStacks (s : State) (b : Burst) :
    (sendCopies s b).hbmStacks = s.hbmStacks := by simp [sendCopies]

@[simp] theorem startBurst_hbmStacks (s : State) (c : PClass) (payload : List Byte) :
    (startBurst s c payload).hbmStacks = s.hbmStacks := by simp [startBurst]

@[simp] theorem cutBurst_hbmStacks (s : State) (step cause : Nat) :
    (cutBurst s step cause).hbmStacks = s.hbmStacks := by simp [cutBurst]

@[simp] theorem setCutPending_hbmStacks (s : State) (step cause : Nat) :
    (setCutPending s step cause).hbmStacks = s.hbmStacks := by simp [setCutPending]

@[simp] theorem takeCut_hbmStacks (s : State) (step cause : Nat) :
    (takeCut s step cause).hbmStacks = s.hbmStacks := by
  unfold takeCut
  repeat' split
  all_goals simp -implicitDefEqProofs

@[simp] theorem requestCut_hbmStacks (s : State) (cause : Nat) :
    (requestCut s cause).hbmStacks = s.hbmStacks := by
  unfold requestCut
  split <;> simp

@[simp] theorem ledgerAdd_hbmStacks (s : State) (unit kind cls weight : Nat) (detail : List Nat) :
    (ledgerAdd s unit kind cls weight detail).hbmStacks = s.hbmStacks := by simp [ledgerAdd]

@[simp] theorem ledgerEvent_hbmStacks (s : State) (unit kind cls weight : Nat) (odd : Bool) (detail : List Nat) :
    (ledgerEvent s unit kind cls weight odd detail).hbmStacks = s.hbmStacks := by simp [ledgerEvent]

@[simp] theorem warnCut_hbmStacks (s : State) (unit : Nat) :
    (warnCut s unit).hbmStacks = s.hbmStacks := by simp [warnCut]

@[simp] theorem levelRise_hbmStacks (s : State) (unit old lv : Nat) :
    (levelRise s unit old lv).hbmStacks = s.hbmStacks := by simp [levelRise]

@[simp] theorem updateLevel_hbmStacks (s : State) (unit : Nat) :
    (updateLevel s unit).hbmStacks = s.hbmStacks := by simp [updateLevel]

@[simp] theorem healthInput_hbmStacks (s : State) (n unit : Nat) :
    (healthInput s n unit).hbmStacks = s.hbmStacks := by simp [healthInput]

@[simp] theorem rebuildScores_hbmStacks (s : State) :
    (rebuildScores s).hbmStacks = s.hbmStacks := by simp [rebuildScores]

@[simp] theorem refreshDie_hbmStacks (s : State) (d : Nat) :
    (refreshDie s d).hbmStacks = s.hbmStacks := by simp [refreshDie]

@[simp] theorem bringupEnd_hbmStacks (s : State) :
    (bringupEnd s).hbmStacks = s.hbmStacks := by simp [bringupEnd]

@[simp] theorem chipTrained_hbmStacks (s : State) :
    (chipTrained s).hbmStacks = s.hbmStacks := by simp [chipTrained]

@[simp] theorem bringupDone_hbmStacks (s : State) :
    (bringupDone s).hbmStacks = s.hbmStacks := by simp [bringupDone]

@[simp] theorem refreshReady_hbmStacks (s : State) :
    (refreshReady s).hbmStacks = s.hbmStacks := by simp [refreshReady]

@[simp] theorem sendCtrl_hbmStacks (s : State) (node kind flowField flowId last : Nat) :
    (sendCtrl s node kind flowField flowId last).1.hbmStacks = s.hbmStacks := by
  unfold sendCtrl
  split <;> simp

@[simp] theorem openFlow_hbmStacks (s : State) (f node : Nat) (w : List OutPkt) :
    (openFlow s f node w).hbmStacks = s.hbmStacks := by simp [openFlow]

@[simp] theorem closeFlow_hbmStacks (s : State) (f : Nat) :
    (closeFlow s f).hbmStacks = s.hbmStacks := by simp [closeFlow]

@[simp] theorem queuePkt_hbmStacks (s : State) (node : Nat) (p : OutPkt) :
    (queuePkt s node p).hbmStacks = s.hbmStacks := by
  unfold queuePkt
  repeat' split
  all_goals simp -implicitDefEqProofs

@[simp] theorem queueAll_hbmStacks (s : State) (node : Nat) (ps : List OutPkt) :
    (queueAll s node ps).hbmStacks = s.hbmStacks := by simp [queueAll]

@[simp] theorem enterStopped_hbmStacks (s : State) (r : Reason) :
    (enterStopped s r).hbmStacks = s.hbmStacks := by simp [enterStopped]

@[simp] theorem mapoutEntry_hbmStacks (s : State) (stack ch : Nat) (on : Bool) :
    (mapoutEntry s stack ch on).hbmStacks = s.hbmStacks := by simp [mapoutEntry]

@[simp] theorem listMapout_hbmStacks (s : State) (stack m : Nat) :
    (listMapout s stack m).hbmStacks = s.hbmStacks := by simp [listMapout]

@[simp] theorem reportUe_hbmStacks (s : State) (a ctx : Nat) :
    (reportUe s a ctx).hbmStacks = s.hbmStacks := by simp [reportUe]

@[simp] theorem holdLost_hbmStacks (s : State) (a ctx : Nat) (c : EClass) :
    (holdLost s a ctx c).hbmStacks = s.hbmStacks := by simp [holdLost]

@[simp] theorem loseHold_hbmStacks (s : State) (a ctx : Nat) :
    (loseHold s a ctx).hbmStacks = s.hbmStacks := by simp [loseHold]

@[simp] theorem loseWardHold_hbmStacks (s : State) (a ctx : Nat) :
    (loseWardHold s a ctx).hbmStacks = s.hbmStacks := by simp [loseWardHold]

@[simp] theorem failHeal_hbmStacks (s : State) (row : Nat) :
    (failHeal s row).hbmStacks = s.hbmStacks := by simp [failHeal]

@[simp] theorem startHeal_hbmStacks (s : State) (row : Nat) :
    (startHeal s row).hbmStacks = s.hbmStacks := by
  unfold startHeal
  dsimp only
  repeat' split
  all_goals simp -implicitDefEqProofs

@[simp] theorem healOrHold_hbmStacks (s : State) (a : Nat) :
    (healOrHold s a).hbmStacks = s.hbmStacks := by simp [healOrHold]

@[simp] theorem ueAction_hbmStacks (s : State) (a ctx : Nat) :
    (ueAction s a ctx).hbmStacks = s.hbmStacks := by
  unfold ueAction
  split <;> simp

@[simp] theorem hbmUe_hbmStacks (s : State) (a ctx : Nat) :
    (hbmUe s a ctx).hbmStacks = s.hbmStacks := by simp [hbmUe]

@[simp] theorem hbmCe_hbmStacks (s : State) (a : Nat) :
    (hbmCe s a).hbmStacks = s.hbmStacks := by simp [hbmCe]

@[simp] theorem hbmOutcome_hbmStacks (s : State) (a ctx : Nat) (ecc : Ecc) :
    (hbmOutcome s a ctx ecc).hbmStacks = s.hbmStacks := by
  unfold hbmOutcome
  split <;> simp

/-! ## Frames: what leaves `heals` as it is -/

@[simp] theorem heals_ite (c : Prop) [Decidable c] (a b : State) : (if c then a else b).heals = if c then a.heals else b.heals := by
  split <;> rfl

@[simp] theorem foldl_heals {α : Type} (g : State → α → State) (h : ∀ s x, (g s x).heals = s.heals) (l : List α) :
    ∀ s : State, (l.foldl g s).heals = s.heals := by
  induction l with
  | nil => intro s; rfl
  | cons x t ih => intro s; simp only [List.foldl_cons]; rw [ih, h]

@[simp] theorem msixSend_heals (s : State) (v : Nat) :
    (msixSend s v).heals = s.heals := by simp [msixSend]

@[simp] theorem msixRequest_heals (s : State) (v : Nat) :
    (msixRequest s v).heals = s.heals := by simp [msixRequest]

@[simp] theorem notice_heals (s : State) (slot b : Nat) :
    (notice s slot b).heals = s.heals := by simp [notice]

@[simp] theorem raiseSlot_heals (s : State) (slot b : Nat) :
    (raiseSlot s slot b).heals = s.heals := by simp [raiseSlot]

@[simp] theorem raise_heals (s : State) (p : Page) (i b : Nat) :
    (raise s p i b).heals = s.heals := by simp [raise]

@[simp] theorem countClass_heals (s : State) (p : Page) (i : Nat) (c : EClass) :
    (countClass s p i c).heals = s.heals := by
  unfold countClass
  repeat' split
  all_goals simp -implicitDefEqProofs

@[simp] theorem logErr_heals (s : State) (p : Page) (i code : Nat) (c : EClass) (unit addr : Nat) (detail : List Nat) :
    (logErr s p i code c unit addr detail).heals = s.heals := by simp [logErr]

@[simp] theorem stepFault_heals (s : State) (r : Reason) :
    (stepFault s r).heals = s.heals := by simp [stepFault]

@[simp] theorem sendPrio_heals (s : State) (k : Nat) (c : PClass) (p : Packet) :
    (sendPrio s k c p).heals = s.heals := by simp [sendPrio]

@[simp] theorem sendCopies_heals (s : State) (b : Burst) :
    (sendCopies s b).heals = s.heals := by simp [sendCopies]

@[simp] theorem startBurst_heals (s : State) (c : PClass) (payload : List Byte) :
    (startBurst s c payload).heals = s.heals := by simp [startBurst]

@[simp] theorem cutBurst_heals (s : State) (step cause : Nat) :
    (cutBurst s step cause).heals = s.heals := by simp [cutBurst]

@[simp] theorem setCutPending_heals (s : State) (step cause : Nat) :
    (setCutPending s step cause).heals = s.heals := by simp [setCutPending]

@[simp] theorem takeCut_heals (s : State) (step cause : Nat) :
    (takeCut s step cause).heals = s.heals := by
  unfold takeCut
  repeat' split
  all_goals simp -implicitDefEqProofs

@[simp] theorem requestCut_heals (s : State) (cause : Nat) :
    (requestCut s cause).heals = s.heals := by
  unfold requestCut
  split <;> simp

@[simp] theorem ledgerAdd_heals (s : State) (unit kind cls weight : Nat) (detail : List Nat) :
    (ledgerAdd s unit kind cls weight detail).heals = s.heals := by simp [ledgerAdd]

@[simp] theorem ledgerEvent_heals (s : State) (unit kind cls weight : Nat) (odd : Bool) (detail : List Nat) :
    (ledgerEvent s unit kind cls weight odd detail).heals = s.heals := by simp [ledgerEvent]

@[simp] theorem warnCut_heals (s : State) (unit : Nat) :
    (warnCut s unit).heals = s.heals := by simp [warnCut]

@[simp] theorem levelRise_heals (s : State) (unit old lv : Nat) :
    (levelRise s unit old lv).heals = s.heals := by simp [levelRise]

@[simp] theorem updateLevel_heals (s : State) (unit : Nat) :
    (updateLevel s unit).heals = s.heals := by simp [updateLevel]

@[simp] theorem healthInput_heals (s : State) (n unit : Nat) :
    (healthInput s n unit).heals = s.heals := by simp [healthInput]

@[simp] theorem rebuildScores_heals (s : State) :
    (rebuildScores s).heals = s.heals := by simp [rebuildScores]

@[simp] theorem refreshDie_heals (s : State) (d : Nat) :
    (refreshDie s d).heals = s.heals := by simp [refreshDie]

@[simp] theorem bringupEnd_heals (s : State) :
    (bringupEnd s).heals = s.heals := by simp [bringupEnd]

@[simp] theorem chipTrained_heals (s : State) :
    (chipTrained s).heals = s.heals := by simp [chipTrained]

@[simp] theorem bringupDone_heals (s : State) :
    (bringupDone s).heals = s.heals := by simp [bringupDone]

@[simp] theorem refreshReady_heals (s : State) :
    (refreshReady s).heals = s.heals := by simp [refreshReady]

@[simp] theorem sendCtrl_heals (s : State) (node kind flowField flowId last : Nat) :
    (sendCtrl s node kind flowField flowId last).1.heals = s.heals := by
  unfold sendCtrl
  split <;> simp

@[simp] theorem openFlow_heals (s : State) (f node : Nat) (w : List OutPkt) :
    (openFlow s f node w).heals = s.heals := by simp [openFlow]

@[simp] theorem closeFlow_heals (s : State) (f : Nat) :
    (closeFlow s f).heals = s.heals := by simp [closeFlow]

@[simp] theorem queuePkt_heals (s : State) (node : Nat) (p : OutPkt) :
    (queuePkt s node p).heals = s.heals := by
  unfold queuePkt
  repeat' split
  all_goals simp -implicitDefEqProofs

@[simp] theorem queueAll_heals (s : State) (node : Nat) (ps : List OutPkt) :
    (queueAll s node ps).heals = s.heals := by simp [queueAll]

@[simp] theorem enterStopped_heals (s : State) (r : Reason) :
    (enterStopped s r).heals = s.heals := by simp [enterStopped]

@[simp] theorem reportUe_heals (s : State) (a ctx : Nat) :
    (reportUe s a ctx).heals = s.heals := by simp [reportUe]

@[simp] theorem hbmCe_heals (s : State) (a : Nat) :
    (hbmCe s a).heals = s.heals := by simp [hbmCe]

/-! ## Frames: what leaves `health` as it is -/

@[simp] theorem health_ite (c : Prop) [Decidable c] (a b : State) : (if c then a else b).health = if c then a.health else b.health := by
  split <;> rfl

@[simp] theorem foldl_health {α : Type} (g : State → α → State) (h : ∀ s x, (g s x).health = s.health) (l : List α) :
    ∀ s : State, (l.foldl g s).health = s.health := by
  induction l with
  | nil => intro s; rfl
  | cons x t ih => intro s; simp only [List.foldl_cons]; rw [ih, h]

@[simp] theorem msixSend_health (s : State) (v : Nat) :
    (msixSend s v).health = s.health := by simp [msixSend]

@[simp] theorem msixRequest_health (s : State) (v : Nat) :
    (msixRequest s v).health = s.health := by simp [msixRequest]

@[simp] theorem notice_health (s : State) (slot b : Nat) :
    (notice s slot b).health = s.health := by simp [notice]

@[simp] theorem raiseSlot_health (s : State) (slot b : Nat) :
    (raiseSlot s slot b).health = s.health := by simp [raiseSlot]

@[simp] theorem raise_health (s : State) (p : Page) (i b : Nat) :
    (raise s p i b).health = s.health := by simp [raise]

@[simp] theorem sendPrio_health (s : State) (k : Nat) (c : PClass) (p : Packet) :
    (sendPrio s k c p).health = s.health := by simp [sendPrio]

@[simp] theorem sendCopies_health (s : State) (b : Burst) :
    (sendCopies s b).health = s.health := by simp [sendCopies]

@[simp] theorem startBurst_health (s : State) (c : PClass) (payload : List Byte) :
    (startBurst s c payload).health = s.health := by simp [startBurst]

@[simp] theorem cutBurst_health (s : State) (step cause : Nat) :
    (cutBurst s step cause).health = s.health := by simp [cutBurst]

@[simp] theorem setCutPending_health (s : State) (step cause : Nat) :
    (setCutPending s step cause).health = s.health := by simp [setCutPending]

@[simp] theorem takeCut_health (s : State) (step cause : Nat) :
    (takeCut s step cause).health = s.health := by
  unfold takeCut
  repeat' split
  all_goals simp -implicitDefEqProofs

@[simp] theorem requestCut_health (s : State) (cause : Nat) :
    (requestCut s cause).health = s.health := by
  unfold requestCut
  split <;> simp

@[simp] theorem ledgerAdd_health (s : State) (unit kind cls weight : Nat) (detail : List Nat) :
    (ledgerAdd s unit kind cls weight detail).health = s.health := by simp [ledgerAdd]

/-! ## Frames: what leaves `hscrub` as it is -/

@[simp] theorem hscrub_ite (c : Prop) [Decidable c] (a b : State) : (if c then a else b).hscrub = if c then a.hscrub else b.hscrub := by
  split <;> rfl

@[simp] theorem foldl_hscrub {α : Type} (g : State → α → State) (h : ∀ s x, (g s x).hscrub = s.hscrub) (l : List α) :
    ∀ s : State, (l.foldl g s).hscrub = s.hscrub := by
  induction l with
  | nil => intro s; rfl
  | cons x t ih => intro s; simp only [List.foldl_cons]; rw [ih, h]

@[simp] theorem msixSend_hscrub (s : State) (v : Nat) :
    (msixSend s v).hscrub = s.hscrub := by simp [msixSend]

@[simp] theorem msixRequest_hscrub (s : State) (v : Nat) :
    (msixRequest s v).hscrub = s.hscrub := by simp [msixRequest]

@[simp] theorem notice_hscrub (s : State) (slot b : Nat) :
    (notice s slot b).hscrub = s.hscrub := by simp [notice]

@[simp] theorem raiseSlot_hscrub (s : State) (slot b : Nat) :
    (raiseSlot s slot b).hscrub = s.hscrub := by simp [raiseSlot]

@[simp] theorem raise_hscrub (s : State) (p : Page) (i b : Nat) :
    (raise s p i b).hscrub = s.hscrub := by simp [raise]

@[simp] theorem countClass_hscrub (s : State) (p : Page) (i : Nat) (c : EClass) :
    (countClass s p i c).hscrub = s.hscrub := by
  unfold countClass
  repeat' split
  all_goals simp -implicitDefEqProofs

@[simp] theorem logErr_hscrub (s : State) (p : Page) (i code : Nat) (c : EClass) (unit addr : Nat) (detail : List Nat) :
    (logErr s p i code c unit addr detail).hscrub = s.hscrub := by simp [logErr]

@[simp] theorem stepFault_hscrub (s : State) (r : Reason) :
    (stepFault s r).hscrub = s.hscrub := by simp [stepFault]

@[simp] theorem sendPrio_hscrub (s : State) (k : Nat) (c : PClass) (p : Packet) :
    (sendPrio s k c p).hscrub = s.hscrub := by simp [sendPrio]

@[simp] theorem sendCopies_hscrub (s : State) (b : Burst) :
    (sendCopies s b).hscrub = s.hscrub := by simp [sendCopies]

@[simp] theorem startBurst_hscrub (s : State) (c : PClass) (payload : List Byte) :
    (startBurst s c payload).hscrub = s.hscrub := by simp [startBurst]

@[simp] theorem cutBurst_hscrub (s : State) (step cause : Nat) :
    (cutBurst s step cause).hscrub = s.hscrub := by simp [cutBurst]

@[simp] theorem setCutPending_hscrub (s : State) (step cause : Nat) :
    (setCutPending s step cause).hscrub = s.hscrub := by simp [setCutPending]

@[simp] theorem takeCut_hscrub (s : State) (step cause : Nat) :
    (takeCut s step cause).hscrub = s.hscrub := by
  unfold takeCut
  repeat' split
  all_goals simp -implicitDefEqProofs

@[simp] theorem requestCut_hscrub (s : State) (cause : Nat) :
    (requestCut s cause).hscrub = s.hscrub := by
  unfold requestCut
  split <;> simp

@[simp] theorem ledgerAdd_hscrub (s : State) (unit kind cls weight : Nat) (detail : List Nat) :
    (ledgerAdd s unit kind cls weight detail).hscrub = s.hscrub := by simp [ledgerAdd]

@[simp] theorem ledgerEvent_hscrub (s : State) (unit kind cls weight : Nat) (odd : Bool) (detail : List Nat) :
    (ledgerEvent s unit kind cls weight odd detail).hscrub = s.hscrub := by simp [ledgerEvent]

@[simp] theorem warnCut_hscrub (s : State) (unit : Nat) :
    (warnCut s unit).hscrub = s.hscrub := by simp [warnCut]

@[simp] theorem levelRise_hscrub (s : State) (unit old lv : Nat) :
    (levelRise s unit old lv).hscrub = s.hscrub := by simp [levelRise]

@[simp] theorem updateLevel_hscrub (s : State) (unit : Nat) :
    (updateLevel s unit).hscrub = s.hscrub := by simp [updateLevel]

@[simp] theorem healthInput_hscrub (s : State) (n unit : Nat) :
    (healthInput s n unit).hscrub = s.hscrub := by simp [healthInput]

@[simp] theorem hearthCe_hscrub (s : State) (die bank addr ctx : Nat) :
    (hearthCe s die bank addr ctx).hscrub = s.hscrub := by simp [hearthCe]

@[simp] theorem hearthUe_hscrub (s : State) (die bank addr ctx : Nat) :
    (hearthUe s die bank addr ctx).hscrub = s.hscrub := by simp [hearthUe]

/-! ## Frames: what leaves `ledger` as it is -/

@[simp] theorem ledger_ite (c : Prop) [Decidable c] (a b : State) : (if c then a else b).ledger = if c then a.ledger else b.ledger := by
  split <;> rfl

@[simp] theorem msixSend_ledger (s : State) (v : Nat) :
    (msixSend s v).ledger = s.ledger := by simp [msixSend]

@[simp] theorem msixRequest_ledger (s : State) (v : Nat) :
    (msixRequest s v).ledger = s.ledger := by simp [msixRequest]

@[simp] theorem notice_ledger (s : State) (slot b : Nat) :
    (notice s slot b).ledger = s.ledger := by simp [notice]

@[simp] theorem raiseSlot_ledger (s : State) (slot b : Nat) :
    (raiseSlot s slot b).ledger = s.ledger := by simp [raiseSlot]

@[simp] theorem raise_ledger (s : State) (p : Page) (i b : Nat) :
    (raise s p i b).ledger = s.ledger := by simp [raise]

@[simp] theorem noteReset_ledger (s : State) (dom target cause : Nat) :
    (noteReset s dom target cause).ledger = s.ledger := by simp [noteReset]

/-! ## Frames: what leaves `power` as it is -/

@[simp] theorem power_ite (c : Prop) [Decidable c] (a b : State) : (if c then a else b).power = if c then a.power else b.power := by
  split <;> rfl

@[simp] theorem foldl_power {α : Type} (g : State → α → State) (h : ∀ s x, (g s x).power = s.power) (l : List α) :
    ∀ s : State, (l.foldl g s).power = s.power := by
  induction l with
  | nil => intro s; rfl
  | cons x t ih => intro s; simp only [List.foldl_cons]; rw [ih, h]

@[simp] theorem msixSend_power (s : State) (v : Nat) :
    (msixSend s v).power = s.power := by simp [msixSend]

@[simp] theorem msixRequest_power (s : State) (v : Nat) :
    (msixRequest s v).power = s.power := by simp [msixRequest]

@[simp] theorem notice_power (s : State) (slot b : Nat) :
    (notice s slot b).power = s.power := by simp [notice]

@[simp] theorem raiseSlot_power (s : State) (slot b : Nat) :
    (raiseSlot s slot b).power = s.power := by simp [raiseSlot]

@[simp] theorem raise_power (s : State) (p : Page) (i b : Nat) :
    (raise s p i b).power = s.power := by simp [raise]

@[simp] theorem raiseIf_power (c : Bool) (s : State) (p : Page) (i b : Nat) :
    (raiseIf c s p i b).power = s.power := by simp [raiseIf]

@[simp] theorem countClass_power (s : State) (p : Page) (i : Nat) (c : EClass) :
    (countClass s p i c).power = s.power := by
  unfold countClass
  repeat' split
  all_goals simp -implicitDefEqProofs

@[simp] theorem logErr_power (s : State) (p : Page) (i code : Nat) (c : EClass) (unit addr : Nat) (detail : List Nat) :
    (logErr s p i code c unit addr detail).power = s.power := by simp [logErr]

@[simp] theorem stepFault_power (s : State) (r : Reason) :
    (stepFault s r).power = s.power := by simp [stepFault]

@[simp] theorem sendPrio_power (s : State) (k : Nat) (c : PClass) (p : Packet) :
    (sendPrio s k c p).power = s.power := by simp [sendPrio]

@[simp] theorem sendCopies_power (s : State) (b : Burst) :
    (sendCopies s b).power = s.power := by simp [sendCopies]

@[simp] theorem startBurst_power (s : State) (c : PClass) (payload : List Byte) :
    (startBurst s c payload).power = s.power := by simp [startBurst]

@[simp] theorem stopApply_power (s : State) :
    (stopApply s).power = s.power := by simp [stopApply]

@[simp] theorem sendStopBurst_power (s : State) (r : Reason) :
    (sendStopBurst s r).power = s.power := by simp [sendStopBurst]

@[simp] theorem ledgerAdd_power (s : State) (unit kind cls weight : Nat) (detail : List Nat) :
    (ledgerAdd s unit kind cls weight detail).power = s.power := by simp [ledgerAdd]

@[simp] theorem sendCtrl_power (s : State) (node kind flowField flowId last : Nat) :
    (sendCtrl s node kind flowField flowId last).1.power = s.power := by
  unfold sendCtrl
  split <;> simp

@[simp] theorem openFlow_power (s : State) (f node : Nat) (w : List OutPkt) :
    (openFlow s f node w).power = s.power := by simp [openFlow]

@[simp] theorem closeFlow_power (s : State) (f : Nat) :
    (closeFlow s f).power = s.power := by simp [closeFlow]

@[simp] theorem queuePkt_power (s : State) (node : Nat) (p : OutPkt) :
    (queuePkt s node p).power = s.power := by
  unfold queuePkt
  repeat' split
  all_goals simp -implicitDefEqProofs

@[simp] theorem abandonPackets_power (s : State) (mine : Owner → Bool) :
    (abandonPackets s mine).power = s.power := by simp [abandonPackets]

@[simp] theorem dropFlight_power (s : State) (id : Nat) :
    (State.dropFlight s id).power = s.power := by simp [State.dropFlight]

@[simp] theorem fillErr_power (s : State) (c source code : Nat) (at' : Pc) (e : SyncErr) :
    (fillErr s c source code at' e).power = s.power := by simp [fillErr]

@[simp] theorem clearErr_power (s : State) (c : Nat) :
    (clearErr s c).power = s.power := by simp [clearErr]

@[simp] theorem cmdErrorAt_power (s : State) (c source code : Nat) (r : Rec) (e : SyncErr) :
    (cmdErrorAt s c source code r e).power = s.power := by
  unfold cmdErrorAt
  dsimp only
  repeat' split
  all_goals simp -implicitDefEqProofs

@[simp] theorem failFlight_power (s : State) (id : Nat) (f : Flight) (source code : Nat) :
    (failFlight s id f source code).power = s.power := by simp [failFlight]

@[simp] theorem brokenWake_power (s : State) (c : Nat) (w : WaitState) (value : Nat) :
    (brokenWake s c w value).power = s.power := by simp [brokenWake]

@[simp] theorem breakCounter_power (s : State) (k : Nat) :
    (breakCounter s k).power = s.power := by
  unfold breakCounter
  split
  · rfl
  · split
    · rfl
    · dsimp only
      rw [foldl_power _ (fun s x => by simp -implicitDefEqProofs)]
      dsimp only
      rw [foldl_power _ (fun s x => by split <;> simp -implicitDefEqProofs)]
      simp -implicitDefEqProofs

@[simp] theorem breakOwned_power (s : State) (c : Nat) :
    (breakOwned s c).power = s.power := by simp [breakOwned]

@[simp] theorem cancelSub_power (s : State) (c : Nat) :
    (cancelSub s c).power = s.power := by
  unfold cancelSub
  repeat' split
  all_goals simp -implicitDefEqProofs

@[simp] theorem prune_power (s : State) :
    (prune s).power = s.power := by simp [prune]

@[simp] theorem abandonFlights_power (s : State) (ids : List Nat) :
    (abandonFlights s ids).power = s.power := by simp [abandonFlights]

@[simp] theorem promote_power (s : State) (die : Nat) :
    (promote s die).power = s.power := by simp [promote]

@[simp] theorem abandonCapture_power (s : State) (die u : Nat) :
    (abandonCapture s die u).power = s.power := by
  unfold abandonCapture
  split <;> simp

@[simp] theorem abandonAnvils_power (s : State) (ids : List Nat) (log : Bool) :
    (abandonAnvils s ids log).power = s.power := by simp [abandonAnvils]

@[simp] theorem swgCapacity_power (old s : State) (die : Nat) :
    (swgCapacity old s die).power = s.power := by simp [swgCapacity]

@[simp] theorem drainSwage_power (s : State) (die u : Nat) :
    (drainSwage s die u).power = s.power := by simp [drainSwage]

@[simp] theorem abandonSwages_power (s : State) (ids : List Nat) (log : Bool) :
    (abandonSwages s ids log).power = s.power := by
  unfold abandonSwages
  dsimp only
  repeat' split
  all_goals simp -implicitDefEqProofs

@[simp] theorem linkLeave_power (s : State) (k : Nat) (st : LinkState) :
    (linkLeave s k st).power = s.power := by simp [linkLeave]

@[simp] theorem startTraining_power (s : State) (k : Nat) (fast restoring : Bool) :
    (startTraining s k fast restoring).power = s.power := by simp [startTraining]

@[simp] theorem stopLinks_power (s : State) (d : Nat) :
    (stopLinks s d).power = s.power := by simp -implicitDefEqProofs [stopLinks]

@[simp] theorem trainLinks_power (s : State) (d : Nat) :
    (trainLinks s d).power = s.power := by simp [trainLinks]

@[simp] theorem dropColl_power (s : State) (id : Nat) :
    (dropColl s id).power = s.power := by simp [dropColl]

@[simp] theorem endFlight_power (s : State) (id source code : Nat) :
    (endFlight s id source code).power = s.power := by
  unfold endFlight
  split <;> simp

@[simp] theorem failColl_power (s : State) (id code addr peer : Nat) :
    (failColl s id code addr peer).power = s.power := by
  unfold failColl
  split <;> simp

@[simp] theorem abandonWork_power (s : State) (ids : List Nat) (log : Bool) :
    (abandonWork s ids log).power = s.power := by simp [abandonWork]

@[simp] theorem abandonSlots_power (s : State) (c : Nat) :
    (abandonSlots s c).power = s.power := by simp [abandonSlots]

@[simp] theorem abandonHoldWrite_power (s : State) :
    (abandonHoldWrite s).power = s.power := by simp [abandonHoldWrite]

@[simp] theorem resetCtx_power (s : State) (c : Nat) (destroy : Bool) :
    (resetCtx s c destroy).power = s.power := by
  unfold resetCtx
  dsimp only
  split <;> simp -implicitDefEqProofs

@[simp] theorem ledgerWrite_power (s : State) (ok : Bool) :
    (ledgerWrite s ok).power = s.power := by
  unfold ledgerWrite
  split <;> simp

@[simp] theorem savePoh_power (s : State) :
    (savePoh s).power = s.power := by simp [savePoh]

@[simp] theorem scoreEntries_power (s : State) :
    (scoreEntries s).power = s.power := by simp [scoreEntries]

@[simp] theorem refreshCap_power (s : State) (n : Nat) :
    (refreshCap s n).power = s.power := by simp [refreshCap]

@[simp] theorem refreshCaps_power (s : State) :
    (refreshCaps s).power = s.power := by simp [refreshCaps]

@[simp] theorem updateTemp_power (s : State) (d : Nat) :
    (updateTemp s d).power = s.power := by
  unfold updateTemp
  split <;> simp

@[simp] theorem placeFrec_power (s : State) (off : Nat) (bs : List Byte) :
    (placeFrec s off bs).power = s.power := by simp [placeFrec]

@[simp] theorem frecSection_power (s : State) (off : Nat) (bs : List Byte) :
    (frecSection s off bs).1.power = s.power := by simp [frecSection]

@[simp] theorem frecOpen_power (s : State) (off len : Nat) :
    (frecOpen s off len).1.power = s.power := by simp [frecOpen]

@[simp] theorem ctxSection_power (s : State) :
    (ctxSection s).1.power = s.power := by simp [ctxSection]

@[simp] theorem frecSections_power (s : State) :
    (frecSections s).1.power = s.power :=
  foldl_power _ (fun _ _ => by simp) _ _

@[simp] theorem writeRecord_power (s : State) :
    (writeRecord s).power = s.power := by
  unfold writeRecord
  dsimp only
  simp -implicitDefEqProofs

@[simp] theorem faultRecord_power (s : State) (dom target : Nat) :
    (faultRecord s dom target).power = s.power := by simp [faultRecord]

@[simp] theorem resetSlots_power (s : State) (slots : List Nat) :
    (resetSlots s slots).power = s.power := by simp [resetSlots]

@[simp] theorem loseColls_power (s : State) :
    (loseColls s).power = s.power := by simp [loseColls]

@[simp] theorem loseFlights_power (s : State) :
    (loseFlights s).power = s.power := by simp [loseFlights]

@[simp] theorem holdStack_power (s : State) (n : Nat) :
    (holdStack s n).power = s.power := by simp [holdStack]

@[simp] theorem restoreLoupe_power (s : State) (n : Nat) :
    (restoreLoupe s n).power = s.power := by simp [restoreLoupe]

@[simp] theorem lockDie_power (s : State) (d : Nat) :
    (lockDie s d).power = s.power := by simp [lockDie]

@[simp] theorem clearDie_power (s : State) (n : Nat) :
    (clearDie s n).power = s.power := by simp [clearDie]

@[simp] theorem dieReset_power (s : State) (n : Nat) :
    (dieReset s n).power = s.power := by simp [dieReset]

@[simp] theorem clearPort_power (s : State) (d : Nat) :
    (clearPort s d).power = s.power := by simp [clearPort]

@[simp] theorem portReset_power (s : State) (d : Nat) :
    (portReset s d).power = s.power := by simp [portReset]

@[simp] theorem noteReset_power (s : State) (dom target cause : Nat) :
    (noteReset s dom target cause).power = s.power := by simp [noteReset]

@[simp] theorem flushStops_power (s : State) :
    (flushStops s).power = s.power := by simp -implicitDefEqProofs [flushStops]

@[simp] theorem beforeReset_power (s : State) (dom target : Nat) :
    (beforeReset s dom target).power = s.power := by simp [beforeReset]

@[simp] theorem flushLedger_power (s : State) :
    (flushLedger s).power = s.power := by simp [flushLedger]

/-! ## Frames: what leaves `seq` as it is -/

@[simp] theorem seq_ite (c : Prop) [Decidable c] (a b : State) : (if c then a else b).seq = if c then a.seq else b.seq := by
  split <;> rfl

@[simp] theorem foldl_seq {α : Type} (g : State → α → State) (h : ∀ s x, (g s x).seq = s.seq) (l : List α) :
    ∀ s : State, (l.foldl g s).seq = s.seq := by
  induction l with
  | nil => intro s; rfl
  | cons x t ih => intro s; simp only [List.foldl_cons]; rw [ih, h]

@[simp] theorem msixSend_seq (s : State) (v : Nat) :
    (msixSend s v).seq = s.seq := by simp [msixSend]

@[simp] theorem msixRequest_seq (s : State) (v : Nat) :
    (msixRequest s v).seq = s.seq := by simp [msixRequest]

@[simp] theorem notice_seq (s : State) (slot b : Nat) :
    (notice s slot b).seq = s.seq := by simp [notice]

@[simp] theorem raiseSlot_seq (s : State) (slot b : Nat) :
    (raiseSlot s slot b).seq = s.seq := by simp [raiseSlot]

@[simp] theorem raise_seq (s : State) (p : Page) (i b : Nat) :
    (raise s p i b).seq = s.seq := by simp [raise]

@[simp] theorem raiseIf_seq (c : Bool) (s : State) (p : Page) (i b : Nat) :
    (raiseIf c s p i b).seq = s.seq := by simp [raiseIf]

@[simp] theorem countClass_seq (s : State) (p : Page) (i : Nat) (c : EClass) :
    (countClass s p i c).seq = s.seq := by
  unfold countClass
  repeat' split
  all_goals simp -implicitDefEqProofs

@[simp] theorem logErr_seq (s : State) (p : Page) (i code : Nat) (c : EClass) (unit addr : Nat) (detail : List Nat) :
    (logErr s p i code c unit addr detail).seq = s.seq := by simp [logErr]

@[simp] theorem stepFault_seq (s : State) (r : Reason) :
    (stepFault s r).seq = s.seq := by simp [stepFault]

@[simp] theorem sendPrio_seq (s : State) (k : Nat) (c : PClass) (p : Packet) :
    (sendPrio s k c p).seq = s.seq := by simp [sendPrio]

@[simp] theorem sendCopies_seq (s : State) (b : Burst) :
    (sendCopies s b).seq = s.seq := by simp [sendCopies]

@[simp] theorem startBurst_seq (s : State) (c : PClass) (payload : List Byte) :
    (startBurst s c payload).seq = s.seq := by simp [startBurst]

@[simp] theorem stopApply_seq (s : State) :
    (stopApply s).seq = s.seq := by simp [stopApply]

@[simp] theorem sendStopBurst_seq (s : State) (r : Reason) :
    (sendStopBurst s r).seq = s.seq := by simp [sendStopBurst]

@[simp] theorem sendCtrl_seq (s : State) (node kind flowField flowId last : Nat) :
    (sendCtrl s node kind flowField flowId last).1.seq = s.seq := by
  unfold sendCtrl
  split <;> simp

@[simp] theorem openFlow_seq (s : State) (f node : Nat) (w : List OutPkt) :
    (openFlow s f node w).seq = s.seq := by simp [openFlow]

@[simp] theorem closeFlow_seq (s : State) (f : Nat) :
    (closeFlow s f).seq = s.seq := by simp [closeFlow]

@[simp] theorem queuePkt_seq (s : State) (node : Nat) (p : OutPkt) :
    (queuePkt s node p).seq = s.seq := by
  unfold queuePkt
  repeat' split
  all_goals simp -implicitDefEqProofs

@[simp] theorem abandonPackets_seq (s : State) (mine : Owner → Bool) :
    (abandonPackets s mine).seq = s.seq := by simp [abandonPackets]

@[simp] theorem dropFlight_seq (s : State) (id : Nat) :
    (State.dropFlight s id).seq = s.seq := by simp [State.dropFlight]

@[simp] theorem fillErr_seq (s : State) (c source code : Nat) (at' : Pc) (e : SyncErr) :
    (fillErr s c source code at' e).seq = s.seq := by simp [fillErr]

@[simp] theorem clearErr_seq (s : State) (c : Nat) :
    (clearErr s c).seq = s.seq := by simp [clearErr]

@[simp] theorem cmdErrorAt_seq (s : State) (c source code : Nat) (r : Rec) (e : SyncErr) :
    (cmdErrorAt s c source code r e).seq = s.seq := by
  unfold cmdErrorAt
  dsimp only
  repeat' split
  all_goals simp -implicitDefEqProofs

@[simp] theorem failFlight_seq (s : State) (id : Nat) (f : Flight) (source code : Nat) :
    (failFlight s id f source code).seq = s.seq := by simp [failFlight]

@[simp] theorem brokenWake_seq (s : State) (c : Nat) (w : WaitState) (value : Nat) :
    (brokenWake s c w value).seq = s.seq := by simp [brokenWake]

@[simp] theorem breakCounter_seq (s : State) (k : Nat) :
    (breakCounter s k).seq = s.seq := by
  unfold breakCounter
  split
  · rfl
  · split
    · rfl
    · dsimp only
      rw [foldl_seq _ (fun s x => by simp -implicitDefEqProofs)]
      dsimp only
      rw [foldl_seq _ (fun s x => by split <;> simp -implicitDefEqProofs)]
      simp -implicitDefEqProofs

@[simp] theorem breakOwned_seq (s : State) (c : Nat) :
    (breakOwned s c).seq = s.seq := by simp [breakOwned]

@[simp] theorem cancelSub_seq (s : State) (c : Nat) :
    (cancelSub s c).seq = s.seq := by
  unfold cancelSub
  repeat' split
  all_goals simp -implicitDefEqProofs

@[simp] theorem prune_seq (s : State) :
    (prune s).seq = s.seq := by simp [prune]

@[simp] theorem abandonFlights_seq (s : State) (ids : List Nat) :
    (abandonFlights s ids).seq = s.seq := by simp [abandonFlights]

@[simp] theorem promote_seq (s : State) (die : Nat) :
    (promote s die).seq = s.seq := by simp [promote]

@[simp] theorem abandonCapture_seq (s : State) (die u : Nat) :
    (abandonCapture s die u).seq = s.seq := by
  unfold abandonCapture
  split <;> simp

@[simp] theorem abandonAnvils_seq (s : State) (ids : List Nat) (log : Bool) :
    (abandonAnvils s ids log).seq = s.seq := by simp [abandonAnvils]

@[simp] theorem swgCapacity_seq (old s : State) (die : Nat) :
    (swgCapacity old s die).seq = s.seq := by simp [swgCapacity]

@[simp] theorem drainSwage_seq (s : State) (die u : Nat) :
    (drainSwage s die u).seq = s.seq := by simp [drainSwage]

@[simp] theorem abandonSwages_seq (s : State) (ids : List Nat) (log : Bool) :
    (abandonSwages s ids log).seq = s.seq := by
  unfold abandonSwages
  dsimp only
  repeat' split
  all_goals simp -implicitDefEqProofs

@[simp] theorem linkLeave_seq (s : State) (k : Nat) (st : LinkState) :
    (linkLeave s k st).seq = s.seq := by simp [linkLeave]

@[simp] theorem startTraining_seq (s : State) (k : Nat) (fast restoring : Bool) :
    (startTraining s k fast restoring).seq = s.seq := by simp [startTraining]

@[simp] theorem stopLinks_seq (s : State) (d : Nat) :
    (stopLinks s d).seq = s.seq := by simp -implicitDefEqProofs [stopLinks]

@[simp] theorem trainLinks_seq (s : State) (d : Nat) :
    (trainLinks s d).seq = s.seq := by simp [trainLinks]

@[simp] theorem dropColl_seq (s : State) (id : Nat) :
    (dropColl s id).seq = s.seq := by simp [dropColl]

@[simp] theorem endFlight_seq (s : State) (id source code : Nat) :
    (endFlight s id source code).seq = s.seq := by
  unfold endFlight
  split <;> simp

@[simp] theorem failColl_seq (s : State) (id code addr peer : Nat) :
    (failColl s id code addr peer).seq = s.seq := by
  unfold failColl
  split <;> simp

@[simp] theorem abandonWork_seq (s : State) (ids : List Nat) (log : Bool) :
    (abandonWork s ids log).seq = s.seq := by simp [abandonWork]

@[simp] theorem abandonSlots_seq (s : State) (c : Nat) :
    (abandonSlots s c).seq = s.seq := by simp [abandonSlots]

@[simp] theorem abandonHoldWrite_seq (s : State) :
    (abandonHoldWrite s).seq = s.seq := by simp [abandonHoldWrite]

@[simp] theorem resetCtx_seq (s : State) (c : Nat) (destroy : Bool) :
    (resetCtx s c destroy).seq = s.seq := by
  unfold resetCtx
  dsimp only
  split <;> simp -implicitDefEqProofs

@[simp] theorem ledgerWrite_seq (s : State) (ok : Bool) :
    (ledgerWrite s ok).seq = s.seq := by
  unfold ledgerWrite
  split <;> simp

@[simp] theorem refreshCap_seq (s : State) (n : Nat) :
    (refreshCap s n).seq = s.seq := by simp [refreshCap]

@[simp] theorem resetSlots_seq (s : State) (slots : List Nat) :
    (resetSlots s slots).seq = s.seq := by simp [resetSlots]

@[simp] theorem loseColls_seq (s : State) :
    (loseColls s).seq = s.seq := by simp [loseColls]

@[simp] theorem loseFlights_seq (s : State) :
    (loseFlights s).seq = s.seq := by simp [loseFlights]

@[simp] theorem holdStack_seq (s : State) (n : Nat) :
    (holdStack s n).seq = s.seq := by simp [holdStack]

@[simp] theorem restoreLoupe_seq (s : State) (n : Nat) :
    (restoreLoupe s n).seq = s.seq := by simp [restoreLoupe]

@[simp] theorem lockDie_seq (s : State) (d : Nat) :
    (lockDie s d).seq = s.seq := by simp [lockDie]

@[simp] theorem clearDie_seq (s : State) (n : Nat) :
    (clearDie s n).seq = s.seq := by simp [clearDie]

@[simp] theorem dieReset_seq (s : State) (n : Nat) :
    (dieReset s n).seq = s.seq := by simp [dieReset]

@[simp] theorem clearPort_seq (s : State) (d : Nat) :
    (clearPort s d).seq = s.seq := by simp [clearPort]

@[simp] theorem portReset_seq (s : State) (d : Nat) :
    (portReset s d).seq = s.seq := by simp [portReset]

@[simp] theorem noteReset_seq (s : State) (dom target cause : Nat) :
    (noteReset s dom target cause).seq = s.seq := by simp [noteReset]

@[simp] theorem flushLedger_seq (s : State) :
    (flushLedger s).seq = s.seq := by simp [flushLedger]

/-! ## Frames: what leaves `smc` as it is -/

@[simp] theorem smc_ite (c : Prop) [Decidable c] (a b : State) : (if c then a else b).smc = if c then a.smc else b.smc := by
  split <;> rfl

@[simp] theorem msixSend_smc (s : State) (v : Nat) :
    (msixSend s v).smc = s.smc := by simp [msixSend]

@[simp] theorem msixRequest_smc (s : State) (v : Nat) :
    (msixRequest s v).smc = s.smc := by simp [msixRequest]

@[simp] theorem notice_smc (s : State) (slot b : Nat) :
    (notice s slot b).smc = s.smc := by simp [notice]

@[simp] theorem raiseSlot_smc (s : State) (slot b : Nat) :
    (raiseSlot s slot b).smc = s.smc := by simp [raiseSlot]

@[simp] theorem raise_smc (s : State) (p : Page) (i b : Nat) :
    (raise s p i b).smc = s.smc := by simp [raise]

@[simp] theorem countClass_smc (s : State) (p : Page) (i : Nat) (c : EClass) :
    (countClass s p i c).smc = s.smc := by
  unfold countClass
  repeat' split
  all_goals simp -implicitDefEqProofs

@[simp] theorem logErr_smc (s : State) (p : Page) (i code : Nat) (c : EClass) (unit addr : Nat) (detail : List Nat) :
    (logErr s p i code c unit addr detail).smc = s.smc := by simp [logErr]

@[simp] theorem bringupEnd_smc (s : State) :
    (bringupEnd s).smc = s.smc := by simp [bringupEnd]

@[simp] theorem haltBringup_smc (s : State) (cause : Nat) :
    (haltBringup s cause).smc = s.smc := by simp [haltBringup]

/-! ## Frames: what leaves `weld` as it is -/

@[simp] theorem weld_ite (c : Prop) [Decidable c] (a b : State) : (if c then a else b).weld = if c then a.weld else b.weld := by
  split <;> rfl

@[simp] theorem foldl_weld {α : Type} (g : State → α → State) (h : ∀ s x, (g s x).weld = s.weld) (l : List α) :
    ∀ s : State, (l.foldl g s).weld = s.weld := by
  induction l with
  | nil => intro s; rfl
  | cons x t ih => intro s; simp only [List.foldl_cons]; rw [ih, h]

@[simp] theorem msixSend_weld (s : State) (v : Nat) :
    (msixSend s v).weld = s.weld := by simp [msixSend]

@[simp] theorem msixRequest_weld (s : State) (v : Nat) :
    (msixRequest s v).weld = s.weld := by simp [msixRequest]

@[simp] theorem notice_weld (s : State) (slot b : Nat) :
    (notice s slot b).weld = s.weld := by simp [notice]

@[simp] theorem raiseSlot_weld (s : State) (slot b : Nat) :
    (raiseSlot s slot b).weld = s.weld := by simp [raiseSlot]

@[simp] theorem raise_weld (s : State) (p : Page) (i b : Nat) :
    (raise s p i b).weld = s.weld := by simp [raise]

@[simp] theorem raiseIf_weld (c : Bool) (s : State) (p : Page) (i b : Nat) :
    (raiseIf c s p i b).weld = s.weld := by simp [raiseIf]

@[simp] theorem prune_weld (s : State) :
    (prune s).weld = s.weld := by simp [prune]

@[simp] theorem linkLeave_weld (s : State) (k : Nat) (st : LinkState) :
    (linkLeave s k st).weld = s.weld := by simp [linkLeave]

@[simp] theorem startTraining_weld (s : State) (k : Nat) (fast restoring : Bool) :
    (startTraining s k fast restoring).weld = s.weld := by simp [startTraining]

@[simp] theorem stopLinks_weld (s : State) (d : Nat) :
    (stopLinks s d).weld = s.weld := by simp -implicitDefEqProofs [stopLinks]

@[simp] theorem trainLinks_weld (s : State) (d : Nat) :
    (trainLinks s d).weld = s.weld := by simp [trainLinks]

@[simp] theorem resetSlots_weld (s : State) (slots : List Nat) :
    (resetSlots s slots).weld = s.weld := by simp [resetSlots]

@[simp] theorem lockDie_weld (s : State) (d : Nat) :
    (lockDie s d).weld = s.weld := by simp [lockDie]

/-! ## Frames: what leaves a register as it is that no bookkeeping writes -/

@[simp] theorem ite_quiet (d : Nat) (k : Key) (c : Prop) [Decidable c] (a b : State) : Store.get d (if c then a else b).regs k = if c then Store.get d a.regs k else Store.get d b.regs k := by
  split <;> rfl

@[simp] theorem foldl_quiet {k : Key} (d : Nat) {α : Type} (g : State → α → State) (h : ∀ s x, Store.get d (g s x).regs k = Store.get d s.regs k) (l : List α) :
    ∀ s : State, Store.get d (l.foldl g s).regs k = Store.get d s.regs k := by
  induction l with
  | nil => intro s; rfl
  | cons x t ih => intro s; simp only [List.foldl_cons]; rw [ih, h]

@[simp] theorem msixSend_quiet (s : State) (v : Nat) {ky : Key} (df : Nat) (hk : loud ky = false) : Store.get df ((msixSend s v)).regs ky = Store.get df (s).regs ky := by simp -implicitDefEqProofs [msixSend, hk]

@[simp] theorem msixRequest_quiet (s : State) (v : Nat) {ky : Key} (df : Nat) (hk : loud ky = false) : Store.get df ((msixRequest s v)).regs ky = Store.get df (s).regs ky := by simp -implicitDefEqProofs [msixRequest, hk]

@[simp] theorem notice_quiet (s : State) (slot b : Nat) {ky : Key} (df : Nat) (hk : loud ky = false) : Store.get df ((notice s slot b)).regs ky = Store.get df (s).regs ky := by simp [notice, hk]

@[simp] theorem raiseSlot_quiet (s : State) (slot b : Nat) {ky : Key} (df : Nat) (hk : loud ky = false) : Store.get df ((raiseSlot s slot b)).regs ky = Store.get df (s).regs ky := by simp [raiseSlot, hk]

@[simp] theorem raise_quiet (s : State) (p : Page) (i b : Nat) {ky : Key} (df : Nat) (hk : loud ky = false) : Store.get df ((raise s p i b)).regs ky = Store.get df (s).regs ky := by simp [raise, hk]

@[simp] theorem raiseIf_quiet (c : Bool) (s : State) (p : Page) (i b : Nat) {ky : Key} (df : Nat) (hk : loud ky = false) : Store.get df ((raiseIf c s p i b)).regs ky = Store.get df (s).regs ky := by simp [raiseIf, hk]

@[simp] theorem countClass_quiet (s : State) (p : Page) (i : Nat) (c : EClass) {ky : Key} (df : Nat) (hk : loud ky = false) : Store.get df ((countClass s p i c)).regs ky = Store.get df (s).regs ky := by
  unfold countClass
  repeat' split
  all_goals simp -implicitDefEqProofs [hk]

@[simp] theorem logErr_quiet (s : State) (p : Page) (i code : Nat) (c : EClass) (unit addr : Nat) (detail : List Nat) {ky : Key} (df : Nat) (hk : loud ky = false) : Store.get df ((logErr s p i code c unit addr detail)).regs ky = Store.get df (s).regs ky := by simp [logErr, hk]

@[simp] theorem stepFault_quiet (s : State) (r : Reason) {ky : Key} (df : Nat) (hk : loud ky = false) : Store.get df ((stepFault s r)).regs ky = Store.get df (s).regs ky := by simp [stepFault, hk]

@[simp] theorem sendPrio_quiet (s : State) (k : Nat) (c : PClass) (p : Packet) {ky : Key} (df : Nat) (hk : loud ky = false) : Store.get df ((sendPrio s k c p)).regs ky = Store.get df (s).regs ky := by simp [sendPrio, hk]

@[simp] theorem sendCopies_quiet (s : State) (b : Burst) {ky : Key} (df : Nat) (hk : loud ky = false) : Store.get df ((sendCopies s b)).regs ky = Store.get df (s).regs ky := by simp [sendCopies, hk]

@[simp] theorem startBurst_quiet (s : State) (c : PClass) (payload : List Byte) {ky : Key} (df : Nat) (hk : loud ky = false) : Store.get df ((startBurst s c payload)).regs ky = Store.get df (s).regs ky := by simp [startBurst, hk]

@[simp] theorem stopApply_quiet (s : State) {ky : Key} (df : Nat) (hk : loud ky = false) : Store.get df ((stopApply s)).regs ky = Store.get df (s).regs ky := by simp [stopApply, hk]

@[simp] theorem sendStopBurst_quiet (s : State) (r : Reason) {ky : Key} (df : Nat) (hk : loud ky = false) : Store.get df ((sendStopBurst s r)).regs ky = Store.get df (s).regs ky := by simp -implicitDefEqProofs [sendStopBurst, hk]

@[simp] theorem cutBurst_quiet (s : State) (step cause : Nat) {ky : Key} (df : Nat) (hk : loud ky = false) : Store.get df ((cutBurst s step cause)).regs ky = Store.get df (s).regs ky := by simp -implicitDefEqProofs [cutBurst, hk]

@[simp] theorem setCutPending_quiet (s : State) (step cause : Nat) {ky : Key} (df : Nat) (hk : loud ky = false) : Store.get df ((setCutPending s step cause)).regs ky = Store.get df (s).regs ky := by simp [setCutPending, hk]

@[simp] theorem takeCut_quiet (s : State) (step cause : Nat) {ky : Key} (df : Nat) (hk : loud ky = false) : Store.get df ((takeCut s step cause)).regs ky = Store.get df (s).regs ky := by
  unfold takeCut
  repeat' split
  all_goals simp -implicitDefEqProofs [hk]

@[simp] theorem requestCut_quiet (s : State) (cause : Nat) {ky : Key} (df : Nat) (hk : loud ky = false) : Store.get df ((requestCut s cause)).regs ky = Store.get df (s).regs ky := by
  unfold requestCut
  split <;> simp [hk]

@[simp] theorem ledgerAdd_quiet (s : State) (unit kind cls weight : Nat) (detail : List Nat) {ky : Key} (df : Nat) (hk : loud ky = false) : Store.get df ((ledgerAdd s unit kind cls weight detail)).regs ky = Store.get df (s).regs ky := by simp -implicitDefEqProofs [ledgerAdd, hk]

@[simp] theorem ledgerEvent_quiet (s : State) (unit kind cls weight : Nat) (odd : Bool) (detail : List Nat) {ky : Key} (df : Nat) (hk : loud ky = false) : Store.get df ((ledgerEvent s unit kind cls weight odd detail)).regs ky = Store.get df (s).regs ky := by simp [ledgerEvent, hk]

@[simp] theorem warnCut_quiet (s : State) (unit : Nat) {ky : Key} (df : Nat) (hk : loud ky = false) : Store.get df ((warnCut s unit)).regs ky = Store.get df (s).regs ky := by simp -implicitDefEqProofs [warnCut, hk]

@[simp] theorem levelRise_quiet (s : State) (unit old lv : Nat) {ky : Key} (df : Nat) (hk : loud ky = false) : Store.get df ((levelRise s unit old lv)).regs ky = Store.get df (s).regs ky := by simp [levelRise, hk]

@[simp] theorem updateLevel_quiet (s : State) (unit : Nat) {ky : Key} (df : Nat) (hk : loud ky = false) : Store.get df ((updateLevel s unit)).regs ky = Store.get df (s).regs ky := by simp [updateLevel, hk]

@[simp] theorem healthInput_quiet (s : State) (n unit : Nat) {ky : Key} (df : Nat) (hk : loud ky = false) : Store.get df ((healthInput s n unit)).regs ky = Store.get df (s).regs ky := by simp [healthInput, hk]

@[simp] theorem rebuildScores_quiet (s : State) {ky : Key} (df : Nat) (hk : loud ky = false) : Store.get df ((rebuildScores s)).regs ky = Store.get df (s).regs ky := by simp [rebuildScores, hk]

@[simp] theorem abandonPackets_quiet (s : State) (mine : Owner → Bool) {ky : Key} (df : Nat) (hk : loud ky = false) : Store.get df ((abandonPackets s mine)).regs ky = Store.get df (s).regs ky := by simp [abandonPackets, hk]

@[simp] theorem mapoutEntry_quiet (s : State) (stack ch : Nat) (on : Bool) {ky : Key} (df : Nat) (hk : loud ky = false) : Store.get df ((mapoutEntry s stack ch on)).regs ky = Store.get df (s).regs ky := by simp [mapoutEntry, hk]

@[simp] theorem listMapout_quiet (s : State) (stack m : Nat) {ky : Key} (df : Nat) (hk : loud ky = false) : Store.get df ((listMapout s stack m)).regs ky = Store.get df (s).regs ky := by simp [listMapout, hk]

@[simp] theorem trainStack_quiet (s : State) (n : Nat) (r : StackReport) {ky : Key} (df : Nat) (hk : loud ky = false) : Store.get df ((trainStack s n r)).regs ky = Store.get df (s).regs ky := by simp [trainStack, hk]

@[simp] theorem suspectAnvil_quiet (s : State) (die m : Nat) {ky : Key} (df : Nat) (hk : loud ky = false) : Store.get df ((suspectAnvil s die m)).regs ky = Store.get df (s).regs ky := by simp [suspectAnvil, hk]

@[simp] theorem settleUnits_quiet (s : State) (die : Nat) (c : Capture) (out : Nat) {ky : Key} (df : Nat) (hk : loud ky = false) : Store.get df ((settleUnits s die c out)).regs ky = Store.get df (s).regs ky := by
  unfold settleUnits
  repeat' split
  all_goals simp -implicitDefEqProofs [hk]

@[simp] theorem clearPending_quiet (s : State) {ky : Key} (df : Nat) (hk : loud ky = false) : Store.get df ((clearPending s)).regs ky = Store.get df (s).regs ky := by
  unfold clearPending
  dsimp only
  split <;> simp -implicitDefEqProofs [hk]

@[simp] theorem clearOwnPending_quiet (s : State) (step : Nat) {ky : Key} (df : Nat) (hk : loud ky = false) : Store.get df ((clearOwnPending s step)).regs ky = Store.get df (s).regs ky := by simp [clearOwnPending, hk]

/-! ## Frames: what leaves `regs` as it is -/

@[simp] theorem regs_ite (c : Prop) [Decidable c] (a b : State) : (if c then a else b).regs = if c then a.regs else b.regs := by
  split <;> rfl

@[simp] theorem foldl_regs {α : Type} (g : State → α → State) (h : ∀ s x, (g s x).regs = s.regs) (l : List α) :
    ∀ s : State, (l.foldl g s).regs = s.regs := by
  induction l with
  | nil => intro s; rfl
  | cons x t ih => intro s; simp only [List.foldl_cons]; rw [ih, h]

@[simp] theorem prune_regs (s : State) :
    (prune s).regs = s.regs := by simp [prune]

@[simp] theorem promote_regs (s : State) (die : Nat) :
    (promote s die).regs = s.regs := by simp [promote]

end Sys2Proof.Machine

namespace Sys2Proof.Machine

open Sys2Proof

/-! ## Contexts: what an update changes -/

@[simp] theorem tbl_set_set {α : Type} (l : Tbl α) (k : Nat) (a b : α) : Tbl.set (Tbl.set l k a) k b = Tbl.set l k b := by
  induction l with
  | nil => simp [Tbl.set]
  | cons e t ih =>
    obtain ⟨i, x⟩ := e
    by_cases h : i = k
    · simp [Tbl.set, h]
    · simp [Tbl.set, h, ih]

theorem ctxOf_congr {s t : State} (h : t.ctxs = s.ctxs) (c : Nat) : ctxOf t c = ctxOf s c := congrArg (Tbl.get Ctx.freed · c) h

@[simp] theorem ctxOf_setCtx_same (s : State) (c : Nat) (x : Ctx) : ctxOf (s.setCtx c x) c = x := tbl_get_set_same _ _ _ _

theorem ctxOf_setCtx_other (s : State) {c d : Nat} (x : Ctx) (h : d ≠ c) : ctxOf (s.setCtx c x) d = ctxOf s d :=
  tbl_get_set_other _ _ _ h

@[simp] theorem setCtx_setCtx (s : State) (c : Nat) (x y : Ctx) : (s.setCtx c x).setCtx c y = s.setCtx c y := by
  simp [State.setCtx]

/-- Every context but `c` is as it was. -/
def OthersStay (s t : State) (c : Nat) : Prop := ∀ d, d ≠ c → ctxOf t d = ctxOf s d

/-- Every context is as it was, apart from its WAIT. -/
def WaitsMove (s t : State) : Prop := ∀ d, { ctxOf t d with wait := none } = { ctxOf s d with wait := none }

theorem OthersStay.stand {s t : State} {c : Nat} (h : OthersStay s t c) : othersStand s t c := fun d hd => by rw [h d hd]

theorem OthersStay.trans {s t u : State} {c : Nat} (h : OthersStay s t c) (h' : OthersStay t u c) : OthersStay s u c :=
  fun d hd => (h' d hd).trans (h d hd)

theorem othersStay_congr {s t : State} (h : t.ctxs = s.ctxs) (c : Nat) : OthersStay s t c := fun d _ => ctxOf_congr h d

theorem othersStay_setCtx (s : State) (c : Nat) (x : Ctx) : OthersStay s (s.setCtx c x) c := fun _ hd => ctxOf_setCtx_other s x hd

theorem WaitsMove.stand {s t : State} (h : WaitsMove s t) (c : Nat) : othersStand s t c := fun d _ => h d

theorem othersStand_trans {s t u : State} {c : Nat} (h : othersStand s t c) (h' : othersStand t u c) : othersStand s u c :=
  fun d hd => (h' d hd).trans (h d hd)

theorem waitsMove_congr {s t : State} (h : t.ctxs = s.ctxs) : WaitsMove s t := fun d => by rw [ctxOf_congr h d]

theorem WaitsMove.trans {s t u : State} (h : WaitsMove s t) (h' : WaitsMove t u) : WaitsMove s u := fun d => (h' d).trans (h d)

/-- What settling a context leaves of it: everything but its state, its slot and what it waits for. -/
structure Ctx.Agrees (y x : Ctx) : Prop where
  queue : y.queue = x.queue
  qpos : y.qpos = x.qpos
  pc : y.pc = x.pc
  frames : y.frames = x.frames
  cur : y.cur = x.cur
  restart : y.restart = x.restart
  wait : y.wait = x.wait
  deferredErr : y.deferredErr = x.deferredErr
  failed : y.failed = x.failed
  reissue : y.reissue = x.reissue
  destroying : y.destroying = x.destroying

theorem Ctx.Agrees.refl (x : Ctx) : x.Agrees x := ⟨rfl, rfl, rfl, rfl, rfl, rfl, rfl, rfl, rfl, rfl, rfl⟩

/-- A context that is saved keeps all but its slot. -/
theorem saveCtx_ctx (s : State) (c : Nat) : ctxOf (saveCtx s c) c = { ctxOf s c with resident := false } := by
  unfold saveCtx
  dsimp only
  split
  · exact ctxOf_setCtx_same _ _ _
  next h =>
    have h : (ctxOf s c).resident = false := by simpa using h
    rw [← h]

theorem saveCtx_others (s : State) (c : Nat) : OthersStay s (saveCtx s c) c := by
  unfold saveCtx
  dsimp only
  split
  · exact fun d hd => ctxOf_setCtx_other s _ hd
  · exact fun _ _ => rfl

/-- The branches of `settle`. -/
theorem settle_cases (s : State) (c : Nat) :
    settle s c = s ∨ (∃ st b n, settle s c = s.setCtx c { ctxOf s c with state := st, block := b, since := n }) ∨
    ((ctxOf s c).preempting = true ∧ settle s c =
      raise ((saveCtx s c).setCtx c { ctxOf (saveCtx s c) c with state := .preempted, preempting := false, block := .none, since := (saveCtx s c).clock }) .CTX c 8) := by
  unfold settle
  dsimp only
  repeat' split
  all_goals first
    | exact .inl rfl
    | exact .inr (.inl ⟨_, _, _, rfl⟩)
    | exact .inr (.inr ⟨by assumption, rfl⟩)

theorem settle_others (s : State) (c : Nat) : OthersStay s (settle s c) c := by
  obtain h | ⟨st, b, n, h⟩ | ⟨-, h⟩ := settle_cases s c
  · rw [h]
    exact fun _ _ => rfl
  · rw [h]
    exact othersStay_setCtx _ _ _
  · rw [h]
    intro d hd
    rw [ctxOf_congr (raise_ctxs _ _ _ _), ctxOf_setCtx_other _ _ hd, saveCtx_others s c d hd]

theorem settle_agrees (s : State) (c : Nat) : (ctxOf (settle s c) c).Agrees (ctxOf s c) := by
  obtain h | ⟨st, b, n, h⟩ | ⟨-, h⟩ := settle_cases s c
  · rw [h]
    exact .refl _
  · rw [h, ctxOf_setCtx_same]
    exact ⟨rfl, rfl, rfl, rfl, rfl, rfl, rfl, rfl, rfl, rfl, rfl⟩
  · rw [h, ctxOf_congr (raise_ctxs _ _ _ _), ctxOf_setCtx_same, saveCtx_ctx]
    exact ⟨rfl, rfl, rfl, rfl, rfl, rfl, rfl, rfl, rfl, rfl, rfl⟩

/-- Settling a context that is not being pre-empted changes contexts alone. -/
theorem settle_frame {s : State} {c : Nat} (h : (ctxOf s c).preempting = false) : settle s c = { s with ctxs := (settle s c).ctxs } := by
  obtain h' | ⟨st, b, n, h'⟩ | ⟨hp, -⟩ := settle_cases s c
  · rw [h']
  · rw [h']
    rfl
  · exact absurd hp (by simp [h])

/-- A context with a record to issue and nothing to wait for is READY. -/
theorem settle_ready {s : State} {c : Nat} (hst : (ctxOf s c).state ∈ [CtxState.ready, .running, .waiting, .idle]) (hc : (ctxOf s c).cur = none)
    (hp : (ctxOf s c).preempting = false) (hn : hasNext (ctxOf s c) = true) (hb : (ctxOf s c).block ≠ .fence) :
    settle s c = s.setCtx c { ctxOf s c with state := .ready, block := .none } := by
  unfold settle
  dsimp only
  split
  iterate 4
    rw [hc, hp]
    simp [hn, hb]
  simp_all


/-! ### Completion of a record -/

theorem wakeLocal_waits (s : State) (k v : Nat) : WaitsMove s (wakeLocal s k v) := by
  have step : ∀ (l : List Nat) (t : State), WaitsMove t (l.foldl (fun s c =>
      let x := ctxOf s c
      match x.wait with
      | some w =>
        if condHolds w.eq v w.value && w.notified.isNone && !suspended x then
          s.setCtx c { x with wait := some { w with notified := some v } }
        else s
      | none => s) t) := by
    intro l
    induction l with
    | nil => exact fun t d => rfl
    | cons c l ih =>
      refine fun t => .trans (fun d => ?_) (ih _)
      dsimp only
      split
      · split
        · by_cases hd : d = c
          · rw [hd, ctxOf_setCtx_same]
          · rw [ctxOf_setCtx_other _ _ hd]
        · rfl
      · rfl
  exact step _ s

theorem counterSet_waits (s : State) (k : Nat) (x : Counter) (v : Nat) : WaitsMove s (counterSet s k x v) :=
  .trans (.trans (waitsMove_congr rfl) (wakeLocal_waits (s.setCounter k { x with value := v }) k v))
    (waitsMove_congr (notifySubs_ctxs _ k v x.stepFlag))

theorem counterOp_waits (s : State) (k op v : Nat) : WaitsMove s (counterOp s k op v) := by
  unfold counterOp
  split
  · split
    · exact fun _ => rfl
    · exact counterSet_waits _ _ _ _
  · exact fun _ => rfl

/-- Completion counts the record, raises its event and adds to its counter. -/
theorem completeRec_waits (s : State) (c : Nat) (r : Rec) : WaitsMove s (completeRec s c r) := by
  have h0 : WaitsMove s (raiseIf r.notify (s.inc R.CTX_RETIRED_RETIRED c 1) .CTX c 10) := waitsMove_congr (by simp)
  unfold completeRec
  dsimp only
  split
  · split
    · exact h0.trans (counterOp_waits _ _ _ _)
    · exact h0
  · exact h0

/-- The context once its record is over. -/
def Ctx.ended (x : Ctx) : Ctx := { x with cur := none, block := .none, wait := none }

theorem finishCur_eq (s : State) (c : Nat) (r : Rec) :
    finishCur s c r = settle ((completeRec s c r).setCtx c (ctxOf s c).ended) c := by
  have h : { ctxOf (completeRec s c r) c with cur := none, block := .none, wait := none } = (ctxOf s c).ended :=
    congrArg (fun x : Ctx => { x with cur := none, block := .none }) (completeRec_waits s c r c)
  exact congrArg (fun x => settle ((completeRec s c r).setCtx c x) c) h

theorem finishCur_agrees (s : State) (c : Nat) (r : Rec) : (ctxOf (finishCur s c r) c).Agrees (ctxOf s c).ended := by
  have h := settle_agrees ((completeRec s c r).setCtx c (ctxOf s c).ended) c
  rw [ctxOf_setCtx_same] at h
  rwa [finishCur_eq]

theorem finishCur_others (s : State) (c : Nat) (r : Rec) : othersStand s (finishCur s c r) c := by
  rw [finishCur_eq]
  exact othersStand_trans ((completeRec_waits s c r).stand c)
    (OthersStay.trans (othersStay_setCtx _ _ _) (settle_others _ _)).stand

theorem finishCur_mem {s : State} {c : Nat} (r : Rec) (h : (ctxOf s c).preempting = false) : (finishCur s c r).mem = s.mem := by
  rw [finishCur_eq, settle_frame (by simpa [Ctx.ended] using h)]
  exact completeRec_mem s c r

theorem releaseCur_agrees (s : State) (c : Nat) : (ctxOf (releaseCur s c) c).Agrees { ctxOf s c with cur := none, block := .none } := by
  have h := settle_agrees (s.setCtx c { ctxOf s c with cur := none, block := .none }) c
  rwa [ctxOf_setCtx_same] at h

theorem releaseCur_others (s : State) (c : Nat) : OthersStay s (releaseCur s c) c :=
  OthersStay.trans (othersStay_setCtx _ _ _) (settle_others _ _)

theorem releaseCur_mem {s : State} {c : Nat} (h : (ctxOf s c).preempting = false) : (releaseCur s c).mem = s.mem := by
  unfold releaseCur
  rw [settle_frame (by simpa using h)]
  rfl

end Sys2Proof.Machine

namespace Sys2Proof.Machine

open Sys2Proof

/-! ## Control flow -/

/-- What every record that completes at once leaves of its context, of the others and of the rest of the module. -/
structure Ends (s t : State) (c : Nat) : Prop where
  others : othersStand s t c
  tmp : t.tmp = s.tmp
  flights : t.flights = s.flights
  mem : (ctxOf s c).preempting = false → t.mem = s.mem

theorem finishCur_ends (s : State) (c : Nat) (r : Rec) : Ends s (finishCur s c r) c :=
  ⟨finishCur_others s c r, finishCur_tmp s c r, finishCur_flights s c r, finishCur_mem r⟩

/-- A record that moves its own context and then completes. -/
theorem finishCur_setCtx_ends (s : State) (c : Nat) (r : Rec) (x : Ctx) (hp : x.preempting = (ctxOf s c).preempting) :
    Ends s (finishCur (s.setCtx c x) c r) c where
  others := othersStand_trans (othersStay_setCtx s c x).stand (finishCur_others _ c r)
  tmp := finishCur_tmp _ c r
  flights := finishCur_flights _ c r
  mem := fun h => finishCur_mem r (by rw [ctxOf_setCtx_same, hp, h])

theorem finishCur_setCtx_agrees (s : State) (c : Nat) (r : Rec) (x : Ctx) :
    (ctxOf (finishCur (s.setCtx c x) c r) c).Agrees x.ended := by
  have h := finishCur_agrees (s.setCtx c x) c r
  rwa [ctxOf_setCtx_same] at h

theorem curRec_some {s : State} {c op : Nat} {r : Rec} (h : curRec s c op = some r) :
    (ctxOf s c).state = .running ∧ (ctxOf s c).cur = some r ∧ r.opcode = op := by
  unfold curRec at h
  split at h
  · split at h
    · obtain rfl := Option.some.inj h
      exact ⟨‹_›, ‹_›, ‹_›⟩
    · cases h
  · cases h

/-- The issue turn of a record of the command window that meets no error (R206). -/
theorem issueFrom_window {s : State} {c : Nat} {bs : List Byte} {rest : List (List Byte)}
    (hr : (ctxOf s c).reissue = []) (hp : (ctxOf s c).pc = none) (hq : (ctxOf s c).queue = bs :: rest)
    (hf : fenced s c bs = false) :
    issueFrom s c = acceptRec (s.setCtx c { ctxOf s c with queue := rest, qpos := ((ctxOf s c).qpos + 1) % 1024 }) c
      ⟨bs, .ring (ctxOf s c).qpos⟩ := by
  unfold issueFrom
  dsimp only
  rw [hr, hp, hq]
  simp [hf]

/-- A record whose context becomes `x` with it, and that meets no error, is the one its context executes. -/
theorem acceptRec_setCtx {s : State} {c : Nat} {x : Ctx} {r : Rec}
    (hc : recCheck ((s.inc R.DSP_RECORDS_RECORDS (homeDie s c) 1).setCtx c { x with state := .running, block := .none, cur := some r }) c r = 0) :
    acceptRec (s.setCtx c x) c r =
      (s.inc R.DSP_RECORDS_RECORDS (homeDie s c) 1).setCtx c { x with state := .running, block := .none, cur := some r } := by
  have hu : ((s.setCtx c x).inc R.DSP_RECORDS_RECORDS (homeDie s c) 1).setCtx c
      { ctxOf (s.setCtx c x) c with state := .running, block := .none, cur := some r } =
      (s.inc R.DSP_RECORDS_RECORDS (homeDie s c) 1).setCtx c { x with state := .running, block := .none, cur := some r } := by
    rw [ctxOf_setCtx_same]
    exact setCtx_setCtx (s.inc R.DSP_RECORDS_RECORDS (homeDie s c) 1) c x _
  rw [← hu] at hc ⊢
  exact if_pos hc

/-- RECORD_ISSUE of a record of the command window (R206). -/
theorem issueTurn_window {s : State} {d c : Nat} {bs : List Byte} {rest : List (List Byte)} (hd : s.on R.DIE_STS_IN_RESET d = false)
    (hn : nextCtx s d = some c) (hr : (ctxOf s c).reissue = []) (hp : (ctxOf s c).pc = none) (hq : (ctxOf s c).queue = bs :: rest)
    (hf : fenced s c bs = false) (hc : recCheck (issued s d c bs rest) c ⟨bs, .ring (ctxOf s c).qpos⟩ = 0) :
    issueTurn s d = issued s d c bs rest := by
  unfold issueTurn
  rw [hd, hn]
  exact (issueFrom_window (s := { s with served := Tbl.set s.served d c }) hr hp hq hf).trans (acceptRec_setCtx hc)

/-- The completion of a record that signals nothing. -/
theorem completeRec_plain {r : Rec} (hs : r.sigDone = false) (s : State) (c : Nat) :
    completeRec s c r = raiseIf r.notify (s.inc R.CTX_RETIRED_RETIRED c 1) .CTX c 10 := by
  unfold completeRec
  rw [hs]
  rfl

/-- What a completed NOP leaves of the counters. -/
theorem finishCur_retired {s : State} {c : Nat} {r : Rec} (hc : c < 64) (hp : (ctxOf s c).preempting = false) (hs : r.sigDone = false) :
    (finishCur s c r).syn = s.syn ∧ (finishCur s c r).rd R.CTX_RETIRED_RETIRED c =
      min (2 ^ R.CTX_RETIRED_RETIRED.width - 1) (s.rd R.CTX_RETIRED_RETIRED c + 1) := by
  have hrd (t : State) : (raise t .CTX c 10).rd R.CTX_RETIRED_RETIRED c = t.rd R.CTX_RETIRED_RETIRED c :=
    rd_raiseSlot t _ _ (p := .CTX) (by decide) (by simp only [slotOf]; omega)
  rw [finishCur_eq, completeRec_plain hs, settle_frame (by simpa [Ctx.ended] using hp)]
  unfold raiseIf
  split
  · exact ⟨raise_syn _ _ _ _, (hrd _).trans (rd_inc_same _ _ _ _)⟩
  · exact ⟨rfl, rd_inc_same _ _ _ _⟩

/-- A context that goes on at `pc` with the frames `fs`. -/
def Ctx.jump (x : Ctx) (pc : Option Nat) (fs : List Frame) : Ctx := { x with pc := pc, frames := fs }

/-- The frame as the LOOP at `a` starts again `lo`, with its index `it` (R210). -/
def Frame.again (f : Frame) (a lo it : Nat) : Frame :=
  { f with loops := (a, it) :: f.loops.filter (fun l => l.1 != a && !(lo ≤ l.1 && l.1 < a)) }

/-- The frame as the LOOP at `a` goes on (R210). -/
def Frame.past (f : Frame) (a : Nat) : Frame := { f with loops := f.loops.filter (fun l => l.1 != a) }

/-- A record that moves where its context goes on completes: the context stands there. -/
structure Jumps (s t : State) (c : Nat) (pc : Option Nat) (fs : List Frame) : Prop extends Ends s t c where
  cur : (ctxOf t c).cur = none
  pc : (ctxOf t c).pc = pc
  frames : (ctxOf t c).frames = fs
  queue : (ctxOf t c).queue = (ctxOf s c).queue

theorem finishCur_jumps (s : State) (c : Nat) (r : Rec) (pc : Option Nat) (fs : List Frame) :
    Jumps s (finishCur (s.setCtx c ((ctxOf s c).jump pc fs)) c r) c pc fs :=
  have h := finishCur_setCtx_agrees s c r ((ctxOf s c).jump pc fs)
  ⟨finishCur_setCtx_ends s c r _ rfl, h.cur, h.pc, h.frames, h.queue⟩

theorem callRec_jumps (s : State) (c : Nat) (r : Rec) :
    Jumps s (callRec s c r) c (some (r.op64 8)) (⟨r.op64 8, nextPc (ctxOf s c), []⟩ :: (ctxOf s c).frames) := finishCur_jumps s c r _ _

/-- The address at which a RET goes on. -/
def Pc.address : Pc → Option Nat
  | .mem a => some a
  | .ring _ => none

theorem retRec_jumps {s : State} {c : Nat} (r : Rec) {f : Frame} {fs : List Frame} (hf : (ctxOf s c).frames = f :: fs) :
    Jumps s (retRec s c r) c f.back.address fs := by
  unfold retRec
  dsimp only
  split
  · obtain ⟨rfl, rfl⟩ := List.cons.inj (‹(ctxOf s c).frames = _›.symm.trans hf)
    exact finishCur_jumps s c r _ _
  · simp_all

theorem loopRec_jumps {s : State} {c : Nat} {r : Rec} {a : Nat} {f : Frame} {fs : List Frame} (ha : r.at' = .mem a)
    (hf : (ctxOf s c).frames = f :: fs) :
    (Tbl.get 0 f.loops a + 1 < r.count →
      Jumps s (loopRec s c r) c (some (a - 64 * r.back)) (f.again a (a - 64 * r.back) (Tbl.get 0 f.loops a + 1) :: fs)) ∧
    (r.count ≤ Tbl.get 0 f.loops a + 1 → Jumps s (loopRec s c r) c (ctxOf s c).pc (f.past a :: fs)) := by
  unfold loopRec
  dsimp only
  split
  · obtain ⟨rfl, rfl⟩ := List.cons.inj (‹(ctxOf s c).frames = _›.symm.trans hf)
    obtain rfl := Pc.mem.inj (‹r.at' = _›.symm.trans ha)
    refine ⟨fun h => ?_, fun h => ?_⟩
    · rw [if_pos h]
      exact finishCur_jumps s c r _ _
    · rw [if_neg (Nat.not_lt.mpr h)]
      exact finishCur_jumps s c r _ _
  · simp_all

/-- Settles O30. -/
theorem recordsIssueAndControlFlow : Obligations.RecordsIssueAndControlFlow := by
  refine fun s c on hc => ⟨fun d bs rest hd hreset hn hr hp hq hf hk => ?_, fun r hr => ?_, fun r hr => ?_, fun r f fs hr hf => ?_,
    fun r a f fs hr ha hf => ?_⟩
  · have hx : ctxOf (issued s d c bs rest) c = _ := ctxOf_setCtx_same _ _ _
    refine ⟨issued s d c bs rest, ?_, ?_⟩
    · show onUnit s d 8 _ = _
      rw [onUnit_on on hd, issueTurn_window hreset hn hr hp hq hf hk]
    · rw [hx]
      exact ⟨rfl, rfl, rfl, rfl, (othersStay_setCtx _ c _).stand, rfl, rfl, rfl, tbl_get_set_same _ _ _ _⟩
  · have ha := finishCur_agrees s c r
    have he := finishCur_ends s c r
    exact ⟨_, onRec_on on hc hr _, ha.cur, ha.pc, ha.frames, ha.queue, he.others, he.tmp, he.flights,
      fun hp => ⟨he.mem hp, finishCur_retired hc hp⟩⟩
  · have h := callRec_jumps s c r
    exact ⟨_, onRec_on on hc hr _, h.cur, h.pc, h.frames, h.queue, h.others, h.tmp, h.flights, h.mem⟩
  · have h := retRec_jumps r hf
    refine ⟨_, onRec_on on hc hr _, h.cur, fun a hb => ?_, fun q hb => ?_, h.frames, h.queue, h.others, h.tmp, h.flights, h.mem⟩
    · rw [h.pc, hb]
      rfl
    · rw [h.pc, hb]
      rfl
  · obtain ⟨hagain, hpast⟩ := loopRec_jumps (s := s) (c := c) ha hf
    rcases Nat.lt_or_ge (Tbl.get 0 f.loops a + 1) r.count with hlt | hge
    · have h := hagain hlt
      exact ⟨_, onRec_on on hc hr _, h.cur, h.queue, fun _ => ⟨h.pc, _, h.frames, rfl, rfl, if_pos rfl⟩,
        fun hge => absurd hlt (Nat.not_lt.mpr hge), h.others, h.tmp, h.flights, h.mem⟩
    · have h := hpast hge
      exact ⟨_, onRec_on on hc hr _, h.cur, h.queue, fun hlt => absurd hlt (Nat.not_lt.mpr hge), fun _ => ⟨h.pc, h.frames⟩,
        h.others, h.tmp, h.flights, h.mem⟩

end Sys2Proof.Machine

namespace Sys2Proof.Machine

open Sys2Proof

/-! ## Submission, residency and pre-emption -/

/-- A field of a context's page reads as before an event of it. -/
theorem rd_raise_ctx {s : State} {f : Field} {c : Nat} (hf : f ∈ blockFields .CTX) (hc : c < 64) (p : Page) (i b : Nat) :
    (raise s p i b).rd f c = s.rd f c :=
  rd_raiseSlot s _ _ (p := .CTX) hf (by simp only [slotOf]; omega)

theorem saveCtx_resident {s : State} {c : Nat} (h : (ctxOf s c).resident = true) :
    saveCtx s c = ((s.setCtx c { ctxOf s c with resident := false }).inc R.DSP_SAVES_SAVES (homeDie s c) 1).undefine (saveArea s c) 0x12000 := by
  unfold saveCtx
  exact if_pos h

/-- Pre-empted between records with nothing in flight, a context is saved and PREEMPTED (R228). -/
theorem settle_preempted {s : State} {c : Nat} (hst : (ctxOf s c).state = .idle ∨ (ctxOf s c).state = .ready) (hc : (ctxOf s c).cur = none)
    (hp : (ctxOf s c).preempting = true) (hf : flightsOf s c = []) :
    settle s c = raise ((saveCtx s c).setCtx c
      { ctxOf (saveCtx s c) c with state := .preempted, preempting := false, block := .none, since := (saveCtx s c).clock }) .CTX c 8 := by
  unfold settle
  rcases hst with h | h
  · simp [h, hc, hp, hf]
  · simp [h, hc, hp, hf]

/-- PREEMPT of an IDLE or READY context with nothing in flight (R228). -/
theorem preemptCtx_between {s : State} {c : Nat} (hst : (ctxOf s c).state = .idle ∨ (ctxOf s c).state = .ready) (hc : (ctxOf s c).cur = none)
    (hf : flightsOf s c = []) :
    (ctxOf (preemptCtx s c) c).state = .preempted ∧ (ctxOf (preemptCtx s c) c).resident = false ∧
      (ctxOf (preemptCtx s c) c).preempting = false ∧ (ctxOf (preemptCtx s c) c).queue = (ctxOf s c).queue ∧
      othersStand s (preemptCtx s c) c := by
  have heq : preemptCtx s c = settle (s.setCtx c { ctxOf s c with preempting := true }) c := by
    unfold preemptCtx
    rcases hst with h | h <;> simp only [h]
  have hag := settle_agrees (s.setCtx c { ctxOf s c with preempting := true }) c
  have hot := settle_others (s.setCtx c { ctxOf s c with preempting := true }) c
  have hset := settle_preempted (s := s.setCtx c { ctxOf s c with preempting := true }) (c := c)
    (by simpa using hst) (by simpa using hc) (by simp) hf
  rw [ctxOf_setCtx_same] at hag
  rw [heq]
  refine ⟨?_, ?_, ?_, hag.queue, (OthersStay.trans (othersStay_setCtx _ _ _) hot).stand⟩ <;>
    rw [hset, ctxOf_congr (raise_ctxs _ _ _ _), ctxOf_setCtx_same]
  rw [saveCtx_ctx]

/-- PREEMPT of a RUNNING context marks it (R228). -/
theorem preemptCtx_running {s : State} {c : Nat} (hst : (ctxOf s c).state = .running) (hc : (ctxOf s c).cur.isSome = true) :
    preemptCtx s c = s.setCtx c { ctxOf s c with preempting := true } := by
  unfold preemptCtx settle
  simp [hst, hc]

/-- A record that is queued settles its context alone. -/
theorem submitTo_queued {s : State} {c : Nat} (bs : List Byte) (hf : (ctxOf s c).state ≠ .free) (hq : (ctxOf s c).state ≠ .quarantine)
    (hl : (ctxOf s c).queue.length < 1024) :
    submitTo s c bs = settle (s.setCtx c { ctxOf s c with queue := (ctxOf s c).queue ++ [bs] }) c := by
  unfold submitTo
  exact if_neg (by simp [hf, hq]; omega)

theorem exec_recordSubmit {s : State} {c off : Nat} {bs : List Byte} (on : s.power.on = true) (hc : c < 64) (ho : off / 0x10000 = c)
    (hb : bs.length = 64) (ha : off % 64 = 0) (hg : isGuestCtx s c = false) : exec (.recordSubmit off bs) s = .next (submitTo s c bs) := by
  subst ho
  show onUnit s _ 64 _ = _
  rw [onUnit_on on hc]
  simp [hb, ha, hg]

/-- Settles O28. -/
theorem contextsAreFedAndSchedulable : Obligations.ContextsAreFedAndSchedulable := by
  refine fun s c on hc => ⟨fun off bs ho hb ha hg => ⟨fun hf hq hl => ?_, fun hlost => ?_⟩, fun hst hm => ?_, fun hst hr hn => ?_,
    fun hst hr hf => ?_, fun hst hcur => ?_, fun hst hcur hf => ?_⟩
  · have hag := settle_agrees (s.setCtx c { ctxOf s c with queue := (ctxOf s c).queue ++ [bs] }) c
    rw [ctxOf_setCtx_same] at hag
    refine ⟨_, exec_recordSubmit on hc ho hb ha hg, ?_⟩
    rw [submitTo_queued bs hf hq hl]
    refine ⟨hag.queue, hag.cur, (OthersStay.trans (othersStay_setCtx _ _ _) (settle_others _ _)).stand, settle_tmp _ _, settle_flights _ _,
      fun hp => ?_⟩
    rw [settle_frame (by simpa using hp)]
    rfl
  · have heq : submitTo s c bs = raise (s.inc R.CTX_OVF_OVF c 1) .CTX c 9 := if_pos hlost
    refine ⟨_, exec_recordSubmit on hc ho hb ha hg, ?_⟩
    rw [heq, rd_raise_ctx (by decide) hc, rd_inc_same]
    exact ⟨raise_ctxs _ _ _ _, raise_mem _ _ _ _, rfl⟩
  · have heq : createCtx s c = clearErr (clearAflags (s.setCtx c { Ctx.freed with state := .idle, since := s.clock }) c) c := if_pos ⟨hst, hm⟩
    refine ⟨_, onUnit_on on hc _, ?_⟩
    rw [heq, ctxOf_congr ((clearErr_ctxs _ _).trans (clearAflags_ctxs _ _)), ctxOf_setCtx_same]
    refine ⟨rfl, fun d hd => ?_, rd_wr_same _ _ _ _, by simp, by simp⟩
    rw [ctxOf_congr ((clearErr_ctxs _ _).trans (clearAflags_ctxs _ _)), ctxOf_setCtx_other _ _ hd]
  · have heq : loadOp s c = (s.setCtx c { ctxOf s c with resident := true }).inc R.DSP_LOADS_LOADS (homeDie s c) 1 :=
      if_pos ⟨hst, by simp [hr], hn⟩
    refine ⟨_, onUnit_on on hc _, ?_⟩
    rw [heq]
    exact ⟨ctxOf_setCtx_same _ _ _, (othersStay_setCtx s c _).stand, rfl, rd_inc_same _ _ _ _⟩
  · have heq : saveOp s c = saveCtx s c := by
      unfold saveOp
      simp [hr, hf, hst]
    refine ⟨_, onUnit_on on hc _, ?_⟩
    rw [heq]
    refine ⟨saveCtx_ctx s c, (saveCtx_others s c).stand, ?_⟩
    rw [saveCtx_resident hr]
    exact ⟨rfl, rd_inc_same _ _ _ _⟩
  · show onUnit s c 64 _ = _
    rw [onUnit_on on hc, preemptCtx_running hst hcur]
  · exact ⟨_, onUnit_on on hc _, preemptCtx_between hst hcur hf⟩

/-! ## Recovery, reset and teardown -/

/-- Settling a context whose registers moved before. -/
theorem rd_settle {s : State} {c : Nat} (h : (ctxOf s c).preempting = false) (f : Field) (i : Nat) : (settle s c).rd f i = s.rd f i := by
  rw [settle_frame h]
  rfl

/-- What RESUME and SKIP of a FAULTED context leave: CTX_ERR is clear, the context is `x` but for its state, and nothing else changes. -/
theorem settle_cleared {s : State} {c : Nat} {x : Ctx} (hp : x.preempting = false) :
    let t := settle ((clearErr s c).setCtx c x) c
    (ctxOf t c).Agrees x ∧ t.rd R.CTX_ERR_VALID c = 0 ∧ othersStand s t c ∧ t.mem = s.mem ∧ t.tmp = s.tmp := by
  have hag := settle_agrees ((clearErr s c).setCtx c x) c
  rw [ctxOf_setCtx_same] at hag
  have hp' : (ctxOf ((clearErr s c).setCtx c x) c).preempting = false := by rwa [ctxOf_setCtx_same]
  refine ⟨hag, ?_, (OthersStay.trans (othersStay_setCtx (clearErr s c) c x) (settle_others _ _)).stand, ?_, ?_⟩
  · rw [rd_settle hp']
    exact rd_wr_same _ _ _ _
  · rw [settle_frame hp']
    rfl
  · rw [settle_frame hp']
    rfl

/-- RESUME of a FAULTED context issues its failed record again (R214). -/
theorem resumeCtx_faulted {s : State} {c : Nat} {r : Rec} (hst : (ctxOf s c).state = .faulted) (hfl : (ctxOf s c).failed = some r)
    (hfe : r.fetched = true) :
    resumeCtx s c = settle ((clearErr s c).setCtx c
      { ctxOf s c with state := .waiting, block := .none, failed := none, reissue := r :: (ctxOf s c).reissue }) c := by
  unfold resumeCtx
  simp [hst, hfl, hfe]

/-- SKIP of a FAULTED context leaves its failed record behind (R214). -/
theorem skipCtx_faulted {s : State} {c : Nat} {r : Rec} (hst : (ctxOf s c).state = .faulted) (hfl : (ctxOf s c).failed = some r)
    (hfe : r.fetched = true) :
    skipCtx s c = settle ((clearErr s c).setCtx c { ctxOf s c with state := .waiting, block := .none, failed := none }) c := by
  unfold skipCtx
  rw [if_pos hst]
  cases hpc : (ctxOf s c).pc with
  | none => simp [hfl, hpc]
  | some a => simp [hfl, hpc, hfe]

/-- RESUME of a PREEMPTED context without an error or a WAIT kept back (R228). -/
theorem resumeCtx_preempted {s : State} {c : Nat} (hst : (ctxOf s c).state = .preempted) (hd : (ctxOf s c).deferredErr = false)
    (hw : (ctxOf s c).wait = none) :
    resumeCtx s c = settle (s.setCtx c { ctxOf s c with state := .waiting }) c := by
  unfold resumeCtx resumePreempted
  simp [hst, hd, hw]

/-- A context without counters breaks none. -/
theorem breakOwned_none {s : State} {c : Nat} (h : s.syn.counters.filter (fun e => e.2.owner == c) = []) : breakOwned s c = s := by
  unfold breakOwned
  rw [h]
  rfl

/-- Steps 1 to 3 of Table 8.9 for a context that owns no counter, while no step is under way. -/
theorem resetCtx_quarantines {s : State} {c : Nat} (destroy : Bool) (hf : (ctxOf s c).state ≠ .free) (hq : (ctxOf s c).state ≠ .quarantine)
    (hu : stepUnderWay s = false) (ho : s.syn.counters.filter (fun e => e.2.owner == c) = []) :
    let t := resetCtx s c destroy
    t.ctxs = Tbl.set s.ctxs c { Ctx.freed with state := .quarantine, qpos := (ctxOf s c).qpos, since := s.clock, destroying := destroy } ∧
      t.tmp = s.tmp := by
  have hclock : (cancelSub s c).clock = s.clock := congrArg Kept.clock (cancelSub_kept s c)
  have hgo : ∀ v w : State, v.tmp = s.tmp → v.syn = s.syn → (if isStepCtx (breakOwned v c) c = true ∧ stepUnderWay (breakOwned v c) = true then w
      else breakOwned v c) = v := by
    intro v w ht hs
    rw [breakOwned_none (by rwa [hs]), if_neg]
    unfold stepUnderWay at hu ⊢
    rw [ht, hu]
    simp
  unfold resetCtx
  dsimp only
  split
  · contradiction
  · contradiction
  · rw [hgo _ _ (by split <;> simp) (by split <;> simp)]
    constructor
    · rw [abandonPackets_ctxs]
      split <;> simp [State.setCtx, hclock]
    · rw [abandonPackets_tmp]
      split <;> simp

theorem resetCtx_ctx {s : State} {c : Nat} {destroy : Bool} {x : Ctx} (h : (resetCtx s c destroy).ctxs = Tbl.set s.ctxs c x) :
    ctxOf (resetCtx s c destroy) c = x ∧ othersStand s (resetCtx s c destroy) c := by
  constructor
  · unfold ctxOf
    rw [h, tbl_get_set_same]
  · intro d hd
    unfold ctxOf
    rw [h, tbl_get_set_other _ _ _ hd]

/-- The end of QUARANTINE after CTX_RESET (Table 8.9). -/
theorem endQuarantine_idle {s : State} {c : Nat} (hst : (ctxOf s c).state = .quarantine) (hdr : ctxDraining (prune s) c = false)
    (hd : (ctxOf s c).destroying = false) :
    endQuarantine s c = raise ((prune s).setCtx c { ctxOf s c with state := .idle, since := s.clock }) .CTX c 11 := by
  have hx : ctxOf (prune s) c = ctxOf s c := rfl
  unfold endQuarantine
  dsimp only
  rw [hx, if_neg (by simp [hst, hdr]), if_neg (by simp [hd])]
  rfl

/-- The end of QUARANTINE after DESTROY (Table 8.9). -/
theorem endQuarantine_frees {s : State} {c : Nat} (hst : (ctxOf s c).state = .quarantine) (hdr : ctxDraining (prune s) c = false)
    (hd : (ctxOf s c).destroying = true) :
    let u := resetCfg ((prune s).setCtx c Ctx.freed) c
    endQuarantine s c = raise { u with syn := { u.syn with bindings := u.syn.bindings.filter (fun b => b.1.1 != c) } } .CTX c 7 := by
  have hx : ctxOf (prune s) c = ctxOf s c := rfl
  unfold endQuarantine
  dsimp only
  rw [hx, if_neg (by simp [hst, hdr]), if_pos hd]

/-- Settles O29. -/
theorem contextsRecoverAndEnd : Obligations.ContextsRecoverAndEnd := by
  refine fun s c on hc => ⟨fun r hst hfl hfe hcur hp => ⟨?_, ?_⟩, fun hst hd hw hcur hp hn hb => ?_, fun hf hq hu ho => ⟨?_, ?_⟩,
    fun hst hdr => ⟨fun hd => ?_, fun hd => ?_⟩⟩
  · obtain ⟨hag, hv, hot, hm, ht⟩ := settle_cleared (s := s) (c := c)
      (x := { ctxOf s c with state := .waiting, block := .none, failed := none, reissue := r :: (ctxOf s c).reissue }) hp
    have hready := settle_ready (c := c) (s := (clearErr s c).setCtx c
      { ctxOf s c with state := .waiting, block := .none, failed := none, reissue := r :: (ctxOf s c).reissue })
      (by simp) (by simpa using hcur) (by simpa using hp) (by simp [hasNext]) (by simp)
    refine ⟨_, onUnit_on on hc _, ?_⟩
    rw [resumeCtx_faulted hst hfl hfe]
    refine ⟨?_, hag.failed, hag.reissue, hv, hot, hm, ht⟩
    rw [hready, ctxOf_setCtx_same]
  · obtain ⟨hag, hv, hot, hm, ht⟩ := settle_cleared (s := s) (c := c)
      (x := { ctxOf s c with state := .waiting, block := .none, failed := none }) hp
    refine ⟨_, onUnit_on on hc _, ?_⟩
    rw [skipCtx_faulted hst hfl hfe]
    exact ⟨hag.failed, hag.reissue, hag.pc, hv, hot, hm, ht⟩
  · show onUnit s c 64 _ = _
    rw [onUnit_on on hc, resumeCtx_preempted hst hd hw,
      settle_ready (by simp) (by simpa using hcur) (by simpa using hp) (by simpa [hasNext] using hn) (by simpa using hb), ctxOf_setCtx_same,
      setCtx_setCtx]
  · obtain ⟨hctxs, ht⟩ := resetCtx_quarantines false hf hq hu ho
    obtain ⟨hx, hot⟩ := resetCtx_ctx hctxs
    refine ⟨_, onUnit_on on hc _, ?_⟩
    rw [hx]
    exact ⟨rfl, rfl, rfl, rfl, hot, ht⟩
  · obtain ⟨hctxs, ht⟩ := resetCtx_quarantines true hf hq hu ho
    obtain ⟨hx, hot⟩ := resetCtx_ctx hctxs
    refine ⟨_, onUnit_on on hc _, ?_⟩
    rw [hx]
    exact ⟨rfl, rfl, rfl, rfl, hot, ht⟩
  · refine ⟨_, onUnit_on on hc _, ?_⟩
    rw [endQuarantine_idle hst hdr hd, ctxOf_congr (raise_ctxs _ _ _ _), ctxOf_setCtx_same]
    refine ⟨rfl, fun d hd => ?_, by simp⟩
    rw [ctxOf_congr (raise_ctxs _ _ _ _), ctxOf_setCtx_other _ _ hd]
    rfl
  · refine ⟨_, onUnit_on on hc _, ?_⟩
    rw [endQuarantine_frees hst hdr hd, ctxOf_congr (raise_ctxs _ _ _ _)]
    refine ⟨ctxOf_setCtx_same _ _ _, fun d hd => ?_, by rw [raise_syn]; rfl, by simp⟩
    rw [ctxOf_congr (raise_ctxs _ _ _ _)]
    exact congrArg (fun x : Ctx => { x with wait := none }) (ctxOf_setCtx_other _ _ hd)

end Sys2Proof.Machine

namespace Sys2Proof.Machine

open Sys2Proof

/-! ## Copies and stamps -/

theorem preempting_waits {s t : State} (h : WaitsMove s t) (c : Nat) : (ctxOf t c).preempting = (ctxOf s c).preempting := by
  have := congrArg Ctx.preempting (h c)
  exact this

/-- A record completes after something that moved neither contexts, step nor flights. -/
theorem finishCur_after {s u : State} (c : Nat) (r : Rec) (hc : u.ctxs = s.ctxs) (ht : u.tmp = s.tmp) (hf : u.flights = s.flights) :
    (ctxOf (finishCur u c r) c).cur = none ∧ othersStand s (finishCur u c r) c ∧ (finishCur u c r).tmp = s.tmp ∧
      (finishCur u c r).flights = s.flights ∧ ((ctxOf s c).preempting = false → (finishCur u c r).mem = u.mem) :=
  ⟨(finishCur_agrees u c r).cur, othersStand_trans (othersStay_congr hc c).stand (finishCur_others u c r),
    (finishCur_tmp u c r).trans ht, (finishCur_flights u c r).trans hf, fun hp => finishCur_mem r (by rwa [ctxOf_congr hc])⟩

/-- A record goes into flight after something that moved neither contexts nor step (R209). -/
theorem releaseCur_after {s u : State} (c : Nat) (hc : u.ctxs = s.ctxs) (ht : u.tmp = s.tmp) :
    (ctxOf (releaseCur u c) c).cur = none ∧ othersStand s (releaseCur u c) c ∧ (releaseCur u c).tmp = s.tmp ∧
      (releaseCur u c).flights = u.flights ∧ ((ctxOf s c).preempting = false → (releaseCur u c).mem = u.mem) :=
  ⟨(releaseCur_agrees u c).cur, (OthersStay.trans (othersStay_congr hc c) (releaseCur_others u c)).stand,
    (releaseCur_tmp u c).trans ht, releaseCur_flights u c, fun hp => releaseCur_mem (by rwa [ctxOf_congr hc])⟩

/-- The record in flight under `id` completes (R209): the flight is over and memory stays unless its context is being pre-empted. -/
theorem completeFlight_after {s u : State} (id : Nat) (f : Flight) (hc : u.ctxs = s.ctxs) (ht : u.tmp = s.tmp) (hf : u.flights = s.flights) :
    let t := completeFlight u id f
    t.flights = s.flights.filter (fun e => e.1 != id) ∧ t.tmp = s.tmp ∧ othersStand s t f.ctx ∧
      ((ctxOf s f.ctx).preempting = false → t.mem = u.mem) := by
  have hw := completeRec_waits (u.dropFlight id) f.ctx f.record
  refine ⟨?_, ?_, ?_, fun hp => ?_⟩
  · unfold completeFlight
    rw [settle_flights, completeRec_flights, ← hf]
    rfl
  · unfold completeFlight
    rw [settle_tmp, completeRec_tmp]
    exact ht
  · exact othersStand_trans (othersStay_congr (t := u.dropFlight id) hc f.ctx).stand
      (othersStand_trans (hw.stand f.ctx) (settle_others _ _).stand)
  · have hp' : (ctxOf (u.dropFlight id) f.ctx).preempting = false := by
      rwa [ctxOf_congr (t := u.dropFlight id) (s := s) hc]
    unfold completeFlight
    rw [settle_frame ((preempting_waits hw f.ctx).trans hp')]
    exact completeRec_mem _ _ _

/-- A local COPY goes into flight (R212, R165). -/
theorem copyRec_local {s : State} {c : Nat} {r : Rec} (hr : r.remote = false) (hn : r.len ≠ 0)
    (hu : unservable s c r [(r.addr s c 8, r.len), (r.addr s c 0x10, r.len)] = none) :
    copyRec s c r = releaseCur (launch s c r .copyLocal 1 (direct s (r.addr s c 8)) (direct s (r.addr s c 0x10)) r.len
      (touchesHost (r.addr s c 8) r.len || touchesHost (r.addr s c 0x10) r.len)).2 c := by
  unfold copyRec
  dsimp only
  rw [if_neg hn, hr, hu]
  rfl

/-- A local copy that nothing stops moves its bytes (R177). -/
theorem endCopy_local {s : State} {id : Nat} {f : Flight} (hw : f.work = .copyLocal) (hs : accessBlocked s f.src f.len = none)
    (hd : accessBlocked s f.dst f.len = none) (hh : f.host = true → hostUsable s = true) (ht : waitsTouch s f.dst f.len = false)
    (h1 : waitsHearth s f.src f.len = false) (h2 : waitsHearth s f.dst f.len = false) :
    endCopy s id f = completeFlight (writeAny (readAny s f.src f.len).2 f.dst (readAny s f.src f.len).1) id f := by
  have hhost : (f.host && !hostUsable s) = false := by
    cases h : f.host
    · rfl
    · rw [hh h]
      rfl
  unfold endCopy
  rw [hw]
  simp [hs, hd, hhost, ht, h1, h2]

theorem write8_served {s : State} {c : Nat} {r : Rec} (v : Nat) (hu : unservable s c r [(r.addr s c 8, 8)] = none) :
    write8 s c r v = some (writeAny s (r.addr s c 8) (leBytes 8 v)) := by
  unfold write8
  dsimp only
  rw [hu]

theorem stampRec_served {s : State} {c : Nat} {r : Rec} (ht : waitsTouch s (r.addr s c 8) 8 = false)
    (hu : unservable s c r [(r.addr s c 8, 8)] = none) :
    stampRec s c r = finishCur (writeAny s (r.addr s c 8) (leBytes 8 s.now)) c r := by
  unfold stampRec
  rw [ht, write8_served _ hu]
  rfl

theorem aflagsRec_served {s : State} {c : Nat} {r : Rec} (ht : waitsTouch s (r.addr s c 8) 8 = false)
    (hu : unservable s c r [(r.addr s c 8, 8)] = none) :
    aflagsRec s c r = finishCur (clearAflags (writeAny s (r.addr s c 8) (leBytes 8 (aflags s c))) c) c r := by
  unfold aflagsRec
  rw [ht, write8_served _ hu]
  rfl

/-- Settles O31. -/
theorem copiesAndStampsReachMemory : Obligations.CopiesAndStampsReachMemory := by
  refine fun s on => ⟨fun c r hc hr hrem hn hu => ?_, fun id f hf ha hl hw hs hd hh ht h1 h2 => ?_, fun c r hc hr ht hu => ?_,
    fun c r hc hr ht hu => ?_⟩
  · have h := releaseCur_after (s := s) (u := (launch s c r .copyLocal 1 (direct s (r.addr s c 8)) (direct s (r.addr s c 0x10)) r.len
      (touchesHost (r.addr s c 8) r.len || touchesHost (r.addr s c 0x10) r.len)).2) c rfl rfl
    rw [← copyRec_local hrem hn hu] at h
    obtain ⟨hcur, hot, ht, hf, hm⟩ := h
    exact ⟨_, onRec_on on hc hr _, hcur, hot, ht, ⟨_, hf, rfl, rfl, rfl, rfl, rfl, rfl, rfl, rfl⟩, hm⟩
  · have h := completeFlight_after (s := s) (u := writeAny (readAny s f.src f.len).2 f.dst (readAny s f.src f.len).1) id f
      (by simp) (by simp) (by simp)
    refine ⟨_, ?_, h⟩
    show live s _ = _
    rw [live_on on, hf]
    simp only [ha, hl, Bool.or_self, Bool.false_eq_true, if_false]
    rw [endCopy_local hw hs hd hh ht h1 h2]
  · have h := finishCur_after (s := s) (u := writeAny s (r.addr s c 8) (leBytes 8 s.now)) c r (by simp) (by simp) (by simp)
    rw [← stampRec_served ht hu] at h
    exact ⟨_, onRec_on on hc hr _, h⟩
  · have h := finishCur_after (s := s) (u := clearAflags (writeAny s (r.addr s c 8) (leBytes 8 (aflags s c))) c) c r
      (by simp) (by simp) (by simp)
    rw [← aflagsRec_served ht hu, clearAflags_mem] at h
    exact ⟨_, onRec_on on hc hr _, h⟩

end Sys2Proof.Machine

namespace Sys2Proof.Machine

open Sys2Proof

/-! ## The counter table and the wait graph -/

theorem find?_tbl_set {α : Type} (l : Tbl α) (k j : Nat) (v : α) :
    (Tbl.set l k v).find? (fun e => e.1 == j) = if j = k then some (k, v) else l.find? (fun e => e.1 == j) := by
  induction l with
  | nil =>
    by_cases hj : j = k
    · simp [Tbl.set, hj]
    · simp [Tbl.set, hj, Ne.symm hj]
  | cons e t ih =>
    obtain ⟨i, a⟩ := e
    by_cases hi : i = k
    · subst hi
      by_cases hj : j = i
      · simp [Tbl.set, hj]
      · simp [Tbl.set, hj, Ne.symm hj]
    · by_cases hj : j = k
      · subst hj
        simp [Tbl.set, hi, ih]
      · by_cases hij : i = j
        · simp [Tbl.set, hij, hj]
        · simp [Tbl.set, hi, hij, ih, hj]

theorem counterOf_setCounter_same (s : State) (k : Nat) (x : Counter) : counterOf (s.setCounter k x) k = some x := by
  unfold counterOf State.setCounter
  simp [find?_tbl_set]

theorem counterOf_setCounter_other (s : State) {k j : Nat} (x : Counter) (h : j ≠ k) : counterOf (s.setCounter k x) j = counterOf s j := by
  unfold counterOf State.setCounter
  simp [find?_tbl_set, h]

theorem counterOf_congr {s t : State} (h : t.syn = s.syn) (k : Nat) : counterOf t k = counterOf s k := by
  unfold counterOf
  rw [h]

/-- An apply that is taken is pending no more. -/
theorem armPending_commitApply (s : State) (p : Page) (i : Nat) : armPending (commitApply s p i) p i = false := by
  unfold armPending commitApply
  dsimp only
  rw [hrd_hwr_same]
  rfl

/-- An operation of SYN_OP that succeeds ends its apply (R236). -/
theorem takeSynOp_done {s t : State} {op : Nat} (hp : armPending s .SYN 0 = true) (ho : s.stagedOf R.SYN_OP_OP 0 = op)
    (hs : synOp s op = (0, t)) :
    let u := takeSynOp s op
    u.syn = t.syn ∧ armPending u .SYN 0 = false ∧ u.ctxs = t.ctxs ∧ u.mem = t.mem := by
  have heq : takeSynOp s op = commitApply (t.wr R.SYN_RESULT_RESULT 0 0) .SYN 0 := by
    unfold takeSynOp takeSyn
    rw [hp, ho, hs]
    simp
  dsimp only
  rw [heq]
  exact ⟨by simp, armPending_commitApply _ _ _, by simp, by simp⟩

section Ops

variable {s : State}

theorem synOp_alloc (hn : counterOf s (s.stagedOf R.SYN_PHYS_PHYS 0) = none) (ho : (ctxOf s (s.stagedOf R.SYN_FLAGS_OWNER 0)).state ≠ .free) :
    synOp s 1 = (0, s.setCounter (s.stagedOf R.SYN_PHYS_PHYS 0)
      { value := s.stagedOf R.SYN_INIT_INIT 0, init := s.stagedOf R.SYN_INIT_INIT 0, owner := s.stagedOf R.SYN_FLAGS_OWNER 0,
        remoteOk := s.stagedOf R.SYN_FLAGS_REMOTE_OK 0 == 1, stepFlag := s.stagedOf R.SYN_FLAGS_STEP 0 == 1, broken := false }) := by
  unfold synOp
  simp [hn, ho]

variable {x : Counter} (hx : counterOf s (s.stagedOf R.SYN_PHYS_PHYS 0) = some x)
include hx

theorem synOp_frees (hb : s.syn.bindings.any (fun b => b.2 == s.stagedOf R.SYN_PHYS_PHYS 0) = false)
    (hw : waitersOf s (s.stagedOf R.SYN_PHYS_PHYS 0) = []) (hs : s.syn.subs.any (fun b => b.phys == s.stagedOf R.SYN_PHYS_PHYS 0) = false) :
    synOp s 2 = (0, { s with syn := { s.syn with counters := s.syn.counters.filter (fun e => e.1 != s.stagedOf R.SYN_PHYS_PHYS 0) } }) := by
  unfold synOp
  simp only [hx]
  rw [hb, hw, hs]
  rfl

theorem synOp_bind (hb : s.syn.bindings.any (fun b => b.1 == (s.stagedOf R.SYN_BIND_CTX 0, s.stagedOf R.SYN_BIND_VID 0)) = false)
    (hl : s.syn.bindings.length < 131072) :
    synOp s 3 = (0, { s with syn := { s.syn with bindings := s.syn.bindings ++
      [((s.stagedOf R.SYN_BIND_CTX 0, s.stagedOf R.SYN_BIND_VID 0), s.stagedOf R.SYN_PHYS_PHYS 0)] } }) := by
  unfold synOp
  simp only [hx]
  rw [hb, if_neg (by decide), if_neg (by omega)]

theorem synOp_clearBroken : synOp s 5 = (0, s.setCounter (s.stagedOf R.SYN_PHYS_PHYS 0) { x with broken := false }) := by
  unfold synOp
  simp only [hx]

end Ops

theorem synOp_unbind {s : State} (hb : s.syn.bindings.any (fun b => b.1 == (s.stagedOf R.SYN_BIND_CTX 0, s.stagedOf R.SYN_BIND_VID 0)) = true) :
    synOp s 4 = (0, { s with syn := { s.syn with bindings := s.syn.bindings.filter (fun b =>
      b.1 != (s.stagedOf R.SYN_BIND_CTX 0, s.stagedOf R.SYN_BIND_VID 0)) } }) := by
  unfold synOp
  dsimp only
  rw [hb]
  rfl

/-! The wait graph -/

/-- An entry of PSC_EDGE is written in its own registers. -/
theorem rd_writeEdge (s : State) (c : Nat) {f : Field} (ho : f.off < 0x200) : (writeEdge s c).rd f 0 = s.rd f 0 := by
  have hne : ∀ g : Field, 0x200 ≤ g.off → f.key 0 ≠ g.key 0 := fun g hg h => by
    have : f.off = g.off := congrArg Key.off h
    omega
  unfold writeEdge
  split <;>
    rw [rd_wr_other _ _ (hne _ (by simp [R.PSC_EDGE_PHYS])), rd_wr_other _ _ (hne _ (by simp [R.PSC_EDGE_OWNER])),
      rd_wr_other _ _ (hne _ (by simp [R.PSC_EDGE_VALID]))]

theorem rd_writeEdges (l : List Nat) {f : Field} (ho : f.off < 0x200) : ∀ s : State, (l.foldl writeEdge s).rd f 0 = s.rd f 0 := by
  induction l with
  | nil => exact fun _ => rfl
  | cons c t ih => exact fun s => (ih _).trans (rd_writeEdge s c ho)

/-- A deadlock that is found first is declared (R227). -/
theorem evalWaits_declares {s : State} (he : s.on R.PSC_CTL_EN 0 = true) (hd : pscDead s = true) (hn : s.on R.PSC_STS_DEADLOCK 0 = false) :
    evalWaits s = raise (((((List.range 64).foldl writeEdge ((s.wr R.PSC_STS_COUNT 0
      ((List.range 64).filter (fun c => (pscHeld s c).isSome)).length).wr R.PSC_STS_DEADLOCK 0 1)).wr R.PSC_TIME_TIME 0 s.now)).inc
        R.PSC_DECLARED_DECLARED 0 1) .PSC 0 4 := by
  unfold evalWaits
  rw [if_pos he]
  dsimp only
  rw [if_pos hd, hn]
  rfl

/-- Settles O35. -/
theorem theCounterTable : Obligations.TheCounterTable := by
  refine fun s on => ⟨fun hp => ⟨fun ho hn hf => ?_, fun x ho hx hb hw hs => ?_, fun x ho hx hb hl => ?_, fun ho hb => ?_, fun x ho hx => ?_⟩,
    fun he => ⟨fun hd => ?_, fun hd hn => ?_⟩⟩
  · obtain ⟨hs, ha, hc, hm⟩ := takeSynOp_done hp ho (synOp_alloc hn hf)
    refine ⟨_, live_on on _, ?_, fun j hj => ?_, ha, hc, hm⟩
    · rw [counterOf_congr hs, counterOf_setCounter_same]
    · rw [counterOf_congr hs, counterOf_setCounter_other _ _ hj]
  · exact ⟨_, live_on on _, takeSynOp_done hp ho (synOp_frees hx hb hw hs)⟩
  · exact ⟨_, live_on on _, takeSynOp_done hp ho (synOp_bind hx hb hl)⟩
  · exact ⟨_, live_on on _, takeSynOp_done hp ho (synOp_unbind hb)⟩
  · obtain ⟨hs, ha, hc, hm⟩ := takeSynOp_done hp ho (synOp_clearBroken hx)
    refine ⟨_, live_on on _, ?_, fun j hj => ?_, ha, hc, hm⟩
    · rw [counterOf_congr hs, counterOf_setCounter_same]
    · rw [counterOf_congr hs, counterOf_setCounter_other _ _ hj]
  · show live s _ = _
    rw [live_on on]
    unfold evalWaits
    rw [if_pos he]
    dsimp only
    rw [hd]
    rfl
  · have hr (f : Field) (hf : f ∈ blockFields .PSC) (t : State) : (raise t .PSC 0 4).rd f 0 = t.rd f 0 :=
      rd_raiseSlot t _ _ (p := .PSC) hf (by decide)
    refine ⟨_, live_on on _, ?_⟩
    rw [evalWaits_declares he hd hn]
    refine ⟨?_, ?_, ?_, by simp, by simp⟩
    · rw [hr _ (by decide), rd_inc_other _ _ (by decide), rd_wr_other _ _ (by decide), rd_writeEdges _ (by decide), rd_wr_same]
      rfl
    · rw [hr _ (by decide), rd_inc_other _ _ (by decide), rd_wr_same]
      rfl
    · rw [hr _ (by decide), rd_inc_same, rd_wr_other _ _ (by decide), rd_writeEdges _ (by decide), rd_wr_other _ _ (by decide),
        rd_wr_other _ _ (by decide)]
      rfl

end Sys2Proof.Machine

namespace Sys2Proof.Machine

open Sys2Proof

/-! ## Packets that arrive in their turn -/

@[simp] theorem flowOf_setFlow_same (s : State) (f : Nat) (x : Flow) : flowOf (s.setFlow f x) f = x := tbl_get_set_same _ _ _ _

theorem flowOf_setFlow_other (s : State) {f g : Nat} (x : Flow) (h : g ≠ f) : flowOf (s.setFlow f x) g = flowOf s g :=
  tbl_get_set_other _ _ _ h

theorem flowOf_congr {s t : State} (h : t.xp = s.xp) (f : Nat) : flowOf t f = flowOf s f := by
  unfold flowOf
  rw [h]

/-- The next SEQ of a flow moves CUM on by one (R272). -/
theorem mark_next {x : Flow} {q : Nat} (hq : q = x.rxCum) (hm : x.rxMarks = []) :
    x.mark q = { x with rxCum := (q + 1) % 2 ^ 32, rxMarks := (x.mark q).rxMarks } := by
  have hne : (q + 1) % 2 ^ 32 ≠ q := by omega
  have hcum : (x.mark q).rxCum = (q + 1) % 2 ^ 32 := by
    unfold Flow.mark
    rw [hm, ← hq]
    simp only [List.length_singleton, List.range_succ, List.range_zero, List.nil_append, List.cons_append, List.foldl_cons, List.foldl_nil]
    simp
    omega
  rw [← hcum]
  rfl

/-- With no SIGNAL held there is none to deliver (R271). -/
theorem runHeld_none {s : State} {plane f : Nat} (h : (flowOf s f).heldSignals = []) : ∀ n, runHeld s plane f n = s
  | 0 => rfl
  | n + 1 => by
    unfold runHeld
    simp [h]

theorem noteDelivery_flow (s : State) (f q : Nat) :
    (flowOf (noteDelivery s f q) f).rxCum = ((flowOf s f).mark q).rxCum ∧
      (flowOf (noteDelivery s f q) f).heldSignals = (flowOf s f).heldSignals := by
  unfold noteDelivery
  rw [flowOf_setFlow_same]
  exact ⟨rfl, rfl⟩

/-- What a verdict leaves of the SIGNALs that the flow holds. -/
theorem applyVerdict_held (s : State) (plane f q : Nat) (v : Verdict) :
    (flowOf (applyVerdict s plane f q v) f).heldSignals = (flowOf s f).heldSignals := by
  cases v with
  | done => exact (noteDelivery_flow (s.inc R.XPT_RX_PKTS_RX_PKTS (planeDie plane) 1) f q).2
  | drop => exact (noteDelivery_flow s f q).2
  | nak r => exact congrArg Flow.heldSignals (flowOf_congr (sendFlowNak_xp s f q r) f)
  | lost => rfl

/-- A packet that passes the checks of R270 in its turn is delivered, and the verdict acknowledges it. -/
theorem receiveSeq_arrives {s : State} {plane : Nat} {c : PClass} {p : Packet} {deliver : Delivery} (h : Arrives s plane c p)
    (hheld : (flowOf (deliver s p.flow p).1 p.flow).heldSignals = []) :
    receiveSeq s plane c p deliver = applyVerdict (deliver s p.flow p).1 plane p.flow p.seq (deliver s p.flow p).2 := by
  have hopen : planeOpen s plane = true := by
    unfold planeOpen
    simp [h.named, h.linked]
  have hver : versionOf s p = some s.xp.slc.cur := if_pos h.epoch
  have hcheck : checkPacket s plane c p = .pass s := by
    obtain ⟨hs0, hsl⟩ := h.slice
    have hlife := h.lifetime
    have hcrc := h.crc
    have hv := h.version
    have hd := h.dest
    unfold checkPacket
    dsimp only
    rw [if_neg (by simpa using hcrc), if_neg (by simpa using hv)]
    split
    · rfl
    · rw [if_neg (Nat.not_lt.mpr hlife), if_neg (fun h => h.elim hs0 fun h => h.1 hsl), hver]
      exact if_pos hd
  have hflow : openFlowOf s p = some (flowOf s p.flow) := if_pos ⟨h.opened, h.peer⟩
  have hn := h.next
  unfold receiveSeq
  rw [if_neg (by simp [hopen]), hcheck]
  dsimp only
  rw [hflow]
  dsimp only
  rw [if_neg (by simp [h.marks, hn]), if_neg (by omega), if_neg (by simp [hn]),
    runHeld_none (by rw [applyVerdict_held, hheld])]

theorem receiveSeq_done {s : State} {plane : Nat} {c : PClass} {p : Packet} {deliver : Delivery} {t : State} (h : Arrives s plane c p)
    (hd : deliver s p.flow p = (t, .done)) (hf : flowOf t p.flow = flowOf s p.flow) :
    receiveSeq s plane c p deliver = noteDelivery (t.inc R.XPT_RX_PKTS_RX_PKTS (planeDie plane) 1) p.flow p.seq := by
  rw [receiveSeq_arrives h (by rw [hd, hf, h.held]), hd]
  rfl

/-- CUM after a delivery in its turn. -/
theorem noteDelivery_cum {s t : State} {plane : Nat} {c : PClass} {p : Packet} (h : Arrives s plane c p) (hf : flowOf t p.flow = flowOf s p.flow) :
    (flowOf (noteDelivery t p.flow p.seq) p.flow).rxCum = (p.seq + 1) % 2 ^ 32 := by
  rw [(noteDelivery_flow _ _ _).1, hf, mark_next h.next h.marks]

/-! ### Notices to a waiter (R221) -/

/-- A notice that moves its waiter alone. -/
theorem notice_done {s : State} {plane : Nat} {p : Packet} {deliver : Delivery} {kind : Nat} {x : Ctx} (h : Arrives s plane .SIGNAL p)
    (hk : sigKind p = kind) (hd : deliver s p.flow p = (s.setCtx (sigCtx p) x, .done)) :
    let t := receiveSignal s plane kind p deliver
    ctxOf t (sigCtx p) = x ∧ (∀ d, d ≠ sigCtx p → ctxOf t d = ctxOf s d) ∧ t.mem = s.mem ∧ t.tmp = s.tmp ∧
      (flowOf t p.flow).rxCum = (p.seq + 1) % 2 ^ 32 := by
  have heq : receiveSignal s plane kind p deliver = noteDelivery ((s.setCtx (sigCtx p) x).inc R.XPT_RX_PKTS_RX_PKTS (planeDie plane) 1) p.flow p.seq :=
    (if_pos hk).trans (receiveSeq_done h hd rfl)
  dsimp only
  rw [heq]
  exact ⟨ctxOf_setCtx_same _ _ _, fun d hd => ctxOf_setCtx_other _ _ hd, rfl, rfl, noteDelivery_cum h rfl⟩

/-! ### A command error -/

/-- A field of a context's page reads as before an error of that context is logged. -/
theorem rd_logErr_ctx {s : State} {f : Field} {c : Nat} (hf : f ∈ blockFields .CTX) (hc : c < 64) (code : Nat) (cl : EClass) (unit addr : Nat)
    (detail : List Nat) : (logErr s .CTX c code cl unit addr detail).rd f c = s.rd f c := by
  have hpage := (page_off_of_mem_blockFields _ f hf).1
  have hne : f.key c ≠ (R.FLT_CLASS_CNT_COUNT cl.code).key 0 := by
    intro h
    have hslot : canonSlot (slotOf f.page c) = 0xB := congrArg Key.slot h
    rw [hpage, canonSlot_eq (by simp only [slotOf]; omega)] at hslot
    simp only [slotOf] at hslot
    omega
  have hcount : (countClass s .CTX c cl).rd f c = s.rd f c :=
    (rd_raise_ctx hf hc .FLT 0 (4 + cl.code)).trans (rd_inc_other _ _ hne)
  unfold logErr
  dsimp only
  split
  · exact hcount
  · rw [rd_raise_ctx hf hc, hcount]

/-- What CTX_ERR holds after a command error (R214). -/
theorem rd_fillErr (s : State) {c source code : Nat} (pc : Pc) (e : SyncErr) (hcode : code < 256) :
    (fillErr s c source code pc e).rd R.CTX_ERR_CODE c = code ∧ (fillErr s c source code pc e).rd R.CTX_ERR_VALID c = 1 := by
  have hne (f g : Field) (h : f.off ≠ g.off ∨ f.lo ≠ g.lo) : f.key c ≠ g.key c := fun hk =>
    h.elim (fun h => h (congrArg Key.off hk)) (fun h => h (congrArg Key.lo hk))
  unfold fillErr
  dsimp only
  constructor
  · iterate 9 rw [rd_wr_other _ _ (hne _ _ (by decide))]
    rw [rd_wr_same]
    exact Nat.mod_eq_of_lt hcode
  · iterate 7 rw [rd_wr_other _ _ (hne _ _ (by decide))]
    rw [rd_wr_same]
    rfl

/-- A command error of a WAITING context in its WAIT, while no step is under way (R214, R219). -/
theorem cmdErrorAt_wait {s : State} {c source code : Nat} {r : Rec} {e : SyncErr} {w : WaitState} (hc : c < 64) (hcode : code < 256)
    (hst : (ctxOf s c).state = .waiting) (hw : (ctxOf s c).wait = some w) (hr : w.record = r) (hp : s.tmp.phase = .idle) :
    let t := cmdErrorAt s c source code r e
    (ctxOf t c).state = .faulted ∧ (ctxOf t c).failed = some r ∧ (ctxOf t c).wait = none ∧ t.rd R.CTX_ERR_CODE c = code ∧
      t.rd R.CTX_ERR_VALID c = 1 ∧ (∀ d, d ≠ c → ctxOf t d = ctxOf s d) ∧ t.mem = s.mem ∧ t.tmp = s.tmp ∧ t.xp = s.xp := by
  have herr : ∀ u : State, u.tmp = s.tmp → errState u c = .faulted := by
    intro u hu
    unfold errState
    rw [hu, hp]
    simp
  have hnone : (match (ctxOf s c).wait with | some w => if w.record = r then none else some w | none => none) = none := by
    rw [hw]
    exact if_pos hr
  unfold cmdErrorAt
  simp only [hst, hw, hr, if_true]
  rw [herr _ (by simp)]
  simp only [reduceCtorEq, false_and, if_false]
  refine ⟨by simp, by simp, by simp, ?_, ?_, fun d hd => ?_, by simp, by simp, by simp⟩
  · exact (rd_raise_ctx (by decide) hc _ _ _).trans ((rd_logErr_ctx (by decide) hc _ _ _ _ _).trans (rd_fillErr s _ e hcode).1)
  · exact (rd_raise_ctx (by decide) hc _ _ _).trans ((rd_logErr_ctx (by decide) hc _ _ _ _ _).trans (rd_fillErr s _ e hcode).2)
  · rw [ctxOf_setCtx_other _ _ hd]
    exact ctxOf_congr (by simp) d

theorem waiterOf_some {s : State} {p : Packet} {w : WaitState} (h : waiterOf s p = some w) : (ctxOf s (sigCtx p)).wait = some w := by
  unfold waiterOf at h
  split at h
  · split at h
    · obtain rfl := Option.some.inj h
      assumption
    · cases h
  · cases h

theorem sigCtx_lt (p : Packet) : sigCtx p < 64 := Nat.mod_lt _ (by decide)

/-- Settles O34. -/
theorem noticesEndRemoteWaits : Obligations.NoticesEndRemoteWaits := by
  refine fun s k p w on => ⟨fun h hw => ⟨fun hk => ?_, fun hk => ?_, fun hk hst hp => ?_⟩, fun c u hc hw hu ht => ?_⟩
  · have hd : deliverNotify s p.flow p = (s.setCtx (sigCtx p) { ctxOf s (sigCtx p) with
        wait := some { w with notified := some (sigValue p), lastValue := sigValue p } }, .done) := by
      unfold deliverNotify
      rw [hw]
    exact ⟨_, onUnit_on on h.named _, notice_done h hk hd⟩
  · have hd : deliverBusy s p.flow p = (s.setCtx (sigCtx p) { ctxOf s (sigCtx p) with
        wait := some { w with busyUntil := some (s.clock + 10000) } }, .done) := by
      unfold deliverBusy
      rw [hw]
    exact ⟨_, onUnit_on on h.named _, notice_done h hk hd⟩
  · have hd : deliverBroken s p.flow p = (brokenWake s (sigCtx p) w w.lastValue, .done) := by
      unfold deliverBroken
      rw [hw]
    obtain ⟨hs, hf, hn, hcode, hv, ho, hm, ht, hx⟩ := cmdErrorAt_wait (source := 0) (code := 0x0A) (r := w.record)
      (e := ⟨w.vid, w.phys, w.remote.getD 0, w.remote.isSome, w.value, w.lastValue⟩)
      (sigCtx_lt p) (by decide) hst (waiterOf_some hw) rfl hp
    have heq : receiveSignal s k 3 p deliverBroken = _ := (if_pos hk).trans (receiveSeq_done h hd (flowOf_congr hx _))
    have hkey (f : Field) (hf : f.off ≠ R.XPT_RX_PKTS_RX_PKTS.off) : f.key (sigCtx p) ≠ R.XPT_RX_PKTS_RX_PKTS.key (planeDie k) :=
      fun h => hf (congrArg Key.off h)
    refine ⟨_, onUnit_on on h.named _, ?_⟩
    rw [heq]
    exact ⟨hs, hf, hn, (rd_inc_other _ _ (hkey _ (by decide))).trans hcode, (rd_inc_other _ _ (hkey _ (by decide))).trans hv, ho, hm, ht⟩
  · have heq : retrySub s c = sendSubscribe (s.setCtx c { ctxOf s c with wait := some { w with busyUntil := none } }) c w := by
      unfold retrySub
      dsimp only
      rw [hw]
      dsimp only
      rw [hu]
      exact if_pos ht
    refine ⟨_, onUnit_on on hc _, ?_⟩
    rw [heq, ctxOf_congr (sendSubscribe_ctxs _ _ _), ctxOf_setCtx_same]
    refine ⟨rfl, fun d hd => ?_, by simp, by simp, by simp⟩
    rw [ctxOf_congr (sendSubscribe_ctxs _ _ _), ctxOf_setCtx_other _ _ hd]

end Sys2Proof.Machine

namespace Sys2Proof.Machine

open Sys2Proof

/-! ## The vote -/

/-- Away from the root of its tree a module's records come to no result (R312). -/
theorem contribute_no_result {s : State} {tree : Nat} {level : Option Nat} {bs : List Byte}
    (hp : treeParent (sliceSize s) (sliceSize s - 1) (ownRank s) ≠ none) : (contribute s tree level bs).2 = none := by
  obtain ⟨⟨l, host⟩, h⟩ := Option.ne_none_iff_exists'.mp hp
  unfold contribute
  extract_lets k e0 e1 s'
  have h' : treeParent (sliceSize s') (sliceSize s' - 1) (ownRank s') = some (l, host) := h
  rw [h']
  split
  · split <;> rfl
  · rfl

/-- A record joins a reduction: neither the step nor a context nor memory changes. -/
theorem contribute_frame (s : State) (tree : Nat) (level : Option Nat) (bs : List Byte) :
    (contribute s tree level bs).1.tmp = s.tmp ∧ (contribute s tree level bs).1.attempt = s.attempt ∧
      (contribute s tree level bs).1.ctxs = s.ctxs ∧ (contribute s tree level bs).1.mem = s.mem :=
  ⟨contribute_tmp _ _ _ _, contribute_attempt _ _ _ _, contribute_ctxs _ _ _ _, contribute_mem _ _ _ _⟩

/-- VOTE_SEND away from the root (R25). -/
theorem sendVote_part {s : State} (hp : s.tmp.phase = .check) (hc : s.attempt.checkStarted = true) (hv : s.attempt.vote = none)
    (hh : s.heals.all (·.held) = true) (hl : loupeHoldsVote s = false)
    (ht : treeParent (sliceSize s) (sliceSize s - 1) (ownRank s) ≠ none) :
    sendVote s = (contribute { s with
      tmp := { s.tmp with phase := .vote }
      attempt := { s.attempt with vote := some (ownVote s), deadline := s.clock + voteTimeoutNs s } } 0 none (voteBytes (ownVote s) s.tmp.att)).1 := by
  unfold sendVote
  rw [if_pos ⟨hp, hc, by simp [hv], hh, by simp [hl]⟩]
  extract_lets v tm at' s'
  have h := contribute_no_result (s := s') (tree := 0) (level := none) (bs := voteBytes v s'.tmp.att) ht
  show _ = (contribute s' 0 none (voteBytes v s'.tmp.att)).1
  split
  next heq =>
    rw [heq] at h
    cases h
  next heq => rw [heq]

/-- The reductions hosted beside one. -/
def votesBeside (s : State) (tree step att : Nat) : List VoteEntry :=
  s.weld.votes.filter (fun e => !(e.tree == tree && e.step == step && e.att == att))

/-- The reduction of a record's key, as one that lacks the module's own record (R312). -/
theorem contribute_waits {s : State} {tree l : Nat} {bs : List Byte}
    (ho : (entryFor s tree (recordKey tree bs).1 (recordKey tree bs).2).own = none) :
    ∃ e : VoteEntry, e.tree = tree ∧ e.step = (recordKey tree bs).1 ∧ e.att = (recordKey tree bs).2 ∧
      e.got.any (fun g => g.1 == l) = true ∧ contribute s tree (some l) bs =
        ({ s with weld := { s.weld with votes := votesBeside s tree (recordKey tree bs).1 (recordKey tree bs).2 ++ [e] } }, none) := by
  have hkey : ∀ a b, (entryFor s tree a b).tree = tree ∧ (entryFor s tree a b).step = a ∧ (entryFor s tree a b).att = b := by
    intro a b
    unfold entryFor
    split
    next e he =>
      have := List.find?_some he
      simpa [and_assoc] using this
    · exact ⟨rfl, rfl, rfl⟩
  obtain ⟨h1, h2, h3⟩ := hkey (recordKey tree bs).1 (recordKey tree bs).2
  unfold contribute
  dsimp only
  by_cases hg : (entryFor s tree (recordKey tree bs).1 (recordKey tree bs).2).got.any (fun g => g.1 == l) = true
  · refine ⟨_, h1, h2, h3, hg, ?_⟩
    rw [if_pos hg, ho]
    rfl
  · refine ⟨{ entryFor s tree (recordKey tree bs).1 (recordKey tree bs).2 with
      got := (entryFor s tree (recordKey tree bs).1 (recordKey tree bs).2).got ++ [(l, bs)] }, h1, h2, h3, by simp, ?_⟩
    rw [if_neg hg]
    dsimp only
    rw [ho]
    rfl

/-- The entry of a reduction that was put last is the one found. -/
theorem entryFor_last {s t : State} {tree a b : Nat} {e : VoteEntry} (hv : t.weld.votes = votesBeside s tree a b ++ [e])
    (h1 : e.tree = tree) (h2 : e.step = a) (h3 : e.att = b) : entryFor t tree a b = e := by
  have hnone : (votesBeside s tree a b).find? (fun e => e.tree == tree && e.step == a && e.att == b) = none := by
    refine List.find?_eq_none.mpr fun x hx => ?_
    have := (List.mem_filter.mp hx).2
    simp only [Bool.not_eq_true'] at this
    simp [this]
  unfold entryFor
  rw [hv, List.find?_append, hnone]
  simp [h1, h2, h3]

theorem weldTag_pass {s : State} {f : Nat} {p : Packet} {pass : State → State × Verdict} (h : wTag p = none ∨ wTag p = some (s.tmp.step, s.tmp.att)) :
    weldTag s f p pass = pass s := by
  unfold weldTag
  rcases h with h | h
  · rw [h]
  · rw [h]
    simp [tagOrder]

/-- A flow that holds no SIGNAL holds none after a packet is queued. -/
theorem queuePkt_held {s : State} {f : Nat} (node : Nat) (p : OutPkt) (h : (flowOf s f).heldSignals = []) :
    (flowOf (queuePkt s node p) f).heldSignals = [] := by
  have hset : ∀ (u : State) (g : Nat) (x : Flow), (flowOf u f).heldSignals = [] → x.heldSignals = (flowOf u g).heldSignals ∨ x.heldSignals = [] →
      (flowOf (u.setFlow g x) f).heldSignals = [] := by
    intro u g x hu hx
    by_cases hg : f = g
    · subst hg
      rw [flowOf_setFlow_same]
      exact hx.elim (·.trans hu) id
    · rw [flowOf_setFlow_other _ _ hg, hu]
  have hctrl : ∀ (u : State) (n k a b c : Nat), (flowOf u f).heldSignals = [] → (flowOf (sendCtrl u n k a b c).1 f).heldSignals = [] := by
    intro u n k a b c hu
    rw [flowOf_congr (sendCtrl_xp _ _ _ _ _ _), hu]
  have hopen : ∀ (u : State) (g n : Nat) (w : List OutPkt), (flowOf u f).heldSignals = [] → (flowOf (openFlow u g n w) f).heldSignals = [] :=
    fun u g n w hu => hset _ _ _ (hctrl _ _ _ _ _ _ hu) (.inr rfl)
  unfold queuePkt
  split
  · exact hset _ _ _ h (.inl rfl)
  · split
    · exact hopen _ _ _ _ h
    · split
      · exact hopen _ _ _ _ (hset _ _ _ (hctrl _ _ _ _ _ _ h) (.inr rfl))
      · exact (congrArg Flow.heldSignals (congrArg (Tbl.get Flow.freed · f) (congrArg Xport.flows (raise_xp _ _ _ _)))).trans h

theorem sendResult_held {s : State} {f : Nat} (tree : Nat) (bs : List Byte) (h : (flowOf s f).heldSignals = []) :
    (flowOf (sendResult s tree bs) f).heldSignals = [] := by
  have : ∀ (l : List (Nat × Nat)) (u : State), (flowOf u f).heldSignals = [] →
      (flowOf (l.foldl (fun s k => sendTree s (nodeOfRank s k.2) (treePkt s 6 tree k.1 bs)) u) f).heldSignals = [] := by
    intro l
    induction l with
    | nil => exact fun _ h => h
    | cons k l ih => exact fun u hu => ih _ (queuePkt_held (s := u.inc R.WLD_TX_BYTES_TX_BYTES 0 _) _ _ hu)
  exact this _ s h

/-- What a WELD packet in its turn leaves beside its delivery (R271). -/
theorem receiveWeld_arrives {s : State} {k kind : Nat} {p : Packet} {deliver : Delivery} {u : State} (h : Arrives s k .WELD p)
    (hk : weldKind p.payload = kind) (ht : wTag p = none ∨ wTag p = some (s.tmp.step, s.tmp.att)) (hd : deliver s p.flow p = (u, .done))
    (hh : (flowOf u p.flow).heldSignals = []) :
    receiveWeld s k kind p deliver = noteDelivery ((u.inc R.WLD_RX_BYTES_RX_BYTES (flowDie p.flow) p.payload.length).inc
      R.XPT_RX_PKTS_RX_PKTS (planeDie k) 1) p.flow p.seq := by
  have hres : weldTag s p.flow p (fun s => deliver s p.flow p) = (u, .done) := (weldTag_pass ht).trans hd
  unfold receiveWeld
  rw [if_pos hk, receiveSeq_arrives h (by dsimp only; rw [hres]; exact hh)]
  dsimp only
  rw [hres]
  rfl

/-- An OK result of the step vote that is not late is held until T_flip (R26). -/
theorem voteResult_held {s : State} {bs : List Byte} (hp : s.tmp.phase = .vote) (hlo : (voteOf bs).stepMin ≤ s.tmp.step)
    (hhi : s.tmp.step ≤ (voteOf bs).stepMax) (ha : voteAtt bs = s.tmp.att) (hf : (voteOf bs).fails = none) (ht : s.now ≤ (voteOf bs).flipT) :
    voteResult s bs = { s with
      tmp := { s.tmp with phase := .flipWait }, attempt := { s.attempt with result := some ((voteOf bs).flipT, (voteOf bs).cap) } } := by
  unfold voteResult
  dsimp only
  rw [if_pos ⟨hp, hlo, hhi, ha⟩, hf]
  exact if_neg (Nat.not_lt.mpr ht)

/-- Settles O22. -/
theorem votesAreSentHeldAndAnswered : Obligations.VotesAreSentHeldAndAnswered := by
  refine fun s on => ⟨fun hp hc hv hh hl ht => ?_, fun k p h hk ht hf hw ho => ?_, fun k p h hk ht hw hlen hp hlo ha hf hn hhi => ?_⟩
  · obtain ⟨h1, h2, h3, h4⟩ := contribute_frame { s with
      tmp := { s.tmp with phase := .vote }
      attempt := { s.attempt with vote := some (ownVote s), deadline := s.clock + voteTimeoutNs s } } 0 none (voteBytes (ownVote s) s.tmp.att)
    refine ⟨_, live_on on _, ?_⟩
    rw [sendVote_part hp hc hv hh hl ht]
    exact ⟨h1, h2, h3, h4⟩
  · obtain ⟨e, h1, h2, h3, hg, heq⟩ := contribute_waits (l := wLevel p) ho
    have hd : deliverVote s p.flow p = ((contribute s (wTree p) (some (wLevel p)) (wData p)).1, .done) := by
      unfold deliverVote
      dsimp only
      rw [if_pos (by simp [hf, hw]), heq]
    rw [heq] at hd
    refine ⟨_, onUnit_on on h.named _, ?_⟩
    rw [receiveWeld_arrives h hk ht hd h.held]
    refine ⟨rfl, rfl, rfl, rfl, noteDelivery_cum h rfl, ?_⟩
    rw [entryFor_last (s := s) rfl h1 h2 h3]
    exact hg
  · have hp' : (sendResult s 0 (wData p)).tmp = s.tmp := sendResult_tmp _ _ _
    have hd : deliverResult (fun t => decide (t < 2)) s p.flow p = (voteResult (sendResult s 0 (wData p)) (wData p), .done) := by
      unfold deliverResult
      dsimp only
      rw [if_pos (by simp [hlen, hw]), hw]
      rfl
    have hnow : (sendResult s 0 (wData p)).now = s.now := sendResult_now _ _ _
    rw [voteResult_held (by rw [hp', hp]) (hp' ▸ Nat.le_of_eq hlo) (by rwa [hp']) (by rw [hp', ha]) hf (by rwa [hnow])] at hd
    have heq : execResult k p s = .next (receiveWeld s k 6 p (deliverResult (fun t => decide (t < 2)))) := by
      unfold execResult
      rw [onUnit_on on h.named, if_neg (by simp [hw])]
    refine ⟨_, heq, ?_⟩
    rw [receiveWeld_arrives h hk (.inl ht) hd (sendResult_held (s := s) 0 (wData p) h.held)]
    exact ⟨congrArg (fun t : Tmp => { t with phase := .flipWait }) hp', congrArg (fun a : Attempt => { a with
      result := some ((voteOf (wData p)).flipT, (voteOf (wData p)).cap) }) (sendResult_attempt _ _ _), sendResult_ctxs _ _ _, sendResult_mem _ _ _⟩

end Sys2Proof.Machine

namespace Sys2Proof.Machine

open Sys2Proof

/-! ## HOLD, STEP and TEMPER -/

/-- A record that waits: its context is WAITING in it and nothing else changes. -/
theorem blockOn_waits (s : State) (c : Nat) (b : Block) :
    (ctxOf (blockOn s c b) c).state = .waiting ∧ (ctxOf (blockOn s c b) c).block = b ∧
      blockOn s c b = { s with ctxs := (blockOn s c b).ctxs } ∧ OthersStay s (blockOn s c b) c := by
  unfold blockOn
  dsimp only
  split
  next h => exact ⟨h.1, h.2, rfl, fun _ _ => rfl⟩
  · rw [ctxOf_setCtx_same]
    exact ⟨rfl, rfl, rfl, othersStay_setCtx _ _ _⟩

/-- A record that waits for the first time. -/
theorem blockOn_running {s : State} {c : Nat} (b : Block) (h : (ctxOf s c).state = .running) :
    blockOn s c b = s.setCtx c { ctxOf s c with state := .waiting, block := b, since := s.clock } := by
  unfold blockOn
  exact if_neg (by simp [h])

/-- HOLD or STEP completes with CTX_RESTART after it (R223). -/
theorem markRestart_marks (s : State) (c : Nat) (r : Rec) :
    let t := markRestart s c r
    t.tmp = s.tmp ∧ t.attempt = s.attempt ∧ (ctxOf t c).cur = none ∧
      (ctxOf t c).restart = some { step := s.tmp.step, pc := nextPc (ctxOf s c), frames := (ctxOf s c).frames } ∧ othersStand s t c := by
  have hag := finishCur_setCtx_agrees s c r { ctxOf s c with
    restart := some { step := s.tmp.step, pc := nextPc (ctxOf s c), frames := (ctxOf s c).frames } }
  have hen := finishCur_setCtx_ends s c r { ctxOf s c with
    restart := some { step := s.tmp.step, pc := nextPc (ctxOf s c), frames := (ctxOf s c).frames } } rfl
  exact ⟨hen.tmp, finishCur_attempt _ _ _, hag.cur, hag.restart, hen.others⟩

/-- The state in which phase 1 begins, with the hold written (R222 steps 2 and 3). -/
def holdBegun (s : State) (r : Rec) (c : Nat) : State :=
  let rd := readAny s (r.addr s c 8) r.batchLen
  let s := rd.2.store s.map.hold (holdHead s r ++ rd.1)
  let s := (s.wr R.SPK_HOLD_G_HOLD_SEED_G 0 (r.op64 0x18)).wr R.SPK_HOLD_U_HOLD_SEED_U 0 (r.op64 0x20)
  { s with
    tmp := { s.tmp with phase := .hold }
    attempt := { Attempt.fresh with heldStop := s.attempt.heldStop } }

theorem beginHold_eq (s : State) (c : Nat) (r : Rec) : beginHold s c r = applyHeldStop (sendHold (blockOn (holdBegun s r c) c .hold)) := rfl

theorem sendHold_attempt_of (s : State) :
    ∃ n, (sendHold s).attempt = { s.attempt with holdWriteLeft := n, holdWriting := true, wardAcked := false } := by
  unfold sendHold
  exact ⟨_, (foldl_attempt _ (fun s x => sendTree_attempt _ _ _) _ _).trans rfl⟩

theorem applyHeldStop_none {s : State} (h : s.attempt.heldStop = none) : applyHeldStop s = s := by
  unfold applyHeldStop
  rw [h]

/-- Phase 1 of an attempt for which no STOP is held (R222). -/
theorem beginHold_begins {s : State} {c : Nat} (r : Rec) (hs : s.attempt.heldStop = none) :
    let t := beginHold s c r
    t.tmp = { s.tmp with phase := .hold } ∧ t.attempt.holdWriting = true ∧ t.attempt.fault = none ∧ (ctxOf t c).state = .waiting ∧
      (ctxOf t c).block = .hold ∧ othersStand s t c ∧
      t.mem = ((readAny s (r.addr s c 8) r.batchLen).2.store s.map.hold (holdHead s r ++ (readAny s (r.addr s c 8) r.batchLen).1)).mem := by
  have hatt : (holdBegun s r c).attempt = Attempt.fresh := by simp [holdBegun, hs, Attempt.fresh]
  have htmp : (holdBegun s r c).tmp = { s.tmp with phase := .hold } := by simp [holdBegun]
  have hctx : (holdBegun s r c).ctxs = s.ctxs := by simp [holdBegun]
  obtain ⟨hst, hbl, heq, hot⟩ := blockOn_waits (holdBegun s r c) c .hold
  have hframe : (blockOn (holdBegun s r c) c .hold).tmp = (holdBegun s r c).tmp ∧
      (blockOn (holdBegun s r c) c .hold).attempt = (holdBegun s r c).attempt ∧
      (blockOn (holdBegun s r c) c .hold).mem = (holdBegun s r c).mem := by
    rw [heq]
    exact ⟨rfl, rfl, rfl⟩
  obtain ⟨ht, ha, hm⟩ := hframe
  obtain ⟨n, hsend⟩ := sendHold_attempt_of (blockOn (holdBegun s r c) c .hold)
  rw [ha, hatt] at hsend
  dsimp only
  rw [beginHold_eq, applyHeldStop_none (by rw [hsend]; rfl), sendHold_tmp, ht, htmp, hsend, sendHold_mem, hm,
    ctxOf_congr (sendHold_ctxs _) c]
  exact ⟨rfl, rfl, rfl, hst, hbl, (OthersStay.trans (othersStay_congr hctx c) (hot.trans (othersStay_congr (sendHold_ctxs _) c))).stand, rfl⟩

/-- Settles O18. -/
theorem stepRecordsComplete : Obligations.StepRecordsComplete := by
  refine fun s c r on hc => ⟨fun hr hv hp => ?_, fun hr hv hp hck hfi hs hu hw => ?_, fun hr hv hp => ?_, fun hr hp => ?_, fun hr hp => ?_,
    fun hr => ?_⟩
  · have heq : holdRec s c r = markRestart s c r := by
      unfold holdRec
      rw [if_pos hv, if_pos hp]
    refine ⟨_, onUnit_on on hc _, ?_⟩
    rw [hr]
    dsimp only
    rw [heq]
    exact markRestart_marks s c r
  · have heq : holdRec s c r = beginHold s c r := by
      unfold holdRec
      rw [if_neg (by simp [hv]), if_pos ⟨hp, hck, hfi⟩, hu]
      dsimp only
      rw [hw]
      rfl
    refine ⟨_, onUnit_on on hc _, ?_⟩
    rw [hr]
    dsimp only
    rw [heq]
    exact beginHold_begins r hs
  · have heq : holdRec s c r = blockOn s c .hold := by
      unfold holdRec
      rw [if_neg (by simp [hv]), if_neg (by simp [hp])]
    obtain ⟨hst, hbl, hfr, hot⟩ := blockOn_waits s c .hold
    refine ⟨_, onUnit_on on hc _, ?_⟩
    rw [hr]
    dsimp only
    rw [heq]
    exact ⟨hst, hbl, hfr, hot.stand⟩
  · refine ⟨_, onUnit_on on hc _, ?_⟩
    rw [hr]
    dsimp only
    rw [show stepRec s c r = markRestart s c r from if_pos hp]
    exact markRestart_marks s c r
  · obtain ⟨hst, hbl, hfr, hot⟩ := blockOn_waits s c .step
    refine ⟨_, onUnit_on on hc _, ?_⟩
    rw [hr]
    dsimp only
    rw [show stepRec s c r = blockOn s c .step from if_neg hp]
    exact ⟨hst, hbl, hfr, hot.stand⟩
  · exact (onRec_on on hc hr _).trans (congrArg _ (blockOn_running _ (curRec_some hr).1))

end Sys2Proof.Machine

namespace Sys2Proof.Machine

open Sys2Proof

/-! ## The hold's acknowledgement, the checks and a late vote -/

/-- A step fault is the attempt's first, or changes nothing (R24). -/
theorem stepFault_attempt_or (s : State) (r : Reason) : (stepFault s r).attempt = s.attempt ∨
    s.attempt.fault = none ∧ (stepFault s r).attempt = { s.attempt with fault := some r } := by
  unfold stepFault
  split
  next h => exact .inr ⟨by simp_all, by simp⟩
  · exact .inl rfl

/-- The first step fault of a live attempt stands. -/
theorem stepFault_first {s : State} (r : Reason) (h : attemptLive s = true) (hf : s.attempt.fault = none) :
    (stepFault s r).attempt.fault = some r := by
  unfold stepFault
  rw [if_pos (by simp [h, hf])]
  simp

/-- From `s` to `t` the checks stay begun and a step fault stays the first. -/
structure ChecksGoOn (s t : State) : Prop where
  started : t.attempt.checkStarted = s.attempt.checkStarted
  fault : s.attempt.fault.isSome = true → t.attempt.fault = s.attempt.fault

theorem stepFault_goesOn (s : State) (r : Reason) : ChecksGoOn s (stepFault s r) := by
  rcases stepFault_attempt_or s r with h | ⟨hf, h⟩
  · exact ⟨by rw [h], fun _ => by rw [h]⟩
  · exact ⟨by rw [h], fun hs => by simp [hf] at hs⟩

theorem ChecksGoOn.of_eq {s t u : State} (h : ChecksGoOn t u) (hc : t.attempt.checkStarted = s.attempt.checkStarted)
    (hf : t.attempt.fault = s.attempt.fault) : ChecksGoOn s u :=
  ⟨h.started.trans hc, fun hs => (h.fault (by rwa [hf])).trans hf⟩

/-- Folding the Touchmark leaves the checks begun and the first fault standing (R348). -/
theorem foldTouch_goesOn (s : State) : ChecksGoOn s (foldTouch s) := by
  unfold foldTouch
  dsimp only
  split
  · exact ⟨rfl, fun _ => rfl⟩
  · exact (stepFault_goesOn _ _).of_eq (by simp) (by simp)

/-- The state in which the checks have begun (R24). -/
def checksBegun (s : State) : State :=
  { s with tmp := { s.tmp with phase := .check }, attempt := { s.attempt with checkStarted := true } }

/-- The check of the mirror and of the hold (R310). -/
def mirrorChecked (s : State) : State := if mirrorMarked s = mirrorNeed s ∧ s.attempt.wardAcked then s else stepFault s .mirrorFail

theorem startChecks_eq {s : State} (hp : s.tmp.phase = .run) (he : (stepCtxs s).isEmpty = false) (ha : (stepCtxs s).all (inTemper s) = true)
    (hw : workLeft s = false) : startChecks s =
      if touchDue (mirrorChecked (checksBegun s)) then foldTouch (mirrorChecked (checksBegun s)) else mirrorChecked (checksBegun s) := by
  unfold startChecks
  rw [if_pos ⟨hp, by simp [he], ha, by simp [hw]⟩]
  rfl

theorem mirrorChecked_whole {s : State} (hm : mirrorMarked s = mirrorNeed s) (hw : s.attempt.wardAcked = true) : mirrorChecked s = s :=
  if_pos ⟨hm, hw⟩

theorem mirrorChecked_lacking {s : State} (h : mirrorMarked s ≠ mirrorNeed s ∨ s.attempt.wardAcked = false) :
    mirrorChecked s = stepFault s .mirrorFail :=
  if_neg fun ⟨hm, hw⟩ => h.elim (· hm) (fun h => by simp [h] at hw)

theorem mirrorChecked_frame (s : State) : (mirrorChecked s).tmp = s.tmp ∧ (mirrorChecked s).ctxs = s.ctxs ∧ ChecksGoOn s (mirrorChecked s) := by
  unfold mirrorChecked
  split
  · exact ⟨rfl, rfl, rfl, fun _ => rfl⟩
  · exact ⟨stepFault_tmp _ _, stepFault_ctxs _ _, stepFault_goesOn _ _⟩

/-- The fold of a due Touchmark leaves the step and the contexts. -/
theorem touchFolded_frame (s : State) : let t := if touchDue s then foldTouch s else s
    t.tmp = s.tmp ∧ t.ctxs = s.ctxs ∧ ChecksGoOn s t := by
  dsimp only
  split
  · exact ⟨foldTouch_tmp _, foldTouch_ctxs _, foldTouch_goesOn _⟩
  · exact ⟨rfl, rfl, rfl, fun _ => rfl⟩

/-- A mirror that is not whole leaves the attempt with a step fault (R310). -/
theorem mirrorChecked_fault {s : State} (hl : attemptLive s = true) (h : mirrorMarked s ≠ mirrorNeed s ∨ s.attempt.wardAcked = false) :
    (mirrorChecked s).attempt.fault.isSome = true ∧ (s.attempt.fault = none → (mirrorChecked s).attempt.fault = some .mirrorFail) := by
  rw [mirrorChecked_lacking h]
  cases hf : s.attempt.fault with
  | none => exact ⟨by rw [stepFault_first _ hl hf]; rfl, fun _ => stepFault_first _ hl hf⟩
  | some q => exact ⟨by rw [(stepFault_goesOn s _).fault (by simp [hf]), hf]; rfl, fun h => by cases h⟩

/-- The state in which the run has begun under the hold (R22). -/
def runBegun (s : State) : State :=
  { s with tmp := { s.tmp with phase := .run, holdValid := true }, attempt := { s.attempt with holdWriting := false, wardAcked := true } }

section

variable {s : State} (hp : s.tmp.phase = .hold) (hw : s.attempt.holdWriting = true) (hl : s.attempt.holdWriteLeft = 0)
include hp hw hl

theorem wardHoldAcked_none (hc : holdCtx s = none) : wardHoldAcked s = runBegun s := by
  unfold wardHoldAcked
  rw [if_pos ⟨hp, hw, hl⟩]
  dsimp only
  split
  next h => exact absurd (h.symm.trans hc) (by simp)
  · rfl

theorem wardHoldAcked_some {c : Nat} {r : Rec} (hc : holdCtx s = some (c, r)) : wardHoldAcked s = markRestart (runBegun s) c r := by
  unfold wardHoldAcked
  rw [if_pos ⟨hp, hw, hl⟩]
  dsimp only
  split
  next h =>
    obtain ⟨rfl, rfl⟩ := Prod.mk.inj (Option.some.inj (h.symm.trans hc))
    rfl
  next h => exact absurd (h.symm.trans hc) (by simp)

end

/-- The module in doubt, with its log entry (R29). -/
def doubted (s : State) : State :=
  let s := raise { s with tmp := { s.tmp with phase := .inDoubt } } .TMP 0 5
  logErr s .TMP 0 2 .STEP (ownRank s) 0 (tmpDetail s s.tmp.lastReason.code)

theorem voteLate_due {s : State} (hp : s.tmp.phase = .vote) (hd : s.attempt.deadline ≤ s.clock) :
    voteLate s = sendStopBurst (doubted s) .voteTimeout := if_pos ⟨hp, hd⟩

/-- The module's own STOP changes neither the step nor a flight where no attempt is live (R286). -/
theorem sendStopBurst_dead (s : State) (r : Reason) (h : attemptLive s = false) :
    (sendStopBurst s r).tmp = s.tmp ∧ (sendStopBurst s r).flights = s.flights := by
  unfold sendStopBurst stopApply
  split
  · exact ⟨rfl, rfl⟩
  · dsimp only
    rw [if_neg]
    · exact ⟨by simp, by simp⟩
    · simpa [attemptLive, Option.ne_none_iff_isSome] using h

/-- Settles O19. -/
theorem checksFollowTheHold : Obligations.ChecksFollowTheHold := by
  refine fun s on => ⟨fun hp hw hl => ?_, fun hp he ha hw => ?_, fun hp hd => ?_⟩
  · refine ⟨_, live_on on _, ?_⟩
    cases hc : holdCtx s with
    | none =>
      rw [wardHoldAcked_none hp hw hl hc]
      exact ⟨rfl, rfl, rfl, fun _ => ⟨rfl, rfl⟩, by simp⟩
    | some x =>
      obtain ⟨c, r⟩ := x
      obtain ⟨h1, h2, h3, h4, h5⟩ := markRestart_marks (runBegun s) c r
      rw [wardHoldAcked_some hp hw hl hc]
      refine ⟨h1, by rw [h2]; rfl, by rw [h2]; rfl, by simp, fun c' r' h => ?_⟩
      obtain ⟨rfl, rfl⟩ := Prod.mk.inj (Option.some.inj h)
      exact ⟨h3, h5, h4⟩
  · obtain ⟨hmt, hmc, hms⟩ := mirrorChecked_frame (checksBegun s)
    obtain ⟨hft, hfc, hfs⟩ := touchFolded_frame (mirrorChecked (checksBegun s))
    refine ⟨_, live_on on _, ?_⟩
    rw [startChecks_eq hp he ha hw]
    refine ⟨hft.trans hmt, hfs.started.trans hms.started, hfc.trans hmc, fun hv hlack => ?_, fun hm hack htd => ?_⟩
    · obtain ⟨hsome, hnone⟩ := mirrorChecked_fault (s := checksBegun s) (by simp [attemptLive, checksBegun, hv]) hlack
      rw [hfs.fault hsome]
      exact ⟨hsome, hnone⟩
    · rw [mirrorChecked_whole (s := checksBegun s) hm hack, if_neg (by rw [show touchDue (checksBegun s) = touchDue s from rfl, htd]; simp)]
      exact ⟨rfl, rfl⟩
  · refine ⟨_, live_on on _, ?_⟩
    rw [voteLate_due hp hd]
    obtain ⟨ht, hf⟩ := sendStopBurst_dead (doubted s) .voteTimeout (by simp [attemptLive, doubted])
    rw [ht, hf]
    exact ⟨by simp [doubted], by simp [doubted], by simp [doubted], by simp [doubted]⟩

end Sys2Proof.Machine

namespace Sys2Proof.Machine

open Sys2Proof

/-! ## Registers: what an update leaves -/

/-- Two fields that stand at different places of their pages. -/
def Field.apart (f g : Field) : Bool := decide (f.off ≠ g.off ∨ f.lo ≠ g.lo)

theorem Field.apart_key {f g : Field} (h : f.apart g = true) (i j : Nat) : f.key i ≠ g.key j := by
  rcases of_decide_eq_true h with h | h
  · exact fun e => h (congrArg Key.off e)
  · exact fun e => h (congrArg Key.lo e)

theorem rd_wr_apart {f g : Field} (h : g.apart f = true) (s : State) (i j v : Nat) : (s.wr f i v).rd g j = s.rd g j :=
  rd_wr_other s v (Field.apart_key h j i)

theorem rd_inc_apart {f g : Field} (h : g.apart f = true) (s : State) (i j n : Nat) : (s.inc f i n).rd g j = s.rd g j :=
  rd_inc_other s n (Field.apart_key h j i)

theorem on_inc_apart {f g : Field} (h : g.apart f = true) (s : State) (i j n : Nat) : (s.inc f i n).on g j = s.on g j :=
  congrArg (· == 1) (rd_inc_apart h s i j n)

theorem rd_raise_quiet {f : Field} {i : Nat} (h : loud (f.key i) = false) (s : State) (p : Page) (j b : Nat) :
    (raise s p j b).rd f i = s.rd f i := raise_quiet _ _ _ _ _ h

theorem rd_raiseIf_quiet {f : Field} {i : Nat} (h : loud (f.key i) = false) (c : Bool) (s : State) (p : Page) (j b : Nat) :
    (raiseIf c s p j b).rd f i = s.rd f i := raiseIf_quiet _ _ _ _ _ _ h

theorem rd_logErr_quiet {f : Field} {i : Nat} (h : loud (f.key i) = false) (s : State) (p : Page) (j code : Nat) (c : EClass) (unit addr : Nat)
    (d : List Nat) : (logErr s p j code c unit addr d).rd f i = s.rd f i := logErr_quiet _ _ _ _ _ _ _ _ _ h

theorem rd_ite (c : Prop) [Decidable c] (s t : State) (f : Field) (i : Nat) :
    (if c then s else t).rd f i = if c then s.rd f i else t.rd f i := apply_ite (fun s : State => s.rd f i) c s t

/-- The fields of a page without loud fields. -/
theorem loud_plain {f : Field} {i : Nat} (h1 : slotOf f.page i < 0x40 ∨ 0x40 ≤ slotOf f.page i ∧ slotOf f.page i % 16 ∈ [4, 6, 7, 8, 9, 0xA, 0xC, 0xD, 0xE, 0xF])
    (h2 : slotOf f.page i ∉ [3, 0xB, 0xC, 0xD]) (ho : 0x100 ≤ f.off) (h4 : slotOf f.page i ≠ 0x104 ∧ slotOf f.page i ≠ 0x114) :
    loud (f.key i) = false := by
  have hs : (f.key i).slot = slotOf f.page i := canonSlot_eq h4.2
  unfold loud
  rw [decide_eq_false_iff_not, hs]
  simp only [List.mem_cons, List.not_mem_nil, or_false, not_or] at h1 h2
  show ¬ (f.off < 0x100 ∨ _)
  omega

/-- The fields of a die's power page are quiet. -/
theorem loud_blw {f : Field} (hp : f.page = .BLW) (ho : 0x100 ≤ f.off) (n : Nat) : loud (f.key n) = false := by
  have : slotOf f.page n = 0x047 + 16 * n := by rw [hp]; rfl
  refine loud_plain (.inr ?_) ?_ ho ?_
  · rw [this]
    simp
    omega
  · rw [this]
    simp
    omega
  · rw [this]
    omega

/-- Fields of a die's power page are apart on two dies. -/
theorem key_blw {f g : Field} (hf : f.page = .BLW) (hg : g.page = .BLW) {n m : Nat} (h : n ≠ m) : f.key n ≠ g.key m := by
  have hs (k : Nat) : canonSlot (slotOf .BLW k) = 0x047 + 16 * k := canonSlot_eq (show 0x047 + 16 * k ≠ 0x114 by omega)
  intro e
  have := congrArg Key.slot e
  simp only [Field.key, hf, hg, hs] at this
  omega

/-- A fold over the units of the module at its turn of unit `n`: what the turns of the others keep is as before it and after it. -/
theorem foldl_range_at (g : State → Nat → State) {k n : Nat} (hn : n < k) (s : State) :
    ∃ u, ∀ {β : Type} (π : State → β), (∀ m s, m ≠ n → π (g s m) = π s) → π u = π s ∧ π ((List.range k).foldl g s) = π (g u n) := by
  have hkeep : ∀ {β : Type} (π : State → β) (l : List Nat), (∀ m s, m ≠ n → π (g s m) = π s) → n ∉ l → ∀ s, π (l.foldl g s) = π s := by
    intro β π l h
    induction l with
    | nil => exact fun _ _ => rfl
    | cons m l ih => exact fun hl s => (ih (fun h => hl (.tail _ h)) _).trans (h m s (fun e => hl (e ▸ .head _)))
  obtain ⟨l₁, l₂, hl⟩ := List.append_of_mem (List.mem_range.mpr hn)
  have hnd : (l₁ ++ n :: l₂).Nodup := hl ▸ List.nodup_range
  have h1 : n ∉ l₁ := fun h => (List.nodup_append.mp hnd).2.2 n h n (.head _) rfl
  have h2 : n ∉ l₂ := (List.nodup_cons.mp (List.nodup_append.mp hnd).2.1).1
  refine ⟨l₁.foldl g s, fun π h => ⟨hkeep π l₁ h h1 s, ?_⟩⟩
  rw [hl, List.foldl_append, List.foldl_cons]
  exact hkeep π l₂ h h2 _

/-- What every turn of a fold keeps, the fold keeps. -/
theorem foldl_keeps {α β : Type} (π : State → β) {g : State → α → State} (h : ∀ x s, π (g s x) = π s) (l : List α) : ∀ s, π (l.foldl g s) = π s := by
  induction l with
  | nil => exact fun _ => rfl
  | cons x l ih => exact fun s => (ih _).trans (h x s)

end Sys2Proof.Machine

namespace Sys2Proof.Machine

open Sys2Proof

/-! ## The caps of the dies -/

theorem thmT_apart {f : Field} (h : f.off < 0x110 ∨ f.lo ≠ 24) (n : Nat) : (R.THM_DIE_T n).apart f = true :=
  decide_eq_true (h.elim (fun h => .inl (show 0x110 + 4 * n ≠ f.off by omega)) (fun h => .inr (Ne.symm h)))

theorem rd_wr_thmT {f : Field} (h : f.off < 0x110 ∨ f.lo ≠ 24) (s : State) (n i v : Nat) :
    (s.wr f i v).rd (R.THM_DIE_T n) 0 = s.rd (R.THM_DIE_T n) 0 := rd_wr_apart (thmT_apart h n) _ _ _ _

theorem rd_inc_thmT {f : Field} (h : f.off < 0x110 ∨ f.lo ≠ 24) (s : State) (n i k : Nat) :
    (s.inc f i k).rd (R.THM_DIE_T n) 0 = s.rd (R.THM_DIE_T n) 0 := rd_inc_apart (thmT_apart h n) _ _ _ _

/-- The smallest of some terms and 64. -/
theorem foldl_min_le (l : List Nat) : ∀ a, l.foldl min a ≤ a := by
  induction l with
  | nil => exact fun a => Nat.le_refl a
  | cons x l ih => exact fun a => Nat.le_trans (ih _) (Nat.min_le_left _ _)

/-- A field that no cap's refresh writes. -/
theorem rd_refreshCap {f : Field} (hc : f.apart R.BLW_STS_CAP = true) (hl : f.apart R.BLW_STS_LIMITER = true) (s : State) (n i : Nat) :
    (refreshCap s n).rd f i = s.rd f i := by
  unfold refreshCap
  rw [rd_wr_apart hl, rd_wr_apart hc]

@[simp] theorem capTerms_refreshCap (s : State) (m n : Nat) : capTerms (refreshCap s m) n = capTerms s n := by
  unfold capTerms capMax
  rw [rd_refreshCap (thmT_apart (.inl (by decide)) _) (thmT_apart (.inl (by decide)) _)]
  simp (disch := decide) only [rd_refreshCap]

/-- The cap of a die after its refresh (R417). -/
theorem refreshCap_cap (s : State) (n : Nat) : (refreshCap s n).rd R.BLW_STS_CAP n = max 1 ((capTerms s n).foldl min 64) := by
  have hle := foldl_min_le (capTerms s n) 64
  unfold refreshCap
  rw [rd_wr_apart (by decide), rd_wr_same]
  exact Nat.mod_eq_of_lt (show _ < 128 by omega)

/-- A die's turn of the refresh of the caps. -/
def capTurn (s : State) (n : Nat) : State := if s.on R.DIE_STS_IN_RESET n then s else refreshCap s n

theorem capTurn_keeps {β : Type} (π : State → β) (h : ∀ s m, π (refreshCap s m) = π s) (m : Nat) (s : State) : π (capTurn s m) = π s := by
  unfold capTurn
  split
  · rfl
  · exact h s m

theorem refreshCaps_keeps {β : Type} (π : State → β) (h : ∀ s m, π (refreshCap s m) = π s) (s : State) : π (refreshCaps s) = π s :=
  foldl_keeps π (fun m s => capTurn_keeps π h m s) _ s

theorem rd_refreshCaps {f : Field} (hc : f.apart R.BLW_STS_CAP = true) (hl : f.apart R.BLW_STS_LIMITER = true) (s : State) (i : Nat) :
    (refreshCaps s).rd f i = s.rd f i := refreshCaps_keeps (fun s => s.rd f i) (fun s m => rd_refreshCap hc hl s m i) s

theorem inReset_refreshCap (s : State) (m n : Nat) : (refreshCap s m).on R.DIE_STS_IN_RESET n = s.on R.DIE_STS_IN_RESET n :=
  congrArg (· == 1) (rd_refreshCap (by decide) (by decide) s m n)

/-- After a refresh every cap follows its terms (R417). -/
theorem refreshCaps_follow {s r : State} (hr : ∀ n, r.on R.DIE_STS_IN_RESET n = s.on R.DIE_STS_IN_RESET n) : CapsFollow s (refreshCaps r) := by
  intro n hn hs
  obtain ⟨u, hu⟩ := foldl_range_at capTurn hn r
  have hres : u.on R.DIE_STS_IN_RESET n = false :=
    ((hu (fun s => s.on R.DIE_STS_IN_RESET n) fun m s _ => capTurn_keeps (fun s => s.on R.DIE_STS_IN_RESET n)
      (fun s m => inReset_refreshCap s m n) m s).1.trans (hr n)).trans hs
  have hterms : capTerms u n = capTerms r n := (hu (capTerms · n) fun m s _ => capTurn_keeps (capTerms · n) (fun s m => capTerms_refreshCap s m n) m s).1
  have hother : ∀ m s, m ≠ n → (capTurn s m).rd R.BLW_STS_CAP n = s.rd R.BLW_STS_CAP n := by
    intro m s hm
    unfold capTurn
    split
    · rfl
    · unfold refreshCap
      rw [rd_wr_apart (by decide), rd_wr_other _ _ (key_blw rfl rfl (Ne.symm hm))]
  have hcap := (hu (fun s => s.rd R.BLW_STS_CAP n) hother).2
  have hkeep : capTerms (refreshCaps r) n = capTerms r n := refreshCaps_keeps (capTerms · n) (fun s m => capTerms_refreshCap s m n) r
  show (refreshCaps r).rd R.BLW_STS_CAP n = _
  rw [hkeep, ← hterms]
  refine hcap.trans ?_
  rw [show capTurn u n = refreshCap u n from if_neg (by simp [hres])]
  exact refreshCap_cap u n

end Sys2Proof.Machine

namespace Sys2Proof.Machine

open Sys2Proof

/-! ## The power loop, the ramp, hints and engine sleep -/

theorem foldl_min_mem {l : List Nat} {x : Nat} (h : x ∈ l) : ∀ a, l.foldl min a ≤ x := by
  induction l with
  | nil => cases h
  | cons y l ih =>
    intro a
    rcases List.mem_cons.mp h with rfl | h
    · exact Nat.le_trans (foldl_min_le l _) (Nat.min_le_right _ _)
    · exact ih h _

theorem loud_dieReset (n : Nat) : loud (R.DIE_STS_IN_RESET.key n) = false := by
  have hs : canonSlot (0x040 + 16 * n) = 0x040 + 16 * n := canonSlot_eq (by omega)
  simp [loud, Field.key, R.DIE_STS_IN_RESET, slotOf, hs]

/-- The package term after a fast evaluation (R418). -/
def fastP (s : State) (pkg : Nat) : Nat := if pkgLimit s < pkg then max 1 (s.rd R.PWR_STS_P 0 * pkgLimit s / pkg) else s.rd R.PWR_STS_P 0

theorem fastP_le {s : State} (pkg : Nat) (h : s.rd R.PWR_STS_P 0 ≤ 64) : fastP s pkg ≤ 64 := by
  unfold fastP
  split
  next hlt =>
    have hpos : 0 < pkg := Nat.lt_of_le_of_lt (Nat.zero_le _) hlt
    have := Nat.div_le_of_le_mul (Nat.mul_comm pkg (s.rd R.PWR_STS_P 0) ▸ Nat.mul_le_mul_left (s.rd R.PWR_STS_P 0) (Nat.le_of_lt hlt))
    exact Nat.max_le.mpr ⟨by decide, Nat.le_trans this h⟩
  · exact h


theorem rd_power (s : State) (p : Power) (f : Field) (i : Nat) : ({ s with power := p } : State).rd f i = s.rd f i := rfl

theorem powerFast_p {s : State} (pkg : Nat) (h : s.rd R.PWR_STS_P 0 ≤ 64) : (powerFast s pkg).rd R.PWR_STS_P 0 = fastP s pkg := by
  have hq : fastP s pkg % 2 ^ R.PWR_STS_P.width = fastP s pkg := Nat.mod_eq_of_lt (Nat.lt_of_le_of_lt (fastP_le pkg h) (by decide))
  unfold powerFast
  simp (disch := decide) only [rd_refreshCaps, rd_raiseIf_quiet, rd_ite, rd_inc_apart, rd_wr_apart, rd_wr_same, ite_self, decide_eq_true_eq]
  exact hq

theorem powerFast_follow (s : State) (pkg : Nat) : CapsFollow s (powerFast s pkg) := by
  refine refreshCaps_follow fun n => ?_
  unfold State.on
  have hd := loud_dieReset n
  simp (disch := first | assumption | decide) only [rd_raiseIf_quiet, rd_ite, rd_inc_apart, rd_wr_apart, ite_self, rd_power]

theorem powerSlow_follow (s : State) (pkg input : Nat) : CapsFollow s (powerSlow s pkg input) := by
  refine refreshCaps_follow fun n => ?_
  unfold State.on
  simp (disch := decide) only [rd_ite, rd_wr_apart, ite_self, rd_power]

/-- What a slow evaluation leaves in the power page (R418). -/
theorem powerSlow_reads (s : State) (pkg input : Nat) :
    (powerSlow s pkg input).rd R.PWR_STS_P 0 = (if pkg + max 10 (s.rd R.PWR_CFG_HYST_W 0) < pkgLimit s ∧ s.power.fell = false then
      min 64 (s.rd R.PWR_STS_P 0 + 1) else s.rd R.PWR_STS_P 0) ∧
    (powerSlow s pkg input).rd R.PWR_PKG_PKG_W 0 = min 65535 pkg ∧ (powerSlow s pkg input).rd R.PWR_PKG_IN_W 0 = min 65535 input := by
  have hp : min 64 (s.rd R.PWR_STS_P 0 + 1) % 2 ^ R.PWR_STS_P.width = min 64 (s.rd R.PWR_STS_P 0 + 1) :=
    Nat.mod_eq_of_lt (Nat.lt_of_le_of_lt (Nat.min_le_left _ _) (by decide))
  unfold powerSlow pkgLimit
  simp (disch := decide) only [rd_refreshCaps, rd_ite, rd_wr_apart, rd_wr_same, ite_self, rd_power, State.wr_power, hp, Bool.and_eq_true,
    decide_eq_true_eq, Bool.not_eq_true']
  exact ⟨trivial, Nat.mod_eq_of_lt (Nat.lt_of_le_of_lt (Nat.min_le_left _ _) (by decide)),
    Nat.mod_eq_of_lt (Nat.lt_of_le_of_lt (Nat.min_le_left _ _) (by decide))⟩

theorem powerSlow_fell (s : State) (pkg input : Nat) : (powerSlow s pkg input).power.fell = false := by
  unfold powerSlow
  dsimp only
  rw [refreshCaps_power]

/-! The ramp -/

theorem rampNext_le {q target level : Nat} (ht : target ≤ 64) (held window : Bool) : rampNext q target level held window ≤ 64 := by
  unfold rampNext
  split
  · split
    · exact Nat.le_trans (Nat.min_le_left _ _) ht
    · exact Nat.min_le_left _ _
  · exact Nat.min_le_left _ _

/-- A field of the power pages that a die's ramp does not write. -/
theorem rampEval_reads {s : State} {n : Nat} (held : Bool) (level : Nat) (hr : s.on R.DIE_STS_IN_RESET n = false) (ht : s.rd R.BLW_HINT_TARGET n ≤ 64) :
    (rampEval s n held level).rd R.BLW_STS_LEVEL n = min 64 level ∧
    (rampEval s n held level).rd R.BLW_STS_Q n =
      rampNext (s.rd R.BLW_STS_Q n) (s.rd R.BLW_HINT_TARGET n) level held (s.on R.BLW_HINT_WINDOW n) := by
  unfold rampEval
  rw [if_neg (by simp [hr])]
  simp (disch := decide) only [rd_refreshCap, rd_ite, rd_wr_apart, rd_inc_apart, rd_wr_same, ite_self]
  exact ⟨Nat.mod_eq_of_lt (Nat.lt_of_le_of_lt (Nat.min_le_left _ _) (by decide)), Nat.mod_eq_of_lt (Nat.lt_of_le_of_lt (rampNext_le ht _ _) (by decide))⟩

theorem rampEval_cap {s : State} {n : Nat} (held : Bool) (level : Nat) (hr : s.on R.DIE_STS_IN_RESET n = false) :
    (rampEval s n held level).rd R.BLW_STS_CAP n = max 1 ((capTerms (rampEval s n held level) n).foldl min 64) := by
  unfold rampEval
  rw [if_neg (by simp [hr])]
  dsimp only
  rw [refreshCap_cap, capTerms_refreshCap]

/-! Hints -/

/-- The hint of a die: its TARGET, t_h, and whether it waits or its window is open. -/
def hintOf (s : State) (n : Nat) : Nat × Nat × Nat × Nat :=
  (s.rd R.BLW_HINT_TARGET n, s.rd R.BLW_HINT_TIME_T_H n, s.rd R.BLW_HINT_PENDING n, s.rd R.BLW_HINT_WINDOW n)

theorem hintOf_hintDie_other {s : State} {m n : Nat} (target lead : Nat) (h : m ≠ n) : hintOf (hintDie s m target lead) n = hintOf s n := by
  have hk {f g : Field} (hf : f.page = .BLW) (hg : g.page = .BLW) : g.key n ≠ f.key m := key_blw hg hf (Ne.symm h)
  have hq {f : Field} (hf : f.page = .BLW) (ho : 0x100 ≤ f.off) : loud (f.key n) = false := loud_blw hf ho n
  unfold hintOf hintDie
  split
  · rfl
  · split
    · simp (disch := first | exact hq rfl (by decide) | exact hk rfl rfl) only [rd_raise_quiet, rd_inc_other]
    · simp (disch := exact hk rfl rfl) only [rd_inc_other, rd_wr_other]

theorem hintOf_hintDie {s : State} {n target lead : Nat} (ht : target ≤ 64) :
    hintOf (hintDie s n target lead) n = if s.on R.DIE_STS_IN_RESET n = false ∧ 40 ≤ lead then (target, (s.now + lead * 1000) % 2 ^ 64, 1, 0) else hintOf s n := by
  have hq {f : Field} (hf : f.page = .BLW) (ho : 0x100 ≤ f.off) : loud (f.key n) = false := loud_blw hf ho n
  unfold hintDie
  split
  next hr => rw [if_neg (by simp [hr])]
  next hr =>
    split
    next hl =>
      rw [if_neg (by simp; omega)]
      unfold hintOf
      simp (disch := first | exact hq rfl (by decide) | decide) only [rd_raise_quiet, rd_inc_apart]
    next hl =>
      rw [if_pos ⟨by simpa using hr, by omega⟩]
      unfold hintOf
      simp (disch := decide) only [rd_inc_apart, rd_wr_apart, rd_wr_same]
      rw [Nat.mod_eq_of_lt (Nat.lt_of_le_of_lt ht (show 64 < 2 ^ R.BLW_HINT_TARGET.width by decide))]
      rfl

/-- A die's turn of a HEAT record (R226). -/
def heatTurn (w lead : Nat) (s : State) (n : Nat) : State :=
  if bitOf w (8 + n) then hintDie s n (clampNat 1 64 (bits w 0 7)) lead else s

theorem clampNat_le {lo hi : Nat} (h : lo ≤ hi) (x : Nat) : clampNat lo hi x ≤ hi := by
  unfold clampNat
  split
  · exact h
  · split
    · exact Nat.le_refl _
    · omega

theorem hintOf_heatTurn (s : State) (w lead n : Nat) : hintOf (heatTurn w lead s n) n =
    if bitOf w (8 + n) = true ∧ s.on R.DIE_STS_IN_RESET n = false ∧ 40 ≤ lead then
      (clampNat 1 64 (bits w 0 7), (s.now + lead * 1000) % 2 ^ 64, 1, 0) else hintOf s n := by
  unfold heatTurn
  split
  next h =>
    rw [hintOf_hintDie (clampNat_le (by decide) _)]
    simp only [h, true_and]
  next h => rw [if_neg (fun h' => h h'.1)]

theorem heatTurn_keeps {β : Type} (π : State → β) (h : ∀ s m target lead, π (hintDie s m target lead) = π s) (w lead m : Nat) (s : State) :
    π (heatTurn w lead s m) = π s := by
  unfold heatTurn
  split
  · exact h _ _ _ _
  · rfl

theorem inReset_hintDie (s : State) (m target lead n : Nat) : (hintDie s m target lead).rd R.DIE_STS_IN_RESET n = s.rd R.DIE_STS_IN_RESET n := by
  have hd := loud_dieReset n
  unfold hintDie
  simp (disch := first | assumption | decide) only [rd_raise_quiet, rd_ite, rd_inc_apart, rd_wr_apart, ite_self]

/-- Every die's hint after a HEAT (R226, R420). -/
theorem hintOf_heat (s : State) (w lead : Nat) {n : Nat} (hn : n < 8) : hintOf ((List.range 8).foldl (heatTurn w lead) s) n =
    if bitOf w (8 + n) = true ∧ s.on R.DIE_STS_IN_RESET n = false ∧ 40 ≤ lead then
      (clampNat 1 64 (bits w 0 7), (s.now + lead * 1000) % 2 ^ 64, 1, 0) else hintOf s n := by
  obtain ⟨u, hu⟩ := foldl_range_at (heatTurn w lead) hn s
  have hr : u.on R.DIE_STS_IN_RESET n = s.on R.DIE_STS_IN_RESET n := congrArg (· == 1)
    (hu (fun s => s.rd R.DIE_STS_IN_RESET n) fun m s _ => heatTurn_keeps (fun s => s.rd R.DIE_STS_IN_RESET n)
      (fun s m a b => inReset_hintDie s m a b n) w lead m s).1
  have hnow : u.now = s.now := (hu State.now fun m s _ => heatTurn_keeps State.now hintDie_now w lead m s).1
  obtain ⟨hb, ha⟩ := hu (hintOf · n) fun m s hm => by
    unfold heatTurn
    split
    · exact hintOf_hintDie_other _ _ hm
    · rfl
  rw [ha, hintOf_heatTurn, hr, hnow, hb]

/-- A register apart from CTX_RETIRED and the bookkeeping reads the same after a record that signals nothing and is not pre-empted. -/
theorem rd_finishCur {f : Field} {s : State} {c i : Nat} {r : Rec} (hp : (ctxOf s c).preempting = false) (hs : r.sigDone = false)
    (hq : loud (f.key i) = false) (ha : f.apart R.CTX_RETIRED_RETIRED = true) : (finishCur s c r).rd f i = s.rd f i := by
  rw [finishCur_eq, completeRec_plain hs, rd_settle (by simpa [Ctx.ended] using hp)]
  exact (rd_raiseIf_quiet hq _ _ _ _ _).trans (rd_inc_apart ha _ _ _ _)

theorem hintOf_finishCur {s : State} {c n : Nat} {r : Rec} (hp : (ctxOf s c).preempting = false) (hs : r.sigDone = false) :
    hintOf (finishCur s c r) n = hintOf s n := by
  unfold hintOf
  rw [rd_finishCur hp hs (loud_blw rfl (by decide) n) (by decide), rd_finishCur hp hs (loud_blw rfl (by decide) n) (by decide),
    rd_finishCur hp hs (loud_blw rfl (by decide) n) (by decide), rd_finishCur hp hs (loud_blw rfl (by decide) n) (by decide)]

/-! Engine sleep -/

theorem bitOf_mod {k m : Nat} (hm : m < k) (a : Nat) : bitOf (a % 2 ^ k) m = bitOf a m := by
  rw [bitOf_eq, bitOf_eq, Nat.testBit_mod_two_pow]
  simp [hm]

/-- Adding a clear bit. -/
theorem testBit_add_clear (n : Nat) : ∀ {a : Nat}, a.testBit n = false → ∀ m, (a + 2 ^ n).testBit m = (a.testBit m || decide (m = n)) := by
  induction n with
  | zero =>
    intro a h m
    have h0 : a % 2 = 0 := by simpa [Nat.testBit_zero] using h
    cases m with
    | zero =>
      have : (a + 1) % 2 = 1 := by omega
      simp [Nat.testBit_zero, this]
    | succ m =>
      have : (a + 1) / 2 = a / 2 := by omega
      simp [Nat.testBit_succ, this]
  | succ n ih =>
    intro a h m
    rw [Nat.testBit_succ] at h
    cases m with
    | zero =>
      have : (a + 2 ^ (n + 1)) % 2 = a % 2 := by omega
      simp [Nat.testBit_zero, this]
    | succ m =>
      have : (a + 2 ^ (n + 1)) / 2 = a / 2 + 2 ^ n := by omega
      rw [Nat.testBit_succ, this, ih h, Nat.testBit_succ]
      simp

theorem bitOf_add_clear {a n : Nat} (h : bitOf a n = false) (m : Nat) : bitOf (a + 2 ^ n) m = (bitOf a m || decide (m = n)) := by
  rw [bitOf_eq] at h
  rw [bitOf_eq, bitOf_eq, testBit_add_clear n h]

/-- Taking a set bit away. -/
theorem bitOf_sub_two_pow {a n : Nat} (h : bitOf a n = true) (m : Nat) : bitOf (a - 2 ^ n) m = (bitOf a m && decide (m ≠ n)) := by
  have hle : 2 ^ n ≤ a := Nat.ge_two_pow_of_testBit (by rwa [← bitOf_eq])
  have hclear : bitOf (a - 2 ^ n) n = false := by
    obtain ⟨b, rfl⟩ := Nat.exists_eq_add_of_le hle
    rw [bitOf_eq, Nat.testBit_two_pow_add_eq] at h
    rw [Nat.add_sub_cancel_left, bitOf_eq]
    simpa using h
  have hadd := bitOf_add_clear hclear m
  rw [Nat.sub_add_cancel hle] at hadd
  rw [hadd]
  by_cases hm : m = n
  · simp [hm, hclear]
  · simp [hm]

/-- A page of the module is no die's power page. -/
theorem key_low_blw {f g : Field} {i : Nat} (hf : slotOf f.page i < 0x40) (hg : g.page = .BLW) (n : Nat) : f.key i ≠ g.key n := by
  intro e
  have hs : canonSlot (slotOf .BLW n) = 0x047 + 16 * n := canonSlot_eq (show 0x047 + 16 * n ≠ 0x114 by omega)
  have := congrArg Key.slot e
  simp only [Field.key, hg, hs, canonSlot_eq (Nat.ne_of_lt (Nat.lt_trans hf (by decide)))] at this
  omega

/-- What the waking of a die leaves (R428). -/
theorem dieWake_reads {s : State} {n : Nat} (ns : Nat) (ha : bitOf (s.rd R.CLK_STS_AWAKE 0) n = false) (hr : s.on R.DIE_STS_IN_RESET n = false) :
    (dieWake s n ns).rd R.CLK_STS_AWAKE 0 = (s.rd R.CLK_STS_AWAKE 0 + 2 ^ n) % 2 ^ 8 ∧
    (dieWake s n ns).rd R.BLW_STS_Q n = 0 ∧ (dieWake s n ns).rd R.BLW_STS_CAP n = 1 ∧
    (dieWake s n ns).rd R.CLK_WAKES_WAKES 0 = min (2 ^ 64 - 1) (s.rd R.CLK_WAKES_WAKES 0 + 1) := by
  have h0 : ∀ u : State, (capTerms (u.wr R.BLW_STS_Q n 0) n).foldl min 64 = 0 := fun u =>
    Nat.le_zero.mp (foldl_min_mem (by simp [capTerms]) 64)
  unfold dieWake
  dsimp only
  rw [if_neg (by simp [ha, hr]), refreshCap_cap, h0]
  have hcap (u : State) : (refreshCap u n).rd R.CLK_STS_AWAKE 0 = u.rd R.CLK_STS_AWAKE 0 := by
    unfold refreshCap
    rw [rd_wr_apart (by decide), rd_wr_other _ _ (key_low_blw (by decide) rfl n)]
  rw [hcap]
  simp (disch := decide) only [rd_refreshCap, rd_wr_apart, rd_inc_apart, rd_wr_same, rd_inc_same]
  exact ⟨rfl, rfl, rfl, rfl⟩

/-- HEAT as its hints and its completion (R226). -/
theorem heatRec_eq (s : State) (c : Nat) (r : Rec) :
    heatRec s c r = finishCur ((List.range 8).foldl (heatTurn (r.op32 8) (bits (r.op32 0xC) 0 16)) s) c r := rfl

/-- What the hints of a HEAT leave beside registers. -/
theorem heat_frame (s : State) (w lead : Nat) : let t := (List.range 8).foldl (heatTurn w lead) s
    t.tmp = s.tmp ∧ t.flights = s.flights ∧ t.mem = s.mem ∧ t.ctxs = s.ctxs :=
  ⟨foldl_keeps State.tmp (fun m s => heatTurn_keeps State.tmp hintDie_tmp w lead m s) _ s,
    foldl_keeps State.flights (fun m s => heatTurn_keeps State.flights hintDie_flights w lead m s) _ s,
    foldl_keeps State.mem (fun m s => heatTurn_keeps State.mem hintDie_mem w lead m s) _ s,
    foldl_keeps State.ctxs (fun m s => heatTurn_keeps State.ctxs hintDie_ctxs w lead m s) _ s⟩

/-- HEAT completes on issue with the hint of every die that DIES names (R226). -/
theorem heatRec_hints {s : State} {c : Nat} {r : Rec} (hp : (ctxOf s c).preempting = false) (hs : r.sigDone = false) :
    let t := heatRec s c r
    (ctxOf t c).cur = none ∧ othersStand s t c ∧ t.tmp = s.tmp ∧ t.mem = s.mem ∧ t.flights = s.flights ∧
      ∀ n, n < 8 → hintOf t n = if bitOf (r.op32 8) (8 + n) = true ∧ s.on R.DIE_STS_IN_RESET n = false ∧ 40 ≤ bits (r.op32 0xC) 0 16 then
        (clampNat 1 64 (bits (r.op32 8) 0 7), (s.now + bits (r.op32 0xC) 0 16 * 1000) % 2 ^ 64, 1, 0) else hintOf s n := by
  obtain ⟨ht, hf, hm, hc⟩ := heat_frame s (r.op32 8) (bits (r.op32 0xC) 0 16)
  dsimp only at ht hf hm hc ⊢
  rw [heatRec_eq]
  have hx := ctxOf_congr hc c
  have hp' := hp
  rw [← hx] at hp'
  have he := finishCur_ends ((List.range 8).foldl (heatTurn (r.op32 8) (bits (r.op32 0xC) 0 16)) s) c r
  exact ⟨(finishCur_agrees _ c r).cur, othersStand_trans (othersStay_congr hc c).stand he.others, he.tmp.trans ht, (he.mem hp').trans hm,
    he.flights.trans hf, fun n hn => (hintOf_finishCur hp' hs).trans (hintOf_heat s _ _ hn)⟩

/-- Settles O48. -/
theorem powerLoopRampAndHints : Obligations.PowerLoopRampAndHints := by
  refine fun s on => ⟨fun pkg input h => ?_, fun pkg input h => ?_, fun n held level hn hr hq ht => ?_, fun n held level hn hr => ?_,
    fun c r hc hr hp hs => ?_, fun n hn => onUnit_on on hn _, fun n hn hpd ht => ?_, fun n hn hpd hw ht => ?_, fun n hn he hi ha => ?_,
    fun n ns hn ha hr => ?_⟩
  · refine ⟨powerFast s pkg, live_on on _, fun hlt => ?_, fun hle => ?_, powerFast_follow s pkg, powerFast_mem _ _, powerFast_ctxs _ _, powerFast_tmp _ _⟩
    · exact (powerFast_p pkg h).trans (if_pos hlt)
    · exact (powerFast_p pkg h).trans (if_neg (Nat.not_lt.mpr hle))
  · obtain ⟨hpp, hpkg, hin⟩ := powerSlow_reads s pkg input
    refine ⟨powerSlow s pkg input, live_on on _, fun hlt hf => hpp.trans (if_pos ⟨hlt, hf⟩), fun hno => hpp.trans (if_neg fun hyes => ?_), hpkg, hin, ?_,
      powerSlow_follow s pkg input, powerSlow_mem _ _ _, powerSlow_ctxs _ _ _, powerSlow_tmp _ _ _⟩
    · obtain ⟨hlt, hf⟩ := hyes
      exact hno.elim (fun h => absurd hlt (Nat.not_lt.mpr h)) (fun h => by simp [hf] at h)
    · exact powerSlow_fell s pkg input
  · obtain ⟨hl, hq'⟩ := rampEval_reads held level hr ht
    refine ⟨rampEval s n held level, onUnit_on on hn _, hl, fun h => ?_, fun h hw => ?_, fun h hw hlt => ?_, rampEval_cap held level hr, rampEval_mem _ _ _ _,
      rampEval_ctxs _ _ _ _, rampEval_tmp _ _ _ _⟩
    · rw [hq', h]
      rfl
    · rw [hq', h]
      unfold rampNext
      rw [if_pos rfl, if_neg]
      rcases hw with hw | hw <;> simp [hw]
    · rw [hq', h]
      unfold rampNext
      rw [if_pos rfl, if_pos (by simp [hw, hlt])]
  · show onUnit s n 8 _ = _
    rw [onUnit_on on hn]
    exact congrArg _ (if_pos hr)
  · obtain ⟨h1, h2, h3, h4, h5, h6⟩ := heatRec_hints hp hs
    refine ⟨_, onRec_on on hc hr _, h1, h2, h3, h4, h5, fun n hn hb hres hl => ?_, fun n hn hno => ?_⟩
    · have h := (h6 n hn).trans (if_pos ⟨hb, hres, hl⟩)
      simpa only [hintOf, Prod.mk.injEq] using h
    · have h := (h6 n hn).trans (if_neg fun ⟨hb, hres, hl⟩ => by
      rcases hno with hno | hno | hno
      · exact Bool.noConfusion (hno.symm.trans hb)
      · exact Bool.noConfusion (hno.symm.trans hres)
      · omega)
      simpa only [hintOf, Prod.mk.injEq] using h
  · refine ⟨_, onUnit_on on hn _, ?_⟩
    rw [show hintWindow s n = (s.wr R.BLW_HINT_PENDING n 0).wr R.BLW_HINT_WINDOW n 1 from (if_pos hpd).trans (if_pos ht)]
    exact ⟨(rd_wr_apart (by decide) _ _ _ _).trans (rd_wr_same _ _ _ _), rd_wr_same _ _ _ _, rfl, rfl, rfl⟩
  · refine ⟨_, onUnit_on on hn _, ?_⟩
    rw [show hintWindow s n = s.wr R.BLW_HINT_WINDOW n 0 from (if_neg (by simp [hpd])).trans (if_pos ⟨hw, ht⟩)]
    exact ⟨rd_wr_same _ _ _ _, rfl, rfl, rfl⟩
  · refine ⟨_, onUnit_on on hn _, ?_⟩
    rw [show dieSleep s n = s.wr R.CLK_STS_AWAKE 0 (s.rd R.CLK_STS_AWAKE 0 - 2 ^ n) from if_pos ⟨he, hi, ha⟩, rd_wr_same]
    exact ⟨fun m hm => (bitOf_mod hm _).trans (bitOf_sub_two_pow ha m), rfl, rfl, rfl⟩
  · obtain ⟨h1, h2, h3, h4⟩ := dieWake_reads ns ha hr
    exact ⟨_, onUnit_on on hn _, fun m hm => by rw [h1, bitOf_mod hm, bitOf_add_clear ha], h2, h3, h4, dieWake_mem _ _ _, dieWake_ctxs _ _ _,
      dieWake_tmp _ _ _⟩

end Sys2Proof.Machine

namespace Sys2Proof.Machine

open Sys2Proof

/-! ## Temperature, clocks and the supply -/

theorem loud_thm {f : Field} (hp : f.page = .THM) (ho : 0x100 ≤ f.off) (i : Nat) : loud (f.key i) = false := by
  have hs : slotOf f.page i = 8 := by rw [hp]; rfl
  refine loud_plain (.inl (by omega)) ?_ ho ?_
  · rw [hs]
    decide
  · rw [hs]
    decide

theorem Field.apart_of_lo {f g : Field} (h : f.lo ≠ g.lo) : f.apart g = true := decide_eq_true (.inr h)

theorem okField_eq (d : Nat) : (okField d).page = .THM ∧ 0x100 ≤ (okField d).off ∧ (okField d).lo = 16 := by
  unfold okField
  split <;> exact ⟨rfl, by simp [R.THM_DIE_SENSOR_OK, R.THM_PD_SENSOR_OK]; omega, rfl⟩

theorem tempField_eq (d : Nat) : (tempField d).page = .THM ∧ 0x100 ≤ (tempField d).off ∧ (tempField d).lo = 0 ∧ (tempField d).width = 8 := by
  unfold tempField
  split <;> exact ⟨rfl, by simp [R.THM_DIE_TEMP, R.THM_PD_TEMP]; omega, rfl, rfl⟩

theorem maxField_lo (d : Nat) : (maxField d).lo = 8 := by
  unfold maxField
  split <;> rfl

theorem ok_apart {f : Field} (h : f.lo ≠ 16) (d : Nat) : (okField d).apart f = true :=
  Field.apart_of_lo (by rw [(okField_eq d).2.2]; exact Ne.symm h)

theorem temp_apart {f : Field} (h : f.lo ≠ 0) (d : Nat) : (tempField d).apart f = true :=
  Field.apart_of_lo (by rw [(tempField_eq d).2.2.1]; exact Ne.symm h)

/-- The temperature of a die rests on its sensors alone. -/
theorem dieTemp_congr {s t : State} {d : Nat} (ho : t.rd (okField d) 0 = s.rd (okField d) 0) (hp : t.power.temps = s.power.temps) :
    dieTemp t d = dieTemp s d := by
  unfold dieTemp
  rw [ho, hp]

theorem foldl_max_ge (l : List Nat) : ∀ a, a ≤ l.foldl max a := by
  induction l with
  | nil => exact fun a => Nat.le_refl a
  | cons x l ih => exact fun a => Nat.le_trans (Nat.le_max_left a x) (ih _)

theorem foldl_max_mem {l : List Nat} {x : Nat} (h : x ∈ l) : ∀ a, x ≤ l.foldl max a := by
  induction l with
  | nil => cases h
  | cons y l ih =>
    intro a
    rcases List.mem_cons.mp h with rfl | h
    · exact Nat.le_trans (Nat.le_max_right a x) (foldl_max_ge l _)
    · exact ih h _

/-- A working sensor gives its die a temperature, which is at least its reading (R422). -/
theorem dieTemp_some {s : State} {d i : Nat} (hi : i < (sensorsOf d).2) (hb : bitOf (s.rd (okField d) 0) i = true) :
    ∃ T, dieTemp s d = some T ∧ Tbl.get 0 s.power.temps ((sensorsOf d).1 + i) ≤ T := by
  have hmem : Tbl.get 0 s.power.temps ((sensorsOf d).1 + i) ∈
      ((List.range (sensorsOf d).2).filter (bitOf (s.rd (okField d) 0))).map (fun i => Tbl.get 0 s.power.temps ((sensorsOf d).1 + i)) :=
    List.mem_map_of_mem (List.mem_filter.mpr ⟨List.mem_range.mpr hi, hb⟩)
  refine ⟨_, if_neg ?_, foldl_max_mem hmem 0⟩
  intro h
  rw [List.isEmpty_iff.mp h] at hmem
  cases hmem

/-- A sensor is one of the sensors of its die, and has a bit of SENSOR_OK (R431). -/
theorem sensorPlace_in {id : Nat} (h : id < 36) :
    (sensorsOf (sensorPlace id).1).1 + (sensorPlace id).2 = id ∧ (sensorPlace id).2 < (sensorsOf (sensorPlace id).1).2 ∧
      (sensorPlace id).2 < (okField (sensorPlace id).1).width := by
  unfold sensorPlace
  split
  next h32 =>
    have : id / 4 < 8 := by omega
    simp only [sensorsOf, okField, this, if_true, R.THM_DIE_SENSOR_OK]
    omega
  next h32 =>
    have : ¬ 8 + (id - 32) / 2 < 8 := by omega
    simp only [sensorsOf, okField, this, if_false, R.THM_PD_SENSOR_OK]
    omega

/-- The registers of a die with a working sensor (R422). -/
theorem updateTemp_some {s : State} {d T : Nat} (h : dieTemp s d = some T) :
    (updateTemp s d).rd (tempField d) 0 = min 255 T ∧ (updateTemp s d).rd (okField d) 0 = s.rd (okField d) 0 := by
  have hq {f : Field} (hp : f.page = .THM) (ho : 0x100 ≤ f.off) : loud (f.key 0) = false := loud_thm hp ho 0
  obtain ⟨htp, hto, -, htw⟩ := tempField_eq d
  obtain ⟨hop, hoo, hol⟩ := okField_eq d
  unfold updateTemp
  rw [h]
  dsimp only
  rw [rd_raiseIf_quiet (hq htp hto), rd_raiseIf_quiet (hq hop hoo), rd_wr_apart (temp_apart (by decide) d), rd_wr_apart (ok_apart (by decide) d),
    rd_wr_apart (temp_apart (by rw [maxField_lo]; decide) d), rd_wr_apart (ok_apart (by rw [maxField_lo]; decide) d), rd_wr_same,
    rd_wr_apart (ok_apart (by rw [(tempField_eq d).2.2.1]; decide) d), htw]
  exact ⟨Nat.mod_eq_of_lt (Nat.lt_of_le_of_lt (Nat.min_le_left _ _) (by decide)), rfl⟩

/-- The registers of a die without a working sensor (R424). -/
theorem updateTemp_none {s : State} {d : Nat} (h : dieTemp s d = none) :
    (d < 8 → (updateTemp s d).rd (R.THM_DIE_T d) 0 = 1) ∧ (updateTemp s d).rd (okField d) 0 = s.rd (okField d) 0 := by
  obtain ⟨hop, hoo, hol⟩ := okField_eq d
  unfold updateTemp
  rw [h]
  dsimp only
  split
  · exact ⟨fun _ => rd_wr_same _ _ _ _, rd_wr_apart (ok_apart (show 24 ≠ 16 by decide) d) _ _ _ _⟩
  next hd => exact ⟨fun h => absurd h hd, rd_raise_quiet (loud_thm hop hoo 0) _ _ _ _⟩

theorem updateTemp_ok (s : State) (d : Nat) : (updateTemp s d).rd (okField d) 0 = s.rd (okField d) 0 := by
  cases h : dieTemp s d with
  | none => exact (updateTemp_none h).2
  | some T => exact (updateTemp_some h).2

theorem dieTemp_updateTemp (s : State) (d : Nat) : dieTemp (updateTemp s d) d = dieTemp s d :=
  dieTemp_congr (updateTemp_ok s d) (congrArg Power.temps (updateTemp_power s d))


/-- The state in which a sensor's reading counts (R422). -/
def sensorGood (s : State) (id temp : Nat) : State :=
  { s.wr (okField (sensorPlace id).1) 0 (s.rd (okField (sensorPlace id).1) 0 ||| 2 ^ (sensorPlace id).2) with
    power := { s.power with temps := Tbl.set s.power.temps id temp } }

theorem sensorGood_ok {s : State} {id : Nat} (temp : Nat) (h : id < 36) :
    bitOf ((sensorGood s id temp).rd (okField (sensorPlace id).1) 0) (sensorPlace id).2 = true := by
  have hrd : (sensorGood s id temp).rd (okField (sensorPlace id).1) 0 = _ := rd_wr_same _ _ _ _
  rw [hrd, bitOf_mod (sensorPlace_in h).2.2, bitOf_eq, Nat.testBit_or, Nat.testBit_two_pow_self, Bool.or_true]

/-- The state in which a failing sensor is out, logged (R424). -/
def sensorOut (s : State) (id : Nat) : State :=
  logErr (raise (s.wr (okField (sensorPlace id).1) 0 (s.rd (okField (sensorPlace id).1) 0 - 2 ^ (sensorPlace id).2)) .THM 0 7) .THM 0 1 .CAPACITY id 0
    [0, 0, 0]

theorem sensorRead_bad {s : State} {id : Nat} (temp : Nat) (hb : bitOf (s.rd (okField (sensorPlace id).1) 0) (sensorPlace id).2 = true) :
    sensorRead s id temp false = updateTemp (sensorOut s id) (sensorPlace id).1 := by
  unfold sensorRead
  dsimp only
  rw [if_neg (by simp), if_pos hb]
  rfl

theorem sensorOut_ok {s : State} {id : Nat} (h : id < 36) (hb : bitOf (s.rd (okField (sensorPlace id).1) 0) (sensorPlace id).2 = true) :
    bitOf ((sensorOut s id).rd (okField (sensorPlace id).1) 0) (sensorPlace id).2 = false := by
  obtain ⟨hop, hoo, -⟩ := okField_eq (sensorPlace id).1
  unfold sensorOut
  rw [rd_logErr_quiet (loud_thm hop hoo 0), rd_raise_quiet (loud_thm hop hoo 0), rd_wr_same, bitOf_mod (sensorPlace_in h).2.2,
    bitOf_sub_two_pow hb]
  simp

theorem sensorOut_temps (s : State) (id : Nat) : (sensorOut s id).power.temps = s.power.temps := by simp [sensorOut]

/-! The thermal terms -/

/-- A die's turn of a thermal evaluation (R422). -/
def thermTurn (slow : Bool) (s : State) (n : Nat) : State :=
  raiseIf (s.rd (R.THM_DIE_T n) 0 == 64 && decide (thermalTerm s slow n < 64)) (s.wr (R.THM_DIE_T n) 0 (thermalTerm s slow n)) .THM 0 4

/-- A register that the thermal terms are not. -/
theorem rd_thermTurn {f : Field} {i : Nat} (hl : f.lo ≠ 24) (hq : loud (f.key i) = false) (slow : Bool) (s : State) (m : Nat) :
    (thermTurn slow s m).rd f i = s.rd f i := by
  unfold thermTurn
  rw [rd_raiseIf_quiet hq, rd_wr_apart (Field.apart_of_lo hl)]

theorem thmT_key {n m : Nat} (h : n ≠ m) : (R.THM_DIE_T n).key 0 ≠ (R.THM_DIE_T m).key 0 := fun e => h (by
  have := congrArg Key.off e
  simp only [Field.key, R.THM_DIE_T] at this
  omega)

theorem loud_thmT (n : Nat) : loud ((R.THM_DIE_T n).key 0) = false := loud_thm rfl (show 0x100 ≤ 0x110 + 4 * n by omega) 0

theorem rd_thermTurn_other {n m : Nat} (h : m ≠ n) (slow : Bool) (s : State) :
    (thermTurn slow s m).rd (R.THM_DIE_T n) 0 = s.rd (R.THM_DIE_T n) 0 := by
  unfold thermTurn
  rw [rd_raiseIf_quiet (loud_thmT n), rd_wr_other _ _ (thmT_key (Ne.symm h))]

theorem rd_thermTurn_same {n : Nat} (slow : Bool) (s : State) (h : thermalTerm s slow n ≤ 64) :
    (thermTurn slow s n).rd (R.THM_DIE_T n) 0 = thermalTerm s slow n := by
  unfold thermTurn
  rw [rd_raiseIf_quiet (loud_thmT n), rd_wr_same]
  exact Nat.mod_eq_of_lt (show _ < 128 by omega)

theorem loud_hbmTemp {st : Nat} (h : st < 16) : loud (R.HBM_TEMP_TEMP.key st) = false := by
  have hs : canonSlot (0x0C0 + st) = 0x0C0 + st := canonSlot_eq (by omega)
  simp [loud, Field.key, R.HBM_TEMP_TEMP, slotOf, hs]

/-- A die's turn leaves the term of another die as it was to be. -/
theorem thermalTerm_turn {n m : Nat} (hn : n < 8) (h : m ≠ n) (slow : Bool) (s : State) :
    thermalTerm (thermTurn slow s m) slow n = thermalTerm s slow n := by
  obtain ⟨hop, hoo, hol⟩ := okField_eq n
  have htemp : dieTemp (thermTurn slow s m) n = dieTemp s n :=
    dieTemp_congr (rd_thermTurn (by rw [hol]; decide) (loud_thm hop hoo 0) _ _ _) (by simp [thermTurn])
  have hcfg {f : Field} (hp : f.page = .THM) (ho : 0x100 ≤ f.off) (hl : f.lo ≠ 24) : (thermTurn slow s m).rd f 0 = s.rd f 0 :=
    rd_thermTurn hl (loud_thm hp ho 0) _ _ _
  have hhbm {st : Nat} (hst : st < 16) : (thermTurn slow s m).rd R.HBM_TEMP_TEMP st = s.rd R.HBM_TEMP_TEMP st :=
    rd_thermTurn (by decide) (loud_hbmTemp hst) _ _ _
  simp only [thermalTerm, htemp, coolAgain, tooHot, throttleC, hbmLimitC, hystC, rd_thermTurn_other h, List.any_cons, List.any_nil, List.all_cons,
    List.all_nil, hhbm (show 2 * n < 16 by omega), hhbm (show 2 * n + 1 < 16 by omega),
    hcfg (f := R.THM_CFG_THROTTLE_C) rfl (by decide) (by decide), hcfg (f := R.THM_CFG_HBM_LIMIT_C) rfl (by decide) (by decide),
    hcfg (f := R.THM_CFG_HYST_C) rfl (by decide) (by decide)]
  rfl

theorem thermalTerm_le {s : State} {n : Nat} (slow : Bool) (h : s.rd (R.THM_DIE_T n) 0 ≤ 64) : thermalTerm s slow n ≤ 64 := by
  unfold thermalTerm
  dsimp only
  split
  · decide
  · split
    · split
      · exact Nat.min_le_left _ _
      · exact h
    · split
      · omega
      · exact h

/-- What follows the terms in an evaluation: the marks and the caps. -/
def thermalEnd (s : State) (slow : Bool) : State :=
  let s := s.wr R.THM_STS_THROTTLING 0 (b2n (throttling s))
  let s := if slow then s else
    let s := if throttling s then s.inc R.THM_THROTTLED_THROTTLED 0 1 else s
    raiseIf ((List.range 16).any (fun st => decide (hbmLimitC s < s.rd R.HBM_TEMP_TEMP st))) s .THM 0 6
  refreshCaps s

theorem thermalEval_eq (s : State) (slow : Bool) : thermalEval s slow = thermalEnd ((List.range 8).foldl (thermTurn slow) s) slow := rfl

theorem thermalEnd_term (s : State) (slow : Bool) (n : Nat) : (thermalEnd s slow).rd (R.THM_DIE_T n) 0 = s.rd (R.THM_DIE_T n) 0 := by
  have hq := loud_thmT n
  unfold thermalEnd
  dsimp only
  rw [rd_refreshCaps (thmT_apart (.inl (by decide)) _) (thmT_apart (.inl (by decide)) _)]
  simp (disch := first | assumption | decide) only [rd_ite, rd_raiseIf_quiet, rd_wr_thmT, rd_inc_thmT, ite_self]

theorem thermalEnd_follow {s r : State} (slow : Bool) (hr : ∀ n, r.on R.DIE_STS_IN_RESET n = s.on R.DIE_STS_IN_RESET n) :
    CapsFollow s (thermalEnd r slow) := by
  refine refreshCaps_follow fun n => (congrArg (· == 1) ?_ : _ = r.on R.DIE_STS_IN_RESET n).trans (hr n)
  have hq := loud_dieReset n
  simp (disch := first | assumption | decide) only [rd_ite, rd_raiseIf_quiet, rd_wr_apart, rd_inc_apart, ite_self]

/-- The term of every die after an evaluation (R422). -/
theorem thermalEval_term {s : State} {n : Nat} (slow : Bool) (hn : n < 8) (h : s.rd (R.THM_DIE_T n) 0 ≤ 64) :
    (thermalEval s slow).rd (R.THM_DIE_T n) 0 = thermalTerm s slow n := by
  obtain ⟨u, hu⟩ := foldl_range_at (thermTurn slow) hn s
  have hterm : thermalTerm u slow n = thermalTerm s slow n := (hu (thermalTerm · slow n) fun m s hm => thermalTerm_turn hn hm slow s).1
  have hat := (hu (fun s => s.rd (R.THM_DIE_T n) 0) fun m s hm => rd_thermTurn_other hm slow s).2
  rw [thermalEval_eq, thermalEnd_term, hat, rd_thermTurn_same slow u (by rw [hterm]; exact thermalTerm_le slow h), hterm]

theorem thermalEval_follow (s : State) (slow : Bool) : CapsFollow s (thermalEval s slow) :=
  thermalEnd_follow slow fun n => congrArg (· == 1) (foldl_keeps (fun s => s.rd R.DIE_STS_IN_RESET n)
    (fun m s => rd_thermTurn (by decide) (loud_dieReset n) slow s m) _ s)


/-! Loss of lock -/

/-- The event bit `b` of the page in `slot` is set. -/
def Evt (s : State) (slot b : Nat) : Prop := bitOf (s.hrd R.EVT_STS slot) b = true

/-- Another event leaves a set event bit set. -/
theorem Evt.raiseSlot {s : State} {slot b : Nat} (hb : b < 32) (h : Evt s slot b) (j c : Nat) : Evt (raiseSlot s j c) slot b := by
  unfold Evt at h ⊢
  by_cases hk : hkey R.EVT_STS slot = hkey R.EVT_STS j
  · have hj : ∀ u : State, u.hrd R.EVT_STS slot = u.hrd R.EVT_STS j := fun u => congrArg (Store.get R.EVT_STS.reset u.regs) hk
    rw [hj] at h ⊢
    unfold Machine.raiseSlot
    dsimp only
    split
    · exact h
    next hclear =>
      have hset : bitOf ((s.hwr R.EVT_STS j (s.hrd R.EVT_STS j + 2 ^ c)).hrd R.EVT_STS j) b = true := by
        rw [hrd_hwr_same, bitOf_mod (k := R.EVT_STS.width) hb, bitOf_add_clear (Bool.eq_false_iff.mpr hclear), h]
        rfl
      split
      · exact hset
      · exact (congrArg (bitOf · b) (get_notice_regs _ j c R.EVT_STS.reset (not_countsMsix_hkey (f := R.EVT_STS) (by decide) j))).trans hset
  · have heq : (Machine.raiseSlot s j c).hrd R.EVT_STS slot = s.hrd R.EVT_STS slot :=
      get_raiseSlot_regs s j c _ (not_countsMsix_hkey (by decide) slot) hk
    rw [heq]
    exact h

theorem Evt.raise {s : State} {slot b : Nat} (hb : b < 32) (h : Evt s slot b) (p : Page) (i c : Nat) : Evt (raise s p i c) slot b :=
  h.raiseSlot hb _ _

theorem evt_raise (s : State) (p : Page) (i : Nat) {b : Nat} (hb : b < 32) : Evt (raise s p i b) (slotOf p i) b := bitOf_raiseSlot s _ hb

theorem Evt.wr {s : State} {slot b : Nat} (h : Evt s slot b) {f : Field} (hf : 0x100 ≤ f.off) (i v : Nat) : Evt (s.wr f i v) slot b := by
  unfold Evt at h ⊢
  rw [hrd_wr_other]
  · exact h
  · exact fun e => absurd (congrArg Key.off e) (Nat.ne_of_lt (Nat.lt_of_lt_of_le (show R.EVT_STS.off < 0x100 by decide) hf))

theorem Evt.inc {s : State} {slot b : Nat} (h : Evt s slot b) {f : Field} (hf : 0x100 ≤ f.off) (i n : Nat) : Evt (s.inc f i n) slot b := by
  have heq : (s.inc f i n).hrd R.EVT_STS slot = s.hrd R.EVT_STS slot := store_get_set_other _ _ _ fun e =>
    absurd (congrArg Key.off e) (Nat.ne_of_lt (Nat.lt_of_lt_of_le (show R.EVT_STS.off < 0x100 by decide) hf))
  unfold Evt at h ⊢
  rw [heq]
  exact h

theorem Evt.logErr {s : State} {slot b : Nat} (hb : b < 32) (h : Evt s slot b) (p : Page) (i code : Nat) (c : EClass) (unit addr : Nat)
    (d : List Nat) : Evt (logErr s p i code c unit addr d) slot b := by
  have hcount : Evt (countClass s p i c) slot b := by
    have h1 := (h.inc (f := R.FLT_CLASS_CNT_COUNT c.code) (show 0x100 ≤ 0x140 + 4 * c.code by omega) 0 1).raise hb .FLT 0 (4 + c.code)
    have hdie (u : State) (n : Nat) (hu : Evt u slot b) : Evt (u.inc (R.DIE_CLASS_CNT_COUNT c.code) n 1) slot b :=
      hu.inc (show 0x100 ≤ 0x120 + 4 * c.code by omega) n 1
    have hport (u : State) (n : Nat) (hu : Evt u slot b) : Evt (u.inc (R.PDC_CLASS_CNT_COUNT c.code) n 1) slot b :=
      hu.inc (show 0x100 ≤ 0x120 + 4 * c.code by omega) n 1
    unfold countClass
    cases dieOfPage p i <;> cases portOfPage p i
    · exact h1
    · exact hport _ _ h1
    · exact hdie _ _ h1
    · exact hport _ _ (hdie _ _ h1)
  unfold Machine.logErr
  dsimp only
  split
  · exact hcount
  · exact hcount.raise hb _ _ _


theorem Evt.haltBringup {s : State} {slot b : Nat} (hb : b < 32) (h : Evt s slot b) (cause : Nat) : Evt (haltBringup s cause) slot b := by
  unfold Machine.haltBringup
  split
  · exact h
  · exact (((((h.wr (by decide) 0 6).wr (by decide) 0 cause).raise hb .SMC 0 6).wr (f := R.SMC_BRINGUP_TIME_READY_TIME) (by decide) 0 _).wr
      (f := R.SMC_MB_STS_STATE) (by decide) 0 0).raise hb .SMC 0 5

/-- A bring-up that is under way halts with its cause (R482). -/
theorem haltBringup_halts {s : State} {cause : Nat} (hc : cause < 16) (h0 : s.rd R.SMC_BRINGUP_STAGE 0 ≠ 0) (h5 : s.rd R.SMC_BRINGUP_STAGE 0 < 5) :
    (haltBringup s cause).rd R.SMC_BRINGUP_STAGE 0 = 6 ∧ (haltBringup s cause).rd R.SMC_BRINGUP_HALT_CAUSE 0 = cause := by
  unfold haltBringup bringupEnd
  rw [if_neg (by omega)]
  have hhost (u : State) (x : HostLink) (f : Field) : ({ u with host := x } : State).rd f 0 = u.rd f 0 := rfl
  simp (disch := decide) only [hhost, rd_raise_quiet, rd_wr_apart, rd_wr_same]
  exact ⟨rfl, Nat.mod_eq_of_lt hc⟩

/-- A field apart from the bring-up's. -/
theorem rd_haltBringup {f : Field} {i : Nat} (hq : loud (f.key i) = false) (h1 : f.apart R.SMC_BRINGUP_STAGE = true)
    (h2 : f.apart R.SMC_BRINGUP_HALT_CAUSE = true) (h3 : f.apart R.SMC_BRINGUP_TIME_READY_TIME = true) (h4 : f.apart R.SMC_MB_STS_STATE = true)
    (s : State) (cause : Nat) : (haltBringup s cause).rd f i = s.rd f i := by
  unfold haltBringup bringupEnd
  split
  · rfl
  · show (raise _ _ _ _).rd f i = _
    rw [rd_raise_quiet hq, rd_wr_apart h4, rd_wr_apart h3, rd_raise_quiet hq, rd_wr_apart h2, rd_wr_apart h1]

/-- The lock bits of a die slot's kind (R427). -/
def lockField (d : Nat) : Field := if d < 8 then R.CLK_STS_CD_LOCK else R.CLK_STS_PD_LOCK

/-- The bit of a die slot in its lock field. -/
def lockBit (d : Nat) : Nat := if d < 8 then d else d - 8

/-- The state in which the loop of a die slot has lost lock, logged (R427). -/
def unlockedState (s : State) (d : Nat) : State :=
  let s := s.wr (lockField d) 0 (s.rd (lockField d) 0 - (if bitOf (s.rd (lockField d) 0) (lockBit d) then 2 ^ lockBit d else 0))
  let s := { s with smc := { s.smc with unlocked := s.smc.unlocked ||| 2 ^ d } }
  logErr (raise s .CLK 0 4) .CLK 0 1 .DOMAIN d 0 [0, 0, 0]

theorem pllUnlock_eq (s : State) (d : Nat) : pllUnlock s d = haltBringup (unlockedState s d) 3 := rfl

theorem unlocked_smc (s : State) (d : Nat) : (pllUnlock s d).smc.unlocked = s.smc.unlocked ||| 2 ^ d := by
  rw [pllUnlock_eq, haltBringup_smc]
  simp [unlockedState]

/-- A lock bit that is cleared where it was set. -/
theorem bitOf_clear (a n m : Nat) : bitOf (a - (if bitOf a n then 2 ^ n else 0)) m = (bitOf a m && decide (m ≠ n)) := by
  split
  next h => exact bitOf_sub_two_pow h m
  next h =>
    by_cases hm : m = n
    · subst hm
      simp [h]
    · simp [hm]

theorem rd_unlockedState {f : Field} (hq : loud (f.key 0) = false) (s : State) (d : Nat) :
    (unlockedState s d).rd f 0 = (s.wr (lockField d) 0 (s.rd (lockField d) 0 - (if bitOf (s.rd (lockField d) 0) (lockBit d) then 2 ^ lockBit d else 0))).rd
      f 0 := (rd_logErr_quiet hq _ _ _ _ _ _ _ _).trans (rd_raise_quiet hq _ _ _ _)

/-- The lock bits after a loss of lock (R427). -/
theorem pllUnlock_lock (s : State) (d : Nat) :
    (∀ k, k < 8 → bitOf ((pllUnlock s d).rd R.CLK_STS_CD_LOCK 0) k = (bitOf (s.rd R.CLK_STS_CD_LOCK 0) k && decide (k ≠ d))) ∧
    (∀ k, k < 2 → bitOf ((pllUnlock s d).rd R.CLK_STS_PD_LOCK 0) k = (bitOf (s.rd R.CLK_STS_PD_LOCK 0) k && decide (k + 8 ≠ d))) := by
  rw [pllUnlock_eq, rd_haltBringup (by decide) (by decide) (by decide) (by decide) (by decide), rd_unlockedState (by decide),
    rd_haltBringup (by decide) (by decide) (by decide) (by decide) (by decide), rd_unlockedState (by decide)]
  unfold lockField lockBit
  split
  next hd =>
    rw [rd_wr_same, rd_wr_apart (by decide)]
    refine ⟨fun k hk => (bitOf_mod hk _).trans (bitOf_clear _ _ _), fun k _ => ?_⟩
    have : k + 8 ≠ d := by omega
    simp [this]
  next hd =>
    rw [rd_wr_same, rd_wr_apart (by decide)]
    refine ⟨fun k hk => ?_, fun k hk => (bitOf_mod hk _).trans ((bitOf_clear _ _ _).trans ?_)⟩
    · have : k ≠ d := by omega
      simp [this]
    · have : k ≠ d - 8 ↔ k + 8 ≠ d := by omega
      simp only [this]

theorem mainOff_running {s : State} (on : s.power.on = true) : mainOff s =
    (({ s with power := { s.power with on := false } } : State).undefine 0 (2 ^ 48)).emit (.pin "PWR_GOOD" false) := if_pos on

/-- What the loss of the input for long leaves (R425, R461). -/
theorem standbyOff_loses (s : State) : let t := standbyOff (mainOff s)
    t.power.on = false ∧ t.power.trip = none ∧ t.smc.i3c = none ∧ (s.power.on = true → OutMsg.pin "PWR_GOOD" false ∈ t.out) ∧
      (s.power.trip ≠ none → OutMsg.pin "THERMTRIP_N" true ∈ t.out) ∧ t.ledger = s.ledger := by
  have hmain : (mainOff s).power.on = false ∧ (mainOff s).power.trip = s.power.trip ∧ (mainOff s).ledger = s.ledger ∧
      (s.power.on = true → OutMsg.pin "PWR_GOOD" false ∈ (mainOff s).out) := by
    cases hon : s.power.on with
    | false => exact ⟨by simp [mainOff, hon], by simp [mainOff, hon], by simp [mainOff, hon], fun h => Bool.noConfusion h⟩
    | true =>
      rw [mainOff_running hon]
      exact ⟨rfl, rfl, rfl, fun _ => .head _⟩
  obtain ⟨hon, htrip, hled, hout⟩ := hmain
  unfold standbyOff
  dsimp only
  split
  · exact ⟨hon, rfl, rfl, fun h => .tail _ (hout h), fun _ => .head _, hled⟩
  next h => exact ⟨hon, rfl, rfl, hout, fun h' => absurd (Option.isSome_iff_ne_none.mpr (htrip ▸ h')) h, hled⟩

/-- Settles O49. -/
theorem temperatureClocksAndSupply : Obligations.TemperatureClocksAndSupply := by
  refine fun s => ⟨fun id temp on hid => ?_, fun id temp on hid hb => ?_, fun slow on => ?_, fun id temp on hid ht hb => ?_,
    fun id temp on hid ht => ?_, fun d on hd => ?_, fun on ht => ?_, fun ht => ?_, ?_, ?_, fun hoff ht => ?_, fun h => ?_⟩
  · obtain ⟨hfirst, hi, -⟩ := sensorPlace_in hid
    obtain ⟨T, hT, hle⟩ := dieTemp_some hi (sensorGood_ok (s := s) temp hid)
    have hcur : Tbl.get 0 (sensorGood s id temp).power.temps id = temp := tbl_get_set_same _ _ _ _
    rw [hfirst, hcur] at hle
    obtain ⟨htemp, hok⟩ := updateTemp_some hT
    refine ⟨updateTemp (sensorGood s id temp) (sensorPlace id).1, T, onUnit_on on hid _, (dieTemp_updateTemp _ _).trans hT, hle, htemp, ?_, ?_, ?_, ?_, ?_⟩
    · rw [updateTemp_power]
      exact hcur
    · rw [hok]
      exact sensorGood_ok temp hid
    · exact updateTemp_mem _ _
    · exact updateTemp_ctxs _ _
    · exact updateTemp_tmp _ _
  · refine ⟨updateTemp (sensorOut s id) (sensorPlace id).1, ?_, ?_, ?_, fun h32 hnone => ?_, ?_, ?_, ?_⟩
    · rw [← sensorRead_bad temp hb]
      exact onUnit_on on hid _
    · rw [updateTemp_ok]
      exact sensorOut_ok hid hb
    · rw [updateTemp_power]
      exact sensorOut_temps s id
    · have hp : (sensorPlace id).1 = id / 4 := by simp [sensorPlace, h32]
      rw [hp] at hnone ⊢
      rw [dieTemp_updateTemp] at hnone
      exact (updateTemp_none hnone).1 (by omega)
    · simp [sensorOut]
    · simp [sensorOut]
    · simp [sensorOut]
  · refine ⟨thermalEval s slow, live_on on _, fun n hn h64 => ?_, thermalEval_follow s slow, thermalEval_mem _ _, thermalEval_ctxs _ _,
      thermalEval_tmp _ _⟩
    rw [thermalEval_term slow hn h64]
    unfold thermalTerm
    refine ⟨fun h => by simp [h], fun h hs hhot => ?_, fun h hs hcool => ?_, fun h hno => ?_⟩
    · simp [h, hs, hhot]
    · simp [h, hs, hcool]
    · rcases hno with ⟨hs, hno⟩ | ⟨hs, hno⟩ <;> simp [h, hs, hno]
  · have heq : thermalTrip s id temp = (({ s with power := { s.power with on := false, trip := some (id, temp, s.now) } } : State).undefine 0
        (2 ^ 48)).emit (.pin "THERMTRIP_N" false) := if_neg (by simp [hb]; omega)
    refine ⟨_, onUnit_on on hid _, ?_⟩
    rw [heq]
    exact ⟨rfl, rfl, .head _, rfl, rfl⟩
  · show onUnit s id 36 _ = _
    rw [onUnit_on on hid]
    exact congrArg _ (if_pos (.inl ht))
  · obtain ⟨hcd, hpd⟩ := pllUnlock_lock s d
    have hstage : (unlockedState s d).rd R.SMC_BRINGUP_STAGE 0 = s.rd R.SMC_BRINGUP_STAGE 0 := by
      rw [rd_unlockedState (by decide)]
      unfold lockField
      split <;> exact rd_wr_apart (by decide) _ _ _ _
    refine ⟨pllUnlock s d, onUnit_on on hd _, unlocked_smc s d, ?_, hcd, hpd, fun h0 h5 => ?_, fun h => ?_, ?_, ?_, ?_⟩
    · exact ((evt_raise _ .CLK 0 (by decide)).logErr (by decide) _ _ _ _ _ _ _).haltBringup (by decide) 3
    · exact haltBringup_halts (s := unlockedState s d) (by decide) (by rwa [hstage]) (by rwa [hstage])
    · rw [pllUnlock_eq]
      unfold haltBringup
      rw [hstage, if_pos h, hstage]
    · exact pllUnlock_mem _ _
    · exact pllUnlock_ctxs _ _
    · exact pllUnlock_tmp _ _
  · refine ⟨mainOff s, congrArg _ (if_neg (by simp [ht])), ?_⟩
    · rw [mainOff_running on]
      exact ⟨rfl, .head _, rfl, rfl, rfl⟩
  · exact congrArg _ (if_pos (Option.isSome_iff_ne_none.mpr ht))
  · exact ⟨standbyOff (mainOff s), rfl, standbyOff_loses s⟩
  · refine ⟨mainOff s, rfl, ?_⟩
    unfold mainOff
    split
    · exact ⟨rfl, rfl, rfl, rfl⟩
    next hoff => exact ⟨by simpa using hoff, rfl, rfl, rfl⟩
  · refine ⟨(coldReset s).emit (.pin "PWR_GOOD" true), congrArg _ (if_neg (by simp [hoff, ht])), ?_⟩
    exact ⟨rfl, rfl, rfl, rfl, rfl, rfl, rfl, rfl, rfl, rfl, rfl, rfl, rfl, .head _⟩
  · exact congrArg _ (if_pos (by simpa [Option.ne_none_iff_isSome] using h))

end Sys2Proof.Machine

namespace Sys2Proof.Machine

open Sys2Proof

/-! ## Loupe -/

theorem captureOf_setCapture_same (s : State) (d : Nat) (c : Capture) : captureOf (s.setCapture d c) d = some c := by
  unfold captureOf State.setCapture
  simp [find?_tbl_set]

theorem captureOf_setCapture_other (s : State) {d e : Nat} (c : Capture) (h : e ≠ d) : captureOf (s.setCapture d c) e = captureOf s e := by
  unfold captureOf State.setCapture
  simp [find?_tbl_set, h]

theorem captureOf_dropCapture_same (s : State) (d : Nat) : captureOf (dropCapture s d) d = none := by
  unfold captureOf dropCapture
  rw [Option.map_eq_none_iff, List.find?_eq_none]
  intro e he
  have := (List.mem_filter.mp he).2
  simpa using this

theorem captureOf_dropCapture_other (s : State) {d e : Nat} (h : e ≠ d) : captureOf (dropCapture s d) e = captureOf s e := by
  unfold captureOf dropCapture
  rw [List.find?_filter]
  congr 2
  funext x
  by_cases hx : x.1 = e
  · simp [hx, h]
  · simp [hx]


theorem captureOf_congr {s t : State} (h : t.eng = s.eng) (d : Nat) : captureOf t d = captureOf s d := by
  unfold captureOf
  rw [h]

/-- The fields of a Loupe page that no bookkeeping writes: all but those of LPE_STS. -/
theorem loud_lpe {f : Field} (hp : f.page = .LPE) (ho : 0x104 < f.off) (n : Nat) : loud (f.key n) = false := by
  have hs : (f.key n).slot = 0x045 + 16 * n := by
    show canonSlot (slotOf f.page n) = _
    rw [hp]
    exact canonSlot_eq (show 0x045 + 16 * n ≠ 0x114 by omega)
  unfold loud
  rw [decide_eq_false_iff_not, hs]
  show ¬ (f.off < 0x100 ∨ _ ∨ _ ∧ _ ≤ f.off ∧ _ ∨ _ ∧ _ ≤ f.off ∧ _ ∨ _ ∧ f.off = _ ∨ _ ∧ f.off = _ ∨ _ ∧ f.off = _ ∧ _ ∨ _ ∧ f.off = _ ∧ _ ∨
    _ ∧ f.off = _ ∧ _ ∨ _)
  omega

/-- A check has the tile counted (R340). -/
def checkCounted (s : State) (die : Nat) (c : Capture) : State :=
  let s := s.inc R.LPE_SAMPLED_SAMPLED die 1
  if c.sat && c.elems.any (·.exact.isNone) then s.inc R.LPE_SKIP_SAT_SKIP_SAT die 1 else s

theorem checkCounted_sampled (s : State) (die : Nat) (c : Capture) :
    (checkCounted s die c).rd R.LPE_SAMPLED_SAMPLED die = min (2 ^ 64 - 1) (s.rd R.LPE_SAMPLED_SAMPLED die + 1) := by
  unfold checkCounted
  dsimp only
  rw [rd_ite, rd_inc_apart (by decide), ite_self, rd_inc_same]
  rfl

/-- Counting changes registers alone. -/
theorem checkCounted_frame (s : State) (die : Nat) (c : Capture) : ∃ r, checkCounted s die c = { s with regs := r } := by
  unfold checkCounted
  dsimp only
  split <;> exact ⟨_, rfl⟩

theorem rerunUnit_checkCounted (s : State) (die : Nat) (c : Capture) (u : Nat) : rerunUnit (checkCounted s die c) die u = rerunUnit s die u := by
  have hrd (i : Nat) : (checkCounted s die c).rd R.ANV_SUSPECT_SUSPECT i = s.rd R.ANV_SUSPECT_SUSPECT i := by
    unfold checkCounted
    dsimp only
    rw [rd_ite, rd_inc_apart (by decide), ite_self, rd_inc_apart (by decide)]
  have hin : anvilsIn (checkCounted s die c) die .active = anvilsIn s die .active := by
    obtain ⟨r, hr⟩ := checkCounted_frame s die c
    rw [hr]
    rfl
  unfold rerunUnit
  simp only [hrd, hin]

section

variable {s : State} {die : Nat} {c : Capture} (hc : captureOf s die = some c)
include hc

theorem loupeCheck_passes (he : c.ended = true) (hs : c.settling = false) (hp : tilePasses c c.res = true) :
    loupeCheck s die false = dropCapture (checkCounted s die c) die := by
  unfold loupeCheck
  rw [hc]
  simp only [he, hs, hp, checkCounted, Bool.not_true, Bool.or_self, Bool.false_eq_true, if_false, Bool.not_false, Bool.and_true, if_true]

theorem loupeCheck_fails {slip : Bool} (he : c.ended = true) (hs : c.settling = false) (hp : tilePasses c c.res = false ∨ slip = true) :
    loupeCheck s die slip = (checkCounted s die c).setCapture die
      { c with settling := true, slip := slip, u2 := rerunUnit (checkCounted s die c) die c.u1, rerun := none } := by
  have hno : (tilePasses c c.res && !slip) = false := by rcases hp with h | h <;> simp [h]
  unfold loupeCheck
  rw [hc]
  simp only [he, hs, hno, checkCounted, Bool.not_true, Bool.or_self, Bool.false_eq_true, if_false]

theorem loupeRerun_active {m : Nat} (faults : List (Nat × Nat)) (hs : c.settling = true) (hr : c.rerun = none) (hu : c.u2 = some m)
    (ha : (anvilOf s die m).st = .active) : loupeRerun s die faults = s.setCapture die
      { c with rerun := some (withFaults c.good faults == c.res, !c.slip && tilePasses c (withFaults c.good faults)) } := by
  unfold loupeRerun
  rw [hc]
  simp [hs, hr, hu, ha]

theorem loupeRerun_passive {m : Nat} (faults : List (Nat × Nat)) (hs : c.settling = true) (hr : c.rerun = none) (hu : c.u2 = some m)
    (ha : (anvilOf s die m).st ≠ .active) : loupeRerun s die faults = s.setCapture die { c with u2 := rerunUnit s die c.u1 } := by
  unfold loupeRerun
  rw [hc]
  simp [hs, hr, hu, ha]

end

/-- The registers of an outcome are written and its fault, if it is one, recorded (R343). -/
def settleNoted (s : State) (die : Nat) (c : Capture) (out : Nat) : State :=
  let hurts := out != 2 && captureLive s c
  let t := settleRegs s die c out (if hurts then .STEP else .CAPACITY)
  if hurts then stepFault t .anvilFault else t

theorem loupeSettle_eq {s : State} {die : Nat} {c : Capture} (agrees : Bool) (hc : captureOf s die = some c) (hs : c.settling = true)
    (hr : c.u2 = none ∨ c.rerun.isSome = true) : loupeSettle s die agrees =
      settleUnits (dropCapture (settleNoted s die c (settleOutcome c.rerun agrees)) die) die c (settleOutcome c.rerun agrees) := by
  have hno : (!c.settling || c.u2.isSome && c.rerun.isNone) = false := by
    rcases hr with h | h
    · simp [hs, h]
    · simp [hs, h]
  unfold loupeSettle
  rw [hc]
  dsimp only
  rw [hno]
  rfl

theorem settleOutcome_cases (r : Option (Bool × Bool)) (agrees : Bool) :
    settleOutcome r agrees = 1 ∨ settleOutcome r agrees = 2 ∨ settleOutcome r agrees = 3 := by
  unfold settleOutcome
  split
  next same passes => cases agrees <;> cases same <;> cases passes <;> simp
  · simp

/-- The counter of an outcome (Table 13.13). -/
def outcomeField (out : Nat) : Field :=
  if out = 1 then R.LPE_OUTCOMES_ANVIL_WRONG else if out = 2 then R.LPE_OUTCOMES_LOUPE_WRONG else R.LPE_OUTCOMES_UNRESOLVED

/-- LPE_LAST and the flag of an outcome (Table 13.13). -/
def settleShown (s : State) (die : Nat) (c : Capture) (out : Nat) : State :=
  let s := ((s.wr R.LPE_LAST_OUTCOME die out).wr R.LPE_LAST_U1 die c.u1).wr R.LPE_LAST_U2 die (c.u2.getD 0x3F)
  let s := (s.wr R.LPE_LAST_CTX die c.ctx).wr R.LPE_LAST_ADDR_D_ADDR die c.addr
  if out = 1 then s else s.wr R.LPE_STS_FLAGGED die 1

/-- What the registers of an outcome show (Tables 13.13, 13.19). -/
theorem settleRegs_reads (s : State) (die : Nat) (c : Capture) {out : Nat} (cls : EClass) (ho : out = 1 ∨ out = 2 ∨ out = 3) :
    (settleRegs s die c out cls).rd R.LPE_LAST_OUTCOME die = out ∧ (settleRegs s die c out cls).rd R.LPE_LAST_U1 die = c.u1 % 64 ∧
      (settleRegs s die c out cls).rd (outcomeField out) die = min 65535 (s.rd (outcomeField out) die + 1) := by
  have hq {f : Field} (hp : f.page = .LPE) (ho : 0x104 < f.off) : loud (f.key die) = false := loud_lpe hp ho die
  have hof : (outcomeField out).page = .LPE ∧ (outcomeField out).off = 0x128 ∧ (outcomeField out).width = 16 := by
    rcases ho with rfl | rfl | rfl <;> decide
  obtain ⟨hop, hoo, how⟩ := hof
  have hout {g : Field} (h : g.off ≠ 0x128) : (outcomeField out).apart g = true := decide_eq_true (.inl (by rw [hoo]; exact Ne.symm h))
  have hapart {g : Field} (h : g.off ≠ 0x128) : g.apart (outcomeField out) = true := decide_eq_true (.inl (by rw [hoo]; exact h))
  have hqo : loud ((outcomeField out).key die) = false := hq hop (by rw [hoo]; decide)
  have heq : settleRegs s die c out cls = logErr (raise (settleShown (s.inc (outcomeField out) die 1) die c out) .LPE die (3 + out)) .LPE die out cls c.u1
      c.addr [c.ctx + c.u2.getD 0x3F * 256, 0, 0] := rfl
  rw [heq, rd_logErr_quiet (hq rfl (by decide)), rd_logErr_quiet (hq rfl (by decide)), rd_logErr_quiet hqo,
    rd_raise_quiet (hq rfl (by decide)), rd_raise_quiet (hq rfl (by decide)), rd_raise_quiet hqo]
  unfold settleShown
  have hcount := congrArg (fun w => min (2 ^ w - 1) (s.rd (outcomeField out) die + 1)) how
  refine ⟨?_, ?_, Eq.trans ?_ hcount⟩
  · simp (disch := decide) only [rd_ite, rd_wr_apart, rd_wr_same, ite_self]
    exact Nat.mod_eq_of_lt (show out < 4 by omega)
  · simp (disch := decide) only [rd_ite, rd_wr_apart, rd_wr_same, ite_self]
    rfl
  · simp (disch := first | (refine hout ?_; decide) | (refine hapart ?_; decide)) only [rd_ite, rd_wr_apart, rd_inc_same, ite_self]


theorem rd_stepFault_quiet {f : Field} {i : Nat} (h : loud (f.key i) = false) (s : State) (r : Reason) : (stepFault s r).rd f i = s.rd f i :=
  stepFault_quiet _ _ _ h

theorem rd_settleUnits_quiet {f : Field} {i : Nat} (h : loud (f.key i) = false) (s : State) (die : Nat) (c : Capture) (out : Nat) :
    (settleUnits s die c out).rd f i = s.rd f i := settleUnits_quiet _ _ _ _ _ h

/-- A register of the Loupe's page after the settlement is as its outcome wrote it. -/
theorem rd_loupeSettle {f : Field} {s : State} {die : Nat} {c : Capture} (agrees : Bool) (hc : captureOf s die = some c) (hs : c.settling = true)
    (hr : c.u2 = none ∨ c.rerun.isSome = true) (h : loud (f.key die) = false) : (loupeSettle s die agrees).rd f die =
      (settleRegs s die c (settleOutcome c.rerun agrees)
        (if settleOutcome c.rerun agrees != 2 && captureLive s c then .STEP else .CAPACITY)).rd f die := by
  rw [loupeSettle_eq agrees hc hs hr, rd_settleUnits_quiet h]
  show (settleNoted s die c _).rd f die = _
  unfold settleNoted
  dsimp only
  split
  · exact rd_stepFault_quiet h _ _
  · rfl

theorem settleNoted_frame (s : State) (die : Nat) (c : Capture) (out : Nat) : let t := settleNoted s die c out
    t.eng = s.eng ∧ t.mem = s.mem ∧ t.ctxs = s.ctxs ∧ t.tmp = s.tmp := by
  unfold settleNoted
  dsimp only
  split
  · simp
  · simp

/-- The attempt's fault after the settlement (R343). -/
theorem settleNoted_attempt (s : State) (die : Nat) (c : Capture) (out : Nat) : (settleNoted s die c out).attempt =
    if (out != 2 && captureLive s c) = true ∧ s.attempt.fault = none then { s.attempt with fault := some .anvilFault } else s.attempt := by
  unfold settleNoted
  dsimp only
  split
  next hh =>
    have hl : attemptLive s = true := by
      simp only [captureLive, Bool.and_eq_true] at hh
      exact hh.2.2
    have ha : (settleRegs s die c out .STEP).attempt = s.attempt := settleRegs_attempt _ _ _ _ _
    have ht : (settleRegs s die c out .STEP).tmp = s.tmp := settleRegs_tmp _ _ _ _ _
    rcases stepFault_attempt_or (settleRegs s die c out .STEP) .anvilFault with h | ⟨hf, h⟩
    · have hno : s.attempt.fault ≠ none := fun hf => by
        have hfirst := stepFault_first (s := settleRegs s die c out .STEP) .anvilFault (by unfold attemptLive; rw [ht, ha]; exact hl) (by rw [ha, hf])
        rw [h, ha, hf] at hfirst
        cases hfirst
      rw [h, ha, if_neg (fun h => hno h.2)]
    · rw [h, ha]
      rw [ha] at hf
      simp [hh, hf]
  next hh =>
    rw [if_neg (fun h => hh h.1)]
    exact settleRegs_attempt _ _ _ _ _

/-- Settles O43. -/
theorem loupeChecksAndSettles : Obligations.LoupeChecksAndSettles := by
  refine fun s die c on hd hc => ⟨fun he hs hp => ?_, fun slip he hs hp => ?_, fun faults m hs hr hu ha => ?_, fun faults m hs hr hu ha => ?_,
    fun agrees out hs hr ho => ?_⟩
  · obtain ⟨r, hfr⟩ := checkCounted_frame s die c
    refine ⟨loupeCheck s die false, onUnit_on on hd _, ?_⟩
    rw [loupeCheck_passes hc he hs hp]
    refine ⟨captureOf_dropCapture_same _ _, checkCounted_sampled s die c, fun d hne => ?_, ?_⟩
    · rw [captureOf_dropCapture_other _ hne, hfr]
      rfl
    · rw [hfr]
      exact ⟨rfl, rfl, rfl, rfl⟩
  · obtain ⟨r, hfr⟩ := checkCounted_frame s die c
    refine ⟨loupeCheck s die slip, onUnit_on on hd _, ?_⟩
    rw [loupeCheck_fails hc he hs hp, rerunUnit_checkCounted]
    refine ⟨captureOf_setCapture_same _ _ _, checkCounted_sampled s die c, fun d hne => ?_, ?_⟩
    · rw [captureOf_setCapture_other _ _ hne, hfr]
      rfl
    · rw [hfr]
      exact ⟨rfl, rfl, rfl, rfl⟩
  · refine ⟨loupeRerun s die faults, onUnit_on on hd _, ?_⟩
    rw [loupeRerun_active hc faults hs hr hu ha]
    exact ⟨captureOf_setCapture_same _ _ _, fun d hne => captureOf_setCapture_other _ _ hne, rfl, rfl, rfl, rfl, rfl⟩
  · refine ⟨loupeRerun s die faults, onUnit_on on hd _, ?_⟩
    rw [loupeRerun_passive hc faults hs hr hu ha]
    exact ⟨captureOf_setCapture_same _ _ _, fun d hne => captureOf_setCapture_other _ _ hne, rfl, rfl, rfl, rfl, rfl⟩
  · subst ho
    obtain ⟨h1, h2, h3⟩ := settleRegs_reads s die c (if settleOutcome c.rerun agrees != 2 && captureLive s c then .STEP else .CAPACITY)
      (settleOutcome_cases c.rerun agrees)
    have hrd {f : Field} (hp : f.page = .LPE) (ho : 0x104 < f.off) := rd_loupeSettle (f := f) agrees hc hs hr (loud_lpe hp ho die)
    have hcap (d : Nat) : captureOf (loupeSettle s die agrees) d = captureOf (dropCapture s die) d := by
      rw [loupeSettle_eq agrees hc hs hr, captureOf_congr (settleUnits_eng _ _ _ _)]
      unfold captureOf dropCapture
      dsimp only
      rw [(settleNoted_frame s die c _).1]
    have hcount : (loupeSettle s die agrees).rd (outcomeField (settleOutcome c.rerun agrees)) die =
        min 65535 (s.rd (outcomeField (settleOutcome c.rerun agrees)) die + 1) := by
      have hof : (outcomeField (settleOutcome c.rerun agrees)).page = .LPE ∧ 0x104 < (outcomeField (settleOutcome c.rerun agrees)).off := by
        rcases settleOutcome_cases c.rerun agrees with h | h | h <;> rw [h] <;> decide
      rw [hrd hof.1 hof.2, h3]
    refine ⟨loupeSettle s die agrees, onUnit_on on hd _, ?_, ?_, ?_, fun ho => by rwa [ho] at hcount, fun ho => by rwa [ho] at hcount,
      fun ho => by rwa [ho] at hcount, ?_, fun d hne => ?_, ?_⟩
    · rw [hcap, captureOf_dropCapture_same]
    · rw [hrd rfl (by decide), h1]
    · rw [hrd rfl (by decide), h2]
    · rw [loupeSettle_eq agrees hc hs hr, settleUnits_attempt]
      exact settleNoted_attempt _ _ _ _
    · rw [hcap, captureOf_dropCapture_other _ hne]
    · obtain ⟨-, hm, hx, ht⟩ := settleNoted_frame s die c (settleOutcome c.rerun agrees)
      rw [loupeSettle_eq agrees hc hs hr, settleUnits_mem, settleUnits_ctxs, settleUnits_tmp]
      exact ⟨hm, hx, ht⟩

end Sys2Proof.Machine

namespace Sys2Proof.Machine

open Sys2Proof

/-! ## Units, claims and tests -/

@[simp] theorem anvilOf_setAnvil_same (s : State) (d m : Nat) (a : Anvil) : anvilOf (s.setAnvil d m a) d m = a := tbl_get_set_same _ _ _ _

theorem anvilOf_setAnvil_other (s : State) (d : Nat) {m v : Nat} (a : Anvil) (h : v ≠ m) : anvilOf (s.setAnvil d m a) d v = anvilOf s d v :=
  tbl_get_set_other _ _ _ (by omega)

@[simp] theorem swageOf_setSwage_same (s : State) (d m : Nat) (x : Swage) : swageOf (s.setSwage d m x) d m = x := tbl_get_set_same _ _ _ _

theorem swageOf_setSwage_other (s : State) (d : Nat) {m v : Nat} (x : Swage) (h : v ≠ m) : swageOf (s.setSwage d m x) d v = swageOf s d v :=
  tbl_get_set_other _ _ _ (by omega)

theorem anvilOf_congr {s t : State} (h : t.eng = s.eng) (d m : Nat) : anvilOf t d m = anvilOf s d m := by
  unfold anvilOf
  rw [h]

theorem swageOf_congr {s t : State} (h : t.eng = s.eng) (d m : Nat) : swageOf t d m = swageOf s d m := by
  unfold swageOf
  rw [h]

theorem claimOf_append {l : Tbl (Nat × Nat × Bool)} {d : Nat} (x : Nat × Nat × Bool) (h : claimOf l d = none) : claimOf (l ++ [(d, x)]) d = some x := by
  unfold claimOf at h ⊢
  rw [List.find?_append, Option.map_eq_none_iff.mp h]
  simp

theorem claimOf_filter (l : Tbl (Nat × Nat × Bool)) (d : Nat) : claimOf (l.filter (fun e => e.1 != d)) d = none := by
  unfold claimOf
  rw [Option.map_eq_none_iff, List.find?_eq_none]
  intro e he
  simpa using (List.mem_filter.mp he).2

/-- A property that every turn keeps, a fold keeps. -/
theorem foldl_holds {α : Type} {P : State → Prop} {g : State → α → State} (h : ∀ s x, P s → P (g s x)) (l : List α) : ∀ s, P s → P (l.foldl g s) := by
  induction l with
  | nil => exact fun _ hs => hs
  | cons x l ih => exact fun s hs => ih _ (h s x hs)

/-- A unit that is no SPARE is not promoted. -/
theorem promote_other {s : State} {d v : Nat} (h : (anvilOf s d v).st ≠ .spare) : anvilOf (promote s d) d v = anvilOf s d v := by
  refine foldl_holds (P := fun t => anvilOf t d v = anvilOf s d v) (fun t m ht => ?_) _ s rfl
  dsimp only
  split
  next hm =>
    have hne : v ≠ m := fun e => h (by rw [← ht, e]; exact hm.1)
    rw [anvilOf_setAnvil_other _ _ _ hne, ht]
  · exact ht

/-- A promoted unit is not in test. -/
theorem promote_not_test {s : State} {d m : Nat} (h : (anvilOf s d m).st ≠ .test) : (anvilOf (promote s d) d m).st ≠ .test := by
  refine foldl_holds (P := fun t => (anvilOf t d m).st ≠ .test) (fun t k ht => ?_) _ s h
  dsimp only
  split
  · by_cases hk : m = k
    · subst hk
      simp
    · rwa [anvilOf_setAnvil_other _ _ _ hk]
  · exact ht

/-- Promotion changes the Anvils alone. -/
theorem promote_frame (s : State) (d : Nat) : ∃ t, promote s d = { s with eng := { s.eng with anvils := t } } := by
  refine foldl_holds (P := fun t => ∃ x, t = { s with eng := { s.eng with anvils := x } }) (fun t m ht => ?_) _ s ⟨_, rfl⟩
  obtain ⟨x, rfl⟩ := ht
  dsimp only
  split <;> exact ⟨_, rfl⟩

/-! Claims -/

/-- The state in which an Anvil is claimed and in TEST (R350). -/
def anvilClaimed (s : State) (d m : Nat) : State :=
  let t := { s with bist := { s.bist with anvClaim := s.bist.anvClaim ++ [(d, m, s.clock, false)],
                                          dueNow := s.bist.dueNow.filter (fun e => e.1 != anvilId d m) } }
  t.setAnvil d m { anvilOf t d m with st := .test }

theorem claimAnvil_due {s : State} {d m : Nat} (hc : claimOf s.bist.anvClaim d = none) (he : s.on R.BSR_CFG_ANV_EN d = true)
    (hr : s.on R.DIE_STS_IN_RESET d = false) (hl : longestDue (dueUnits s d (anvilIds s d)) = some (anvilId d m)) :
    claimAnvil s d = capacityCheck s (promote (anvilClaimed s d m) d) d := by
  have hm : anvilId d m - anvilId d 0 = m := by
    unfold anvilId
    omega
  unfold claimAnvil
  rw [if_neg (by simp [hc, he, hr]), hl]
  dsimp only
  rw [hm]
  rfl

/-- The state in which a Swage is claimed (R149). -/
def swageClaimed (s : State) (d u : Nat) : State :=
  let t := { s with bist := { s.bist with swgClaim := s.bist.swgClaim ++ [(d, u, s.clock, false)],
                                          dueNow := s.bist.dueNow.filter (fun e => e.1 != swageId d u) } }
  t.setSwage d u { swageOf t d u with st := .test }

theorem claimSwage_due {s : State} {d u : Nat} (hc : claimOf s.bist.swgClaim d = none) (he : s.on R.BSR_CFG_SWG_EN d = true)
    (hr : s.on R.DIE_STS_IN_RESET d = false) (hl : longestDue (dueUnits s d (swageIds s d)) = some (swageId d u)) :
    claimSwage s d = swageClaimed s d u := by
  have hu : swageId d u - swageId d 0 = u := by
    unfold swageId
    omega
  unfold claimSwage
  rw [if_neg (by simp [hc, he, hr]), hl]
  dsimp only
  rw [hu]
  rfl

/-! Tests -/

theorem testEnter_idle {s : State} {d m t0 : Nat} (hc : claimOf s.bist.anvClaim d = some (m, t0, false)) (hr : (anvilOf s d m).run = none)
    (hn : (anvilOf s d m).chain = none) : testEnter s d = enterTest (s.setAnvil d m { anvilOf s d m with chain := none }) d m t0 := by
  unfold testEnter
  rw [hc]
  dsimp only
  rw [if_neg (by simp [hr]), hn]

theorem moveChain_some {s : State} {c : Chain} {x : Mma} (h : mmaOf s c.flight = some x) :
    moveChain s c = s.setMma c.flight { x with moved := x.moved ++ [c] } := by
  unfold moveChain
  rw [h]

@[simp] theorem mmaOf_store (s : State) (a : Nat) (bs : List Byte) (id : Nat) : mmaOf (s.store a bs) id = mmaOf s id := rfl

@[simp] theorem anvilOf_store (s : State) (a : Nat) (bs : List Byte) (d m : Nat) : anvilOf (s.store a bs) d m = anvilOf s d m := rfl

@[simp] theorem anvilOf_setMma (s : State) (id : Nat) (x : Mma) (d m : Nat) : anvilOf (s.setMma id x) d m = anvilOf s d m := rfl

theorem testEnter_spills {s : State} {d m t0 : Nat} {c : Chain} {x : Mma} (hc : claimOf s.bist.anvClaim d = some (m, t0, false))
    (hr : (anvilOf s d m).run = none) (hn : (anvilOf s d m).chain = some c) (hx : mmaOf s c.flight = some x) :
    testEnter s d = enterTest (((s.store (spillAddr d m) (c.acc.flatMap (leBytes 4))).setMma c.flight
      { x with moved := x.moved ++ [{ c with acc := [], spilled := some m }] }).setAnvil d m { anvilOf s d m with chain := none }) d m t0 := by
  unfold testEnter
  rw [hc]
  dsimp only
  rw [if_neg (by simp [hr]), hn]
  dsimp only
  rw [moveChain_some (c := { c with acc := [], spilled := some m }) ((mmaOf_store _ _ _ _).trans hx), anvilOf_setMma, anvilOf_store]

/-- What a unit's entry into its test leaves, its accumulator stored and its chain moved (R65). -/
theorem entered_leaves {s : State} (u : State) (d m t0 id : Nat) (x : Mma) (hb : u.bist = s.bist) (he : u.eng = s.eng) (hc : u.ctxs = s.ctxs)
    (hf : u.flights = s.flights) (ht : u.tmp = s.tmp) :
    let t := enterTest ((u.setMma id x).setAnvil d m { anvilOf s d m with chain := none }) d m t0
    t.mem = u.mem ∧ (anvilOf t d m).chain = none ∧ t.bist.anvClaim = Tbl.set s.bist.anvClaim d (m, t0, true) ∧
      t.eng.mmas = Tbl.set s.eng.mmas id x ∧ t.ctxs = s.ctxs ∧ t.flights = s.flights ∧ t.tmp = s.tmp := by
  have ha : anvilOf (enterTest ((u.setMma id x).setAnvil d m { anvilOf s d m with chain := none }) d m t0) d m =
    { anvilOf s d m with chain := none } := anvilOf_setAnvil_same _ _ _ _
  dsimp only
  rw [ha, ← hb, ← he]
  exact ⟨rfl, rfl, rfl, rfl, hc, hf, ht⟩

theorem spilled_leaves (s : State) (a : Nat) (bs : List Byte) (d m t0 id : Nat) (x : Mma) :
    let t := enterTest (((s.store a bs).setMma id x).setAnvil d m { anvilOf s d m with chain := none }) d m t0
    t.mem = (s.store a bs).mem ∧ (anvilOf t d m).chain = none ∧ t.bist.anvClaim = Tbl.set s.bist.anvClaim d (m, t0, true) ∧
      t.eng.mmas = Tbl.set s.eng.mmas id x ∧ t.ctxs = s.ctxs ∧ t.flights = s.flights ∧ t.tmp = s.tmp :=
  entered_leaves (s.store a bs) d m t0 id x (State.store_bist s a bs) (State.store_eng s a bs) (State.store_ctxs s a bs) (State.store_flights s a bs)
    (State.store_tmp s a bs)

/-- ANV_CLAIM_FORCED of a unit with a tile: its chain starts again on another unit (R66). -/
theorem claimForced_moves {s : State} {d m t0 : Nat} {r : TileRun} {x : Mma} (hc : claimOf s.bist.anvClaim d = some (m, t0, false))
    (ht : t0 + 50000000 ≤ s.clock) (hr : (anvilOf s d m).run = some r) (hx : mmaOf s r.chain.flight = some x) :
    ∃ u : State, claimForced s d = enterTest (u.setAnvil d m { anvilOf u d m with run := none, chain := none }) d m t0 ∧
      u.eng.mmas = Tbl.set s.eng.mmas r.chain.flight
        { x with moved := x.moved ++ [{ r.chain with next := x.p.lo r.chain.split, acc := [], spilled := none }] } ∧
      u.bist = s.bist ∧ u.mem = s.mem ∧ u.ctxs = s.ctxs ∧ u.flights = s.flights ∧ u.tmp = s.tmp := by
  have hcap : mmaOf (abandonCapture s d m) r.chain.flight = some x ∧ (abandonCapture s d m).eng.mmas = s.eng.mmas := by
    unfold abandonCapture
    split
    · split
      · exact ⟨hx, rfl⟩
      · exact ⟨hx, rfl⟩
    · exact ⟨hx, rfl⟩
  have hmove := moveChain_some (s := abandonCapture s d m) (c := { r.chain with next := x.p.lo r.chain.split, acc := [], spilled := none }) hcap.1
  unfold claimForced
  rw [hc]
  dsimp only
  rw [if_neg (Nat.not_lt.mpr ht), hr]
  dsimp only
  rw [hx]
  dsimp only
  rw [hmove]
  refine ⟨_, rfl, ?_⟩
  refine ⟨?_, ?_, ?_, ?_, ?_, ?_⟩
  · rw [logErr_eng, raise_eng, ← hcap.2]
    rfl
  · rw [logErr_bist, raise_bist]
    exact abandonCapture_bist _ _ _
  · rw [logErr_mem, raise_mem]
    exact abandonCapture_mem _ _ _
  · rw [logErr_ctxs, raise_ctxs]
    exact abandonCapture_ctxs _ _ _
  · rw [logErr_flights, raise_flights]
    exact abandonCapture_flights _ _ _
  · rw [logErr_tmp, raise_tmp]
    exact abandonCapture_tmp _ _ _

/-- The blocks of a Swage go back to their commands, which changes the commands alone. -/
theorem rerunBlocks_frame (l : List (Nat × Nat × Nat)) (s : State) :
    ∃ v, l.foldl (fun t q => rerunBlock t q.2.1 q.2.2) s = { s with eng := { s.eng with vecs := v } } := by
  refine foldl_holds (P := fun t => ∃ v, t = { s with eng := { s.eng with vecs := v } }) (fun t q ht => ?_) l s ⟨_, rfl⟩
  obtain ⟨v, rfl⟩ := ht
  unfold rerunBlock
  split <;> exact ⟨_, rfl⟩

/-- SWG_CLAIM_FORCED of a unit with blocks (R150). -/
theorem swgForced_moves {s : State} {d u t0 : Nat} {e : Nat × Nat × Nat} {l : List (Nat × Nat × Nat)}
    (hc : claimOf s.bist.swgClaim d = some (u, t0, false)) (ht : t0 + 50000000 ≤ s.clock) (hs : (swageOf s d u).slots = e :: l) :
    ∃ v : State, swgForced s d = enterSwgTest (v.setSwage d u { swageOf s d u with slots := [] }) d u t0 ∧
      v.eng.vecs = ((e :: l).foldl (fun t q => rerunBlock t q.2.1 q.2.2) s).eng.vecs ∧
      v.bist = s.bist ∧ v.mem = s.mem ∧ v.ctxs = s.ctxs ∧ v.flights = s.flights ∧ v.tmp = s.tmp := by
  obtain ⟨x, hx⟩ := rerunBlocks_frame (e :: l) s
  unfold swgForced
  rw [hc]
  dsimp only
  rw [if_neg (Nat.not_lt.mpr ht)]
  split
  next h => exact absurd (h.symm.trans hs) (by simp)
  next e' l' h =>
    obtain ⟨rfl, rfl⟩ := List.cons.inj (h.symm.trans hs)
    refine ⟨_, rfl, ?_⟩
    rw [hs, hx]
    simp

/-! The end of a test -/

/-- Memory, contexts, flights and the step are the same in two states. -/
structure Untouched (s t : State) : Prop where
  mem : t.mem = s.mem
  ctxs : t.ctxs = s.ctxs
  flights : t.flights = s.flights
  tmp : t.tmp = s.tmp

theorem Untouched.trans {s t u : State} (h : Untouched s t) (h' : Untouched t u) : Untouched s u :=
  ⟨h'.mem.trans h.mem, h'.ctxs.trans h.ctxs, h'.flights.trans h.flights, h'.tmp.trans h.tmp⟩

theorem untouched_inc (s : State) (f : Field) (i n : Nat) : Untouched s (s.inc f i n) := ⟨rfl, rfl, rfl, rfl⟩

/-- What a passing test leaves (R351, R352). -/
theorem bistPass_leaves (s : State) (d m : Nat) (swage : Bool) (id : Nat) :
    Tbl.get 0 (bistPass s d m swage id).bist.passes id = Tbl.get 0 s.bist.passes id + 1 ∧ Untouched s (bistPass s d m swage id) := by
  unfold bistPass
  dsimp only
  split
  · exact ⟨tbl_get_set_same _ _ _ _, rfl, rfl, rfl, rfl⟩
  · split <;> exact ⟨tbl_get_set_same _ _ _ _, rfl, rfl, rfl, rfl⟩

/-- A counted event of a unit ends its run of passes (R352, R355). -/
theorem ledgerEvent_passes {kind : Nat} {odd : Bool} (h : countedKind kind odd = true) (s : State) (unit cls weight : Nat) (detail : List Nat) :
    Tbl.get 0 (ledgerEvent s unit kind cls weight odd detail).bist.passes unit = 0 := by
  unfold ledgerEvent
  dsimp only
  rw [if_pos h]
  split
  · split
    · simp only [raise_bist, State.wr_bist, ledgerAdd_bist]
      exact tbl_get_set_same _ _ _ _
    · simp only [raise_bist, ledgerAdd_bist]
      exact tbl_get_set_same _ _ _ _
  · exact tbl_get_set_same _ _ _ _

/-- What a failing test leaves (R351). -/
theorem bistFail_leaves (s : State) (d m : Nat) (swage pers : Bool) (id sig : Nat) :
    Tbl.get 0 (bistFail s d m swage pers id sig).bist.passes id = 0 ∧ Untouched s (bistFail s d m swage pers id sig) := by
  refine ⟨?_, bistFail_mem _ _ _ _ _ _ _, bistFail_ctxs _ _ _ _ _ _ _, bistFail_flights _ _ _ _ _ _ _, bistFail_tmp _ _ _ _ _ _ _⟩
  have hpass (u : State) (c w : Nat) (l : List Nat) :
      Tbl.get 0 (healthInput (ledgerEvent u id 4 c w false l) 13 id).bist.passes id = 0 := by
    rw [healthInput_bist]
    exact ledgerEvent_passes rfl _ _ _ _ _
  unfold bistFail
  dsimp only
  split
  · rw [suspectSwage_bist]
    exact hpass _ _ _ _
  · rw [suspectAnvil_bist]
    exact hpass _ _ _ _

/-- The test of a unit has counted, and its signature is judged (R351). -/
def testJudged (s : State) (d m : Nat) (swage : Bool) (id sig sig2 : Nat) : State :=
  let want := Config.bistSignature id % 2 ^ 64
  let s := s.inc R.BSR_TESTS_TESTS d 1
  if sig = want then bistPass s d m swage id
  else
    let s := s.inc R.BSR_TESTS_TESTS d 1
    let pers := sig2 != want
    let s := bistFail s d m swage pers id (if pers then sig2 % 2 ^ 64 else sig % 2 ^ 64)
    if pers then s else bistPass s d m swage id

/-- What the judgement of a test leaves: one more pass for a right signature, none for two wrong ones (R351). -/
theorem testJudged_leaves (s : State) (d m : Nat) (swage : Bool) (id sig sig2 : Nat) :
    (sig = Config.bistSignature id % 2 ^ 64 →
      Tbl.get 0 (testJudged s d m swage id sig sig2).bist.passes id = Tbl.get 0 s.bist.passes id + 1) ∧
    (sig ≠ Config.bistSignature id % 2 ^ 64 → sig2 ≠ Config.bistSignature id % 2 ^ 64 →
      Tbl.get 0 (testJudged s d m swage id sig sig2).bist.passes id = 0) ∧ Untouched s (testJudged s d m swage id sig sig2) := by
  have hinc := untouched_inc s R.BSR_TESTS_TESTS d 1
  have hinc2 := hinc.trans (untouched_inc _ R.BSR_TESTS_TESTS d 1)
  unfold testJudged
  dsimp only
  split
  next h =>
    obtain ⟨hp, hu⟩ := bistPass_leaves (s.inc R.BSR_TESTS_TESTS d 1) d m swage id
    exact ⟨fun _ => hp, fun h' => absurd h h', hinc.trans hu⟩
  next h =>
    split
    next h2 =>
      obtain ⟨hp, hu⟩ := bistFail_leaves ((s.inc R.BSR_TESTS_TESTS d 1).inc R.BSR_TESTS_TESTS d 1) d m swage
        (sig2 != Config.bistSignature id % 2 ^ 64) id (if sig2 != Config.bistSignature id % 2 ^ 64 then sig2 % 2 ^ 64 else sig % 2 ^ 64)
      rw [if_pos h2] at hp hu
      exact ⟨fun h' => absurd h' h, fun _ _ => hp, hinc2.trans hu⟩
    next h2 =>
      obtain ⟨-, hu⟩ := bistFail_leaves ((s.inc R.BSR_TESTS_TESTS d 1).inc R.BSR_TESTS_TESTS d 1) d m swage
        (sig2 != Config.bistSignature id % 2 ^ 64) id (if sig2 != Config.bistSignature id % 2 ^ 64 then sig2 % 2 ^ 64 else sig % 2 ^ 64)
      rw [if_neg h2] at hu
      exact ⟨fun h' => absurd h' h, fun _ h' => absurd (bne_iff_ne.mpr h') h2, (hinc2.trans hu).trans (bistPass_leaves _ d m swage id).2⟩

/-- The test of an Anvil is over and its claim with it (Table 3.2). -/
def anvilTested (s : State) (d m id : Nat) : State :=
  let b := { s.bist with lastEnd := Tbl.set s.bist.lastEnd id s.clock, anvClaim := s.bist.anvClaim.filter (fun e => e.1 != d) }
  ({ s with bist := b } : State).setAnvil d m
    { Anvil.reset with st := if (anvilOf s d m).mapNext then .mapped else .spare, idleSince := s.clock }

theorem bistReturn_anvil_eq (s : State) (d m id : Nat) : ∃ old, bistReturn s d m false id = capacityCheck old (promote (anvilTested s d m id) d) d :=
  ⟨_, rfl⟩

/-- An Anvil that returns from its test is out of it and keeps its passes (Table 3.2). -/
theorem bistReturn_anvil (s : State) (d m id : Nat) :
    claimOf (bistReturn s d m false id).bist.anvClaim d = none ∧ (anvilOf (bistReturn s d m false id) d m).st ≠ .test ∧
      (bistReturn s d m false id).bist.passes = s.bist.passes ∧ Untouched s (bistReturn s d m false id) := by
  obtain ⟨old, heq⟩ := bistReturn_anvil_eq s d m id
  obtain ⟨x, hx⟩ := promote_frame (anvilTested s d m id) d
  have hst : (anvilOf (anvilTested s d m id) d m).st ≠ .test := by
    unfold anvilTested
    rw [anvilOf_setAnvil_same]
    dsimp only
    split <;> decide
  have hbist : (promote (anvilTested s d m id) d).bist = (anvilTested s d m id).bist := by rw [hx]
  have hmem : Untouched s (promote (anvilTested s d m id) d) := by
    rw [hx]
    exact ⟨rfl, rfl, rfl, rfl⟩
  rw [heq, capacityCheck_bist, anvilOf_congr (capacityCheck_eng _ _ _), hbist]
  exact ⟨claimOf_filter _ _, promote_not_test hst, rfl, hmem.trans ⟨capacityCheck_mem _ _ _, capacityCheck_ctxs _ _ _, capacityCheck_flights _ _ _,
    capacityCheck_tmp _ _ _⟩⟩

/-- The test of a Swage is over and its claim with it (Table 5.8). -/
def swageTested (s : State) (d u id : Nat) : State :=
  let b := { s.bist with lastEnd := Tbl.set s.bist.lastEnd id s.clock, swgClaim := s.bist.swgClaim.filter (fun e => e.1 != d) }
  let x := swageOf s d u
  ({ s with bist := b } : State).setSwage d u
    { x with st := if x.mapNext then .mapped else .active, mapNext := false, idleSince := s.clock, gated := x.mapNext }

theorem bistReturn_swage_eq (s : State) (d u id : Nat) : ∃ old, bistReturn s d u true id = swgCapacity old (swageTested s d u id) d :=
  ⟨_, rfl⟩

/-- A Swage that returns from its test is out of it and keeps its passes (Table 5.8). -/
theorem bistReturn_swage (s : State) (d u id : Nat) :
    claimOf (bistReturn s d u true id).bist.swgClaim d = none ∧ (swageOf (bistReturn s d u true id) d u).st ≠ .test ∧
      (bistReturn s d u true id).bist.passes = s.bist.passes ∧ Untouched s (bistReturn s d u true id) := by
  obtain ⟨old, heq⟩ := bistReturn_swage_eq s d u id
  have hst : (swageOf (swageTested s d u id) d u).st ≠ .test := by
    unfold swageTested
    rw [swageOf_setSwage_same]
    dsimp only
    split <;> decide
  rw [heq, swgCapacity_bist, swageOf_congr (swgCapacity_eng _ _ _)]
  exact ⟨claimOf_filter _ _, hst, rfl, (⟨rfl, rfl, rfl, rfl⟩ : Untouched s (swageTested s d u id)).trans ⟨swgCapacity_mem _ _ _, swgCapacity_ctxs _ _ _,
    swgCapacity_flights _ _ _, swgCapacity_tmp _ _ _⟩⟩

theorem bistTestEnd_anvil {s : State} {d m t0 sig sig2 : Nat} (hc : claimOf s.bist.anvClaim d = some (m, t0, true)) :
    bistTestEnd s d false sig sig2 = bistReturn (testJudged s d m false (anvilId d m) sig sig2) d m false (anvilId d m) := by
  unfold bistTestEnd
  rw [if_neg (by simp), hc]
  rfl

theorem bistTestEnd_swage {s : State} {d u t0 sig sig2 : Nat} (hc : claimOf s.bist.swgClaim d = some (u, t0, true)) :
    bistTestEnd s d true sig sig2 = bistReturn (testJudged s d u true (swageId d u) sig sig2) d u true (swageId d u) := by
  unfold bistTestEnd
  rw [if_pos rfl, hc]
  rfl

/-- What a claim of an Anvil leaves (R65, R350). -/
theorem claimAnvil_leaves {s : State} {d m : Nat} (hc : claimOf s.bist.anvClaim d = none) : let t := capacityCheck s (promote (anvilClaimed s d m) d) d
    claimOf t.bist.anvClaim d = some (m, s.clock, false) ∧ (anvilOf t d m).st = .test ∧
      (∀ v, v ≠ m → (anvilOf s d v).st ≠ .spare → anvilOf t d v = anvilOf s d v) ∧ Untouched s t := by
  obtain ⟨x, hx⟩ := promote_frame (anvilClaimed s d m) d
  have hst : anvilOf (anvilClaimed s d m) d m = { anvilOf s d m with st := .test } := anvilOf_setAnvil_same _ _ _ _
  have hother {v : Nat} (hv : v ≠ m) : anvilOf (anvilClaimed s d m) d v = anvilOf s d v := anvilOf_setAnvil_other _ _ _ hv
  have hbist : (promote (anvilClaimed s d m) d).bist = (anvilClaimed s d m).bist := by rw [hx]
  have hmem : Untouched s (promote (anvilClaimed s d m) d) := by
    rw [hx]
    exact ⟨rfl, rfl, rfl, rfl⟩
  dsimp only
  rw [capacityCheck_bist, anvilOf_congr (capacityCheck_eng _ _ _), hbist, promote_other (by rw [hst]; simp), hst]
  refine ⟨claimOf_append _ hc, rfl, fun v hv hs => ?_, hmem.trans ⟨capacityCheck_mem _ _ _, capacityCheck_ctxs _ _ _, capacityCheck_flights _ _ _,
    capacityCheck_tmp _ _ _⟩⟩
  rw [anvilOf_congr (capacityCheck_eng _ _ _), promote_other (by rw [hother hv]; exact hs), hother hv]

/-- Settles O24. -/
theorem unitsWaitGateAndAreTested : Obligations.UnitsWaitGateAndAreTested := by
  refine fun s d on hd => ⟨fun u hu hw => ?_, fun u hu hr hi => ?_, fun u hu hs hi => ?_, fun m hm hc he hr hl => ?_, fun m t0 hc hr hn => ?_,
    fun m t0 c x hc hr hn hx => ?_, fun m t0 r x hc ht hr hx => ?_, fun u hu hc he hr hl => ?_, fun u t0 hc hs => ?_, fun u t0 e l hc ht hs => ?_,
    fun m t0 sig sig2 hc => ?_, fun u t0 sig sig2 hc => ?_⟩
  · have heq : endWait s d u = s.setAnvil d u { anvilOf s d u with waitUntil := 0 } := if_pos hw
    rw [← heq]
    exact (if_pos ⟨hd, hu⟩).trans (live_on on _)
  · have heq : gateAnvil s d u = s.setAnvil d u { anvilOf s d u with gated := true } := if_pos ⟨by simp [hr], hi⟩
    rw [← heq]
    exact (if_pos ⟨hd, hu⟩).trans (live_on on _)
  · have heq : gateSwage s d u = s.setSwage d u { swageOf s d u with gated := true } := if_pos ⟨by simp [hs], hi⟩
    rw [← heq]
    exact (if_pos ⟨hd, hu⟩).trans (live_on on _)
  · refine ⟨claimAnvil s d, onUnit_on on hd _, ?_⟩
    obtain ⟨hclaim, hst, hother, hu⟩ := claimAnvil_leaves (m := m) hc
    rw [claimAnvil_due hc he hr hl]
    exact ⟨hclaim, hst, hother, hu.mem, hu.ctxs, hu.flights, hu.tmp⟩
  · rw [← testEnter_idle hc hr hn]
    exact onUnit_on on hd _
  · refine ⟨testEnter s d, onUnit_on on hd _, ?_⟩
    rw [testEnter_spills hc hr hn hx]
    exact spilled_leaves s (spillAddr d m) (c.acc.flatMap (leBytes 4)) d m t0 c.flight _
  · obtain ⟨u, heq, hmma, hb, hm, hx, hf, ht⟩ := claimForced_moves hc ht hr hx
    refine ⟨claimForced s d, onUnit_on on hd _, ?_⟩
    rw [heq]
    have ha : anvilOf (enterTest (u.setAnvil d m { anvilOf u d m with run := none, chain := none }) d m t0) d m =
      { anvilOf u d m with run := none, chain := none } := anvilOf_setAnvil_same _ _ _ _
    rw [ha]
    exact ⟨rfl, rfl, congrArg (fun b : Bist => Tbl.set b.anvClaim d (m, t0, true)) hb, hmma, hm, hx, hf, ht⟩
  · refine ⟨claimSwage s d, onUnit_on on hd _, ?_⟩
    rw [claimSwage_due hc he hr hl]
    exact ⟨claimOf_append _ hc, swageOf_setSwage_same _ _ _ _, fun v hv => swageOf_setSwage_other _ _ _ hv, rfl, rfl, rfl, rfl⟩
  · have heq : swgEnter s d = enterSwgTest s d u t0 := by
      unfold swgEnter
      rw [hc]
      exact if_pos (by simp [hs])
    rw [← heq]
    exact onUnit_on on hd _
  · obtain ⟨v, heq, hvec, hb, hm, hx, hf, ht⟩ := swgForced_moves hc ht hs
    refine ⟨swgForced s d, onUnit_on on hd _, ?_⟩
    rw [heq]
    have ha : swageOf (enterSwgTest (v.setSwage d u { swageOf s d u with slots := [] }) d u t0) d u =
      { swageOf s d u with slots := [] } := swageOf_setSwage_same _ _ _ _
    rw [ha]
    exact ⟨rfl, congrArg (fun b : Bist => Tbl.set b.swgClaim d (u, t0, true)) hb, hvec, hm, hx, hf, ht⟩
  · obtain ⟨hok, hbad, hj⟩ := testJudged_leaves s d m false (anvilId d m) sig sig2
    obtain ⟨hclaim, hst, hp, hr⟩ := bistReturn_anvil (testJudged s d m false (anvilId d m) sig sig2) d m (anvilId d m)
    have hu := hj.trans hr
    refine ⟨bistTestEnd s d false sig sig2, onUnit_on on hd _, ?_⟩
    rw [bistTestEnd_anvil hc, hp]
    exact ⟨hclaim, hst, hok, hbad, hu.mem, hu.ctxs, hu.flights, hu.tmp⟩
  · obtain ⟨hok, hbad, hj⟩ := testJudged_leaves s d u true (swageId d u) sig sig2
    obtain ⟨hclaim, hst, hp, hr⟩ := bistReturn_swage (testJudged s d u true (swageId d u) sig sig2) d u (swageId d u)
    have hu := hj.trans hr
    refine ⟨bistTestEnd s d true sig sig2, onUnit_on on hd _, ?_⟩
    rw [bistTestEnd_swage hc, hp]
    exact ⟨hclaim, hst, hok, hbad, hu.mem, hu.ctxs, hu.flights, hu.tmp⟩

end Sys2Proof.Machine

namespace Sys2Proof.Machine

open Sys2Proof

/-! ## The ledger -/

/-- An entry that finds room waits as a new one (R358). -/
theorem ledgerAdd_room {s : State} (unit kind cls weight : Nat) (detail : List Nat) (h : writtenThisHour s + s.ledger.waiting.length < 1024) :
    ledgerAdd s unit kind cls weight detail = { s with ledger := { s.ledger with
      waiting := s.ledger.waiting ++ [⟨0, unit, kind, cls, s.now, s.tmp.step, pohNow s, 1, weight, detail⟩] } } :=
  if_neg (fun h' => absurd h'.1 (Nat.not_le.mpr h))

/-- A further entry changes what waits, and nothing else of the ledger. -/
theorem ledgerAdd_ledger (s : State) (unit kind cls weight : Nat) (detail : List Nat) :
    ∃ w, (ledgerAdd s unit kind cls weight detail).ledger = { s.ledger with waiting := w } := by
  unfold ledgerAdd
  dsimp only
  split
  · have hl : ((raise s .LDG 0 6).inc R.LDG_COALESCED_COALESCED 0 1).ledger = s.ledger := by simp
    rw [hl]
    exact ⟨_, rfl⟩
  · exact ⟨_, rfl⟩

/-- An event that is not counted is an entry alone (R355). -/
theorem ledgerEvent_uncounted {kind : Nat} {odd : Bool} (h : countedKind kind odd = false) (s : State) (unit cls weight : Nat) (detail : List Nat) :
    ledgerEvent s unit kind cls weight odd detail = ledgerAdd s unit kind cls weight detail := by
  unfold ledgerEvent
  dsimp only
  rw [if_neg (by simp [h])]

/-- The tally's result is UNKNOWN (R349). -/
def tallyUnknown (s : State) : State :=
  let s := { s with weld := { s.weld with tally := none } }
  let s := (s.wr R.TCH_STS_ODD_OUTCOME 0 3).wr R.TCH_STS_ODD_CLASS 0 0
  (s.wr R.TCH_STS_ODD_SELF 0 0).wr R.TCH_STS_ODD_RANK 0 0

theorem tallyDone_unknown (s : State) (step att : Nat) :
    tallyDone s step att 3 0 0 = ledgerAdd (tallyUnknown s) moduleId 0x0C 0 0 [step, att, 3, 0] := by
  unfold tallyDone
  simp only [Nat.reduceBEq, Bool.false_and, Bool.false_eq_true, if_false, b2n, (by decide : ¬ (3 : Nat) = 1)]
  exact ledgerEvent_uncounted (by decide) _ _ _ _ _

theorem tallyTimeout_late {s : State} {step att deadline : Nat} (h : s.weld.tally = some (step, att, deadline)) (hd : deadline ≤ s.clock) :
    tallyTimeout s = tallyDone s step att 3 0 0 := by
  unfold tallyTimeout
  rw [h]
  exact if_pos hd

/-- What a late tally leaves (R349). -/
theorem tallyUnknown_reads (s : State) : (tallyUnknown s).rd R.TCH_STS_ODD_OUTCOME 0 = 3 ∧ (tallyUnknown s).rd R.TCH_STS_ODD_SELF 0 = 0 := by
  unfold tallyUnknown
  simp (disch := decide) only [rd_wr_apart, rd_wr_same]
  exact ⟨rfl, rfl⟩

theorem tbl_get_filter {α : Type} (d : α) (l : Tbl α) (k j : Nat) : Tbl.get d (l.filter (fun e => e.1 != k)) j = if j = k then d else Tbl.get d l j := by
  induction l with
  | nil => simp [Tbl.get]
  | cons e t ih =>
    obtain ⟨i, a⟩ := e
    by_cases hi : i = k
    · rw [List.filter_cons_of_neg (by simp [hi]), ih]
      by_cases hj : j = k
      · simp [hj]
      · simp [Tbl.get, hj, hi, Ne.symm hj]
    · rw [List.filter_cons_of_pos (by simp [hi])]
      by_cases hij : i = j
      · subst hij
        simp [Tbl.get, hi]
      · simp [Tbl.get, hij, ih]

/-- The ledger in which a unit's events are forgotten (R355). -/
def eventsCleared (s : State) (unit : Nat) : State :=
  let s := { s with ledger :=
    { s.ledger with permanent := s.ledger.permanent.filter (· != unit), stamps := s.ledger.stamps.filter (fun e => e.1 != unit) } }
  if unit / 4096 = 3 ∧ unit % 4096 < 8 then s.wr R.LPE_STS_RETIRED (unit % 4096) 0 else s

theorem ldgClear_eq (s : State) (unit : Nat) : ldgClear s unit = ledgerAdd (eventsCleared s unit) unit 0x0F 0 0 [] := rfl

theorem eventsCleared_frame (s : State) (unit : Nat) : ∃ r, eventsCleared s unit = { s with regs := r, ledger :=
    { s.ledger with permanent := s.ledger.permanent.filter (· != unit), stamps := s.ledger.stamps.filter (fun e => e.1 != unit) } } := by
  unfold eventsCleared
  dsimp only
  split <;> exact ⟨_, rfl⟩

/-- A further entry leaves a field of a Loupe's page. -/
theorem rd_ledgerAdd_lpe (s : State) (unit kind cls weight : Nat) (detail : List Nat) {f : Field} {d : Nat} (hf : f ∈ blockFields .LPE)
    (ha : f.apart R.LDG_COALESCED_COALESCED = true) : (ledgerAdd s unit kind cls weight detail).rd f d = s.rd f d := by
  unfold ledgerAdd
  dsimp only
  split
  · have h3 : slotOf .LPE d ≠ 3 := show 0x045 + 16 * d ≠ 3 by omega
    exact (rd_inc_apart ha _ _ _ _).trans (rd_raiseSlot s _ _ hf h3)
  · rfl

theorem ldgClear_retired (s : State) {d : Nat} (hd : d < 8) : (ldgClear s (loupeId d)).rd R.LPE_STS_RETIRED d = 0 := by
  have h1 : loupeId d / 4096 = 3 := by unfold loupeId; omega
  have h2 : loupeId d % 4096 = d := by unfold loupeId; omega
  rw [ldgClear_eq, rd_ledgerAdd_lpe _ _ _ _ _ _ (by decide) (by decide)]
  unfold eventsCleared
  dsimp only
  rw [h1, h2, if_pos ⟨rfl, hd⟩, rd_wr_same]
  rfl

/-- The entries that a fold over scores adds, one for each with a point or more (R361). -/
def scoreEntry (s : State) (e : Nat × Nat) : LedgerEntry := ⟨0, e.1, 0x0D, 0, s.now, s.tmp.step, pohNow s, 1, 0, [e.2]⟩

theorem scoreFold (l : List (Nat × Nat)) : ∀ s : State, writtenThisHour s + s.ledger.waiting.length + l.length ≤ 1024 →
    l.foldl (fun s e => if 64 ≤ e.2 then ledgerAdd s e.1 0x0D 0 0 [e.2] else s) s =
      { s with ledger := { s.ledger with waiting := s.ledger.waiting ++ (l.filter (fun e => decide (64 ≤ e.2))).map (scoreEntry s) } } := by
  induction l with
  | nil =>
    intro s _
    simp
  | cons e l ih =>
    intro s h
    rw [List.length_cons] at h
    rw [List.foldl_cons]
    by_cases he : 64 ≤ e.2
    · rw [if_pos he, ledgerAdd_room _ _ _ _ _ (by omega), ih _ (by
        show writtenThisHour s + (s.ledger.waiting ++ [_]).length + l.length ≤ 1024
        rw [List.length_append, List.length_singleton]
        omega), List.filter_cons_of_pos (by simpa using he)]
      simp only [List.map_cons, List.append_assoc, List.singleton_append]
      rfl
    · rw [if_neg he, ih _ (by omega), List.filter_cons_of_neg (by simpa using he)]

/-! ## Health scores -/

theorem score_ite (c : Prop) [Decidable c] (s t : State) : (if c then s else t).health.score = if c then s.health.score else t.health.score :=
  apply_ite (fun s : State => s.health.score) c s t

theorem warnCut_score (s : State) (unit : Nat) : (warnCut s unit).health.score = s.health.score := by
  unfold warnCut
  simp only [score_ite, requestCut_health, raise_health, State.inc_health, ite_self]

theorem levelRise_score (s : State) (unit old lv : Nat) : (levelRise s unit old lv).health.score = s.health.score := by
  unfold levelRise
  simp only [score_ite, warnCut_score, raise_health, State.wr_health, ledgerAdd_health, ite_self]

theorem updateLevel_score (s : State) (unit : Nat) : (updateLevel s unit).health.score = s.health.score := by
  unfold updateLevel
  dsimp only
  split
  · rw [levelRise_score]
  · rfl

theorem healthDecay_score (s : State) : (healthDecay s).health.score =
    s.health.score.map (fun e => (e.1, decayed (s.rd R.HLT_CFG_HALF_LIFE_H 0) 1 e.2)) := by
  unfold healthDecay
  exact foldl_keeps (fun s => s.health.score) (fun (e : Nat × Nat) s => updateLevel_score s e.1) _ _

/-! ## The on-command self test -/

section

variable {s : State} (hb : bstRunning s = false)
include hb

theorem bstStart_refused (h : liveCtxs s ≠ [] ∨ s.xp.slc.cur.slice ≠ 0) : bstStart s = raise (s.wr R.BST_STS_REFUSED 0 1) .BST 0 6 := by
  unfold bstStart
  rw [if_neg (by simp [hb]), if_pos]
  rcases h with h | h
  · simp [h]
  · simp [h]

/-- A run is not refused (R353). -/
def bstAccepted (s : State) : State := (s.wr R.BST_STS_REFUSED 0 0).wr R.BST_STS_DONE 0 0

theorem bstStart_accepted (hl : liveCtxs s = []) (hs : s.xp.slc.cur.slice = 0) : bstStart s =
    match bstTargets s with
    | [] => bstEnd (bstAccepted s) 0
    | t :: _ => (bstAccepted s).wr R.BST_STS_CURRENT 0 t := by
  have ht : bstTargets (bstAccepted s) = bstTargets s := by
    unfold bstTargets bstAccepted
    rw [rd_wr_apart (by decide), rd_wr_apart (by decide)]
  unfold bstStart
  rw [if_neg (by simp [hb]), if_neg (by simp [hl, hs]), ← ht]
  rfl

end

/-- What the end of a run leaves (R353). -/
theorem bstEnd_reads (s : State) (fails : Nat) : bstRunning (bstEnd s fails) = false ∧ (bstEnd s fails).rd R.BST_STS_DONE 0 = 1 ∧
    Evt (bstEnd s fails) 0x14 5 ∧ (bstEnd s fails).rd R.BST_TARGETS_TARGETS 0 = s.rd R.BST_TARGETS_TARGETS 0 ∧
    (bstEnd s fails).rd R.BST_FAIL_FAIL 0 = (fails &&& s.rd R.BST_TARGETS_TARGETS 0) % 2 ^ 19 ∧
    (bstEnd s fails).rd R.BST_PASS_PASS 0 = (s.rd R.BST_TARGETS_TARGETS 0 - (fails &&& s.rd R.BST_TARGETS_TARGETS 0)) % 2 ^ 19 := by
  refine ⟨?_, ?_, evt_raise _ .BST 0 (by decide), ?_⟩
  · unfold bstRunning bstEnd
    simp (disch := decide) only [rd_raise_quiet, rd_wr_apart, rd_wr_same]
    rfl
  · unfold bstEnd
    simp (disch := decide) only [rd_raise_quiet, rd_wr_same]
    rfl
  · unfold bstEnd
    simp (disch := decide) only [rd_raise_quiet, rd_wr_apart, rd_wr_same]
    exact ⟨trivial, rfl, rfl⟩

theorem and_mod_two (a b : Nat) : (b &&& a) % 2 = 1 ↔ b % 2 = 1 ∧ a % 2 = 1 := by
  have h := Nat.testBit_and b a 0
  simpa only [Nat.testBit_zero, decide_eq_decide, ← Bool.decide_and] using h

/-- The bits of a set without some of them. -/
theorem testBit_sub_and (n : Nat) : ∀ a b : Nat, (a - (b &&& a)).testBit n = (a.testBit n && !b.testBit n) := by
  induction n with
  | zero =>
    intro a b
    have hc := and_mod_two a b
    have hle : b &&& a ≤ a := Nat.and_le_right
    have : (a - (b &&& a)) % 2 = 1 ↔ a % 2 = 1 ∧ ¬ b % 2 = 1 := by omega
    simp only [Nat.testBit_zero, this, Bool.decide_and, decide_not]
  | succ n ih =>
    intro a b
    have hc := and_mod_two a b
    have hle : b &&& a ≤ a := Nat.and_le_right
    have hdiv : (a - (b &&& a)) / 2 = a / 2 - (b / 2 &&& a / 2) := by
      rw [← Nat.and_div_two]
      omega
    rw [Nat.testBit_succ, Nat.testBit_succ, Nat.testBit_succ, hdiv, ih]

/-! ## Destinations -/

theorem rd_foldl_keeps {α : Type} {f : Field} {i : Nat} {g : State → α → State} (h : ∀ x s, (g s x).rd f i = s.rd f i) (l : List α) (s : State) :
    (l.foldl g s).rd f i = s.rd f i := foldl_keeps (fun s => s.rd f i) h l s

theorem setRec_down (s : State) (n l : Nat) (r : LayerRec) : (setRec s n l r).rd R.TNG_DEST_STS_DOWN 0 = s.rd R.TNG_DEST_STS_DOWN 0 := by
  unfold setRec
  split
  · dsimp only
    rw [rd_ite, rd_wr_apart (by decide), ite_self]
    rfl
  · rfl

theorem loseRec_down (s : State) (n l : Nat) (r : LayerRec) (o : Nat) :
    (loseRec s n l r o).rd R.TNG_DEST_STS_DOWN 0 = s.rd R.TNG_DEST_STS_DOWN 0 := by
  unfold loseRec
  dsimp only
  rw [rd_logErr_quiet (by decide), rd_raise_quiet (by decide), rd_inc_apart (by decide), setRec_down]

theorem rd_setSlot (s : State) (n : Nat) (x : SeqSlot) (f : Field) (i : Nat) : (s.setSlot n x).rd f i = s.rd f i := rfl

theorem loseSlot_down (s : State) (d n : Nat) (x : SeqSlot) : (loseSlot s d n x).rd R.TNG_DEST_STS_DOWN 0 = s.rd R.TNG_DEST_STS_DOWN 0 := by
  have hab (u : State) (p : Owner → Bool) : (abandonPackets u p).rd R.TNG_DEST_STS_DOWN 0 = u.rd R.TNG_DEST_STS_DOWN 0 :=
    abandonPackets_quiet _ _ _ (by decide)
  unfold loseSlot
  dsimp only
  refine (rd_foldl_keeps (g := fun s (e : Nat × LayerRec) => loseRec s n e.1 e.2 x.owner) (fun e s => loseRec_down s n e.1 e.2 x.owner) _ _).trans ?_
  rw [rd_setSlot, rd_ite, hab, ite_self, rd_ite, hab, ite_self]

/-- A destination that goes DOWN: its bit alone is set (R333). -/
theorem destDown_down (s : State) {d n : Nat} (hn : n < 8) :
    bitOf ((destDown s d).rd R.TNG_DEST_STS_DOWN 0) n = (bitOf (s.rd R.TNG_DEST_STS_DOWN 0) n || decide (n = d)) := by
  have hstop (u : State) : (sendStopBurst (stepFault u .flowFail) .flowFail).rd R.TNG_DEST_STS_DOWN 0 = u.rd R.TNG_DEST_STS_DOWN 0 :=
    (sendStopBurst_quiet _ _ _ (by decide)).trans (stepFault_quiet _ _ _ (by decide))
  unfold destDown
  dsimp only
  split
  next h =>
    by_cases hd : n = d
    · simp [hd, h]
    · simp [hd]
  next h =>
    rw [rd_ite, hstop, ite_self, rd_foldl_keeps (g := fun s (e : Nat × SeqSlot) => loseSlot s d e.1 e.2) (fun e s => loseSlot_down s d e.1 e.2),
      rd_logErr_quiet (by decide), rd_raise_quiet (by decide), rd_wr_same]
    exact (bitOf_mod hn _).trans (bitOf_add_clear (Bool.eq_false_iff.mpr h) n)

theorem stopApply_step (s : State) : (stopApply s).tmp.step = s.tmp.step := by
  unfold stopApply
  dsimp only
  split
  · simp
  · rfl

theorem sendStopBurst_step (s : State) (r : Reason) : (sendStopBurst s r).tmp.step = s.tmp.step := by
  unfold sendStopBurst
  dsimp only
  split
  · rfl
  · rw [stopApply_step]
    simp

/-- A destination that goes DOWN stops the attempt at most: STEP stays, and outside a step every field of TMP. -/
theorem destDown_tmp (s : State) (d : Nat) : (destDown s d).tmp.step = s.tmp.step ∧ (s.tmp.phase = .idle → (destDown s d).tmp = s.tmp) := by
  unfold destDown
  dsimp only
  split
  · exact ⟨rfl, fun _ => rfl⟩
  · have hlost (u : State) (l : List (Nat × SeqSlot)) : (l.foldl (fun s e => loseSlot s d e.1 e.2) u).tmp = u.tmp :=
      foldl_keeps State.tmp (g := fun s (e : Nat × SeqSlot) => loseSlot s d e.1 e.2) (fun e s => loseSlot_tmp s d e.1 e.2) l u
    split
    · rw [hlost]
      simp
    next hi =>
      rw [hlost] at hi
      refine ⟨?_, fun h => absurd (by simpa using h) hi⟩
      rw [sendStopBurst_step, stepFault_tmp, hlost]
      simp

/-- A destination's turn of FORCE_DOWN (R333). -/
def downTurn (mask : Nat) (s : State) (d : Nat) : State := if bitOf mask d then destDown s d else s

theorem downTurn_down (mask : Nat) (s : State) {d n : Nat} (hn : n < 8) : bitOf ((downTurn mask s d).rd R.TNG_DEST_STS_DOWN 0) n =
    (bitOf (s.rd R.TNG_DEST_STS_DOWN 0) n || (bitOf mask d && decide (n = d))) := by
  unfold downTurn
  split
  next h => rw [destDown_down s hn, h, Bool.true_and]
  next h => simp [h]

theorem forceDown_down (s : State) (mask : Nat) {n : Nat} (hn : n < 8) : bitOf (((List.range 8).foldl (downTurn mask) s).rd R.TNG_DEST_STS_DOWN 0) n =
    (bitOf (s.rd R.TNG_DEST_STS_DOWN 0) n || bitOf mask n) := by
  obtain ⟨u, hu⟩ := foldl_range_at (downTurn mask) hn s
  obtain ⟨hb, ha⟩ := hu (fun s => bitOf (s.rd R.TNG_DEST_STS_DOWN 0) n) fun m s hm => by
    rw [downTurn_down mask s hn]
    simp [Ne.symm hm]
  rw [ha, downTurn_down mask u hn, hb]
  simp

theorem forceDown_frame (s : State) (mask : Nat) : let t := (List.range 8).foldl (downTurn mask) s
    t.ctxs = s.ctxs ∧ t.tmp.step = s.tmp.step ∧ (s.tmp.phase = .idle → t.tmp = s.tmp) := by
  refine ⟨foldl_keeps State.ctxs (g := downTurn mask) (fun d s => ?_) _ s, foldl_keeps (fun s => s.tmp.step) (g := downTurn mask) (fun d s => ?_) _ s,
    fun hi => foldl_holds (P := fun t => t.tmp = s.tmp) (g := downTurn mask) (fun t d ht => ?_) _ s rfl⟩
  · unfold downTurn
    split
    · exact destDown_ctxs s d
    · rfl
  · unfold downTurn
    split
    · exact (destDown_tmp s d).1
    · rfl
  · unfold downTurn
    split
    · exact ((destDown_tmp t d).2 (by rw [ht, hi])).trans ht
    · exact ht

/-- Settles O44. -/
theorem ledgerHealthAndSelfTests : Obligations.LedgerHealthAndSelfTests := by
  refine fun s on => ⟨fun step att deadline ht hd hroom => ?_, fun hz => ?_, fun unit hu => ?_, fun e rest hw hh hl => ?_, fun e rest hw hh hl => ?_,
    fun e rest hw hh => ?_, live_on on _, ?_, fun hroom => ?_, fun n rest hb hl hs ht => ?_, fun hb hl hs ht => ?_, fun hb h => ?_,
    fun fails hb => ?_, fun mask => ?_, fun mask => ?_⟩
  · obtain ⟨h1, h2⟩ := tallyUnknown_reads s
    refine ⟨tallyTimeout s, live_on on _, ?_⟩
    rw [tallyTimeout_late ht hd, tallyDone_unknown, ledgerAdd_room (s := tallyUnknown s) _ _ _ _ _ hroom]
    exact ⟨rfl, h1, h2, rfl, rfl, rfl, rfl, rfl⟩
  · refine ⟨tchZero s, live_on on _, ?_⟩
    rw [show tchZero s = { s.zero (s.rd R.TCH_TABLE_BASE 0) (32 * touchBlocks s) with tchZeroing := false } from if_pos hz]
    exact ⟨rfl, fun x hlo hhi => byte_blankRange_zero _ ⟨hlo, hhi⟩, fun x hx => byte_blankRange_other _ _ hx, rfl, rfl, rfl⟩
  · obtain ⟨w, hled⟩ := ledgerAdd_ledger (eventsCleared s unit) unit 0x0F 0 0 []
    obtain ⟨r, hr⟩ := eventsCleared_frame s unit
    refine ⟨ldgClear s unit, ?_, ?_, ?_, fun u hne => ?_, fun d hd hunit => ?_, ?_, ?_, ?_, ?_, ?_⟩
    · show live s (ldgClear s (unit % 2 ^ 16)) = _
      rw [live_on on, Nat.mod_eq_of_lt (show unit < 2 ^ 16 from hu)]
    · rw [ldgClear_eq, hled, hr]
    · rw [ldgClear_eq, hled, hr]
      exact (tbl_get_filter _ _ _ _).trans (if_pos rfl)
    · rw [ldgClear_eq, hled, hr]
      exact (tbl_get_filter _ _ _ _).trans (if_neg hne)
    · rw [hunit, ldgClear_retired s hd]
    · rw [ldgClear_eq, hled, hr]
    · exact ldgClear_mem _ _
    · exact ldgClear_ctxs _ _
    · exact ldgClear_tmp _ _
    · rw [ldgClear_eq, ledgerAdd_health, hr]
  · show live s (ledgerWrite s true) = _
    rw [live_on on]
    unfold ledgerWrite
    rw [hw]
    dsimp only
    rw [if_neg (Nat.not_le.mpr hh), if_neg (by simp), if_neg (Nat.not_le.mpr hl)]
  · refine ⟨ledgerWrite s true, live_on on _, ?_⟩
    unfold ledgerWrite
    rw [hw]
    dsimp only
    rw [if_neg (Nat.not_le.mpr hh), if_neg (by simp), if_pos hl]
    exact ⟨rfl, rfl, rfl, rfl, rfl, rfl, rfl, rfl⟩
  · have heq : ledgerWrite s false = raise (s.wr R.LDG_STS_WRITE_FAIL 0 1) .LDG 0 5 := by
      unfold ledgerWrite
      rw [hw]
      dsimp only
      rw [if_neg (Nat.not_le.mpr hh), if_pos (by simp)]
    refine ⟨ledgerWrite s false, live_on on _, ?_⟩
    rw [heq]
    refine ⟨?_, evt_raise _ .LDG 0 (by decide), by simp, by simp, by simp, by simp, by simp⟩
    rw [rd_raise_quiet (by decide), rd_wr_same]
    rfl
  · exact ⟨healthDecay s, live_on on _, healthDecay_score s, healthDecay_mem s, healthDecay_ctxs s, healthDecay_tmp s⟩
  · exact (live_on on _).trans (congrArg _ (scoreFold s.health.score s hroom))
  · have hn : n < 19 := List.mem_range.mp (List.mem_filter.mp (ht ▸ List.mem_cons_self : n ∈ bstTargets s)).1
    refine ⟨bstStart s, live_on on _, ?_⟩
    rw [bstStart_accepted hb hl hs, ht]
    dsimp only
    unfold bstAccepted
    simp (disch := decide) only [rd_wr_apart, rd_wr_same]
    exact ⟨Nat.mod_eq_of_lt (show n < 32 by omega), rfl, rfl, rfl, rfl, rfl⟩
  · obtain ⟨h1, h2, -⟩ := bstEnd_reads (bstAccepted s) 0
    refine ⟨bstStart s, live_on on _, ?_⟩
    rw [bstStart_accepted hb hl hs, ht]
    exact ⟨h1, h2, bstEnd_mem _ _, bstEnd_ctxs _ _, bstEnd_tmp _ _⟩
  · refine ⟨bstStart s, live_on on _, ?_⟩
    rw [bstStart_refused hb h]
    refine ⟨?_, ?_, evt_raise _ .BST 0 (by decide), by simp, by simp, by simp⟩
    · unfold bstRunning at hb ⊢
      rw [rd_raise_quiet (by decide), rd_wr_apart (by decide)]
      exact hb
    · rw [rd_raise_quiet (by decide), rd_wr_same]
      rfl
  · have heq : ∃ u, bstDone s fails = bstEnd u fails := ⟨_, if_neg (by simp [hb])⟩
    obtain ⟨u, heq⟩ := heq
    obtain ⟨h1, h2, h3, h4, h5, h6⟩ := bstEnd_reads u fails
    refine ⟨bstDone s fails, live_on on _, ?_⟩
    rw [heq]
    refine ⟨h1, h2, h3, fun n hn => ⟨?_, ?_⟩⟩
    · rw [h4, h5, bitOf_mod hn, bitOf_eq, bitOf_eq, bitOf_eq, Nat.testBit_and, Bool.and_comm]
    · rw [h4, h6, bitOf_mod hn, bitOf_eq, bitOf_eq, bitOf_eq, testBit_sub_and]
  · exact ⟨(List.range 8).foldl (downTurn mask) s, live_on on _, fun d hd => forceDown_down s mask hd, forceDown_frame s mask⟩
  · refine ⟨_, live_on on _, fun d hd => ?_, rfl, rfl, rfl⟩
    rw [rd_wr_same]
    refine (bitOf_mod (k := 8) hd _).trans ?_
    rw [Nat.and_comm, bitOf_eq, bitOf_eq, testBit_sub_and, ← bitOf_eq (mask % 256), show bitOf (mask % 256) d = bitOf mask d from bitOf_mod (k := 8) hd mask]

end Sys2Proof.Machine

namespace Sys2Proof.Machine

open Sys2Proof

theorem clock_of_kept {s t : State} (h : t.kept = s.kept) : t.clock = s.clock := congrArg Kept.clock h

theorem pending_of_kept {s t : State} (h : t.kept = s.kept) : t.pending = s.pending := congrArg Kept.pending h

/-! ## Requested resets -/

section

variable {s : State} {dom : Nat} {count : Field} {f : State → Nat → State}

theorem request_busy (h : busyOf s .FLT 0 = true) : request s dom count f = raise s .FLT 0 0 := if_pos h

theorem request_bad (h : busyOf s .FLT 0 = false)
    (hb : s.rd R.FLT_RST_DOMAIN 0 = 0 ∨ 3 < s.rd R.FLT_RST_DOMAIN 0 ∨ (s.rd R.FLT_RST_DOMAIN 0 = 3 ∧ 1 < s.rd R.FLT_RST_TARGET 0)) :
    request s dom count f = raise s .FLT 0 17 := (if_neg (by simp [h])).trans (if_pos hb)

/-- The state in which a requested reset is asserted (R376, R377). -/
def asserting (s : State) (dom target : Nat) (count : Field) : State := (noteReset (beforeReset s dom target) dom target 1).inc count 0 1

theorem request_runs {target : Nat} (h : busyOf s .FLT 0 = false) (hd : s.rd R.FLT_RST_DOMAIN 0 = dom) (h1 : 0 < dom) (h3 : dom ≤ 3)
    (ht : (if dom = 1 then 0 else s.rd R.FLT_RST_TARGET 0) = target) (hp : dom = 3 → target ≤ 1) :
    request s dom count f = f (asserting s dom target count) target := by
  unfold request
  dsimp only
  rw [if_neg (by simp [h]), if_neg, if_neg (by simp [hd]), ht]
  · rfl
  · rw [hd]
    rintro (h0 | h0 | ⟨h0, h1⟩)
    · omega
    · omega
    · have := hp h0
      rw [if_neg (by omega)] at ht
      omega

theorem asserting_frame (s : State) (dom target : Nat) (count : Field) : let t := asserting s dom target count
    t.seq = ⟨some (dom, target)⟩ ∧ t.power = s.power ∧ t.now = s.now ∧ t.pending = s.pending := by
  refine ⟨?_, ?_, ?_, ?_⟩
  · unfold asserting
    rw [State.inc_seq, noteReset_seq]
    rfl
  · simp [asserting]
  · simp [asserting]
  · exact pending_of_kept (by simp [asserting])

end

/-! CHIP -/

/-- The state of a module whose CHIP domain has been reset, before its registers are set (R372). -/
def chipFresh (s : State) : State :=
  let kept := resetSlots s (slotsWhere (fun p _ => (capsOf p).domain != .cold))
  let held := (List.range 16).foldl holdStack s
  let smc : Smc :=
    { s.smc with image := [], released := false, unlocked := 0, cutShort := false, spdm := 0, spdmVersion := 0 }
  { State.reset with
    pending := s.pending, now := s.now, clock := s.clock, free := s.free, out := s.out, regs := kept.regs,
    shadow := kept.shadow, staged := kept.staged, errlog := kept.errlog, snaps := kept.snaps, mem := s.mem, map := s.map,
    hbmStacks := held.hbmStacks, links := keptLinks s, xp := { Xport.reset with time := s.xp.time }, ledger := s.ledger,
    bist := { s.bist with anvClaim := [], swgClaim := [] }, power := s.power, seq := s.seq, smc := smc }

/-- The thermal terms return to 64. -/
def thermReset (s : State) : State := (List.range 8).foldl (fun t n => t.wr (R.THM_DIE_T n) 0 64) s

/-- The last acts of a CHIP reset: the Hearths are undefined, P and L return to 64, and CK_PERST_N falls. -/
def chipSettle (u : State) : State := (thermReset (((u.undefine (hearthBase 0) (8 * hearthSize)).wr R.PWR_STS_P 0 64).wr
    R.PWR_STS_L 0 64)).emit (.pin "CK_PERST_N" false)

theorem chipReset_eq (s : State) : chipReset s = chipSettle (chipFresh s) := rfl

theorem thermReset_frame (s : State) : ∃ r, thermReset s = { s with regs := r } :=
  foldl_holds (P := fun t => ∃ r, t = { s with regs := r }) (g := fun (t : State) n => t.wr (R.THM_DIE_T n) 0 64)
    (fun t _ ht => by obtain ⟨r, rfl⟩ := ht; exact ⟨_, rfl⟩) _ s ⟨_, rfl⟩

theorem rd_thermReset {f : Field} (h : f.lo ≠ 24) (s : State) : (thermReset s).rd f 0 = s.rd f 0 :=
  rd_foldl_keeps (g := fun (t : State) n => t.wr (R.THM_DIE_T n) 0 64) (fun _ t => rd_wr_apart (Field.apart_of_lo h) t _ _ _) _ s

/-- What the last acts of a CHIP reset change: registers, the bytes of the Hearths, and the pin. -/
theorem chipSettle_frame (u : State) : ∃ r, chipSettle u = { u with
    regs := r, mem := u.mem.blankRange (hearthBase 0) (8 * hearthSize) (some (u.free + 1)), free := u.free + 1,
    out := .pin "CK_PERST_N" false :: u.out } := by
  obtain ⟨r, hr⟩ := thermReset_frame (((u.undefine (hearthBase 0) (8 * hearthSize)).wr R.PWR_STS_P 0 64).wr R.PWR_STS_L 0 64)
  unfold chipSettle
  rw [hr]
  exact ⟨r, rfl⟩

theorem rd_emit (u : State) (m : OutMsg) (f : Field) (i : Nat) : (u.emit m).rd f i = u.rd f i := rfl

theorem chipReset_power (s : State) : (chipReset s).rd R.PWR_STS_P 0 = 64 ∧ (chipReset s).rd R.PWR_STS_L 0 = 64 := by
  rw [chipReset_eq]
  generalize chipFresh s = u
  unfold chipSettle
  rw [rd_emit, rd_emit, rd_thermReset (by decide), rd_thermReset (by decide), rd_wr_same, rd_wr_apart (by decide), rd_wr_same]
  exact ⟨rfl, rfl⟩

/-- The contents of a module whose CHIP domain has been reset. -/
theorem chipFresh_fields (s : State) : let t := chipFresh s
    t.ctxs = [] ∧ t.tmp = Tmp.reset ∧ t.attempt = Attempt.fresh ∧ t.flights = [] ∧ t.slots = [] ∧ t.eng = State.reset.eng ∧
      t.host = HostLink.reset ∧ t.weld = Weld.reset ∧ t.syn = State.reset.syn ∧ t.guest = Guest.reset ∧ t.smc.released = false :=
  ⟨rfl, rfl, rfl, rfl, rfl, rfl, rfl, rfl, rfl, rfl, rfl⟩

/-- What a CHIP reset keeps. -/
theorem chipFresh_kept (s : State) : let t := chipFresh s
    t.power = s.power ∧ t.seq = s.seq ∧ t.now = s.now ∧ t.pending = s.pending ∧ t.mem = s.mem ∧ t.ledger = s.ledger :=
  ⟨rfl, rfl, rfl, rfl, rfl, rfl⟩

theorem chip_requested {s : State} (on : s.power.on = true) (h : busyOf s .FLT 0 = false) (hd : s.rd R.FLT_RST_DOMAIN 0 = 1) :
    ∃ t, exec .chipResetRequest s = .next t ∧ t.ctxs = [] ∧ t.tmp = Tmp.reset ∧ t.attempt = Attempt.fresh ∧ t.flights = [] ∧ t.slots = [] ∧
        t.eng = State.reset.eng ∧ t.host = HostLink.reset ∧ t.weld = Weld.reset ∧ t.syn = State.reset.syn ∧ t.guest = Guest.reset ∧
        t.smc.released = false ∧ t.power = s.power ∧ t.seq = ⟨some (1, 0)⟩ ∧ t.now = s.now ∧ t.pending = s.pending ∧
        t.rd R.PWR_STS_P 0 = 64 ∧ t.rd R.PWR_STS_L 0 = 64 ∧ OutMsg.pin "CK_PERST_N" false ∈ t.out := by
  have he : exec .chipResetRequest s = .next (chipReset (flushLedger (asserting s 1 0 R.FLT_RESET_CNT_CHIP))) :=
    by
    refine (live_on on _).trans ?_
    rw [request_runs (target := 0) h hd (by decide) (by decide) rfl fun h => absurd h (by decide)]
  obtain ⟨hseq, hpow, hnow, hpend⟩ := asserting_frame s 1 0 R.FLT_RESET_CNT_CHIP
  generalize asserting s 1 0 R.FLT_RESET_CNT_CHIP = u at *
  have hp := chipReset_power (flushLedger u)
  obtain ⟨ctxs, tmp, att, fl, sl, eng, host, weld, syn, guest, smc⟩ := chipFresh_fields (flushLedger u)
  obtain ⟨power, seq, now, pend, -, -⟩ := chipFresh_kept (flushLedger u)
  obtain ⟨r, hr⟩ := chipSettle_frame (chipFresh (flushLedger u))
  rw [chipReset_eq] at he hp
  generalize chipFresh (flushLedger u) = v at *
  refine ⟨_, he, ?_⟩
  rw [hr] at hp ⊢
  exact ⟨ctxs, tmp, att, fl, sl, eng, host, weld, syn, guest, smc, power.trans ((flushLedger_power u).trans hpow),
    seq.trans ((flushLedger_seq u).trans hseq), now.trans ((flushLedger_now u).trans hnow),
    pend.trans ((pending_of_kept (flushLedger_kept u)).trans hpend), hp.1, hp.2, List.mem_cons_self⟩

theorem failTakeover_idle {s : State} (h : s.rd R.FLT_TKO_STS_STATE 0 ≠ 1) (cause node : Nat) : failTakeover s cause node = s := if_pos h

/-- The state in which PERST# resets the module when no takeover is under way. -/
def perstAsserted (s : State) : State :=
  (noteReset { s.fresh.2.wr R.FLT_STS_RESETTING 0 0 with seq := ⟨none⟩, ledger := { s.ledger with waiting := [] } } 1 0 2).inc R.FLT_RESET_CNT_CHIP 0 1

theorem perst_eq {s : State} (h : s.rd R.FLT_TKO_STS_STATE 0 ≠ 1) : perst s = chipReset (perstAsserted s) := by
  unfold perst
  dsimp only
  rw [failTakeover_idle (show s.fresh.2.rd _ 0 ≠ 1 from h)]
  rfl

theorem perstAsserted_frame (s : State) : let t := perstAsserted s
    t.seq = ⟨none⟩ ∧ t.power = s.power ∧ t.ledger.waiting = [] ∧ t.mem = s.mem := by
  refine ⟨?_, ?_, ?_, ?_⟩
  · unfold perstAsserted
    rw [State.inc_seq, noteReset_seq]
  · unfold perstAsserted
    rw [State.inc_power, noteReset_power]
    rfl
  · unfold perstAsserted
    rw [State.inc_ledger, noteReset_ledger]
  · unfold perstAsserted
    rw [inc_mem, noteReset_mem]
    rfl

theorem perst_effect {s : State} (on : s.power.on = true) (h : s.rd R.FLT_TKO_STS_STATE 0 ≠ 1) :
    ∃ t, exec .perst s = .next t ∧ t.ctxs = [] ∧ t.tmp = Tmp.reset ∧ t.flights = [] ∧ t.host = HostLink.reset ∧ t.seq = ⟨none⟩ ∧ t.smc.released = false ∧
        t.power = s.power ∧ t.ledger.waiting = [] ∧ OutMsg.pin "CK_PERST_N" false ∈ t.out ∧
        (∀ a, (a < hearthBase 0 ∨ hearthBase 0 + 8 * hearthSize ≤ a) → t.mem.byte a = s.mem.byte a) := by
  have he : exec .perst s = .next (chipReset (perstAsserted s)) := (live_on on _).trans (by rw [perst_eq h])
  obtain ⟨hseq, hpow, hwait, hmem⟩ := perstAsserted_frame s
  generalize perstAsserted s = u at *
  obtain ⟨ctxs, tmp, -, fl, -, -, host, -, -, -, smc⟩ := chipFresh_fields u
  obtain ⟨power, seq, -, -, mem, ledger⟩ := chipFresh_kept u
  obtain ⟨r, hr⟩ := chipSettle_frame (chipFresh u)
  rw [chipReset_eq] at he
  generalize chipFresh u = v at *
  refine ⟨_, he, ?_⟩
  rw [hr]
  refine ⟨ctxs, tmp, fl, host, seq.trans hseq, smc, power.trans hpow, (congrArg Ledger.waiting ledger).trans hwait, List.mem_cons_self, fun a ha => ?_⟩
  refine (byte_blankRange_other _ _ ha).trans ?_
  rw [mem, hmem]

/-! DIE -/

/-- The engines of a die that is reset are empty, and READY and the time of the reset say so. -/
def DieEmptied (t : State) (n : Nat) : Prop :=
  (∀ e ∈ t.eng.swages, e.1 / 8 ≠ n) ∧ (∀ e ∈ t.eng.mmas, e.2.die ≠ n) ∧ (∀ e ∈ t.eng.vecs, e.2.die ≠ n)

theorem clearDie_empties (s : State) (n : Nat) : DieEmptied (clearDie s n) n := by
  refine ⟨fun e he => ?_, fun e he => ?_, fun e he => ?_⟩
  all_goals
    have := (List.mem_filter.mp he).2
    simpa using this

theorem DieEmptied.congr {s t : State} {n : Nat} (h : DieEmptied s n) (he : t.eng = s.eng) : DieEmptied t n := by
  unfold DieEmptied
  rw [he]
  exact h

theorem DieEmptied.promote {s : State} {n : Nat} (h : DieEmptied s n) : DieEmptied (promote s n) n := by
  obtain ⟨x, hx⟩ := promote_frame s n
  rw [hx]
  exact h

theorem rd_lockDie {f : Field} (hc : f.apart R.CLK_STS_CD_LOCK = true) (hp : f.apart R.CLK_STS_PD_LOCK = true) (s : State) (d i : Nat) :
    (lockDie s d).rd f i = s.rd f i := by
  unfold lockDie
  dsimp only
  split
  · exact rd_wr_apart hc _ _ _ _
  · exact rd_wr_apart hp _ _ _ _

theorem rd_restoreLoupe {f : Field} (h : f.apart R.LPE_STS_RETIRED = true) (s : State) (n i : Nat) : (restoreLoupe s n).rd f i = s.rd f i := by
  unfold restoreLoupe
  rw [rd_ite, rd_wr_apart h, ite_self]

theorem rd_promote (s : State) (n : Nat) (f : Field) (i : Nat) : (promote s n).rd f i = s.rd f i := by
  unfold State.rd
  rw [promote_regs]

theorem dieReset_empties (s : State) (n : Nat) : DieEmptied (dieReset s n) n := by
  unfold dieReset
  dsimp only
  refine DieEmptied.congr (DieEmptied.promote (DieEmptied.congr (clearDie_empties (List.foldl (fun s c => resetCtx s c false)
    (loseColls (stepFault s .uncorrectable)) ((liveCtxs (loseColls (stepFault s .uncorrectable))).filter
      fun c => homeDie (loseColls (stepFault s .uncorrectable)) c == n)) n) ?_)) ((refreshCap_eng _ n).trans
    ((lockDie_eng _ n).trans (restoreLoupe_eng _ n)))
  rw [State.wr_eng, State.wr_eng, State.inc_eng, loseFlights_eng, holdStack_eng, holdStack_eng]
  rfl

theorem rd_dieReset (s : State) (n : Nat) : (dieReset s n).rd R.DIE_STS_READY n = 0 ∧ (dieReset s n).rd R.DIE_LAST_RESET_TIME n = s.now % 2 ^ 64 := by
  unfold dieReset
  dsimp only
  rw [rd_refreshCap (by decide) (by decide), rd_lockDie (by decide) (by decide), rd_restoreLoupe (by decide), rd_promote, rd_wr_same,
    rd_refreshCap (by decide) (by decide), rd_lockDie (by decide) (by decide), rd_restoreLoupe (by decide), rd_promote, rd_wr_apart (by decide), rd_wr_same]
  refine ⟨rfl, ?_⟩
  simp
  rfl

theorem die_requested {s : State} {n : Nat} (on : s.power.on = true) (h : busyOf s .FLT 0 = false) (hd : s.rd R.FLT_RST_DOMAIN 0 = 2)
    (ht : s.rd R.FLT_RST_TARGET 0 = n) :
    ∃ t, exec .dieResetRequest s = .next t ∧ (∀ e ∈ t.eng.swages, e.1 / 8 ≠ n) ∧ (∀ e ∈ t.eng.mmas, e.2.die ≠ n) ∧
        (∀ e ∈ t.eng.vecs, e.2.die ≠ n) ∧ t.rd R.DIE_STS_READY n = 0 ∧ t.rd R.DIE_LAST_RESET_TIME n = s.now % 2 ^ 64 ∧
        t.seq = ⟨some (2, n)⟩ ∧ t.power = s.power ∧ t.now = s.now ∧ t.pending = s.pending := by
  have he : exec .dieResetRequest s = .next (dieReset (asserting s 2 n R.FLT_RESET_CNT_DIE) n) := by
    refine (live_on on _).trans ?_
    rw [request_runs (target := n) h hd (by decide) (by decide) ht fun h => absurd h (by decide)]
  obtain ⟨hseq, hpow, hnow, hpend⟩ := asserting_frame s 2 n R.FLT_RESET_CNT_DIE
  generalize asserting s 2 n R.FLT_RESET_CNT_DIE = u at *
  obtain ⟨hsw, hmma, hvec⟩ := dieReset_empties u n
  obtain ⟨hready, htime⟩ := rd_dieReset u n
  exact ⟨_, he, hsw, hmma, hvec, hready, by rw [htime, hnow], (dieReset_seq u n).trans hseq, (dieReset_power u n).trans hpow,
    (dieReset_now u n).trans hnow, (pending_of_kept (dieReset_kept u n)).trans hpend⟩

/-! PORT -/

theorem clearPort_empties (s : State) (d : Nat) : (∀ e ∈ (clearPort s d).xp.flows, e.1 / 2048 ≠ d) ∧ ∀ r ∈ (clearPort s d).weld.held, r.die ≠ d := by
  have hx : (clearPort s d).xp.flows = s.xp.flows.filter fun e => e.1 / 2048 != d := by
    unfold clearPort
    dsimp only
    split <;> rfl
  have hw : (clearPort s d).weld.held = s.weld.held.filter fun r => r.die != d := by
    unfold clearPort
    dsimp only
    split <;> rfl
  rw [hx, hw]
  refine ⟨fun e he => ?_, fun r hr => ?_⟩
  · simpa using (List.mem_filter.mp he).2
  · simpa using (List.mem_filter.mp hr).2

theorem portReset_empties (s : State) (d : Nat) : (∀ e ∈ (portReset s d).xp.flows, e.1 / 2048 ≠ d) ∧ ∀ r ∈ (portReset s d).weld.held, r.die ≠ d := by
  have h := clearPort_empties (loseColls (stepFault s .uncorrectable)) d
  unfold portReset
  dsimp only
  generalize clearPort (loseColls (stepFault s .uncorrectable)) d = u at *
  simpa using h

theorem rd_setLink (s : State) (k : Nat) (l : Link) (f : Field) (i : Nat) : (s.setLink k l).rd f i = s.rd f i := rfl

theorem rd_startTraining {f : Field} {i : Nat} (hq : loud (f.key i) = false) (hl : f.apart R.LNK_STS_LANES_UP = true) (s : State) (k : Nat)
    (fast restoring : Bool) : (startTraining s k fast restoring).rd f i = s.rd f i := by
  unfold startTraining linkLeave
  dsimp only
  rw [rd_setLink, rd_raiseIf_quiet hq, rd_raiseIf_quiet hq, rd_wr_apart hl, rd_setLink]

theorem rd_trainLinks {f : Field} {i : Nat} (hq : loud (f.key i) = false) (hl : f.apart R.LNK_STS_LANES_UP = true) (s : State) (d : Nat) :
    (trainLinks s d).rd f i = s.rd f i := by
  unfold trainLinks
  refine rd_foldl_keeps (g := fun s j => if linkEnabled s (16 * d + j) then startTraining s (16 * d + j) true false else s) (fun j t => ?_) _ s
  rw [rd_ite, rd_startTraining hq hl, ite_self]

theorem loud_port {f : Field} (hf : f ∈ [R.PDC_STS_READY, R.PDC_LAST_RESET_TIME]) {d : Nat} (hd : d < 2) : loud (f.key d) = false := by
  have h : ∀ f ∈ [R.PDC_STS_READY, R.PDC_LAST_RESET_TIME], ∀ d < 2, loud (f.key d) = false := by decide
  exact h f hf d hd

theorem rd_portReset (s : State) {d : Nat} (hd : d < 2) :
    (portReset s d).rd R.PDC_STS_READY d = 0 ∧ (portReset s d).rd R.PDC_LAST_RESET_TIME d = s.now % 2 ^ 64 := by
  have hp (u : State) (f : Field) : (prune u).rd f d = u.rd f d := by
    unfold State.rd
    rw [prune_regs]
  unfold portReset
  dsimp only
  rw [rd_trainLinks (loud_port (by simp) hd) (by decide), rd_lockDie (by decide) (by decide), hp, rd_wr_same,
    rd_trainLinks (loud_port (by simp) hd) (by decide), rd_lockDie (by decide) (by decide), hp, rd_wr_apart (by decide), rd_wr_same]
  refine ⟨rfl, ?_⟩
  simp
  rfl

theorem port_requested {s : State} {d : Nat} (on : s.power.on = true) (hd : d < 2) (h : busyOf s .FLT 0 = false) (hdom : s.rd R.FLT_RST_DOMAIN 0 = 3)
    (ht : s.rd R.FLT_RST_TARGET 0 = d) :
    ∃ t, exec .portResetRequest s = .next t ∧ (∀ e ∈ t.xp.flows, e.1 / 2048 ≠ d) ∧ (∀ r ∈ t.weld.held, r.die ≠ d) ∧
        t.rd R.PDC_STS_READY d = 0 ∧ t.rd R.PDC_LAST_RESET_TIME d = s.now % 2 ^ 64 ∧
        t.seq = ⟨some (3, d)⟩ ∧ t.power = s.power ∧ t.now = s.now ∧ t.pending = s.pending := by
  have he : exec .portResetRequest s = .next (portReset (asserting s 3 d R.FLT_RESET_CNT_PORT) d) := by
    refine (live_on on _).trans ?_
    rw [request_runs (target := d) h hdom (by decide) (by decide) ht fun _ => by omega]
  obtain ⟨hseq, hpow, hnow, hpend⟩ := asserting_frame s 3 d R.FLT_RESET_CNT_PORT
  generalize asserting s 3 d R.FLT_RESET_CNT_PORT = u at *
  obtain ⟨hflows, hheld⟩ := portReset_empties u d
  obtain ⟨hready, htime⟩ := rd_portReset u hd
  exact ⟨_, he, hflows, hheld, hready, by rw [htime, hnow], (portReset_seq u d).trans hseq, (portReset_power u d).trans hpow,
    (portReset_now u d).trans hnow, (pending_of_kept (portReset_kept u d)).trans hpend⟩

/-! ## The end of a reset, and the watchdog -/

theorem resetDone_waits {s : State} (on : s.power.on = true) {r : Nat × Nat} (hr : s.seq.requested = some r) (h : domainReady (refreshReady s) r = false) :
    exec .resetDone s = .next (refreshReady s) := by
  refine (live_on on _).trans ?_
  unfold resetDone
  rw [hr]
  dsimp only
  rw [if_neg (by simp [h])]

/-- What the end of a requested reset changes. -/
theorem resetOver_frame (u : State) : let t := raise ({ u with seq := ⟨none⟩ }.wr R.FLT_STS_RESETTING 0 0) .FLT 0 11
    t.seq = ⟨none⟩ ∧ t.rd R.FLT_STS_RESETTING 0 = 0 ∧ t.mem = u.mem ∧ t.ctxs = u.ctxs ∧ t.tmp = u.tmp :=
  ⟨raise_seq _ _ _ _, (rd_raise_quiet (by decide) _ _ _ _).trans (rd_wr_same _ _ _ _), raise_mem _ _ _ _, raise_ctxs _ _ _ _, raise_tmp _ _ _ _⟩

theorem resetDone_ends {s : State} (on : s.power.on = true) {r : Nat × Nat} (hr : s.seq.requested = some r) (h : domainReady (refreshReady s) r = true) :
    ∃ t, exec .resetDone s = .next t ∧ t.seq = ⟨none⟩ ∧ t.rd R.FLT_STS_RESETTING 0 = 0 ∧ bitOf (t.hrd R.EVT_STS (slotOf .FLT 0)) 11 = true ∧
        t.mem = s.mem ∧ t.ctxs = s.ctxs ∧ t.tmp = s.tmp := by
  have he : exec .resetDone s = .next (raise ({ refreshReady s with seq := ⟨none⟩ }.wr R.FLT_STS_RESETTING 0 0) .FLT 0 11) := by
    refine (live_on on _).trans ?_
    unfold resetDone
    rw [hr]
    dsimp only
    rw [if_pos h]
  obtain ⟨hseq, hbit, hmem, hctx, htmp⟩ := resetOver_frame (refreshReady s)
  exact ⟨_, he, hseq, hbit, evt_raise _ .FLT 0 (by decide), hmem.trans (refreshReady_mem s), hctx.trans (refreshReady_ctxs s),
    htmp.trans (refreshReady_tmp s)⟩

theorem wdog_effect {s : State} (on : s.power.on = true) :
    ∃ t, exec .wdog s = .next t ∧ t.rd R.SEC_BOOT_STATE 0 = 3 ∧ t.rd R.SMC_MB_STS_STATE 0 = 3 ∧ bitOf (t.hrd R.EVT_STS (slotOf .FLT 0)) 16 = true ∧
      t.rd R.FLT_RESET_CNT_WDOG 0 = min (2 ^ R.FLT_RESET_CNT_WDOG.width - 1) (s.rd R.FLT_RESET_CNT_WDOG 0 + 1) ∧ t.rd R.FLT_STS_LAST_CAUSE 0 = 3 ∧
      t.mem = s.mem ∧ t.ctxs = s.ctxs ∧ t.tmp = s.tmp ∧ t.eng = s.eng := by
  have hsmc (u : State) (f : Field) (i : Nat) (x : Smc) : ({ u with smc := x } : State).rd f i = u.rd f i := rfl
  refine ⟨wdog s, live_on on _, ?_, ?_, ?_, ?_, ?_, ?_, ?_, ?_, ?_⟩
  · unfold wdog smcRestart
    dsimp only
    rw [hsmc, rd_wr_apart (by decide), rd_wr_same]
    rfl
  · unfold wdog smcRestart
    dsimp only
    rw [hsmc, rd_wr_same]
    rfl
  · exact (((evt_raise _ .FLT 0 (by decide)).logErr (by decide) .FLT 0 4 .DOMAIN 0 0 [0, 0, 0]).wr (f := R.SEC_BOOT_STATE) (by decide) 0 3).wr
      (f := R.SMC_MB_STS_STATE) (by decide) 0 3
  · unfold wdog smcRestart noteReset
    dsimp only
    rw [hsmc, rd_wr_apart (by decide), rd_wr_apart (by decide), rd_logErr_quiet (by decide), rd_raise_quiet (by decide), rd_inc_same]
    simp (disch := decide) only [rd_wr_apart]
  · unfold wdog smcRestart noteReset
    dsimp only
    rw [hsmc]
    simp (disch := decide) only [rd_wr_apart, rd_logErr_quiet, rd_raise_quiet, rd_inc_apart, rd_wr_same]
    rfl
  · simp [wdog]
  · simp [wdog]
  · simp [wdog]
  · simp [wdog]

/-- Settles O45. -/
theorem resetsWatchdogAndRecord : Obligations.ResetsWatchdogAndRecord := by
  unfold Obligations.ResetsWatchdogAndRecord
  intro s on
  refine ⟨fun c hc h => ?_, fun c hc h hb => ?_, fun p b => ⟨raise_mem _ _ _ _, raise_ctxs _ _ _ _, raise_tmp _ _ _ _, raise_seq _ _ _ _⟩,
    chip_requested on, fun n _ h hd ht => die_requested on h hd ht, fun d hd h hdom ht => port_requested on hd h hdom ht,
    fun r hr h => resetDone_ends on hr h, fun r hr h => resetDone_waits on hr h, live_on on _, wdog_effect on, perst_effect on⟩
  · simp only [List.mem_cons, List.not_mem_nil, or_false] at hc
    rcases hc with rfl | rfl | rfl
    all_goals exact (live_on on _).trans (by rw [request_busy h])
  · simp only [List.mem_cons, List.not_mem_nil, or_false] at hc
    rcases hc with rfl | rfl | rfl
    all_goals exact (live_on on _).trans (by rw [request_bad h hb])

end Sys2Proof.Machine

namespace Sys2Proof.Machine

open Sys2Proof

/-! ## Links -/

theorem linkOf_congr {s t : State} (h : t.links = s.links) (k : Nat) : linkOf t k = linkOf s k := congrArg (fun l => Tbl.get Link.init l k) h

theorem linkOf_same {s t : State} {k : Nat} {l : Link} (h : t.links = Tbl.set s.links k l) : linkOf t k = l := by
  unfold linkOf
  rw [h, tbl_get_set_same]

theorem linkOf_other {s t : State} {k j : Nat} {l : Link} (h : t.links = Tbl.set s.links k l) (hj : j ≠ k) : linkOf t j = linkOf s j := by
  unfold linkOf
  rw [h, tbl_get_set_other _ _ _ hj]

/-- The fields of a link's page that events and log entries leave. -/
theorem lnk_quiet {f : Field} (h : f ∈ [R.LNK_STS_LANES_UP, R.LNK_STS_LANE_MAP, R.LNK_STS_FAIL_REASON, R.LNK_CFG_RETRY_MS, R.LNK_CFG_DEGRADE_EN,
    R.LNK_PARTNER_VER_MAJOR, R.LNK_PARTNER_VER_MINOR, R.LNK_RX_SLOTS_RX_SLOTS]) {k : Nat} (hk : k < 32) : loud (f.key k) = false := by
  have : ∀ f ∈ [R.LNK_STS_LANES_UP, R.LNK_STS_LANE_MAP, R.LNK_STS_FAIL_REASON, R.LNK_CFG_RETRY_MS, R.LNK_CFG_DEGRADE_EN,
    R.LNK_PARTNER_VER_MAJOR, R.LNK_PARTNER_VER_MINOR, R.LNK_RX_SLOTS_RX_SLOTS], ∀ k < 32, loud (f.key k) = false := by decide
  exact this f h k hk

theorem rd_healthInput_quiet {f : Field} {i : Nat} (h : loud (f.key i) = false) (s : State) (n unit : Nat) : (healthInput s n unit).rd f i = s.rd f i :=
  healthInput_quiet _ _ _ _ h

theorem rd_ledgerEvent_quiet {f : Field} {i : Nat} (h : loud (f.key i) = false) (s : State) (unit kind cls weight : Nat) (odd : Bool)
    (detail : List Nat) : (ledgerEvent s unit kind cls weight odd detail).rd f i = s.rd f i := ledgerEvent_quiet _ _ _ _ _ _ _ _ h

/-! Packets that join priority queues -/

/-- The links of `t` are those of `s` but for packets that wait in priority queues. -/
def PrioOnly (s t : State) : Prop := ∀ k, { linkOf t k with prio := [] } = { linkOf s k with prio := [] }

theorem PrioOnly.of_links {s t : State} (h : t.links = s.links) : PrioOnly s t := fun k => by rw [linkOf_congr h]

theorem PrioOnly.trans {s t u : State} (h : PrioOnly s t) (h' : PrioOnly t u) : PrioOnly s u := fun k => (h' k).trans (h k)

theorem PrioOnly.keeps {β : Type} {s t : State} (h : PrioOnly s t) (π : Link → β) (hπ : ∀ l, π { l with prio := [] } = π l) (k : Nat) :
    π (linkOf t k) = π (linkOf s k) := (hπ _).symm.trans ((congrArg π (h k)).trans (hπ _))

theorem prioOnly_sendPrio (s : State) (k : Nat) (c : PClass) (p : Packet) : PrioOnly s (sendPrio s k c p) := fun j => by
  by_cases hj : j = k
  · subst hj
    rw [linkOf_same (show (sendPrio s j c p).links = Tbl.set s.links j _ from rfl)]
  · rw [linkOf_other (show (sendPrio s k c p).links = Tbl.set s.links k _ from rfl) hj]

theorem prioOnly_sendCopies (s : State) (b : Burst) : PrioOnly s (sendCopies s b) :=
  foldl_holds (P := PrioOnly s) (fun t _ ht => ht.trans (prioOnly_sendPrio t _ _ _)) _ s (.of_links rfl)

theorem prioOnly_startBurst (s : State) (c : PClass) (bs : List Byte) : PrioOnly s (startBurst s c bs) := by
  unfold startBurst
  split
  · exact .of_links rfl
  · exact (prioOnly_sendCopies s _).trans (.of_links rfl)

theorem prioOnly_cutBurst (s : State) (step cause : Nat) : PrioOnly s (cutBurst s step cause) := by
  unfold cutBurst
  split
  · exact .of_links rfl
  · exact (PrioOnly.of_links (State.inc_links _ _ _ _)).trans (prioOnly_startBurst _ _ _)

theorem prioOnly_requestCut (s : State) (cause : Nat) : PrioOnly s (requestCut s cause) := by
  unfold requestCut
  split
  all_goals first | exact .of_links rfl | exact (prioOnly_cutBurst s _ _).trans (.of_links (takeCut_links _ _ _))

theorem PrioOnly.of_health {s t : State} {x : Health} (h : PrioOnly { s with health := x } t) : PrioOnly s t := h

theorem prioOnly_warnCut (s : State) (unit : Nat) : PrioOnly s (warnCut s unit) := by
  unfold warnCut
  dsimp only
  refine iteInduction (motive := PrioOnly s) (fun _ => ?_) (fun _ => .of_links rfl)
  refine PrioOnly.trans ?_ (prioOnly_requestCut _ _)
  exact .of_links (by rw [raise_links, State.inc_links])

theorem prioOnly_levelRise (s : State) (unit old lv : Nat) : PrioOnly s (levelRise s unit old lv) := by
  unfold levelRise
  dsimp only
  refine PrioOnly.trans (t := ?_) (.of_links ?_) ?_
  rotate_left 2
  · split
    · exact prioOnly_warnCut _ _
    · exact .of_links rfl
  · repeat' split
    all_goals simp

theorem prioOnly_updateLevel (s : State) (unit : Nat) : PrioOnly s (updateLevel s unit) := by
  unfold updateLevel
  dsimp only
  refine iteInduction (motive := PrioOnly s) (fun _ => ?_) (fun _ => .of_links rfl)
  exact PrioOnly.trans (PrioOnly.of_health (.of_links rfl)) (prioOnly_levelRise _ _ _ _)

theorem prioOnly_healthInput (s : State) (n unit : Nat) : PrioOnly s (healthInput s n unit) := by
  unfold healthInput
  exact PrioOnly.of_health (prioOnly_updateLevel _ _)

theorem PrioOnly.others {s t u : State} {k : Nat} (h : ∀ j, j ≠ k → linkOf t j = linkOf s j) (hp : PrioOnly t u) : otherLinksStand s u k :=
  fun j hj => (hp j).trans (by rw [h j hj])

/-! Training -/

/-- Link `k` of `s` has become `l`, and no other link, no memory, no context and no field of TMP has changed. -/
def LinkBecomes (s t : State) (k : Nat) (l : Link) : Prop :=
  linkOf t k = l ∧ (∀ j, j ≠ k → linkOf t j = linkOf s j) ∧ t.mem = s.mem ∧ t.ctxs = s.ctxs ∧ t.tmp = s.tmp

theorem LinkBecomes.of_links {s t : State} {k : Nat} {l : Link} (h : t.links = Tbl.set s.links k l) (hm : t.mem = s.mem) (hc : t.ctxs = s.ctxs)
    (ht : t.tmp = s.tmp) : LinkBecomes s t k l := ⟨linkOf_same h, fun _ hj => linkOf_other h hj, hm, hc, ht⟩

theorem linkLeave_links (s : State) (k : Nat) (st : LinkState) : (linkLeave s k st).links = Tbl.set s.links k ((linkOf s k).quiet st) := by
  unfold linkLeave
  simp [State.setLink]

theorem linkOf_linkLeave (s : State) (k : Nat) (st : LinkState) : linkOf (linkLeave s k st) k = (linkOf s k).quiet st := linkOf_same (linkLeave_links s k st)

theorem startTraining_links (s : State) (k : Nat) (fast restoring : Bool) :
    (startTraining s k fast restoring).links = Tbl.set s.links k (startedLink s k fast restoring) := by
  unfold startTraining
  dsimp only [State.setLink]
  rw [linkOf_linkLeave, linkLeave_links, clock_of_kept (linkLeave_kept _ _ _), tbl_set_set]
  rfl

theorem startTraining_effect (s : State) (k : Nat) (fast restoring : Bool) :
    LinkBecomes s (startTraining s k fast restoring) k (startedLink s k fast restoring) :=
  .of_links (startTraining_links s k fast restoring) (startTraining_mem _ _ _ _) (startTraining_ctxs _ _ _ _) (startTraining_tmp _ _ _ _)

theorem rd_linkLeave {f : Field} {k : Nat} (hq : loud (f.key k) = false) (hl : f.apart R.LNK_STS_LANES_UP = true) (s : State) (st : LinkState) :
    (linkLeave s k st).rd f k = s.rd f k := by
  unfold linkLeave
  dsimp only
  rw [rd_raiseIf_quiet hq, rd_raiseIf_quiet hq, rd_wr_apart hl, rd_setLink]

theorem rd_linkLeave_lanes {k : Nat} (hk : k < 32) (s : State) (st : LinkState) : (linkLeave s k st).rd R.LNK_STS_LANES_UP k = 0 := by
  unfold linkLeave
  dsimp only
  rw [rd_raiseIf_quiet (lnk_quiet (by simp) hk), rd_raiseIf_quiet (lnk_quiet (by simp) hk), rd_wr_same]
  rfl

/-- When full training falls due for a link that fails for a reason (R251, R261). -/
def retryTime (s : State) (k why : Nat) : Option Nat :=
  if why = 5 ∨ why = 6 then none else some (s.clock + max 10 (s.rd R.LNK_CFG_RETRY_MS k) * 1000000)

/-- The link as it fails, before the failure is counted, logged and judged (R251). -/
def linkFailing (s : State) (k why : Nat) : State :=
  ((linkLeave s k .failed).wr R.LNK_STS_FAIL_REASON k why).setLink k { (linkOf s k).quiet .failed with retryAt := retryTime s k why }

/-- The counter, the event and the log entry of a failed link (R251). -/
def noteFailure (u : State) (k why : Nat) : State :=
  logErr (raise (u.inc R.LNK_RETRAINS_FAILS k 1) .LNK k 10) .LNK k why .CAPACITY k 0
    [lnkSts (raise (u.inc R.LNK_RETRAINS_FAILS k 1) .LNK k 10) k, 0, 0]

/-- The ledger entry of a link with its health input (R251, R252). -/
def linkJudged (u : State) (k kind n : Nat) : State :=
  healthInput (ledgerEvent u (linkId k) kind 0 (u.rd (R.HLT_W_WEIGHT n) 0) false [lnkSts u k]) n (portId (k / 16))

theorem linkJudged_links (u : State) (k kind n : Nat) : PrioOnly u (linkJudged u k kind n) :=
  (PrioOnly.of_links (ledgerEvent_links _ _ _ _ _ _ _)).trans (prioOnly_healthInput _ _ _)

theorem rd_linkJudged {f : Field} {k : Nat} (hq : loud (f.key k) = false) (u : State) (kind n : Nat) : (linkJudged u k kind n).rd f k = u.rd f k := by
  unfold linkJudged
  rw [rd_healthInput_quiet hq, rd_ledgerEvent_quiet hq]

theorem failLink_eq (s : State) {k why : Nat} (hk : k < 32) :
    failLink s k why = linkJudged (noteFailure (linkFailing s k why) k why) k 0x0A 8 := by
  unfold failLink
  dsimp only
  rw [linkOf_linkLeave, State.wr_clock, clock_of_kept (linkLeave_kept _ _ _), rd_wr_apart (by decide), rd_linkLeave (lnk_quiet (by simp) hk) (by decide)]
  rfl

theorem linkFailing_links (s : State) (k why : Nat) :
    (linkFailing s k why).links = Tbl.set s.links k { (linkOf s k).quiet .failed with retryAt := retryTime s k why } := by
  unfold linkFailing State.setLink
  dsimp only
  rw [State.wr_links, linkLeave_links, tbl_set_set]

theorem noteFailure_links (u : State) (k why : Nat) : (noteFailure u k why).links = u.links := by
  unfold noteFailure
  rw [logErr_links, raise_links, State.inc_links]

theorem rd_noteFailure {f : Field} {k : Nat} (hq : loud (f.key k) = false) (hf : f.apart R.LNK_RETRAINS_FAILS = true) (u : State) (why : Nat) :
    (noteFailure u k why).rd f k = u.rd f k := by
  unfold noteFailure
  rw [rd_logErr_quiet hq, rd_raise_quiet hq, rd_inc_apart hf]

/-- A lane fault, a training or a degrade fails the link (R251). -/
theorem failLink_fails (s : State) {k why : Nat} (hk : k < 32) (hw : why < 16) : LinkFailed s (failLink s k why) k why := by
  obtain ⟨u, hu⟩ : ∃ u, u = noteFailure (linkFailing s k why) k why := ⟨_, rfl⟩
  have he : failLink s k why = linkJudged u k 0x0A 8 := by rw [hu, failLink_eq s hk]
  have hlinks : u.links = Tbl.set s.links k { (linkOf s k).quiet .failed with retryAt := retryTime s k why } := by
    rw [hu, noteFailure_links, linkFailing_links]
  have hp : PrioOnly u (failLink s k why) := by
    rw [he]
    exact linkJudged_links _ _ _ _
  have hrd (f : Field) (hq : loud (f.key k) = false) (hf : f.apart R.LNK_RETRAINS_FAILS = true) :
      (failLink s k why).rd f k = (linkFailing s k why).rd f k := by
    rw [he, rd_linkJudged hq, hu, rd_noteFailure hq hf]
  refine ⟨?_, ?_, ?_, ?_, PrioOnly.others (fun j hj => linkOf_other hlinks hj) hp, failLink_mem _ _ _, failLink_ctxs _ _ _, failLink_tmp _ _ _⟩
  · rw [hp.keeps Link.state (fun _ => rfl), linkOf_same hlinks]
    rfl
  · rw [hrd _ (lnk_quiet (by simp) hk) (by decide)]
    unfold linkFailing
    rw [rd_setLink, rd_wr_same]
    exact Nat.mod_eq_of_lt hw
  · rw [hrd _ (lnk_quiet (by simp) hk) (by decide)]
    unfold linkFailing
    rw [rd_setLink, rd_wr_apart (by decide), rd_linkLeave_lanes hk]
  · rw [hp.keeps Link.retryAt (fun _ => rfl), linkOf_same hlinks]
    rfl

/-- A failure counted from a state in which the link is as in `s`. -/
theorem LinkFailed.of_raised {s u t : State} {k why : Nat} (h : LinkFailed u t k why) (hl : u.links = s.links) (hc : u.clock = s.clock)
    (hr : u.rd R.LNK_CFG_RETRY_MS k = s.rd R.LNK_CFG_RETRY_MS k) (hm : u.mem = s.mem) (hx : u.ctxs = s.ctxs) (ht : u.tmp = s.tmp) : LinkFailed s t k why :=
  ⟨h.state, h.reason, h.lanes, by rw [h.retry, hc, hr], fun j hj => (h.others j hj).trans (by rw [linkOf_congr hl]), h.mem.trans hm, h.ctxs.trans hx,
    h.tmp.trans ht⟩

/-! Coming up -/

theorem linkUpOn_links (s : State) (k lanes : Nat) (up : Bool) (rep : LinkReport) :
    (linkUpOn s k lanes up rep).links = Tbl.set s.links k (linkedLink s k lanes (if up then .up else .degraded) rep) := by
  unfold linkUpOn
  dsimp only
  split
  · rw [raise_links, State.wr_links, State.wr_links, State.wr_links, State.wr_links, State.wr_links]
    rfl
  · rw [raise_links]
    dsimp only
    rw [raise_links, State.wr_links, State.wr_links, State.wr_links, State.wr_links, State.wr_links]
    rfl

theorem rd_linkUpOn_lanes (s : State) {k lanes : Nat} (hk : k < 32) (hn : lanes < 16) (up : Bool) (rep : LinkReport) :
    (linkUpOn s k lanes up rep).rd R.LNK_STS_LANES_UP k = lanes := by
  have hq : loud (R.LNK_STS_LANES_UP.key k) = false := lnk_quiet (by simp) hk
  have hx (u : State) (x : Xport) (f : Field) (i : Nat) : ({ u with xp := x } : State).rd f i = u.rd f i := rfl
  unfold linkUpOn
  dsimp only
  rw [rd_ite, rd_raise_quiet hq, ite_self, hx, rd_raise_quiet hq, rd_wr_apart (by decide), rd_wr_apart (by decide), rd_wr_apart (by decide),
    rd_wr_apart (by decide), rd_wr_same]
  exact Nat.mod_eq_of_lt hn

theorem linkUpOn_effect (s : State) (k lanes : Nat) (up : Bool) (rep : LinkReport) :
    LinkBecomes s (linkUpOn s k lanes up rep) k (linkedLink s k lanes (if up then .up else .degraded) rep) :=
  .of_links (linkUpOn_links s k lanes up rep) (linkUpOn_mem _ _ _ _ _) (linkUpOn_ctxs _ _ _ _ _) (linkUpOn_tmp _ _ _ _ _)

/-- NEGOTIATE changes registers alone. -/
theorem negotiate_frame (s : State) (k : Nat) (cap : CapBlock) : ∃ r, (negotiate s k cap).2 = { s with regs := r } := ⟨_, rfl⟩

/-! Faults -/

/-- Link `k` realigns on the lanes `good`, and no other link, no memory, no context and no field of TMP has changed (Table 9.10). -/
structure Realigns (s t : State) (k good : Nat) (partner : Bool) : Prop where
  state : (linkOf t k).state = .retrainX2
  good : (linkOf t k).goodLanes = good
  partner : (linkOf t k).partnerDegrade = partner
  others : otherLinksStand s t k
  mem : t.mem = s.mem
  ctxs : t.ctxs = s.ctxs
  tmp : t.tmp = s.tmp

theorem enterX2_realigns (s : State) (k good : Nat) (partner : Bool) : Realigns s (enterX2 s k good partner) k good partner := by
  obtain ⟨l, hl⟩ : ∃ l : Link, l = { ((linkOf s k).quiet .retrainX2) with t0 := s.clock, goodLanes := good, degradeAcked := false, partnerDegrade := partner } :=
    ⟨_, rfl⟩
  obtain ⟨u, hu⟩ : ∃ u, u = raiseIf (linkLive (linkOf s k)) ((s.setLink k l).inc R.LNK_RETRAINS_DEGRADES k 1) .XPT (k / 16) 6 := ⟨_, rfl⟩
  have he : enterX2 s k good partner = linkJudged u k 9 7 := by
    rw [hu, hl]
    rfl
  have hlinks : u.links = Tbl.set s.links k l := by
    rw [hu, raiseIf_links, State.inc_links]
    rfl
  have hp : PrioOnly u (enterX2 s k good partner) := by
    rw [he]
    exact linkJudged_links _ _ _ _
  refine ⟨?_, ?_, ?_, PrioOnly.others (fun j hj => linkOf_other hlinks hj) hp, enterX2_mem _ _ _ _, enterX2_ctxs _ _ _ _, enterX2_tmp _ _ _ _⟩
  · rw [hp.keeps Link.state (fun _ => rfl), linkOf_same hlinks, hl]
    rfl
  · rw [hp.keeps Link.goodLanes (fun _ => rfl), linkOf_same hlinks, hl]
  · rw [hp.keeps Link.partnerDegrade (fun _ => rfl), linkOf_same hlinks, hl]

theorem Realigns.sent {s t : State} {k good : Nat} {partner : Bool} (h : Realigns s t k good partner) (cmd lanes arg : Nat) :
    Realigns s (sendControl t k cmd lanes arg) k good partner ∧ OutMsg.control k cmd arg lanes ∈ (sendControl t k cmd lanes arg).out :=
  ⟨⟨h.state, h.good, h.partner, h.others, h.mem, h.ctxs, h.tmp⟩, List.mem_cons_self⟩

theorem Realigns.of_raised {s u t : State} {k good : Nat} {partner : Bool} (h : Realigns u t k good partner) (hl : u.links = s.links) (hm : u.mem = s.mem)
    (hx : u.ctxs = s.ctxs) (ht : u.tmp = s.tmp) : Realigns s t k good partner :=
  ⟨h.state, h.good, h.partner, fun j hj => (h.others j hj).trans (by rw [linkOf_congr hl]), h.mem.trans hm, h.ctxs.trans hx, h.tmp.trans ht⟩

/-- A lane mask of a link has no bits above its four lanes. -/
theorem two_pow_mod_lanes {lane : Nat} (h : lane < 4) : 2 ^ lane % 16 = 2 ^ lane := Nat.mod_eq_of_lt (Nat.pow_lt_pow_right (by decide) h)

theorem rd_raise_lnk {f : Field} (h : f ∈ [R.LNK_STS_LANES_UP, R.LNK_STS_LANE_MAP, R.LNK_STS_FAIL_REASON, R.LNK_CFG_RETRY_MS, R.LNK_CFG_DEGRADE_EN,
    R.LNK_PARTNER_VER_MAJOR, R.LNK_PARTNER_VER_MINOR, R.LNK_RX_SLOTS_RX_SLOTS]) {k : Nat} (hk : k < 32) (s : State) (p : Page) (j b : Nat) :
    (raise s p j b).rd f k = s.rd f k := rd_raise_quiet (lnk_quiet h hk) s p j b

theorem lnkVersion_raise {k : Nat} (hk : k < 32) (s : State) (p : Page) (j b : Nat) : lnkVersion (raise s p j b) k = lnkVersion s k := by
  unfold lnkVersion
  rw [rd_raise_lnk (by simp) hk, rd_raise_lnk (by simp) hk]

/-- The state in which a fault on an UP link has been raised. -/
def faultRaised (s : State) (k : Nat) : State := raise s .LNK k 6

/-- A fault that leaves two good lanes of an UP link starts the realignment (R252). -/
theorem faultLanes_up_realigns {s : State} {k bad : Nat} (hk : k < 32) (hu : (linkOf s k).state = .up) (hhit : (bad % 16 &&& s.rd R.LNK_STS_LANES_UP k) ≠ 0)
    (hn : 2 ≤ popCount 4 (15 - bad % 16)) (hd : s.on R.LNK_CFG_DEGRADE_EN k = true) (hv : 257 ≤ lnkVersion s k) :
    faultLanes s k bad = sendControl (enterX2 (faultRaised s k) k (15 - bad % 16) false) k 1 (lowestTwo (15 - bad % 16)) 0 := by
  have hd' : (raise s .LNK k 6).on R.LNK_CFG_DEGRADE_EN k = true := (congrArg (· == 1) (rd_raise_lnk (by simp) hk s .LNK k 6)).trans hd
  unfold faultLanes
  dsimp only
  rw [hu, if_neg (show LinkState.up ≠ .retrainX2 by decide), if_neg hhit]
  dsimp only
  rw [if_neg]
  · rfl
  · rw [lnkVersion_raise hk, hd']
    simp only [Bool.not_true, Bool.false_eq_true, false_or, not_or]
    omega

/-- Any other fault that hits an UP link fails it (R252). -/
theorem faultLanes_up_fails {s : State} {k bad : Nat} (hk : k < 32) (hu : (linkOf s k).state = .up) (hhit : (bad % 16 &&& s.rd R.LNK_STS_LANES_UP k) ≠ 0)
    (h : popCount 4 (15 - bad % 16) < 2 ∨ s.on R.LNK_CFG_DEGRADE_EN k = false ∨ lnkVersion s k < 257) :
    faultLanes s k bad = failLink (faultRaised s k) k 2 := by
  have hd : (raise s .LNK k 6).on R.LNK_CFG_DEGRADE_EN k = s.on R.LNK_CFG_DEGRADE_EN k := congrArg (· == 1) (rd_raise_lnk (by simp) hk s .LNK k 6)
  unfold faultLanes
  dsimp only
  rw [hu, if_neg (show LinkState.up ≠ .retrainX2 by decide), if_neg hhit]
  dsimp only
  rw [if_pos]
  · rfl
  · rw [lnkVersion_raise hk, hd]
    simpa using h

theorem faultRaised_fails {s : State} {k why : Nat} (hk : k < 32) (hw : why < 16) : LinkFailed s (failLink (faultRaised s k) k why) k why :=
  (failLink_fails (faultRaised s k) hk hw).of_raised (raise_links _ _ _ _) (clock_of_kept (raise_kept _ _ _ _)) (rd_raise_lnk (by simp) hk _ _ _ _) (raise_mem _ _ _ _)
    (raise_ctxs _ _ _ _) (raise_tmp _ _ _ _)

theorem faultRaised_realigns (s : State) (k good : Nat) (partner : Bool) : Realigns s (enterX2 (faultRaised s k) k good partner) k good partner :=
  (enterX2_realigns (faultRaised s k) k good partner).of_raised (raise_links _ _ _ _) (raise_mem _ _ _ _) (raise_ctxs _ _ _ _) (raise_tmp _ _ _ _)

theorem faultLanes_degraded {s : State} {k bad : Nat} (hd : (linkOf s k).state = .degraded) (hhit : (bad % 16 &&& s.rd R.LNK_STS_LANES_UP k) ≠ 0) :
    faultLanes s k bad = failLink (faultRaised s k) k 2 := by
  unfold faultLanes
  dsimp only
  rw [hd, if_neg (show LinkState.degraded ≠ .retrainX2 by decide), if_neg hhit]
  rfl

/-! Messages that stay in the output -/

theorem mem_out_notice {m : OutMsg} {s : State} (h : m ∈ s.out) (slot b : Nat) : m ∈ (notice s slot b).out := by
  have hsend (u : State) (v : Nat) (hu : m ∈ u.out) : m ∈ (msixSend u v).out := List.mem_cons_of_mem _ hu
  have hreq (u : State) (v : Nat) (hu : m ∈ u.out) : m ∈ (msixRequest u v).out := by
    unfold msixRequest
    split
    · exact hu
    · split
      · exact hu
      · exact hsend u v hu
  have hif : m ∈ (if s.hrd R.EVT_ROUTE_TO_HOST slot = 1 then msixRequest s (s.hrd R.EVT_ROUTE_VECTOR slot) else s).out := by
    split
    · exact hreq _ _ h
    · exact h
  unfold notice
  dsimp only
  generalize (if s.hrd R.EVT_ROUTE_TO_HOST slot = 1 then msixRequest s (s.hrd R.EVT_ROUTE_VECTOR slot) else s) = u at hif ⊢
  split
  · exact List.mem_cons_of_mem _ hif
  · exact hif

theorem mem_out_raise {m : OutMsg} {s : State} (h : m ∈ s.out) (p : Page) (i b : Nat) : m ∈ (raise s p i b).out := by
  unfold raise raiseSlot
  dsimp only
  split
  · exact h
  · split
    · exact h
    · exact mem_out_notice (s := s.hwr R.EVT_STS (slotOf p i) _) h _ _

theorem mem_out_raiseIf {m : OutMsg} {s : State} (h : m ∈ s.out) (c : Bool) (p : Page) (i b : Nat) : m ∈ (raiseIf c s p i b).out := by
  unfold raiseIf
  split
  · exact mem_out_raise h _ _ _
  · exact h

theorem mem_out_linkLeave {m : OutMsg} {s : State} (h : m ∈ s.out) (k : Nat) (st : LinkState) : m ∈ (linkLeave s k st).out :=
  mem_out_raiseIf (mem_out_raiseIf (s := (s.setLink k _).wr R.LNK_STS_LANES_UP k 0) h _ _ _ _) _ _ _ _

/-! ## LINK_ENABLE to DEGRADE_TIMEOUT -/

theorem linkEnable_down {s : State} {k : Nat} (hd : (linkOf s k).state = .down) (hr : s.on R.PDC_STS_IN_RESET (k / 16) = false) (hrel : s.smc.released = true) :
    enableLink s k = startTraining (s.hwr R.PAGE_CTL_ENABLE (slotOf .LNK k) 1) k true false := by
  have hen : linkEnabled (s.hwr R.PAGE_CTL_ENABLE (slotOf .LNK k) 1) k = true := by
    have h1 : (s.hwr R.PAGE_CTL_ENABLE (slotOf .LNK k) 1).hrd R.PAGE_CTL_ENABLE (slotOf .LNK k) = 1 := store_get_set_same _ _ _ _
    have h2 : (s.hwr R.PAGE_CTL_ENABLE (slotOf .LNK k) 1).on R.PDC_STS_IN_RESET (k / 16) = s.on R.PDC_STS_IN_RESET (k / 16) :=
      congrArg (· == 1) (store_get_set_other _ _ _ fun e => absurd (congrArg Key.off e) (show R.PDC_STS_IN_RESET.off ≠ R.PAGE_CTL_ENABLE.off by decide))
    unfold linkEnabled
    rw [h1, h2, hr]
    exact hrel
  exact if_pos ⟨hd, hen⟩

theorem hrd_linkLeave_enable (s : State) (k : Nat) (st : LinkState) :
    (linkLeave s k st).hrd R.PAGE_CTL_ENABLE (slotOf .LNK k) = s.hrd R.PAGE_CTL_ENABLE (slotOf .LNK k) := by
  have hraise (u : State) (c : Bool) (p : Page) (i b : Nat) :
      (raiseIf c u p i b).hrd R.PAGE_CTL_ENABLE (slotOf .LNK k) = u.hrd R.PAGE_CTL_ENABLE (slotOf .LNK k) := by
    unfold raiseIf
    split
    · exact hrd_raiseSlot _ _ _ _ (by decide) (by decide)
    · rfl
  unfold linkLeave
  dsimp only
  rw [hraise, hraise]
  exact store_get_set_other _ _ _ fun e => absurd (congrArg Key.off e) (show R.PAGE_CTL_ENABLE.off ≠ R.LNK_STS_LANES_UP.off by decide)

theorem hrd_startTraining_enable (s : State) (k : Nat) (fast restoring : Bool) (v : Nat) :
    (startTraining (s.hwr R.PAGE_CTL_ENABLE (slotOf .LNK k) v) k fast restoring).hrd R.PAGE_CTL_ENABLE (slotOf .LNK k) = v % 2 ^ R.PAGE_CTL_ENABLE.width :=
  (hrd_linkLeave_enable _ _ _).trans (hrd_hwr_same _ _ _ _)

theorem disableLink_effect (s : State) (k : Nat) : LinkBecomes s (disableLink s k) k ((linkOf s k).quiet .down) ∧
    (disableLink s k).hrd R.PAGE_CTL_ENABLE (slotOf .LNK k) = 0 ∧ (linkLive (linkOf s k) = true → OutMsg.control k 3 0 0 ∈ (disableLink s k).out) := by
  obtain ⟨u, hu⟩ : ∃ u, u = if linkLive (linkOf s k) then sendControl (s.hwr R.PAGE_CTL_ENABLE (slotOf .LNK k) 0) k 3 0 0
    else s.hwr R.PAGE_CTL_ENABLE (slotOf .LNK k) 0 := ⟨_, rfl⟩
  have he : disableLink s k = linkLeave u k .down := by
    rw [hu]
    rfl
  have hlinks : u.links = s.links := by
    rw [hu]
    split <;> rfl
  rw [he]
  refine ⟨.of_links ?_ (by simp [hu]) ?_ ?_, ?_, fun hl => mem_out_linkLeave ?_ _ _⟩
  · rw [linkLeave_links, hlinks, linkOf_congr hlinks]
  · rw [linkLeave_ctxs, hu]
    split <;> rfl
  · rw [linkLeave_tmp, hu]
    split <;> rfl
  · rw [hrd_linkLeave_enable, hu]
    split <;> exact hrd_hwr_same _ _ _ _
  · rw [hu, if_pos hl]
    exact List.mem_cons_self

/-- The state in which the lanes of a degrade are those that both ends name (Table 9.10 step 3). -/
def degradeNamed (s : State) (k lanes : Nat) : State :=
  s.setLink k { linkOf s k with goodLanes := (linkOf s k).goodLanes &&& fromPartner s k lanes, degradeAcked := true }

theorem degradeAnswered_up {s : State} {k lanes : Nat} {rep : LinkReport} (hx : (linkOf s k).state = .retrainX2)
    (hn : 2 ≤ popCount 4 ((linkOf s k).goodLanes &&& fromPartner s k lanes)) (hsig : rep.signal = true) (hal : rep.aligned = true)
    (hneg : (negotiate s k rep.cap).1 = 0)
    (hsame : ((negotiate s k rep.cap).2.rd R.LNK_PARTNER_PLANE k, (negotiate s k rep.cap).2.rd R.LNK_PARTNER_PORT k, lnkVersion (negotiate s k rep.cap).2 k) =
      (s.rd R.LNK_PARTNER_PLANE k, s.rd R.LNK_PARTNER_PORT k, lnkVersion s k)) :
    degradeAnswered s k lanes rep =
      linkUpOn (negotiate (degradeNamed s k lanes) k rep.cap).2 k (lowestTwo ((linkOf s k).goodLanes &&& fromPartner s k lanes)) false rep := by
  unfold degradeAnswered endDegrade
  dsimp only
  rw [if_pos hx, if_neg (Nat.not_lt.mpr hn), if_neg (by simp [hsig, hal]), if_neg]
  · rfl
  · rintro (h | h)
    · exact h hneg
    · exact h hsame.symm

theorem lowestTwo_lt (m : Nat) : lowestTwo m < 16 := by
  have hl : lanesOf m = lanesOf (m % 16) := List.filter_congr fun i hi => (bitOf_mod (List.mem_range.mp hi) m).symm
  have h : ∀ n < 16, lowestTwo n < 16 := by decide
  unfold lowestTwo
  rw [hl]
  exact h (m % 16) (Nat.mod_lt _ (by decide))

theorem degraded_up (s : State) (k lanes : Nat) (r : Store) (rep : LinkReport) (hk : k < 32) :
    let m := lowestTwo ((linkOf s k).goodLanes &&& fromPartner s k lanes)
    let t := linkUpOn { degradeNamed s k lanes with regs := r } k m false rep
    (linkOf t k).state = .degraded ∧ t.rd R.LNK_STS_LANES_UP k = m ∧
      (∀ j, j ≠ k → linkOf t j = linkOf s j) ∧ t.mem = s.mem ∧ t.ctxs = s.ctxs ∧ t.tmp = s.tmp := by
  obtain ⟨hlink, hothers, hmem, hctxs, htmp⟩ := linkUpOn_effect { degradeNamed s k lanes with regs := r } k
    (lowestTwo ((linkOf s k).goodLanes &&& fromPartner s k lanes)) false rep
  refine ⟨?_, rd_linkUpOn_lanes _ hk (lowestTwo_lt _) false rep, fun j hj => (hothers j hj).trans ?_, hmem, hctxs, htmp⟩
  · rw [hlink]
    rfl
  · exact linkOf_other (show (degradeNamed s k lanes).links = Tbl.set s.links k _ from rfl) hj

/-- Settles O36. -/
theorem linksTrainDegradeAndFail : Obligations.LinksTrainDegradeAndFail := by
  unfold Obligations.LinksTrainDegradeAndFail
  intro s k on hk
  refine ⟨fun hd hr hrel => ?_, fun hd => ?_, ?_, fun rep htr hsig hal hgood hoff hneg => ?_, fun rep htr hsig => ?_, fun hd hx => ?_,
    fun d hf ha hdue hen => ?_, fun hd ha hold hidle => ?_, fun hl => ?_, fun lane cause hlane hu hup hen hv => ?_,
    fun lane cause hlane hd hhit => ?_, fun lanes hu hv hn => ?_, fun lanes rep hx hn hsig hal hneg hsame => ?_, fun hx hlate => ?_⟩
  · refine ⟨enableLink s k, onUnit_on on hk _, ?_⟩
    rw [linkEnable_down hd hr hrel]
    exact ⟨hrd_startTraining_enable s k true false 1, startTraining_effect (s.hwr R.PAGE_CTL_ENABLE (slotOf .LNK k) 1) k true false⟩
  · refine (onUnit_on on hk _).trans ?_
    rw [show enableLink s k = _ from if_neg fun h => hd h.1]
  · obtain ⟨hbec, hen, hsent⟩ := disableLink_effect s k
    exact ⟨disableLink s k, onUnit_on on hk _, hbec.1, hen, hsent, hbec.2⟩
  · refine ⟨trainLink s k rep, onUnit_on on hk _, ?_⟩
    obtain ⟨r, hr⟩ := negotiate_frame s k rep.cap
    have he : trainLink s k rep = linkUpOn { s with regs := r } k 15 true rep := by
      unfold trainLink endTraining
      dsimp only
      rw [if_pos htr, hoff, hgood, if_neg (by simp [hsig]), if_neg (by decide), if_neg (by simp [hal]), if_neg (by simp [hneg]), if_pos (by decide), hr]
    rw [he]
    have hu := linkUpOn_effect { s with regs := r } k 15 true rep
    exact ⟨hu.1, rd_linkUpOn_lanes { s with regs := r } hk (by decide) true rep, hu.2⟩
  · refine ⟨trainLink s k rep, onUnit_on on hk _, ?_⟩
    have he : trainLink s k rep = failLink s k 1 := by
      unfold trainLink endTraining
      dsimp only
      rw [if_pos htr, if_pos (by simp [hsig])]
    rw [he]
    exact failLink_fails s hk (by decide)
  · refine ⟨retrainLink s k, onUnit_on on hk _, ?_⟩
    have he : retrainLink s k = startTraining s k true false := by
      unfold retrainLink
      split
      · contradiction
      · contradiction
      · rfl
    rw [he]
    exact startTraining_effect s k true false
  · refine ⟨retryLink s k, onUnit_on on hk _, ?_⟩
    have he : retryLink s k = startTraining s k false false := by
      unfold retryLink
      dsimp only
      rw [hf, ha]
      exact if_pos ⟨hdue, hen⟩
    rw [he]
    exact startTraining_effect s k false false
  · refine ⟨restoreLink s k, onUnit_on on hk _, ?_⟩
    rw [show restoreLink s k = _ from if_pos ⟨hd, ha, hold, hidle⟩]
    exact startTraining_effect s k true true
  · refine ⟨noticeDown s k, onUnit_on on hk _, ?_⟩
    rw [show noticeDown s k = _ from if_pos (by simp [hl])]
    exact startTraining_effect s k true false
  · have hp : popCount 4 (15 - 2 ^ lane) = 3 := by
      have : ∀ n < 4, popCount 4 (15 - 2 ^ n) = 3 := by decide
      exact this lane hlane
    have hm : 2 ^ lane % 16 = 2 ^ lane := two_pow_mod_lanes hlane
    have hhit : (2 ^ lane % 16 &&& s.rd R.LNK_STS_LANES_UP k) ≠ 0 := by
      rw [hup]
      have : ∀ n < 4, (2 ^ n % 16 &&& 15) ≠ 0 := by decide
      exact this lane hlane
    have he : faultLanes s k (2 ^ lane) = _ := faultLanes_up_realigns hk hu hhit (by rw [hm, hp]; decide) hen hv
    rw [hm] at he
    obtain ⟨hr, hsent⟩ := (faultRaised_realigns s k (15 - 2 ^ lane) false).sent 1 (lowestTwo (15 - 2 ^ lane)) 0
    refine ⟨faultLanes s k (2 ^ lane), (if_pos ⟨hk, hlane⟩).trans (live_on on _), ?_⟩
    rw [he]
    exact ⟨hr.state, hr.good, hsent, hr.others, hr.mem, hr.ctxs, hr.tmp⟩
  · refine ⟨faultLanes s k (2 ^ lane), (if_pos ⟨hk, hlane⟩).trans (live_on on _), ?_⟩
    rw [faultLanes_degraded hd (by rw [two_pow_mod_lanes hlane]; exact hhit)]
    exact faultRaised_fails hk (by decide)
  · have he : degradeAsked s k lanes = sendControl (enterX2 s k (fromPartner s k lanes) true) k 2 (fromPartner s k lanes) 0 := by
      unfold degradeAsked
      dsimp only
      rw [hu]
      dsimp only
      rw [if_neg (Nat.not_lt.mpr hv), if_neg (Nat.not_lt.mpr hn)]
    obtain ⟨hr, hsent⟩ := (enterX2_realigns s k (fromPartner s k lanes) true).sent 2 (fromPartner s k lanes) 0
    refine ⟨degradeAsked s k lanes, onUnit_on on hk _, ?_⟩
    rw [he]
    exact ⟨hr.state, hr.good, hr.partner, hsent, hr.others, hr.mem, hr.ctxs, hr.tmp⟩
  · obtain ⟨r, hr⟩ := negotiate_frame (degradeNamed s k lanes) k rep.cap
    refine ⟨degradeAnswered s k lanes rep, onUnit_on on hk _, ?_⟩
    have he : degradeAnswered s k lanes rep = linkUpOn { degradeNamed s k lanes with regs := r } k (lowestTwo ((linkOf s k).goodLanes &&& fromPartner s k lanes)) false rep :=
      (degradeAnswered_up hx hn hsig hal hneg hsame).trans (by rw [hr])
    rw [he]
    exact degraded_up s k lanes r rep hk
  · refine ⟨degradeLate s k, onUnit_on on hk _, ?_⟩
    rw [show degradeLate s k = _ from if_pos ⟨hx, .inr hlate⟩]
    exact failLink_fails s hk (by decide)

end Sys2Proof.Machine

namespace Sys2Proof.Machine

open Sys2Proof

/-! ## Codewords -/

/-- The counters of a codeword's corrected symbols (R245). -/
def symbolsCounted (s : State) (k : Nat) (symbols : List Nat) : State :=
  let t := (symbols.take 4).zipIdx.foldl (fun s x => s.inc (R.LNK_LANE_SYM_LANE_SYM x.2) k x.1) (s.inc R.LNK_FEC_CW_CW k 1)
  if symbols.any (0 < ·) then t.inc R.LNK_FEC_CORR_CORR k 1 else t

/-- The window of a link with a codeword's corrected symbols. -/
def windowWith (l : Link) (symbols : List Nat) : Tbl Nat :=
  (symbols.take 4).zipIdx.foldl (fun t x => Tbl.set t x.2 (Tbl.get 0 t x.2 + x.1)) l.window

/-- Counting symbols changes their counters alone. -/
theorem symbolsCounted_frame (s : State) (k : Nat) (symbols : List Nat) : ∃ r, symbolsCounted s k symbols = { s with regs := r } ∧
    (symbolsCounted s k symbols).rd R.LNK_RX_SLOTS_RX_SLOTS k = s.rd R.LNK_RX_SLOTS_RX_SLOTS k := by
  have hfold := List.foldlRecOn (motive := fun t => ∃ r, t = { s with regs := r } ∧ t.rd R.LNK_RX_SLOTS_RX_SLOTS k = s.rd R.LNK_RX_SLOTS_RX_SLOTS k)
      (symbols.take 4).zipIdx (fun s x => s.inc (R.LNK_LANE_SYM_LANE_SYM x.2) k x.1) (b := s.inc R.LNK_FEC_CW_CW k 1)
      ⟨_, rfl, rd_inc_apart (by decide) _ _ _ _⟩ fun t ht x hx => by
    obtain ⟨r, rfl, hr⟩ := ht
    have hx4 : x.2 < 4 := by
      have := List.snd_lt_of_mem_zipIdx hx
      have := List.length_take_le 4 symbols
      omega
    refine ⟨_, rfl, (rd_inc_apart ?_ _ _ _ _).trans hr⟩
    refine decide_eq_true (.inl ?_)
    show (0x168 : Nat) ≠ 0x140 + 8 * x.2
    omega
  unfold symbolsCounted
  dsimp only
  obtain ⟨r, h, hr⟩ := hfold
  split
  · rw [h] at hr ⊢
    exact ⟨_, rfl, (rd_inc_apart (by decide) _ _ _ _).trans hr⟩
  · exact ⟨r, h, hr⟩

theorem codeword_inSequence {s : State} {k q : Nat} (hl : linkLive (linkOf s k) = true) (hq : ∀ p, (linkOf s k).rxSeq = some p → q % 60 = (p + 1) % 60)
    (sy : List Nat) (n m : Nat) : receiveCodeword s k q sy false n m = ((symbolsCounted s k sy).setLink k
      { linkOf s k with rxSeq := some (q % 60), window := windowWith (linkOf s k) sy, rxFreed := ((linkOf s k).rxFreed + m) % 2 ^ 32 }).inc
        R.LNK_RX_SLOTS_RX_SLOTS k m := by
  unfold receiveCodeword
  dsimp only
  rw [if_neg (by simp [hl]), if_neg (by simp), if_neg]
  · rfl
  · split
    · next p hp => simp [hq p hp]
    · simp

/-- The state in which a dropped codeword has been counted. -/
def codewordDropped (s : State) (k q n : Nat) : State :=
  raise ((((s.inc R.LNK_FEC_CW_CW k 1).setLink k { linkOf s k with rxSeq := some (q % 60) }).inc R.LNK_PKT_DROP_PKT_DROP k n).inc
    R.LNK_FEC_UNCORR_UNCORR k 1) .LNK k 8

theorem codeword_dropped {s : State} {k : Nat} (hl : linkLive (linkOf s k) = true) (q : Nat) (sy : List Nat) (n m : Nat) :
    receiveCodeword s k q sy true n m = healthInput (codewordDropped s k q n) 5 (portId (k / 16)) := by
  unfold receiveCodeword
  dsimp only
  rw [if_neg (by simp [hl]), if_pos rfl]
  rfl

theorem codewordDropped_links (s : State) (k q n : Nat) :
    (codewordDropped s k q n).links = Tbl.set s.links k { linkOf s k with rxSeq := some (q % 60) } := by
  unfold codewordDropped
  rw [raise_links, State.inc_links, State.inc_links]
  rfl

theorem rd_codewordDropped {k : Nat} (hk : k < 32) (s : State) (q n : Nat) :
    (codewordDropped s k q n).rd R.LNK_RX_SLOTS_RX_SLOTS k = s.rd R.LNK_RX_SLOTS_RX_SLOTS k := by
  unfold codewordDropped
  rw [rd_raise_lnk (by simp) hk, rd_inc_apart (by decide), rd_inc_apart (by decide), rd_setLink, rd_inc_apart (by decide)]

/-! ## Symbol windows -/

/-- The lanes of a link that satisfy `p`, as a mask. -/
def laneMask (p : Nat → Bool) : Nat := ((List.range 4).filter p).foldl (fun a i => a + 2 ^ i) 0

theorem laneMask_eq (p : Nat → Bool) : laneMask p = (p 0).toNat + 2 * (p 1).toNat + 4 * (p 2).toNat + 8 * (p 3).toNat := by
  unfold laneMask
  rw [show List.range 4 = [0, 1, 2, 3] from rfl]
  simp only [List.filter_cons, List.filter_nil]
  cases p 0 <;> cases p 1 <;> cases p 2 <;> cases p 3 <;> rfl

theorem laneMask_lt (p : Nat → Bool) : laneMask p < 16 := by
  have (b : Bool) : b.toNat ≤ 1 := Bool.toNat_le b
  have h0 := this (p 0)
  have h1 := this (p 1)
  have h2 := this (p 2)
  have h3 := this (p 3)
  rw [laneMask_eq]
  omega

theorem laneMask_ne_zero {p : Nat → Bool} {i : Nat} (hi : i < 4) (h : p i = true) : laneMask p ≠ 0 := by
  have hb : (p i).toNat = 1 := by rw [h]; rfl
  rw [laneMask_eq]
  obtain rfl | rfl | rfl | rfl : i = 0 ∨ i = 1 ∨ i = 2 ∨ i = 3 := by omega
  all_goals omega

theorem laneMask_none {p : Nat → Bool} (h : ∀ i < 4, p i = false) : laneMask p = 0 := by
  rw [laneMask_eq, h 0 (by decide), h 1 (by decide), h 2 (by decide), h 3 (by decide)]
  rfl

/-- The lanes with more corrected symbols in a window than `t`. -/
def lanesAbove (w : Tbl Nat) (t : Nat) : Nat := laneMask fun i => decide (t < Tbl.get 0 w i)

/-- The state in which a window of a link has ended and its counts have been kept (R252). -/
def windowKept (s : State) (k : Nat) : State :=
  raiseIf (lanesAbove (linkOf s k).window (2 ^ (clampNat 8 20 (s.rd R.LNK_CFG_SER_EXP k) - 3)) != 0)
    (s.setLink k { linkOf s k with window := [], windowPrev := (linkOf s k).window }) .LNK k 9

theorem endWindow_eq {s : State} {k : Nat} (hl : linkLive (linkOf s k) = true) : ∃ u,
    u = (if (linkOf s k).state = .up then faultLanes (windowKept s k) k (lanesAbove (linkOf s k).window (2 ^ clampNat 8 20 (s.rd R.LNK_CFG_SER_EXP k)))
      else windowKept s k) ∧
    endWindow s k = (lanesOf (u.rd R.LNK_STS_LANES_UP k)).foldl (fun s i => askStep s k i) u := by
  refine ⟨_, rfl, ?_⟩
  unfold endWindow
  dsimp only
  rw [if_neg (by simp [hl])]
  rfl

theorem windowKept_links (s : State) (k : Nat) :
    (windowKept s k).links = Tbl.set s.links k { linkOf s k with window := [], windowPrev := (linkOf s k).window } := by
  unfold windowKept
  rw [raiseIf_links]
  rfl

theorem windowKept_frame (s : State) (k : Nat) : (windowKept s k).mem = s.mem ∧ (windowKept s k).ctxs = s.ctxs ∧ (windowKept s k).tmp = s.tmp := by
  unfold windowKept
  rw [raiseIf_mem, raiseIf_ctxs, raiseIf_tmp]
  exact ⟨rfl, rfl, rfl⟩

theorem faultLanes_none (s : State) (k : Nat) : faultLanes s k 0 = s := if_pos (Nat.zero_and _)

/-- What asking for coefficient steps may change: what is asked, a free value and the control slots. -/
structure Asked (s t : State) (k : Nat) : Prop where
  link : { linkOf t k with asks := [] } = { linkOf s k with asks := [] }
  others : ∀ j, j ≠ k → linkOf t j = linkOf s j
  mem : t.mem = s.mem
  ctxs : t.ctxs = s.ctxs
  tmp : t.tmp = s.tmp

theorem Asked.trans {s t u : State} {k : Nat} (h : Asked s t k) (h' : Asked t u k) : Asked s u k :=
  ⟨h'.link.trans h.link, fun j hj => (h'.others j hj).trans (h.others j hj), h'.mem.trans h.mem, h'.ctxs.trans h.ctxs, h'.tmp.trans h.tmp⟩

theorem askStep_cases (s : State) (k lane : Nat) : askStep s k lane = s ∨ askStep s k lane = s.fresh.2 ∨
    ∃ a b, askStep s k lane = sendControl (s.fresh.2.setLink k { linkOf s k with asks := a }) k 5 (2 ^ lane) b :=
  iteInduction (motive := fun t => t = s ∨ t = s.fresh.2 ∨ ∃ a b, t = sendControl (s.fresh.2.setLink k { linkOf s k with asks := a }) k 5 (2 ^ lane) b)
    (fun _ => .inl rfl) (fun _ => iteInduction (motive := fun t => t = s ∨ t = s.fresh.2 ∨ ∃ a b, t = sendControl (s.fresh.2.setLink k { linkOf s k with asks := a }) k 5 (2 ^ lane) b)
      (fun _ => .inr (.inl rfl)) fun _ => .inr (.inr ⟨_, _, rfl⟩))

theorem asked_askStep (s : State) (k lane : Nat) : Asked s (askStep s k lane) k := by
  rcases askStep_cases s k lane with h | h | ⟨a, b, h⟩
  · rw [h]
    exact ⟨rfl, fun _ _ => rfl, rfl, rfl, rfl⟩
  · rw [h]
    exact ⟨rfl, fun _ _ => rfl, rfl, rfl, rfl⟩
  · have hlinks : (askStep s k lane).links = Tbl.set s.links k { linkOf s k with asks := a } := by
      rw [h]
      rfl
    exact ⟨by rw [linkOf_same hlinks], fun j hj => linkOf_other hlinks hj, askStep_mem _ _ _, askStep_ctxs _ _ _, askStep_tmp _ _ _⟩

theorem asked_foldl (s : State) (k : Nat) (l : List Nat) : Asked s (l.foldl (fun s i => askStep s k i) s) k :=
  foldl_holds (P := fun t => Asked s t k) (fun t i ht => ht.trans (asked_askStep t k i)) l s ⟨rfl, fun _ _ => rfl, rfl, rfl, rfl⟩

/-- A link that carries no packets asks for no step. -/
theorem askStep_dead {s : State} {k : Nat} (h : linkLive (linkOf s k) = false) (lane : Nat) : askStep s k lane = s := by
  unfold askStep adapting
  dsimp only
  rw [if_pos (by simp [h])]

theorem askSteps_dead {s : State} {k : Nat} (h : linkLive (linkOf s k) = false) (l : List Nat) : l.foldl (fun s i => askStep s k i) s = s :=
  foldl_holds (P := fun t => t = s) (fun t i ht => by rw [ht, askStep_dead h]) l s rfl

theorem endWindow_calm {s : State} {k : Nat} (hl : linkLive (linkOf s k) = true)
    (h : ∀ i, i < 4 → Tbl.get 0 (linkOf s k).window i ≤ 2 ^ clampNat 8 20 (s.rd R.LNK_CFG_SER_EXP k)) : Asked (windowKept s k) (endWindow s k) k := by
  obtain ⟨u, hu, he⟩ := endWindow_eq hl
  have hn : lanesAbove (linkOf s k).window (2 ^ clampNat 8 20 (s.rd R.LNK_CFG_SER_EXP k)) = 0 :=
    laneMask_none fun i hi => decide_eq_false (Nat.not_lt.mpr (h i hi))
  rw [hn, faultLanes_none, ite_self] at hu
  rw [he, ← hu]
  exact asked_foldl _ _ _

theorem endWindow_faults {s : State} {k i : Nat} (hk : k < 32) (hi : i < 4) (hu : (linkOf s k).state = .up) (hlanes : s.rd R.LNK_STS_LANES_UP k = 15)
    (h : 2 ^ clampNat 8 20 (s.rd R.LNK_CFG_SER_EXP k) < Tbl.get 0 (linkOf s k).window i) :
    ((linkOf (endWindow s k) k).state = .retrainX2 ∨ (linkOf (endWindow s k) k).state = .failed) ∧ otherLinksStand s (endWindow s k) k ∧
      (endWindow s k).mem = s.mem ∧ (endWindow s k).ctxs = s.ctxs ∧ (endWindow s k).tmp = s.tmp := by
  obtain ⟨u, hw, he⟩ := endWindow_eq (s := s) (k := k) (by simp [linkLive, hu])
  obtain ⟨hmem, hctxs, htmp⟩ := windowKept_frame s k
  have hothers (t : State) (ht : otherLinksStand (windowKept s k) t k) : otherLinksStand s t k := fun j hj =>
    (ht j hj).trans (by rw [linkOf_other (windowKept_links s k) hj])
  have hup : (linkOf (windowKept s k) k).state = .up := by rw [linkOf_same (windowKept_links s k)]; exact hu
  have hbad := laneMask_lt fun i => decide (2 ^ clampNat 8 20 (s.rd R.LNK_CFG_SER_EXP k) < Tbl.get 0 (linkOf s k).window i)
  have hne : lanesAbove (linkOf s k).window (2 ^ clampNat 8 20 (s.rd R.LNK_CFG_SER_EXP k)) ≠ 0 := laneMask_ne_zero hi (decide_eq_true h)
  rw [if_pos hu] at hw
  change lanesAbove (linkOf s k).window (2 ^ clampNat 8 20 (s.rd R.LNK_CFG_SER_EXP k)) < 16 at hbad
  generalize lanesAbove (linkOf s k).window (2 ^ clampNat 8 20 (s.rd R.LNK_CFG_SER_EXP k)) = bad at hw hbad hne
  have hhit : (bad % 16 &&& (windowKept s k).rd R.LNK_STS_LANES_UP k) ≠ 0 := by
    have hr : (windowKept s k).rd R.LNK_STS_LANES_UP k = 15 := by
      unfold windowKept
      rw [rd_raiseIf_quiet (lnk_quiet (by simp) hk), rd_setLink, hlanes]
    have hall : ∀ n < 16, n ≠ 0 → (n % 16 &&& 15) ≠ 0 := by decide
    rw [hr]
    exact hall bad hbad hne
  by_cases hx : popCount 4 (15 - bad % 16) < 2 ∨ (windowKept s k).on R.LNK_CFG_DEGRADE_EN k = false ∨ lnkVersion (windowKept s k) k < 257
  · have hf := faultRaised_fails (s := windowKept s k) hk (show 2 < 16 by decide)
    rw [← faultLanes_up_fails hk hup hhit hx, ← hw] at hf
    rw [he, askSteps_dead (by simp [linkLive, hf.state])]
    exact ⟨.inr hf.state, hothers u hf.others, hf.mem.trans hmem, hf.ctxs.trans hctxs, hf.tmp.trans htmp⟩
  · rw [not_or, not_or, Nat.not_lt, Nat.not_lt, Bool.not_eq_false] at hx
    obtain ⟨hn, hd, hv⟩ := hx
    obtain ⟨hf, -⟩ := (faultRaised_realigns (windowKept s k) k (15 - bad % 16) false).sent 1 (lowestTwo (15 - bad % 16)) 0
    rw [← faultLanes_up_realigns hk hup hhit hn hd hv, ← hw] at hf
    rw [he, askSteps_dead (by simp [linkLive, hf.state])]
    exact ⟨.inl hf.state, hothers u hf.others, hf.mem.trans hmem, hf.ctxs.trans hctxs, hf.tmp.trans htmp⟩

/-- Settles O37. -/
theorem linksCarryCodewordsAndCredits : Obligations.LinksCarryCodewordsAndCredits := by
  unfold Obligations.LinksCarryCodewordsAndCredits
  intro s k on hk
  refine ⟨fun hl => ⟨fun q sy n m hq => ?_, fun q sy n m => ?_, fun cs => ?_, fun x l hp hc => ?_, fun x l hp he hc => ?_, fun x l hp hc => ?_, fun h => ?_⟩,
    fun i hi hu hlanes h => ⟨endWindow s k, onUnit_on on hk _, endWindow_faults hk hi hu hlanes h⟩, fun lane up hlane had => ?_,
    fun lane e hlane ha => ?_, fun lane e hlane ha hacked => ⟨fun h => ?_, fun h => ?_⟩⟩
  · obtain ⟨r, hr, hrd⟩ := symbolsCounted_frame s k sy
    refine ⟨receiveCodeword s k q sy false n m, onUnit_on on hk _, ?_⟩
    rw [codeword_inSequence hl hq]
    rw [hr] at hrd ⊢
    have hlinks (u : State) (l : Link) (f : Field) (v : Nat) : ((u.setLink k l).inc f k v).links = Tbl.set u.links k l := rfl
    refine ⟨?_, ?_, ?_, ?_, fun j hj => linkOf_other (hlinks _ _ _ _) hj, rfl, rfl, rfl⟩
    · rw [linkOf_same (hlinks _ _ _ _)]
    · rw [linkOf_same (hlinks _ _ _ _)]
    · rw [linkOf_same (hlinks _ _ _ _)]
    · rw [rd_inc_same, rd_setLink, hrd]
      rfl
  · refine ⟨receiveCodeword s k q sy true n m, onUnit_on on hk _, ?_⟩
    have hp := prioOnly_healthInput (codewordDropped s k q n) 5 (portId (k / 16))
    have hlinks := codewordDropped_links s k q n
    rw [codeword_dropped hl]
    refine ⟨?_, ?_, ?_, ?_, PrioOnly.others (fun j hj => linkOf_other hlinks hj) hp, ?_, ?_, ?_⟩
    · rw [hp.keeps Link.rxSeq (fun _ => rfl), linkOf_same hlinks]
    · rw [hp.keeps Link.rxFreed (fun _ => rfl), linkOf_same hlinks]
    · rw [hp.keeps Link.state (fun _ => rfl), linkOf_same hlinks]
    · rw [rd_healthInput_quiet (lnk_quiet (by simp) hk), rd_codewordDropped hk]
    · simp [codewordDropped]
    · simp [codewordDropped]
    · simp [codewordDropped]
  · have he : ∃ d v, receiveControl s k cs =
        (s.setLink k { linkOf s k with creditTotal := cs.credit, lastTx := cs.txTime, lastRxAt := s.now, delays := d }).wr R.LNK_DELAY_DELAY k v :=
      ⟨_, _, if_neg (by simp [hl])⟩
    obtain ⟨d, v, he⟩ := he
    refine ⟨receiveControl s k cs, onUnit_on on hk _, ?_⟩
    rw [he]
    have hlinks (u : State) (l : Link) (f : Field) (v : Nat) : ((u.setLink k l).wr f k v).links = Tbl.set u.links k l := rfl
    refine ⟨?_, ?_, ?_, ?_, ?_, ?_, rfl, fun j hj => linkOf_other (hlinks _ _ _ _) hj⟩
    all_goals rw [linkOf_same (hlinks _ _ _ _)]
  · refine (onUnit_on on hk _).trans ?_
    unfold transmit
    dsimp only
    rw [if_neg (by simp [hl]), hp]
    dsimp only
    rw [if_pos hc]
  · refine (onUnit_on on hk _).trans ?_
    unfold transmit
    dsimp only
    rw [if_neg (by simp [hl]), hp, he]
    dsimp only
    rw [if_pos hc]
  · refine (onUnit_on on hk _).trans ?_
    unfold transmit
    dsimp only
    rw [if_neg (by simp [hl]), hp]
    dsimp only
    rw [if_neg (Nat.not_le.mpr hc)]
  · have ha := endWindow_calm hl h
    obtain ⟨hmem, hctxs, htmp⟩ := windowKept_frame s k
    have hkeep {β : Type} (π : Link → β) (hπ : ∀ l, π { l with asks := [] } = π l) : π (linkOf (endWindow s k) k) = π (linkOf (windowKept s k) k) :=
      (hπ _).symm.trans ((congrArg π ha.link).trans (hπ _))
    refine ⟨endWindow s k, onUnit_on on hk _, ?_, ?_, ?_, fun j hj => (ha.others j hj).trans (linkOf_other (windowKept_links s k) hj),
      ha.mem.trans hmem, ha.ctxs.trans hctxs, ha.tmp.trans htmp⟩
    · rw [hkeep Link.window (fun _ => rfl), linkOf_same (windowKept_links s k)]
    · rw [hkeep Link.windowPrev (fun _ => rfl), linkOf_same (windowKept_links s k)]
    · rw [hkeep Link.state (fun _ => rfl), linkOf_same (windowKept_links s k)]
  · refine (if_pos ⟨hk, hlane⟩).trans ((live_on on _).trans ?_)
    rw [show stepAsked s k lane up = _ from if_pos had]
  · refine (if_pos ⟨hk, hlane⟩).trans ((live_on on _).trans ?_)
    unfold stepAnswered
    dsimp only
    rw [ha]
  · refine (if_pos ⟨hk, hlane⟩).trans ((live_on on _).trans ?_)
    unfold judgeStep
    dsimp only
    rw [ha]
    dsimp only
    rw [if_neg (by simp [hacked]), if_neg (Nat.not_lt.mpr h)]
  · refine (if_pos ⟨hk, hlane⟩).trans ((live_on on _).trans ?_)
    unfold judgeStep
    dsimp only
    rw [ha]
    dsimp only
    rw [if_neg (by simp [hacked]), if_pos h]

end Sys2Proof.Machine

namespace Sys2Proof.Machine

open Sys2Proof

/-! ## Hearth and HBM -/

/-- Whether events, log entries and health inputs write no field at this place of any page. -/
def Field.still (f : Field) : Bool := decide (f.off ∈ [0x100, 0x10C, 0x110, 0x160] ∨ (f.off ∈ [0x104, 0x108] ∧ f.lo = 0))

theorem quiet_of_still {f : Field} (h : f.still = true) (i : Nat) : loud (f.key i) = false := by
  have h := of_decide_eq_true h
  simp only [List.mem_cons, List.not_mem_nil, or_false] at h
  unfold loud
  rw [decide_eq_false_iff_not]
  show ¬ (f.off < 0x100 ∨ _ ∧ (f.off = _ ∨ f.off = _) ∨ _ ∧ _ ≤ f.off ∧ f.off < _ ∨ f.lo = _ ∧ _ ≤ f.off ∧ f.off < _ ∧ _ ∨ _ ∧ f.off = _ ∨
    _ ∧ f.off = _ ∨ f.lo = _ ∧ f.off = _ ∧ _ ∨ f.lo = _ ∧ f.off = _ ∧ _ ∨ f.lo = _ ∧ f.off = _ ∧ _ ∨ _ ∧ (f.off = _ ∨ f.off = _ ∨ f.off = _))
  omega

theorem bitOf_or_two_pow (a n : Nat) : bitOf (a ||| 2 ^ n) n = true := by
  rw [bitOf_eq, Nat.testBit_or, Nat.testBit_two_pow_self, Bool.or_true]

/-! Stacks -/

theorem stackOf_congr {s t : State} (h : t.hbmStacks = s.hbmStacks) (n : Nat) : stackOf t n = stackOf s n := congrArg (fun l => Tbl.get Stack.init l n) h

theorem stackOf_setStack_same (s : State) (n : Nat) (x : Stack) : stackOf (s.setStack n x) n = x := tbl_get_set_same _ _ _ _

theorem stackOf_setStack_other (s : State) {n m : Nat} (x : Stack) (h : m ≠ n) : stackOf (s.setStack n x) m = stackOf s m := tbl_get_set_other _ _ _ h

/-- Only stack `n` may have changed, and its self-refresh has not. -/
structure StackKeeps (s t : State) (n : Nat) : Prop where
  others : ∀ m, m ≠ n → stackOf t m = stackOf s m
  refresh : (stackOf t n).selfRefresh = (stackOf s n).selfRefresh

theorem StackKeeps.of_stacks {s t : State} (h : t.hbmStacks = s.hbmStacks) (n : Nat) : StackKeeps s t n :=
  ⟨fun _ _ => stackOf_congr h _, congrArg Stack.selfRefresh (stackOf_congr h n)⟩

theorem StackKeeps.trans {s t u : State} {n : Nat} (h : StackKeeps s t n) (h' : StackKeeps t u n) : StackKeeps s u n :=
  ⟨fun m hm => (h'.others m hm).trans (h.others m hm), h'.refresh.trans h.refresh⟩

theorem flagChannel_set {s : State} {n c : Nat} (h : bitOf (stackOf s n).pending c = false) :
    (flagChannel s n c).hbmStacks = Tbl.set s.hbmStacks n { stackOf s n with pending := (stackOf s n).pending ||| 2 ^ c } := by
  unfold flagChannel
  dsimp only
  rw [if_neg (by simp [h]), raise_hbmStacks]
  split
  · rfl
  · rw [listMapout_hbmStacks]
    rfl

theorem flagChannel_flagged {s : State} {n c : Nat} (h : bitOf (stackOf s n).pending c = true) : flagChannel s n c = s := if_pos h

theorem flagChannel_flags (s : State) (n c : Nat) : bitOf (stackOf (flagChannel s n c) n).pending c = true := by
  cases h : bitOf (stackOf s n).pending c with
  | true => rw [flagChannel_flagged h, h]
  | false =>
    unfold stackOf
    rw [flagChannel_set h, tbl_get_set_same]
    exact bitOf_or_two_pow _ _

theorem flagChannel_keeps (s : State) (n c : Nat) : StackKeeps s (flagChannel s n c) n := by
  cases h : bitOf (stackOf s n).pending c with
  | true =>
    rw [flagChannel_flagged h]
    exact .of_stacks rfl n
  | false =>
    refine ⟨fun m hm => ?_, ?_⟩
    · unfold stackOf
      rw [flagChannel_set h, tbl_get_set_other _ _ _ hm]
    · unfold stackOf
      rw [flagChannel_set h, tbl_get_set_same]
      rfl

/-- A stack that leaves self-refresh (R197): no other stack changes. -/
theorem exitSelfRefresh_exits (s : State) (n bad : Nat) :
    (∀ m, m ≠ n → stackOf (exitSelfRefresh s n bad) m = stackOf s m) ∧ (stackOf (exitSelfRefresh s n bad) n).selfRefresh = false := by
  have hfold (u : State) (l : List Nat) (g : State → Nat → State) (hg : ∀ t c, (g t c).hbmStacks = t.hbmStacks) :
      StackKeeps u (l.foldl (fun s c => flagChannel (g s c) n c) u) n :=
    foldl_holds (P := fun t => StackKeeps u t n) (fun t c ht => ht.trans ((StackKeeps.of_stacks (hg t c) n).trans (flagChannel_keeps _ n c))) l u
      (.of_stacks rfl n)
  unfold exitSelfRefresh
  dsimp only
  split
  · next h => exact ⟨fun _ _ => rfl, by simpa using h⟩
  · split
    · exact ⟨fun m hm => stackOf_setStack_other _ _ hm, by rw [stackOf_setStack_same]⟩
    · obtain ⟨ho, hr⟩ := hfold (s.setStack n _) _ (fun s c => logErr s .HBM n 4 .DOMAIN (2 * c) 0 [0x3F, 0, 0]) (fun t c => logErr_hbmStacks _ _ _ _ _ _ _ _)
      exact ⟨fun m hm => (ho m hm).trans (stackOf_setStack_other _ _ hm), hr.trans (by rw [stackOf_setStack_same])⟩

/-! Hearth -/

/-- A counter of a Hearth that a scrub read does not count. -/
theorem rd_hearthCe {f : Field} (hs : f.still = true) (s : State) (d b a ctx i : Nat) :
    (hearthCe s d b a ctx).rd f i = (s.inc R.HRT_CE_CE d 1).rd f i := by
  have hq := quiet_of_still hs i
  unfold hearthCe
  dsimp only
  rw [rd_healthInput_quiet hq, rd_logErr_quiet hq, rd_raise_quiet hq]

theorem rd_hearthUe {f : Field} (hs : f.still = true) (s : State) (d b a ctx i : Nat) :
    (hearthUe s d b a ctx).rd f i = (s.inc R.HRT_UE_UE d 1).rd f i := by
  have hq := quiet_of_still hs i
  unfold hearthUe
  dsimp only
  rw [rd_healthInput_quiet hq, rd_ledgerEvent_quiet hq, rd_stepFault_quiet hq, rd_logErr_quiet hq, rd_raise_quiet hq]

/-- The state in which a scrub read has moved its bank on and counted the passes (R173). -/
def scrubMoved (s : State) (d b : Nat) : State :=
  { s with hscrub := Tbl.set s.hscrub (128 * d + b) (Tbl.get 0 s.hscrub (128 * d + b) + 1) }.inc R.HRT_SCRUB_PASS_PASSES d
    (hearthPasses { s with hscrub := Tbl.set s.hscrub (128 * d + b) (Tbl.get 0 s.hscrub (128 * d + b) + 1) } d - hearthPasses s d)

theorem hearthScrub_eq {s : State} {d : Nat} (b : Nat) (ecc : Ecc) (he : s.on R.HRT_CTL_SCRUB_EN d = true) (hs : hearthStalled s d = false)
    (hr : s.on R.DIE_STS_IN_RESET d = false) : hearthScrub s d b ecc = match ecc with
      | .ok => scrubMoved s d b
      | .correctable => hearthCe (scrubMoved s d b) d b (bankLine d b (Tbl.get 0 s.hscrub (128 * d + b) % 65536)) 0x3F
      | .uncorrectable => hearthUe (scrubMoved s d b) d b (bankLine d b (Tbl.get 0 s.hscrub (128 * d + b) % 65536)) 0x3F := if_neg (by simp [he, hs, hr])

theorem rd_scrubMoved {f : Field} (h : f.apart R.HRT_SCRUB_PASS_PASSES = true) (s : State) (d b i : Nat) : (scrubMoved s d b).rd f i = s.rd f i := by
  unfold scrubMoved
  rw [rd_inc_apart h]
  rfl

theorem scrubMoved_hscrub (s : State) (d b : Nat) :
    (scrubMoved s d b).hscrub = Tbl.set s.hscrub (128 * d + b) (Tbl.get 0 s.hscrub (128 * d + b) + 1) := rfl

theorem hearthScrub_effect {s : State} {d : Nat} (b : Nat) (ecc : Ecc) (he : s.on R.HRT_CTL_SCRUB_EN d = true) (hs : hearthStalled s d = false)
    (hr : s.on R.DIE_STS_IN_RESET d = false) : let t := hearthScrub s d b ecc
    t.hscrub = Tbl.set s.hscrub (128 * d + b) (Tbl.get 0 s.hscrub (128 * d + b) + 1) ∧
      t.rd R.HRT_CE_CE d = (if ecc = .correctable then min (2 ^ 64 - 1) (s.rd R.HRT_CE_CE d + 1) else s.rd R.HRT_CE_CE d) ∧
      t.rd R.HRT_UE_UE d = (if ecc = .uncorrectable then min (2 ^ 64 - 1) (s.rd R.HRT_UE_UE d + 1) else s.rd R.HRT_UE_UE d) := by
  have hce : (scrubMoved s d b).rd R.HRT_CE_CE d = s.rd R.HRT_CE_CE d := rd_scrubMoved (by decide) s d b d
  have hue : (scrubMoved s d b).rd R.HRT_UE_UE d = s.rd R.HRT_UE_UE d := rd_scrubMoved (by decide) s d b d
  have hh := scrubMoved_hscrub s d b
  dsimp only
  rw [hearthScrub_eq b ecc he hs hr]
  generalize scrubMoved s d b = u at *
  cases ecc with
  | ok => exact ⟨hh, hce, hue⟩
  | correctable =>
    refine ⟨by simpa using hh, ?_, ?_⟩
    · rw [rd_hearthCe (by decide), rd_inc_same, hce]
      rfl
    · rw [rd_hearthCe (by decide), rd_inc_apart (by decide), hue]
      rfl
  | uncorrectable =>
    refine ⟨by simpa using hh, ?_, ?_⟩
    · rw [rd_hearthUe (by decide), rd_inc_apart (by decide), hce]
      rfl
    · rw [rd_hearthUe (by decide), rd_inc_same, hue]
      rfl

/-! Reads of HBM -/

theorem rd_reportUe {f : Field} (hs : f.still = true) (s : State) (a ctx i : Nat) : (reportUe s a ctx).rd f i = s.rd f i := by
  have hq := quiet_of_still hs i
  have ho : f.off ≠ 0x120 ∧ f.off ≠ 0x168 ∧ f.off ≠ 0x170 := by
    have h := of_decide_eq_true hs
    simp only [List.mem_cons, List.not_mem_nil, or_false] at h
    omega
  obtain ⟨h1, h2, h3⟩ := ho
  unfold reportUe
  dsimp only
  rw [rd_healthInput_quiet hq, rd_ledgerEvent_quiet hq, rd_stepFault_quiet hq, rd_logErr_quiet hq, rd_wr_apart (decide_eq_true (.inl h3)),
    rd_wr_apart (decide_eq_true (.inl h2)), rd_wr_apart (decide_eq_true (.inl h2)), rd_wr_apart (decide_eq_true (.inl h2)),
    rd_wr_apart (decide_eq_true (.inl h2)), rd_raise_quiet hq, rd_inc_apart (decide_eq_true (.inl h1))]

/-- The vote that a module has sent is not touched by a step fault. -/
theorem stepFault_vote (s : State) (r : Reason) : (stepFault s r).attempt.vote = s.attempt.vote := by
  unfold stepFault
  dsimp only
  split <;> simp

theorem reportUe_vote (s : State) (a ctx : Nat) : (reportUe s a ctx).attempt.vote = s.attempt.vote := by
  unfold reportUe
  dsimp only
  rw [healthInput_attempt, ledgerEvent_attempt, stepFault_vote, logErr_attempt, State.wr_attempt, State.wr_attempt, State.wr_attempt, State.wr_attempt,
    State.wr_attempt, raise_attempt, State.inc_attempt]

theorem ueRegion_reportUe (s : State) (a ctx b : Nat) : ueRegion (reportUe s a ctx) b = ueRegion s b := by
  unfold ueRegion
  rw [map_of_kept (reportUe_kept _ _ _), reportUe_tmp]

/-- Where an address lies depends on the map and the stacks alone. -/
theorem pcOf_congr {s t : State} (hm : t.map = s.map) (hs : t.hbmStacks = s.hbmStacks) (a : Nat) : pcOf t a = pcOf s a := by
  have hu (n p : Nat) : pcUsable t n p = pcUsable s n p := by
    unfold pcUsable
    rw [stackOf_congr hs]
  unfold pcOf hbmPlace pkgList dlList
  simp only [hm, hu]

theorem pcOf_reportUe (s : State) (a ctx b : Nat) : pcOf (reportUe s a ctx) b = pcOf s b :=
  pcOf_congr (map_of_kept (reportUe_kept _ _ _)) (reportUe_hbmStacks _ _ _) b

/-! What an uncorrectable sector of each region leads to (Table 7.3) -/

theorem ueAction_hold {s : State} {a : Nat} (ctx : Nat) (h : (ueRegion s a).1 = 4) : ueAction s a ctx = loseHold s a ctx := by
  unfold ueAction
  rcases hr : ueRegion s a with ⟨r, b, w⟩
  rw [hr] at h
  dsimp only at h
  subst h
  rfl

theorem ueAction_ward {s : State} {a : Nat} (ctx : Nat) (h : (ueRegion s a).1 = 5) : ueAction s a ctx = loseWardHold s a ctx := by
  unfold ueAction
  rcases hr : ueRegion s a with ⟨r, b, w⟩
  rw [hr] at h
  dsimp only at h
  subst h
  rfl

theorem ueAction_active {s : State} {a : Nat} (ctx : Nat) (h0 : 0 < (ueRegion s a).1) (h4 : (ueRegion s a).1 < 4) (hw : (ueRegion s a).2.2 = true) :
    ueAction s a ctx = healOrHold s a := by
  unfold ueAction
  rcases hr : ueRegion s a with ⟨r, b, w⟩
  rw [hr] at h0 h4 hw
  dsimp only at h0 h4 hw
  subst hw
  obtain rfl | rfl | rfl : r = 1 ∨ r = 2 ∨ r = 3 := by omega
  all_goals rfl

theorem ueAction_plain {s : State} {a : Nat} (ctx : Nat) (h : (ueRegion s a).1 = 0 ∨ 5 < (ueRegion s a).1 ∨ ((ueRegion s a).1 < 4 ∧ (ueRegion s a).2.2 = false)) :
    ueAction s a ctx = s := by
  unfold ueAction
  rcases hr : ueRegion s a with ⟨r, b, w⟩
  rw [hr] at h
  dsimp only at h
  rcases h with rfl | h | ⟨h, rfl⟩
  · rfl
  · obtain ⟨n, rfl⟩ : ∃ n, r = n + 6 := ⟨r - 6, by omega⟩
    rfl
  · obtain rfl | rfl | rfl | rfl : r = 0 ∨ r = 1 ∨ r = 2 ∨ r = 3 := by omega
    all_goals rfl

theorem loseHold_loses (s : State) (a ctx : Nat) : (loseHold s a ctx).tmp.holdValid = false ∧
    (s.tmp.holdValid = true → s.tmp.phase = .idle → (loseHold s a ctx).tmp.phase = .stopped) := by
  unfold loseHold
  cases hv : s.tmp.holdValid with
  | false => exact ⟨by rw [if_pos (by simp)]; exact hv, fun h => by simp at h⟩
  | true =>
    have ht := holdLost_tmp { s with tmp := { s.tmp with holdValid := false } } a ctx .MODULE
    rw [if_neg (by simp)]
    dsimp only
    generalize holdLost { s with tmp := { s.tmp with holdValid := false } } a ctx .MODULE = u at ht ⊢
    split
    · exact ⟨congrArg Tmp.holdValid ht, fun _ _ => rfl⟩
    · next hn => exact ⟨congrArg Tmp.holdValid ht, fun _ hp => absurd (.inl ((congrArg Tmp.phase ht).trans hp)) hn⟩

theorem loseWardHold_tmp (s : State) (a ctx : Nat) : (loseWardHold s a ctx).tmp = { s.tmp with wardHoldValid := false } := by
  unfold loseWardHold
  split
  · rw [holdLost_tmp]
  · next hv => rw [← Bool.eq_false_iff.mpr hv]

/-- A heal of a row starts where it may run and none is under way (R189). -/
theorem healOrHold_starts {u : State} {a : Nat} (hfree : healFree u = true) (hh : u.heals = [])
    (hen : u.on R.HBM_CTL_HEAL_EN (pcOf u (rowOf a)).1 = true) : (healOrHold u a).heals = [⟨rowOf a, false⟩] ∧ (healOrHold u a).tmp = u.tmp := by
  unfold healOrHold startHeal
  dsimp only
  rw [if_neg (by simp [hh]), if_pos hfree, if_neg (by simp [hen]), hh]
  split
  · rw [queueAll_heals, queueAll_tmp]
    exact ⟨rfl, rfl⟩
  · exact ⟨rfl, rfl⟩

/-- An uncorrectable sector of the hold loses the hold (R188). -/
theorem hbmUe_hold {s : State} {a : Nat} (ctx : Nat) (h : (ueRegion s a).1 = 4) : (hbmUe s a ctx).tmp.holdValid = false ∧
    (s.tmp.holdValid = true → s.tmp.phase = .idle → (hbmUe s a ctx).tmp.phase = .stopped) := by
  have hl := loseHold_loses (reportUe s a ctx) a ctx
  rw [reportUe_tmp] at hl
  unfold hbmUe
  rw [ueAction_hold ctx (by rw [ueRegion_reportUe]; exact h)]
  exact hl

theorem hbmUe_ward {s : State} {a : Nat} (ctx : Nat) (h : (ueRegion s a).1 = 5) : (hbmUe s a ctx).tmp = { s.tmp with wardHoldValid := false } := by
  unfold hbmUe
  rw [ueAction_ward ctx (by rw [ueRegion_reportUe]; exact h), loseWardHold_tmp, reportUe_tmp]

/-- An uncorrectable sector of an ACTIVE bank starts a heal of its row where one may run (R189). -/
theorem hbmUe_heals {s : State} {a : Nat} (ctx : Nat) (hp : s.tmp.phase = .idle) (hv : s.attempt.vote = none) (hh : s.heals = [])
    (hen : s.on R.HBM_CTL_HEAL_EN (pcOf s (rowOf a)).1 = true) (h0 : 0 < (ueRegion s a).1) (h4 : (ueRegion s a).1 < 4) (hw : (ueRegion s a).2.2 = true) :
    (hbmUe s a ctx).heals = [⟨rowOf a, false⟩] ∧ (hbmUe s a ctx).tmp = s.tmp := by
  have hfree : healFree (reportUe s a ctx) = true := by
    unfold healFree
    rw [reportUe_tmp, reportUe_vote, hp, hv]
    rfl
  have hon : (reportUe s a ctx).on R.HBM_CTL_HEAL_EN (pcOf (reportUe s a ctx) (rowOf a)).1 = true := by
    rw [pcOf_reportUe]
    exact (congrArg (· == 1) (rd_reportUe (by decide) s a ctx _)).trans hen
  have hs := healOrHold_starts hfree ((reportUe_heals _ _ _).trans hh) hon
  rw [reportUe_tmp] at hs
  unfold hbmUe
  rw [ueAction_active ctx (by rw [ueRegion_reportUe]; exact h0) (by rw [ueRegion_reportUe]; exact h4) (by rw [ueRegion_reportUe]; exact hw)]
  exact hs

theorem hbmUe_plain {s : State} {a : Nat} (ctx : Nat) (h : (ueRegion s a).1 = 0 ∨ 5 < (ueRegion s a).1 ∨ ((ueRegion s a).1 < 4 ∧ (ueRegion s a).2.2 = false)) :
    (hbmUe s a ctx).tmp = s.tmp ∧ (hbmUe s a ctx).heals = s.heals := by
  unfold hbmUe
  rw [ueAction_plain ctx (by rw [ueRegion_reportUe]; exact h), reportUe_tmp, reportUe_heals]
  exact ⟨rfl, rfl⟩

/-! Parity errors -/

/-- A parity error beyond the retry limit (R191): the failed command is counted and logged. -/
def parityFailed (s : State) (a ctx : Nat) : State :=
  logErr (raise (s.inc R.HBM_PAR_FAIL_PAR_FAIL (pcOf s a).1 1) .HBM (pcOf s a).1 7) .HBM (pcOf s a).1 2
    (stepClass (raise (s.inc R.HBM_PAR_FAIL_PAR_FAIL (pcOf s a).1 1) .HBM (pcOf s a).1 7) .INFO) (pcOf s a).2 (a / 32 * 32)
    [requester ctx, (ueRegion s a).1 + 16 * b2n (ueRegion s a).2.1 + 32 * b2n (ueRegion s a).2.2, 0]

/-- The channel of a failed command is flagged, channel 0 apart (R191). -/
def parityFlagged (s : State) (a ctx : Nat) : State :=
  if (pcOf s a).2 / 2 = 0 then parityFailed s a ctx else flagChannel (parityFailed s a ctx) (pcOf s a).1 ((pcOf s a).2 / 2)

theorem parityError_fails {s : State} {a n : Nat} (w : Bool) (ctx : Nat) (h0 : 0 < n) (h : clampNat 1 7 (s.rd R.HBM_CTL_RETRY_LIMIT (pcOf s a).1) < n) :
    parityError s a w n ctx = hbmUe (if w then (parityFlagged s a ctx).undefine (a / 32 * 32) 32 else parityFlagged s a ctx) a ctx := by
  unfold parityError
  dsimp only
  rw [if_neg (Nat.pos_iff_ne_zero.mp h0), if_neg (Nat.not_le.mpr h)]
  rfl

theorem parityFlagged_mem (s : State) (a ctx : Nat) : (parityFlagged s a ctx).mem = s.mem := by
  unfold parityFlagged parityFailed
  split <;> simp

theorem parityFlagged_pending {s : State} {a : Nat} (ctx : Nat) (h : 2 ≤ (pcOf s a).2) :
    bitOf (stackOf (parityFlagged s a ctx) (pcOf s a).1).pending ((pcOf s a).2 / 2) = true := by
  unfold parityFlagged
  rw [if_neg (by omega)]
  exact flagChannel_flags _ _ _

theorem hearthInit_eq {s : State} {d : Nat} (hi : s.on R.HRT_STS_INIT_DONE d = false) (hr : s.on R.DIE_STS_IN_RESET d = false)
    (hrel : s.smc.released = true) :
    hearthInit s d = refreshReady (raise ((s.zero (hearthBase d) hearthSize).wr R.HRT_STS_INIT_DONE d 1) .HRT d 6) := if_neg (by simp [hi, hr, hrel])

theorem rd_refreshDie_init (s : State) (d n : Nat) : (refreshDie s d).rd R.HRT_STS_INIT_DONE n = s.rd R.HRT_STS_INIT_DONE n := by
  have hq : loud (R.HRT_STS_INIT_DONE.key n) = false := quiet_of_still (by decide) n
  unfold refreshDie
  simp (disch := first | exact hq | decide) only [rd_ite, rd_raise_quiet, rd_wr_apart, ite_self]

theorem rd_refreshReady_init (s : State) (n : Nat) : (refreshReady s).rd R.HRT_STS_INIT_DONE n = s.rd R.HRT_STS_INIT_DONE n := by
  have hq : loud (R.HRT_STS_INIT_DONE.key n) = false := quiet_of_still (by decide) n
  have hfold : ((List.range 10).foldl refreshDie s).rd R.HRT_STS_INIT_DONE n = s.rd R.HRT_STS_INIT_DONE n :=
    rd_foldl_keeps (g := refreshDie) (fun d t => rd_refreshDie_init t d n) _ s
  have hx (u : State) (x : Smc) (f : Field) (i : Nat) : ({ u with smc := x } : State).rd f i = u.rd f i := rfl
  have hh (u : State) (x : HostLink) (f : Field) (i : Nat) : ({ u with host := x } : State).rd f i = u.rd f i := rfl
  have hscores (u : State) : (rebuildScores u).rd R.HRT_STS_INIT_DONE n = u.rd R.HRT_STS_INIT_DONE n := rebuildScores_quiet _ _ hq
  have hend (u : State) : (bringupEnd u).rd R.HRT_STS_INIT_DONE n = u.rd R.HRT_STS_INIT_DONE n := by
    unfold bringupEnd
    dsimp only
    rw [hh, rd_raise_quiet hq, rd_wr_apart (by decide), rd_wr_apart (by decide)]
  have hchip (u : State) : (chipTrained u).rd R.HRT_STS_INIT_DONE n = u.rd R.HRT_STS_INIT_DONE n := by
    unfold chipTrained
    rw [rd_ite, rd_wr_apart (by decide), ite_self]
  have hdone (u : State) : (bringupDone u).rd R.HRT_STS_INIT_DONE n = u.rd R.HRT_STS_INIT_DONE n := by
    unfold bringupDone
    split
    · exact (hend _).trans ((hx _ _ _ _).trans ((rd_wr_apart (by decide) _ _ _ _).trans (hscores u)))
    · rfl
  exact (hdone _).trans ((hchip _).trans hfold)

theorem hearthInit_effect {s : State} {d : Nat} (hi : s.on R.HRT_STS_INIT_DONE d = false) (hr : s.on R.DIE_STS_IN_RESET d = false)
    (hrel : s.smc.released = true) : let t := hearthInit s d
    t.rd R.HRT_STS_INIT_DONE d = 1 ∧ (∀ a, hearthBase d ≤ a → a < hearthBase d + hearthSize → t.mem.byte a = 0) ∧
      (∀ a, a < hearthBase d ∨ hearthBase d + hearthSize ≤ a → t.mem.byte a = s.mem.byte a) := by
  have hm : (hearthInit s d).mem = s.mem.blankRange (hearthBase d) hearthSize none := by
    rw [hearthInit_eq hi hr hrel, refreshReady_mem, raise_mem]
    rfl
  refine ⟨?_, fun a h1 h2 => ?_, fun a h => ?_⟩
  · rw [hearthInit_eq hi hr hrel, rd_refreshReady_init, rd_raise_quiet (quiet_of_still (by decide) d), rd_wr_same]
    rfl
  · rw [hm]
    exact byte_blankRange_zero _ ⟨h1, h2⟩
  · rw [hm]
    exact byte_blankRange_other _ _ h

theorem hbmCe_counts (s : State) (a : Nat) :
    (hbmCe s a).rd R.HBM_CE_CE (pcOf s a).1 = min (2 ^ 64 - 1) (s.rd R.HBM_CE_CE (pcOf s a).1 + 1) := by
  have hq : loud (R.HBM_CE_CE.key (pcOf s a).1) = false := quiet_of_still (by decide) _
  unfold hbmCe
  dsimp only
  rw [rd_healthInput_quiet hq, rd_raise_quiet hq, rd_inc_same]
  rfl

/-- A parity error within the retry limit (R191). -/
theorem parityError_retries {s : State} {a n : Nat} (w : Bool) (ctx : Nat) (h0 : 0 < n) (h : n ≤ clampNat 1 7 (s.rd R.HBM_CTL_RETRY_LIMIT (pcOf s a).1)) :
    parityError s a w n ctx = healthInput (raise (s.inc R.HBM_PAR_RETRY_PAR_RETRY (pcOf s a).1 1) .HBM (pcOf s a).1 6) 2 (stackId (pcOf s a).1) := by
  unfold parityError
  dsimp only
  rw [if_neg (Nat.pos_iff_ne_zero.mp h0), if_pos h]

theorem parityError_mem {s : State} {a n : Nat} (w : Bool) (ctx : Nat) (h0 : 0 < n) (h : clampNat 1 7 (s.rd R.HBM_CTL_RETRY_LIMIT (pcOf s a).1) < n) :
    (w = false → (parityError s a w n ctx).mem = s.mem) ∧
      ∀ b, b < a / 32 * 32 ∨ a / 32 * 32 + 32 ≤ b → (parityError s a w n ctx).mem.byte b = s.mem.byte b := by
  rw [parityError_fails w ctx h0 h, hbmUe_mem]
  cases w with
  | false =>
    rw [if_neg (by simp), parityFlagged_mem]
    exact ⟨fun _ => rfl, fun _ _ => rfl⟩
  | true =>
    rw [if_pos rfl]
    refine ⟨fun h => by simp at h, fun b hb => ?_⟩
    show ((parityFlagged s a ctx).mem.blankRange _ _ _).byte b = _
    rw [byte_blankRange_other _ _ hb, parityFlagged_mem]

theorem parityError_flags {s : State} {a n : Nat} (w : Bool) (ctx : Nat) (h0 : 0 < n) (h : clampNat 1 7 (s.rd R.HBM_CTL_RETRY_LIMIT (pcOf s a).1) < n)
    (hp : 2 ≤ (pcOf s a).2) : bitOf (stackOf (parityError s a w n ctx) (pcOf s a).1).pending ((pcOf s a).2 / 2) = true := by
  have hu : (parityError s a w n ctx).hbmStacks = (parityFlagged s a ctx).hbmStacks := by
    rw [parityError_fails w ctx h0 h, hbmUe_hbmStacks]
    split <;> rfl
  rw [stackOf_congr hu]
  exact parityFlagged_pending ctx hp

theorem readTemp_effect (s : State) (n c : Nat) : stackOf (readTemp s n c) n = { stackOf s n with hot := decide (85 < c) } ∧
    (readTemp s n c).rd R.HBM_TEMP_TEMP n = min 255 c % 256 ∧ ∀ m, m ≠ n → stackOf (readTemp s n c) m = stackOf s m := by
  have hs : (readTemp s n c).hbmStacks = Tbl.set s.hbmStacks n { stackOf s n with hot := decide (85 < c) } := raiseIf_hbmStacks _ _ _ _ _
  refine ⟨?_, ?_, fun m hm => ?_⟩
  · unfold stackOf
    rw [hs, tbl_get_set_same]
    rfl
  · unfold readTemp
    dsimp only
    rw [rd_raiseIf_quiet (quiet_of_still (by decide) n)]
    exact rd_wr_same _ _ _ _
  · unfold stackOf
    rw [hs, tbl_get_set_other _ _ _ hm]

theorem patrolScrub_stacks {s : State} {n pc : Nat} (ecc : Ecc) (he : s.on R.HBM_CTL_SCRUB_EN n = true) (ht : (stackOf s n).trained = true)
    (hr : (stackOf s n).selfRefresh = false) (hu : pcUsable s n pc = true) : (patrolScrub s n pc ecc).hbmStacks =
      Tbl.set s.hbmStacks n { stackOf s n with scrub := Tbl.set (stackOf s n).scrub pc (Tbl.get 0 (stackOf s n).scrub pc + 1) } := by
  unfold patrolScrub
  dsimp only
  rw [if_neg (by simp [he, ht, hr, hu]), hbmOutcome_hbmStacks, State.inc_hbmStacks]
  rfl

theorem exitDie_stacks {s : State} {d : Nat} (b0 b1 : Nat) (hr : s.on R.DIE_STS_IN_RESET d = false) (hrel : s.smc.released = true) : let t := exitDie s d b0 b1
    (stackOf t (2 * d)).selfRefresh = false ∧ (stackOf t (2 * d + 1)).selfRefresh = false ∧
      ∀ m, m ≠ 2 * d → m ≠ 2 * d + 1 → stackOf t m = stackOf s m := by
  have he : (exitDie s d b0 b1).hbmStacks = (exitSelfRefresh (exitSelfRefresh s (2 * d) b0) (2 * d + 1) b1).hbmStacks := by
    unfold exitDie
    rw [if_neg (by simp [hr, hrel]), refreshReady_hbmStacks]
  obtain ⟨ho0, h0⟩ := exitSelfRefresh_exits s (2 * d) b0
  obtain ⟨ho1, h1⟩ := exitSelfRefresh_exits (exitSelfRefresh s (2 * d) b0) (2 * d + 1) b1
  refine ⟨?_, ?_, fun m hm hm' => ?_⟩
  · rw [stackOf_congr he, ho1 (2 * d) (by omega)]
    exact h0
  · rw [stackOf_congr he]
    exact h1
  · rw [stackOf_congr he, ho1 m hm', ho0 m hm]

/-- Settles O26. -/
theorem hearthAndHbmAreReadAndKept : Obligations.HearthAndHbmAreReadAndKept := by
  unfold Obligations.HearthAndHbmAreReadAndKept
  intro s on
  have hread (a ctx : Nat) (ecc : Ecc) (hs : servedHbm s a = true) : exec (.hbmRead a ecc ctx) s = .next (hbmOutcome s (direct s a) ctx ecc) :=
    (live_on on _).trans (by rw [if_pos hs])
  have hparity (a n ctx : Nat) (w : Bool) (hs : servedHbm s a = true) :
      exec (.hbmParityError a w n ctx) s = .next (parityError s (direct s a) w n ctx) := (live_on on _).trans (by rw [if_pos hs])
  refine ⟨fun d b ecc hd hb he hs hr => ?_, fun d hd hi hr hrel => ?_, fun d q hd => onUnit_on on hd _, fun a ctx hs => hread a ctx .ok hs, fun a ctx hs => ?_,
    fun a ctx hs => ?_, fun a w n ctx hs hn => ⟨fun hlim => ?_, fun hlim => ?_⟩, fun n pc b hn hpc ht hr => ?_, fun n c hn => ?_,
    fun n pc ecc hn hpc he ht hr hu => ?_, fun d b0 b1 hd hr hrel => ?_⟩
  · obtain ⟨hh, hce, hue⟩ := hearthScrub_effect b ecc he hs hr
    exact ⟨hearthScrub s d b ecc, (if_pos ⟨hd, hb⟩).trans (live_on on _), hh, hce, hue, hearthScrub_mem _ _ _ _, hearthScrub_ctxs _ _ _ _⟩
  · obtain ⟨hdone, hzero, hother⟩ := hearthInit_effect hi hr hrel
    exact ⟨hearthInit s d, onUnit_on on hd _, hdone, hzero, hother, hearthInit_ctxs _ _, hearthInit_tmp _ _⟩
  · exact ⟨hbmCe s (direct s a), hread a ctx .correctable hs, hbmCe_counts _ _, hbmCe_mem _ _, hbmCe_ctxs _ _, hbmCe_tmp _ _⟩
  · exact ⟨hbmUe s (direct s a) ctx, hread a ctx .uncorrectable hs, hbmUe_mem _ _ _, hbmUe_ctxs _ _ _, fun h => (hbmUe_hold ctx h).1,
      fun h => (hbmUe_hold ctx h).2, hbmUe_ward ctx, fun hp hv hh hen h0 h4 hw => hbmUe_heals ctx hp hv hh hen h0 h4 hw, hbmUe_plain ctx⟩
  · refine ⟨parityError s (direct s a) w n ctx, hparity a n ctx w hs, ?_⟩
    rw [parityError_retries w ctx hn hlim]
    simp
  · obtain ⟨hm, hb⟩ := parityError_mem w ctx hn hlim
    exact ⟨parityError s (direct s a) w n ctx, hparity a n ctx w hs, parityError_ctxs _ _ _ _ _, hm, hb, parityError_flags w ctx hn hlim⟩
  · refine (if_pos ⟨hn, hpc⟩).trans ((live_on on _).trans ?_)
    rw [if_pos (by simp [ht, hr])]
  · obtain ⟨hst, htemp, hother⟩ := readTemp_effect s n c
    exact ⟨readTemp s n c, onUnit_on on hn _, hst, htemp, hother, readTemp_mem _ _ _, readTemp_ctxs _ _ _, readTemp_tmp _ _ _⟩
  · have hst := patrolScrub_stacks ecc he ht hr hu
    refine ⟨patrolScrub s n pc ecc, (if_pos ⟨hn, hpc⟩).trans (live_on on _), ?_, fun m hm => ?_, patrolScrub_mem _ _ _ _, patrolScrub_ctxs _ _ _ _⟩
    · unfold stackOf
      rw [hst, tbl_get_set_same]
      rfl
    · unfold stackOf
      rw [hst, tbl_get_set_other _ _ _ hm]
  · obtain ⟨h0, h1, hother⟩ := exitDie_stacks b0 b1 hr hrel
    exact ⟨exitDie s d b0 b1, onUnit_on on hd _, h0, h1, hother, exitDie_mem _ _ _ _, exitDie_ctxs _ _ _ _, exitDie_tmp _ _ _ _⟩

end Sys2Proof.Machine

namespace Sys2Proof.Machine

open Sys2Proof

/-! ## Heals -/

theorem endHeal_unreadable {s : State} {row : Nat} (bs : List Byte) (h : s.heals.any (fun h => h.row == row && !h.held) = true)
    (ha : accessBlocked s row 4096 = none) :
    endHeal s row (some bs) .uncorrectable = failHeal (reportUe (s.store row (bs.take 4096)) row 0x3F) row := by
  unfold endHeal
  rw [if_neg (by simp [h]), if_neg (by simp [ha])]

theorem endHeal_lost {s : State} {row : Nat} (b : Ecc) (h : s.heals.any (fun h => h.row == row && !h.held) = true) :
    endHeal s row none b = failHeal s row := by
  unfold endHeal
  rw [if_neg (by simp [h])]
  dsimp only
  exact ite_self _

/-- A heal is over with its row written (R189). -/
def healEnded (u : State) (row n : Nat) : State :=
  raise ({ u with heals := u.heals.filter (fun h => h.row != row) }.inc R.HBM_HEAL_HEALED n 1) .HBM n 8

theorem healEnded_frame (u : State) (row n : Nat) : (healEnded u row n).mem = u.mem ∧ (healEnded u row n).heals = u.heals.filter (fun h => h.row != row) ∧
    (healEnded u row n).tmp = u.tmp ∧ (healEnded u row n).ctxs = u.ctxs := by
  simp [healEnded]

theorem healEnded_counts (u : State) (row n : Nat) :
    (healEnded u row n).rd R.HBM_HEAL_HEALED n = min (2 ^ 32 - 1) (u.rd R.HBM_HEAL_HEALED n + 1) := by
  unfold healEnded
  rw [rd_raise_quiet (quiet_of_still (by decide) n), rd_inc_same]
  rfl

theorem endHeal_writes {s : State} {row : Nat} {bs : List Byte} {b : Ecc} (h : s.heals.any (fun h => h.row == row && !h.held) = true)
    (ha : accessBlocked s row 4096 = none) (hl : bs.length = 4096) (hb : b ≠ .uncorrectable) :
    endHeal s row (some bs) b = healEnded (if b = .correctable then hbmCe (s.store row bs) row else s.store row bs) row (pcOf s row).1 := by
  unfold endHeal
  rw [if_neg (by simp [h]), if_neg (by simp [ha])]
  cases b with
  | uncorrectable => contradiction
  | ok =>
    dsimp only
    rw [if_neg (by simp [hl])]
    rfl
  | correctable =>
    dsimp only
    rw [if_neg (by simp [hl])]
    rfl

/-- A failed heal (R190): STOPPED, and the heal is over. -/
theorem failHeal_fails (s : State) (row : Nat) : (failHeal s row).heals = s.heals.filter (fun h => h.row != row) ∧ (failHeal s row).tmp.phase = .stopped := by
  refine ⟨?_, rfl⟩
  unfold failHeal
  dsimp only
  rw [enterStopped_heals, healthInput_heals, ledgerEvent_heals, logErr_heals, raise_heals, State.inc_heals]

/-! ## Gathers -/

/-- Two states that differ in their gathers alone. -/
def GathersApart (s t : State) : Prop := ∃ g, t = { s with gathers := g }

theorem gathersApart_countBytes {s t : State} (h : GathersApart s t) (w : Bool) (a n : Nat) : GathersApart (countBytes s w a n) (countBytes t w a n) := by
  obtain ⟨g, rfl⟩ := h
  have hw : windowOf { s with gathers := g } (direct { s with gathers := g } a) = windowOf s (direct s a) := rfl
  unfold countBytes
  rw [hw]
  cases windowOf s (direct s a) <;> exact ⟨g, rfl⟩

theorem gathersApart_move {s t : State} (h : GathersApart s t) (src dst : Nat) (is : List Nat) :
    GathersApart (moveGather s src dst is) (moveGather t src dst is) := by
  unfold moveGather
  generalize is.zipIdx = l
  induction l generalizing s t with
  | nil => exact h
  | cons x l ih =>
    refine ih ?_
    obtain ⟨g, hg⟩ := gathersApart_countBytes (s := s.inc R.HBM_GATHER_GATHER (pcOf s (src + 32 * x.1)).1 1)
      (t := t.inc R.HBM_GATHER_GATHER (pcOf t (src + 32 * x.1)).1 1) (by obtain ⟨g, rfl⟩ := h; exact ⟨g, rfl⟩) false (src + 32 * x.1) 32
    refine gathersApart_countBytes ?_ true (dst + 32 * x.2) 32
    rw [hg]
    exact ⟨g, rfl⟩

theorem gatherRec_launches {s : State} {c : Nat} {r : Rec} {base limit count index dest : Nat} (hb : base = r.op64 8) (hl : limit = r.op32 0x10 + 1)
    (hc : count = bits (r.op32 0x14) 0 20 + 1) (hi : index = r.addr s c 0x18) (hd : dest = r.addr s c 0x20)
    (h : gatherRefused s c (homeDie s c) base limit index count dest = none)
    (hu : unservable s c r ((index, 4 * count) :: (dest, 32 * count) :: (gatherIndex s.mem index count).map (fun i => (base + 32 * i, 32))) = none) :
    gatherRec s c r = releaseCur { (launch s c r .gather 1 (direct s base) dest count false).2 with
      gathers := (launch s c r .gather 1 (direct s base) dest count false).2.gathers ++ [(s.nextFlight, gatherIndex s.mem index count)] } c := by
  subst hb hl hc hi hd
  unfold gatherRec
  dsimp only
  rw [h]
  dsimp only
  rw [hu]
  rfl

theorem endGather_completes {s : State} {id : Nat} {f : Flight} {is : List Nat} (hf : flightOf s id = some f) (hi : is = Tbl.get [] s.gathers id)
    (ha : f.abandoned = false) (hl : f.lost = false) (hw : f.work = .gather) (hh : waitsHearth s f.dst (32 * f.len) = false)
    (hb : (is.map (fun i => (f.src + 32 * i, 32)) ++ [(f.dst, 32 * f.len)]).findSome? (fun (a : Nat × Nat) => (accessBlocked s a.1 a.2).map (·, a.1)) = none) :
    endGather s id = completeFlight (moveGather { s with gathers := s.gathers.filter (fun e => e.1 != id) } f.src f.dst is) id f := by
  subst hi
  unfold endGather
  rw [hf]
  dsimp only
  rw [if_neg (by simp [ha, hl, hw, hh]), hb]

theorem completeFlight_syn (u : State) (id : Nat) {f : Flight} (h : f.record.sigDone = false) : (completeFlight u id f).syn = u.syn := by
  unfold completeFlight
  rw [settle_syn, completeRec_plain h, raiseIf_syn, State.inc_syn]
  rfl

/-! ## Training -/

theorem foldl_trainStack_keeps {β : Type} (π : State → β) (h : ∀ s n r, π (trainStack s n r) = π s) (rs : List StackReport) (s : State) :
    π (rs.zipIdx.foldl (fun s x => trainStack s x.2 x.1) s) = π s :=
  foldl_keeps π (g := fun s (x : StackReport × Nat) => trainStack s x.2 x.1) (fun x s => h s x.2 x.1) _ s

/-- The stacks as they are trained (Table 7.2). -/
def stacksTrained (s : State) (rs : List StackReport) : State := rs.zipIdx.foldl (fun s x => trainStack s x.2 x.1) s

theorem trainAll_eq (s : State) (rs : List StackReport) (seq : Nat) : trainAll s rs seq =
    { (if (stackOf (stacksTrained s rs) 0).failed then { stacksTrained s rs with
        hbmStacks := (stacksTrained s rs).hbmStacks.map (fun e => (e.1, { e.2 with trained := false })) }
      else (stacksTrained s rs).zero 0 (hearthBase 0)) with map := AddrMap.coldDefault seq, heals := [] } := rfl

/-- Taking stacks out of service leaves which of them failed. -/
theorem untrained_failed (l : Tbl Stack) (n : Nat) :
    (Tbl.get Stack.init (l.map (fun e => (e.1, { e.2 with trained := false }))) n).failed = (Tbl.get Stack.init l n).failed := by
  induction l with
  | nil => rfl
  | cons e l ih =>
    rw [List.map_cons, Tbl.get, Tbl.get]
    by_cases h : e.1 = n
    · rw [if_pos h, if_pos h]
    · rw [if_neg h, if_neg h]
      exact ih

theorem trainAll_failed (s : State) (rs : List StackReport) (seq : Nat) :
    (stackOf (trainAll s rs seq) 0).failed = (stackOf (stacksTrained s rs) 0).failed := by
  rw [trainAll_eq]
  cases h : (stackOf (stacksTrained s rs) 0).failed with
  | false =>
    rw [if_neg (by simp)]
    exact h
  | true =>
    rw [if_pos rfl]
    exact (untrained_failed _ 0).trans h

theorem trainAll_frame (s : State) (rs : List StackReport) (seq : Nat) :
    (trainAll s rs seq).tmp = s.tmp ∧ (trainAll s rs seq).ctxs = s.ctxs ∧
      (trainAll s rs seq).rd R.SMC_BRINGUP_STAGE 0 = s.rd R.SMC_BRINGUP_STAGE 0 ∧
      (trainAll s rs seq).mem = if (stackOf (trainAll s rs seq) 0).failed then s.mem else s.mem.blankRange 0 (hearthBase 0) none := by
  have htmp : (stacksTrained s rs).tmp = s.tmp := foldl_trainStack_keeps State.tmp trainStack_tmp rs s
  have hctxs : (stacksTrained s rs).ctxs = s.ctxs := foldl_trainStack_keeps State.ctxs trainStack_ctxs rs s
  have hmem : (stacksTrained s rs).mem = s.mem := foldl_trainStack_keeps State.mem trainStack_mem rs s
  have hstage : (stacksTrained s rs).rd R.SMC_BRINGUP_STAGE 0 = s.rd R.SMC_BRINGUP_STAGE 0 :=
    foldl_trainStack_keeps (fun t => t.rd R.SMC_BRINGUP_STAGE 0) (fun t n r => trainStack_quiet t n r _ (by decide)) rs s
  rw [trainAll_failed, trainAll_eq]
  generalize stacksTrained s rs = u at *
  cases h : (stackOf u 0).failed with
  | false =>
    rw [if_neg (by simp), if_neg (by simp), ← hmem]
    exact ⟨htmp, hctxs, hstage, rfl⟩
  | true =>
    rw [if_pos rfl, if_pos rfl, ← hmem]
    exact ⟨htmp, hctxs, hstage, rfl⟩

/-- Settles O27. -/
theorem healsGathersAndTraining : Obligations.HealsGathersAndTraining := by
  unfold Obligations.HealsGathersAndTraining
  intro s on
  refine ⟨fun row bs b h ha hl hb => ?_, fun row b h => ?_, fun row bs h ha => ?_, fun c r base limit count index dest hc hr eb el ec ei ed href hu hp => ?_,
    fun id f is hf hi ha hl hw hh hb hs hp => ?_, fun rs hl h3 hrun hfull h0 => ?_, fun rs hl h3 hrun hfull h0 => ?_⟩
  · refine ⟨endHeal s row (some bs) b, live_on on _, ?_⟩
    obtain ⟨hm, hh, ht, hx⟩ := healEnded_frame (if b = .correctable then hbmCe (s.store row bs) row else s.store row bs) row (pcOf s row).1
    rw [endHeal_writes h ha hl hb]
    refine ⟨hm.trans ?_, hh.trans ?_, ht.trans ?_, hx.trans ?_, fun hok => ?_⟩
    · split
      · exact hbmCe_mem _ _
      · rfl
    · split
      · rw [hbmCe_heals, State.store_heals]
      · rw [State.store_heals]
    · split
      · rw [hbmCe_tmp, State.store_tmp]
      · rw [State.store_tmp]
    · split
      · rw [hbmCe_ctxs, State.store_ctxs]
      · rw [State.store_ctxs]
    · subst hok
      exact healEnded_counts _ _ _
  · obtain ⟨hh, ht⟩ := failHeal_fails s row
    refine ⟨endHeal s row none b, live_on on _, ?_⟩
    rw [endHeal_lost b h]
    exact ⟨failHeal_mem _ _, hh, ht, failHeal_ctxs _ _⟩
  · obtain ⟨hh, ht⟩ := failHeal_fails (reportUe (s.store row (bs.take 4096)) row 0x3F) row
    rw [reportUe_heals, State.store_heals] at hh
    refine ⟨endHeal s row (some bs) .uncorrectable, live_on on _, ?_⟩
    rw [endHeal_unreadable bs h ha]
    exact ⟨by rw [failHeal_mem, reportUe_mem], hh, ht, by rw [failHeal_ctxs, reportUe_ctxs, State.store_ctxs]⟩
  · have he := gatherRec_launches eb el ec ei ed href hu
    have ha := releaseCur_after (s := s) (u := { (launch s c r .gather 1 (direct s base) dest count false).2 with
      gathers := (launch s c r .gather 1 (direct s base) dest count false).2.gathers ++ [(s.nextFlight, gatherIndex s.mem index count)] }) c rfl rfl
    have hg := releaseCur_gathers { (launch s c r .gather 1 (direct s base) dest count false).2 with
      gathers := (launch s c r .gather 1 (direct s base) dest count false).2.gathers ++ [(s.nextFlight, gatherIndex s.mem index count)] } c
    rw [← he] at ha hg
    obtain ⟨hcur, hot, ht, hf, hm⟩ := ha
    exact ⟨gatherRec s c r, onRec_on on hc hr _, hcur, hot, hm hp, ht, hg, hf⟩
  · have hc := completeFlight_after (s := s) (u := moveGather { s with gathers := s.gathers.filter (fun e => e.1 != id) } f.src f.dst is) id f
      (moveGather_ctxs _ _ _ _) (moveGather_tmp _ _ _ _) (moveGather_flights _ _ _ _)
    have hg := completeFlight_gathers (moveGather { s with gathers := s.gathers.filter (fun e => e.1 != id) } f.src f.dst is) id f
    have hy := completeFlight_syn (moveGather { s with gathers := s.gathers.filter (fun e => e.1 != id) } f.src f.dst is) id hs
    rw [moveGather_gathers] at hg
    rw [moveGather_syn] at hy
    rw [← endGather_completes hf hi ha hl hw hh hb] at hc hg hy
    obtain ⟨hfl, ht, hot, hm⟩ := hc
    obtain ⟨g, hmove⟩ := gathersApart_move (s := s) (t := { s with gathers := s.gathers.filter (fun e => e.1 != id) }) ⟨_, rfl⟩ f.src f.dst is
    have hmem := congrArg State.mem hmove
    exact ⟨endGather s id, live_on on _, (hm hp).trans hmem, hg, hfl, ht, hy, hot⟩
  · obtain ⟨ht, hc, hst, hm⟩ := trainAll_frame s rs s.map.seq
    have he : hbmTrain s rs = refreshReady ((trainAll s rs s.map.seq).wr R.SMC_BRINGUP_STAGE 0 4) := by
      unfold hbmTrain
      rw [if_pos ⟨h3, hrun, hfull⟩]
      dsimp only
      rw [if_neg (by simp [h0])]
    rw [if_neg (by simp [h0])] at hm
    have hmem : (hbmTrain s rs).mem = s.mem.blankRange 0 (hearthBase 0) none := by
      rw [he, refreshReady_mem, wr_mem, hm]
    refine ⟨hbmTrain s rs, (if_pos hl).trans (live_on on _), ?_, ?_, ?_, fun a ha => ?_, fun a ha => ?_, ?_, ?_⟩
    · rw [he, map_of_kept (refreshReady_kept _)]
      rfl
    · rw [he, refreshReady_heals]
      rfl
    · rw [he, refreshReady_hbmStacks, State.wr_hbmStacks]
    · rw [hmem]
      exact byte_blankRange_zero _ ⟨Nat.zero_le a, by omega⟩
    · rw [hmem]
      exact byte_blankRange_other _ _ (.inr (by omega))
    · rw [he, refreshReady_tmp, State.wr_tmp, ht]
    · rw [he, refreshReady_ctxs, State.wr_ctxs, hc]
  · obtain ⟨ht, hc, hst, hm⟩ := trainAll_frame s rs s.map.seq
    have he : hbmTrain s rs = haltBringup (trainAll s rs s.map.seq) 4 := by
      unfold hbmTrain
      rw [if_pos ⟨h3, hrun, hfull⟩]
      dsimp only
      rw [if_pos h0]
    rw [if_pos h0] at hm
    obtain ⟨h6, h4⟩ := haltBringup_halts (s := trainAll s rs s.map.seq) (cause := 4) (by decide) (by rw [hst, h3]; decide) (by rw [hst, h3]; decide)
    refine ⟨hbmTrain s rs, (if_pos hl).trans (live_on on _), ?_⟩
    rw [he]
    exact ⟨h6, h4, by rw [haltBringup_mem, hm], by rw [haltBringup_tmp, ht], by rw [haltBringup_ctxs, hc]⟩

end Sys2Proof.Machine

namespace Sys2Proof.Machine

open Sys2Proof

/-! ## VEC records and their blocks -/

/-- The zero vector's words (R119). -/
theorem sparkWord_zero : (List.range 4).map (sparkWord 0 0 0) = [0x6627E8D5, 0xE169C58D, 0xBC57AC4C, 0x9B00DBD8] := by decide

theorem vecRec_starts {s : State} {c : Nat} {r : Rec} {pb : Nat} {bs : List Byte} {p : VecParams} {bundles : List (List Nat)} {sr : Bool}
    (epb : pb = localise (homeDie s c) r.pb) (ebs : bs = s.load pb 512) (ep : p = vecParams (homeDie s c) bs) (eb : bundles = readKernel s.mem p)
    (es : sr = (bundles.map (fun b => b.map Insn.ofWord)).flatten.any Insn.isSr) (h64 : pb % 64 = 0) (hin : inHearth (homeDie s c) pb 512 = true)
    (hok : accessOk s (reqOf s c) false pb 512 = true) (hu : unservable s c r [(pb, 512)] = none) (hres : pbReserved vecPbFields bs = false)
    (hchk : vecCheck (homeDie s c) p (bundles.map (fun b => b.map Insn.ofWord)) = 0)
    (href : refusedRegion s c (vecRegions p (bundles.map (fun b => b.map Insn.ofWord))) = none) (hsp : (sr && sparkRefuses s) = false) :
    vecRec s c r = startVec s c r (homeDie s c) p bundles sr := by
  unfold vecRec
  dsimp only
  rw [← epb, ← ebs, ← ep, ← eb, ← es, if_neg (by simp [h64, hin]), if_neg (by simp [hok]), hu]
  dsimp only
  rw [if_neg (by simp [hres]), if_neg (by simp [hchk]), href]
  dsimp only
  rw [if_neg (by simpa using hsp)]

theorem startBlock_takes {s : State} {d u slot id b : Nat} {v : Vec} (ha : (swageOf s d u).st = .active) (hl : (swageOf s d u).leaving = false)
    (hs : (swageOf s d u).slots.any (fun e => e.1 == slot) = false) (hr : s.on R.DIE_STS_IN_RESET d = false) (hst : hearthStalled s d = false)
    (ht : takeBlock s d (swageOf s d u) = some (id, b, v)) : startBlock s d u slot = (s.setVec id v).setSwage d u
      { swageOf s d u with slots := (swageOf s d u).slots ++ [(slot, (id, b))], gated := false } := by
  unfold startBlock
  dsimp only
  rw [if_neg (by simp [ha, hl, hs, hr, hst]), ht]

/-! The commit of a block -/

theorem swageOf_setSwage_apart (s : State) {d m e v : Nat} (x : Swage) (hm : m < 8) (hv : v < 8) (h : ¬(e = d ∧ v = m)) :
    swageOf (s.setSwage d m x) e v = swageOf s e v :=
  tbl_get_set_other _ _ _ (by omega)

/-- What a unit with the blocks `slots` left is after it has drained. -/
theorem drainSwage_drains (s : State) (d u : Nat) (hu : u < 8) : (swageOf (drainSwage s d u) d u).slots = (swageOf s d u).slots ∧
    (∀ e w, w < 8 → ¬(e = d ∧ w = u) → swageOf (drainSwage s d u) e w = swageOf s e w) ∧ (drainSwage s d u).eng.vecs = s.eng.vecs := by
  have hcap (t : State) : (swgCapacity s t d).eng = t.eng := swgCapacity_eng _ _ _
  unfold drainSwage
  dsimp only
  split
  · exact ⟨rfl, fun _ _ _ _ => rfl, rfl⟩
  · split
    · refine ⟨?_, fun e w hw h => ?_, ?_⟩
      · rw [swageOf_congr (hcap _), swageOf_setSwage_same]
      · rw [swageOf_congr (hcap _), swageOf_setSwage_apart _ _ hu hw h]
      · rw [hcap]
        rfl
    · exact ⟨by rw [swageOf_setSwage_same], fun e w hw h => swageOf_setSwage_apart _ _ hu hw h, rfl⟩

/-- The environment in which block `b` of a command runs (R142). -/
def blockEnv (s : State) (v : Vec) (b : Nat) : BlkEnv :=
  { p := v.p, b := b, act := activeLanes v.p b, seedG := v.seedG, seedU := v.seedU, step := v.step, tag := s.free }

/-- A block has run: its stores, flags, counters and events (R142, R148). -/
def blockRun (s : State) (d u b : Nat) (v : Vec) (par : SwgParity) : State :=
  let k := runBlock (blockEnv s v b) s.mem v.bundles
  let s := orAflags { s with mem := k.mem, free := s.free + 1 } v.ctx (Arith.bits ⟨false, k.nan, k.inf, k.sat⟩)
  let s := s.inc R.SWG_BLOCKS_BLOCKS d 1
  let s := s.inc R.SWG_BUNDLES_BUNDLES d v.bundles.length
  let s := s.inc R.SWG_SR_SR d k.sr
  let s := s.inc R.SPK_WORDS_WORDS 0 k.sr
  let s := if k.sat then raise (s.inc R.SWG_SAT_SAT d 1) .SWG d 4 else s
  let s := if k.nan then raise (s.inc R.SWG_NAN_NAN d 1) .SWG d 5 else s
  swgParity s d u par v.ctx b

/-- A run block touches memory, the flags, counters and events alone. -/
theorem blockRun_frame (s : State) (d u b : Nat) (v : Vec) (par : SwgParity) : let t := blockRun s d u b v par
    t.mem = (runBlock (blockEnv s v b) s.mem v.bundles).mem ∧ t.eng = s.eng ∧ t.ctxs = s.ctxs ∧ t.flights = s.flights ∧ t.tmp = s.tmp := by
  unfold blockRun
  dsimp only
  generalize runBlock (blockEnv s v b) s.mem v.bundles = k
  refine ⟨?_, ?_, ?_, ?_, ?_⟩
  · rw [swgParity_mem]
    repeat' split
    all_goals simp
  · rw [swgParity_eng]
    repeat' split
    all_goals simp
  · rw [swgParity_ctxs]
    repeat' split
    all_goals simp
  · rw [swgParity_flights]
    repeat' split
    all_goals simp
  · rw [swgParity_tmp]
    repeat' split
    all_goals simp

theorem commitBlock_eq (s : State) (d u slot id b : Nat) (v : Vec) (par : SwgParity) : commitBlock s d u slot id b v par =
    drainSwage (((blockRun s d u b v par).setVec id { v with committed := v.committed + 1 }).setSwage d u
      { swageOf ((blockRun s d u b v par).setVec id { v with committed := v.committed + 1 }) d u with
        slots := (swageOf ((blockRun s d u b v par).setVec id { v with committed := v.committed + 1 }) d u).slots.filter (fun q => q.1 != slot) }) d u := rfl

theorem swageOf_setVec (s : State) (id : Nat) (v : Vec) (d u : Nat) : swageOf (s.setVec id v) d u = swageOf s d u := rfl

theorem commitBlock_effect (s : State) {d u : Nat} (slot id b : Nat) (v : Vec) (par : SwgParity) (hu : u < 8) : let t := commitBlock s d u slot id b v par
    t.mem = (runBlock (blockEnv s v b) s.mem v.bundles).mem ∧
      (swageOf t d u).slots = (swageOf s d u).slots.filter (fun q => q.1 != slot) ∧
      (∀ e w, w < 8 → ¬(e = d ∧ w = u) → swageOf t e w = swageOf s e w) ∧
      t.eng.vecs = Tbl.set s.eng.vecs id { v with committed := v.committed + 1 } ∧ t.ctxs = s.ctxs ∧ t.flights = s.flights ∧ t.tmp = s.tmp := by
  obtain ⟨hm, he, hc, hf, ht⟩ := blockRun_frame s d u b v par
  dsimp only
  rw [commitBlock_eq]
  generalize blockRun s d u b v par = r at *
  obtain ⟨hslots, hothers, hvecs⟩ := drainSwage_drains ((r.setVec id { v with committed := v.committed + 1 }).setSwage d u
      { swageOf (r.setVec id { v with committed := v.committed + 1 }) d u with
        slots := (swageOf (r.setVec id { v with committed := v.committed + 1 }) d u).slots.filter (fun q => q.1 != slot) }) d u hu
  refine ⟨?_, ?_, fun e w hw h => ?_, ?_, ?_, ?_, ?_⟩
  · rw [drainSwage_mem]
    exact hm
  · rw [hslots, swageOf_setSwage_same]
    dsimp only
    rw [swageOf_setVec, swageOf_congr he]
  · rw [hothers e w hw h, swageOf_setSwage_apart _ _ hu hw h, swageOf_setVec, swageOf_congr he]
  · rw [hvecs, ← he]
    rfl
  · rw [drainSwage_ctxs]
    exact hc
  · rw [drainSwage_flights]
    exact hf
  · rw [drainSwage_tmp]
    exact ht

/-! Completion, and Spark's check -/

theorem completeVec_completes {s : State} {id : Nat} {f : Flight} {v : Vec} (hf : flightOf s id = some f) (hv : vecOf s id = some v)
    (hc : v.committed = v.p.blocks) (ha : f.abandoned = false) :
    completeVec s id = completeFlight { s with eng := { s.eng with vecs := s.eng.vecs.filter (fun e => e.1 != id) } } id f := by
  unfold completeVec
  rw [hf, hv]
  dsimp only
  rw [if_pos ⟨hc, by simp [ha]⟩]

/-- A command of an engine that has ended completes its record (R209). -/
theorem engineCompletes {s : State} (e : Engines) (id : Nat) {f : Flight} (hs : f.record.sigDone = false) (hp : (ctxOf s f.ctx).preempting = false) :
    let t := completeFlight { s with eng := e } id f
    t.eng = e ∧ t.flights = s.flights.filter (fun e => e.1 != id) ∧ t.mem = s.mem ∧ t.tmp = s.tmp ∧ t.syn = s.syn ∧ othersStand s t f.ctx := by
  obtain ⟨hfl, ht, ho, hm⟩ := completeFlight_after (s := s) (u := { s with eng := e }) id f rfl rfl rfl
  exact ⟨completeFlight_eng _ _ _, hfl, hm hp, ht, completeFlight_syn _ _ hs, ho⟩

theorem sparkKat_passes (s : State) : sparkKatOp s true = (s.wr R.SPK_STS_KAT_DONE 0 1).wr R.SPK_STS_KAT_PASS 0 1 := by
  unfold sparkKatOp
  rw [sparkWord_zero]
  rfl

theorem sparkKat_fails (s : State) : sparkKatOp s false =
    logErr (raise ((s.wr R.SPK_STS_KAT_DONE 0 1).wr R.SPK_STS_KAT_PASS 0 0) .SPK 0 5) .SPK 0 2 .DOMAIN 0 0 [0, 0, 0] := rfl

/-- A VEC command as it joins its die's work (R139). -/
def startedVec (s : State) (c : Nat) (p : VecParams) (bundles : List (List Nat)) (sr : Bool) : Vec :=
  { die := homeDie s c, ctx := c, p := p, bundles := bundles, sr := sr, seedG := (sparkInputs s).1, seedU := (sparkInputs s).2.1,
    step := (sparkInputs s).2.2, next := 0, again := [], committed := 0 }

/-- Settles O25. -/
theorem vectorRecordsRunBlockByBlock : Obligations.VectorRecordsRunBlockByBlock := by
  unfold Obligations.VectorRecordsRunBlockByBlock
  intro s on
  refine ⟨fun c r pb bs p bundles sr hc hr epb ebs ep eb es h64 hin hok hu hres hchk href hsp hp => ?_,
    fun d u slot id b v hd hu hslot ha hl hs hr hst ht => ?_, fun d u slot id b v par hd hu hslot hst hfind hv => ?_,
    fun id f v hf hv hc ha hs hp => ?_, ?_, ?_⟩
  · have he := vecRec_starts epb ebs ep eb es h64 hin hok hu hres hchk href hsp
    have hst : startVec s c r (homeDie s c) p bundles sr = releaseCur { (launch s c r .vec 1 0 0 0 false).2 with
        eng := { s.eng with vecs := s.eng.vecs ++ [(s.nextFlight, startedVec s c p bundles sr)] } } c := rfl
    rw [hst] at he
    obtain ⟨hcur, hot, ht, hfl, hm⟩ := releaseCur_after (s := s) (u := { (launch s c r .vec 1 0 0 0 false).2 with
        eng := { s.eng with vecs := s.eng.vecs ++ [(s.nextFlight, startedVec s c p bundles sr)] } }) c rfl rfl
    have heng := releaseCur_eng { (launch s c r .vec 1 0 0 0 false).2 with eng := { s.eng with vecs := s.eng.vecs ++ [(s.nextFlight, startedVec s c p bundles sr)] } } c
    rw [← he] at hcur hot ht hfl hm heng
    exact ⟨vecRec s c r, onRec_on on hc hr _, hcur, hot, hm hp, ht, heng, hfl⟩
  · refine (if_pos ⟨hd, hu, hslot⟩).trans ((live_on on _).trans ?_)
    rw [startBlock_takes ha hl hs hr hst ht]
  · refine ⟨commitBlock s d u slot id b v par, (if_pos ⟨hd, hu, hslot⟩).trans ((live_on on _).trans ?_), commitBlock_effect s slot id b v par hu⟩
    rw [if_neg (by simp [hst]), hfind]
    dsimp only
    rw [hv]
  · refine ⟨completeVec s id, live_on on _, ?_⟩
    rw [completeVec_completes hf hv hc ha]
    exact engineCompletes _ id hs hp
  · exact (live_on on _).trans (by rw [sparkKat_passes])
  · refine ⟨sparkKatOp s false, live_on on _, ?_⟩
    rw [sparkKat_fails]
    refine ⟨?_, ?_, ?_, ?_, ?_, ?_⟩
    · rw [rd_logErr_quiet (by decide), rd_raise_quiet (by decide), rd_wr_apart (by decide), rd_wr_same]
      rfl
    · rw [rd_logErr_quiet (by decide), rd_raise_quiet (by decide), rd_wr_same]
      rfl
    all_goals simp

end Sys2Proof.Machine

namespace Sys2Proof.Machine

open Sys2Proof

/-! ## MMA records and their tiles -/

theorem mmaRec_starts {s : State} {c : Nat} {r : Rec} {pb : Nat} {bs : List Byte} {p : MmaParams} (epb : pb = localise (homeDie s c) r.pb)
    (ebs : bs = s.load pb 128) (ep : p = mmaParams (homeDie s c) bs) (h64 : pb % 64 = 0) (hin : inHearth (homeDie s c) pb 128 = true)
    (hok : accessOk s (reqOf s c) false pb 128 = true) (hu : unservable s c r [(pb, 128)] = none) (hres : pbReserved mmaPbFields bs = false)
    (hchk : mmaCheck (homeDie s c) p = 0) (href : refusedRegion s c (mmaRegions p) = none) :
    mmaRec s c r = releaseCur { (launch s c r .mma 1 0 0 0 false).2 with
      eng := { s.eng with mmas := s.eng.mmas ++ [(s.nextFlight, { die := homeDie s c, ctx := c, p := p, next := 0, moved := [], parts := [], written := 0 })] } } c := by
  unfold mmaRec
  dsimp only
  rw [← epb, ← ebs, ← ep, if_neg (by simp [h64, hin]), if_neg (by simp [hok]), hu]
  dsimp only
  rw [if_neg (by simp [hres]), if_neg (by simp [hchk]), href]
  rfl

theorem anvilOf_setAnvil_apart (s : State) {d m e v : Nat} (a : Anvil) (hm : m < 40) (hv : v < 40) (h : ¬(e = d ∧ v = m)) :
    anvilOf (s.setAnvil d m a) e v = anvilOf s e v := tbl_get_set_other _ _ _ (by omega)

/-- The Anvils and commands of `t` are those of `s`. -/
def SameWork (s t : State) : Prop := t.eng.anvils = s.eng.anvils ∧ t.eng.mmas = s.eng.mmas

theorem SameWork.of_eng {s t : State} (h : t.eng = s.eng) : SameWork s t := ⟨by rw [h], by rw [h]⟩

theorem SameWork.trans {s t u : State} (h : SameWork s t) (h' : SameWork t u) : SameWork s u := ⟨h'.1.trans h.1, h'.2.trans h.2⟩

theorem SameWork.anvil {s t : State} (h : SameWork s t) (d m : Nat) : anvilOf t d m = anvilOf s d m := by
  unfold anvilOf
  rw [h.1]

/-- The contexts, flights and step of `t` are those of `s`. -/
def SameCourse (s t : State) : Prop := t.ctxs = s.ctxs ∧ t.flights = s.flights ∧ t.tmp = s.tmp

theorem SameCourse.trans {s t u : State} (h : SameCourse s t) (h' : SameCourse t u) : SameCourse s u :=
  ⟨h'.1.trans h.1, h'.2.1.trans h.2.1, h'.2.2.trans h.2.2⟩

/-! The start of a tile -/

/-- Loupe's selection moves neither units nor memory (R338). -/
theorem loupeSelect_frame (s : State) (d : Nat) : SameWork s (loupeSelect s d).2 ∧ SameCourse s (loupeSelect s d).2 ∧ (loupeSelect s d).2.mem = s.mem := by
  unfold loupeSelect SameWork SameCourse
  dsimp only
  repeat' split
  all_goals exact ⟨⟨rfl, rfl⟩, ⟨rfl, rfl, rfl⟩, rfl⟩

/-- A capture touches its area alone (R339). -/
theorem beginCapture_frame (s : State) (d u : Nat) (x : Mma) (r : TileRun) : SameWork s (beginCapture s d u x r) ∧ SameCourse s (beginCapture s d u x r) ∧
    ∀ a, a < hearthBase d + 0x7F600000 ∨ hearthBase d + 0x7F600000 + 0x200000 ≤ a → (beginCapture s d u x r).mem.byte a = s.mem.byte a :=
  ⟨⟨rfl, rfl⟩, ⟨rfl, rfl, rfl⟩, fun _ h => byte_blankRange_other _ _ h⟩

/-- The state in which a unit has been given its tile. -/
def tileGiven (s : State) (d u : Nat) (r : TileRun) : State :=
  (loupeSelect s d).2.setAnvil d u { anvilOf (loupeSelect s d).2 d u with run := some { r with sampled := (loupeSelect s d).1 }, chain := none, gated := false }

theorem startTile_eq {s : State} {d u : Nat} {par : AnvParity} {x : Mma} {c : Chain} {r : TileRun} (h : tileOf x (loadChain s d x c) = some r) :
    startTile s d u par x c = anvParity (if (loupeSelect s d).1 then beginCapture (tileGiven s d u r) d u x { r with sampled := (loupeSelect s d).1 }
      else tileGiven s d u r) d u par { r with sampled := (loupeSelect s d).1 } x := by
  unfold startTile
  rw [h]
  rfl

theorem tileGiven_frame (s : State) {d u : Nat} (r : TileRun) (hu : u < 40) :
    anvilOf (tileGiven s d u r) d u = { anvilOf s d u with run := some { r with sampled := (loupeSelect s d).1 }, chain := none, gated := false } ∧
      (∀ e v, v < 40 → ¬(e = d ∧ v = u) → anvilOf (tileGiven s d u r) e v = anvilOf s e v) ∧ (tileGiven s d u r).eng.mmas = s.eng.mmas ∧
      SameCourse s (tileGiven s d u r) ∧ (tileGiven s d u r).mem = s.mem := by
  obtain ⟨hw, hc, hm⟩ := loupeSelect_frame s d
  refine ⟨?_, fun e v hv h => ?_, hw.2, hc, hm⟩
  · unfold tileGiven
    rw [anvilOf_setAnvil_same, hw.anvil]
  · unfold tileGiven
    rw [anvilOf_setAnvil_apart _ _ hu hv h, hw.anvil]

/-- A unit starts its tile (R73, R338). -/
theorem startTile_effect {s : State} {d u : Nat} (par : AnvParity) {x : Mma} {c : Chain} {r : TileRun} (hu : u < 40)
    (h : tileOf x (loadChain s d x c) = some r) : let t := startTile s d u par x c
    let b := (loupeSelect s d).1
    anvilOf t d u = { anvilOf s d u with run := some { r with sampled := b }, chain := none, gated := false } ∧
      (∀ e v, v < 40 → ¬(e = d ∧ v = u) → anvilOf t e v = anvilOf s e v) ∧ t.eng.mmas = s.eng.mmas ∧
      (∀ a, a < hearthBase d + 0x7F600000 ∨ hearthBase d + 0x7F600000 + 0x200000 ≤ a → t.mem.byte a = s.mem.byte a) ∧
      (b = false → t.mem = s.mem) ∧ SameCourse s t := by
  obtain ⟨ha, ho, hmmas, hc, hm⟩ := tileGiven_frame s r hu
  dsimp only
  rw [startTile_eq h, ← hm]
  have hpar (v : State) : SameWork v (anvParity v d u par { r with sampled := (loupeSelect s d).1 } x) :=
    .of_eng (anvParity_eng _ _ _ _ _ _)
  have hcourse (v : State) : SameCourse v (anvParity v d u par { r with sampled := (loupeSelect s d).1 } x) :=
    ⟨anvParity_ctxs _ _ _ _ _ _, anvParity_flights _ _ _ _ _ _, anvParity_tmp _ _ _ _ _ _⟩
  cases hb : (loupeSelect s d).1 with
  | false =>
    rw [hb] at hpar hcourse ha
    rw [if_neg (by simp), anvParity_mem]
    exact ⟨((hpar _).anvil d u).trans ha, fun e v hv hne => ((hpar _).anvil e v).trans (ho e v hv hne), (hpar _).2.trans hmmas, fun _ _ => rfl,
      fun _ => rfl, hc.trans (hcourse _)⟩
  | true =>
    rw [hb] at hpar hcourse ha
    obtain ⟨hbw, hbc, hbm⟩ := beginCapture_frame (tileGiven s d u r) d u x { r with sampled := true }
    rw [if_pos rfl, anvParity_mem]
    exact ⟨((hbw.trans (hpar _)).anvil d u).trans ha, fun e v hv hne => ((hbw.trans (hpar _)).anvil e v).trans (ho e v hv hne),
      (hbw.trans (hpar _)).2.trans hmmas, hbm, fun h => by simp at h, (hc.trans hbc).trans (hcourse _)⟩

theorem issueTile_takes {s : State} {d u id : Nat} {par : AnvParity} {ch : Chain} {x : Mma} (ha : (anvilOf s d u).st = .active)
    (hr : (anvilOf s d u).run = none) (hc : (anvilOf s d u).chain = none) (hw : (anvilOf s d u).waitUntil ≤ s.clock) (hst : anvStaged s d u = false)
    (hres : s.on R.DIE_STS_IN_RESET d = false) (hh : hearthStalled s d = false) (hq : s.rd R.BLW_STS_Q d ≠ 0) (ht : takeChain s d = some (ch, id, x)) :
    issueTile s d u par = startTile (s.setMma id x) d u par x ch := by
  unfold issueTile
  dsimp only
  rw [if_neg (by simp [ha, hr, hst, hres, hh, hq, hw]), hc, ht]

/-! The end of a tile -/

/-- Writing a tile does not depend on the engines. -/
theorem writeTile_engines (s : State) (e : Engines) (p : MmaParams) (t : Nat) (res : List Nat) :
    writeTile { s with eng := e } p t res = ({ (writeTile s p t res).1 with eng := e }, (writeTile s p t res).2) := by
  unfold writeTile
  generalize res.zipIdx = l
  generalize Arith.none = a
  induction l generalizing s a with
  | nil => rfl
  | cons x l ih =>
    rw [List.foldl_cons, List.foldl_cons]
    by_cases h : (p.elemAt t x.2).1 < p.m ∧ (p.elemAt t x.2).2 < p.n
    · rw [if_pos h, if_pos h]
      exact ih (s.store (p.dElem (p.elemAt t x.2).1 (p.elemAt t x.2).2) (outElem p x.1).1) (a.or (outElem p x.1).2)
    · rw [if_neg h, if_neg h]
      exact ih s a

theorem store_engines (s : State) (e : Engines) (a : Nat) (bs : List Byte) : ({ s with eng := e } : State).store a bs = { s.store a bs with eng := e } := rfl

/-- What a tile hands on does not depend on the engines. -/
theorem handOn_engines (s : State) (e : Engines) (id : Nat) (x : Mma) (r : TileRun) (res : List Nat) :
    handOn { s with eng := e } id x r res = ({ (handOn s id x r res).1 with eng := e }, (handOn s id x r res).2) := by
  unfold handOn
  dsimp only
  split
  · rw [writeTile_engines]
  · split
    · rw [store_engines]
    · rfl

/-- The flags, counters and events of a tile that ends (R97). -/
def tileNoted (s : State) (d u cyc : Nat) (r : TileRun) (x : Mma) (fl : Arith) : State :=
  let s := tileCounters (orAflags s x.ctx fl.bits) (anvPage d u) cyc r.level fl.nan
  let s := if fl.accSat then satTile s (anvPage d u) u x r else s
  s.inc R.BLW_CAPPED_CAPPED d (ceilDiv (cyc * (64 - issueCap s d u)) (issueCap s d u))

theorem tileNoted_frame (s : State) (d u cyc : Nat) (r : TileRun) (x : Mma) (fl : Arith) : let t := tileNoted s d u cyc r x fl
    t.eng = s.eng ∧ t.mem = s.mem ∧ SameCourse s t := by
  unfold tileNoted SameCourse
  dsimp only
  refine ⟨?_, ?_, ?_, ?_, ?_⟩
  · rw [State.inc_eng]
    split <;> simp
  · rw [inc_mem]
    split <;> simp
  · rw [State.inc_ctxs]
    split <;> simp
  · rw [State.inc_flights]
    split <;> simp
  · rw [State.inc_tmp]
    split <;> simp

/-- The elements of an attempt at a tile (R83). -/
def tileElems (m : Memory) (r : TileRun) (x : Mma) : List Elem :=
  if r.combine then combineTile m x.p r.level r.chain.tile r.chain.acc else runTile m x.p r.level r.chain.tile r.chain.next r.hi r.chain.acc

theorem endTile_replays {s : State} {d u : Nat} {par : AnvParity} {fs : List (Nat × Nat)} {r : TileRun} {x : Mma}
    (h : (tileElems s.mem r x).any (·.ovf) = true) : ∃ n, endTile s d u par fs r x =
      raise ((anvParity s d u par r x).setAnvil d u { anvilOf (anvParity s d u par r x) d u with run := some { r with level := r.level + 1, cycles := n } })
        .ANV (anvPage d u) 5 := by
  refine ⟨r.cycles + (if r.combine then 0 else (r.hi - r.chain.next) * x.p.groupCycles), ?_⟩
  unfold endTile
  dsimp only
  rw [anvParity_mem]
  exact if_pos h

/-- The result of an attempt with the bits that a fault of the unit makes other. -/
def tileResult (m : Memory) (r : TileRun) (x : Mma) (fs : List (Nat × Nat)) : List Nat := withFaults ((tileElems m r x).map (·.out)) fs

/-- The state in which a tile's attempt has ended and its capture, if it has one, is complete (R339). -/
def tileCaptured (s : State) (d u : Nat) (par : AnvParity) (fs : List (Nat × Nat)) (r : TileRun) (x : Mma) : State :=
  if r.sampled then endCapture (anvParity s d u par r x) d x r ((tileElems s.mem r x).map (·.out)) (tileResult s.mem r x fs) ((tileElems s.mem r x).any (·.sat))
  else anvParity s d u par r x

/-- A complete capture differs in the captures alone. -/
theorem tileCaptured_frame (s : State) (d u : Nat) (par : AnvParity) (fs : List (Nat × Nat)) (r : TileRun) (x : Mma) :
    ∃ e, tileCaptured s d u par fs r x = { anvParity s d u par r x with eng := e } ∧ e.anvils = s.eng.anvils ∧ e.mmas = s.eng.mmas := by
  unfold tileCaptured
  rw [← anvParity_eng s d u par r x]
  split
  · unfold endCapture
    split
    · exact ⟨_, rfl, rfl, rfl⟩
    · exact ⟨(anvParity s d u par r x).eng, rfl, rfl, rfl⟩
  · exact ⟨(anvParity s d u par r x).eng, rfl, rfl, rfl⟩

/-- The state in which a tile's result has been handed on and the command noted it (R73). -/
def tileHanded (s : State) (x : Mma) (r : TileRun) (res : List Nat) : State :=
  (handOn s r.chain.flight x r res).1.setMma r.chain.flight (handOn s r.chain.flight x r res).2.2.1

/-- The state in which the flags, counters and events of a tile have been noted, before its unit is free (R97). -/
def tileDone (s : State) (d u : Nat) (par : AnvParity) (fs : List (Nat × Nat)) (r : TileRun) (x : Mma) : State :=
  tileNoted (tileHanded (tileCaptured s d u par fs r x) x r (tileResult s.mem r x fs)) d u
    (r.cycles + (if r.combine then 0 else (r.hi - r.chain.next) * x.p.groupCycles)) r x
    ((Arith.mk ((tileElems s.mem r x).any (·.sat)) false false false).or
      (handOn (tileCaptured s d u par fs r x) r.chain.flight x r (tileResult s.mem r x fs)).2.2.2)

theorem endTile_hands {s : State} {d u : Nat} {par : AnvParity} {fs : List (Nat × Nat)} {r : TileRun} {x : Mma}
    (h : (tileElems s.mem r x).any (·.ovf) = false) : ∃ i j, endTile s d u par fs r x = (tileDone s d u par fs r x).setAnvil d u
      { anvilOf (tileDone s d u par fs r x) d u with
        run := none, chain := (handOn (tileCaptured s d u par fs r x) r.chain.flight x r (tileResult s.mem r x fs)).2.1, waitUntil := i, idleSince := j } := by
  refine ⟨(tileDone s d u par fs r x).clock + issueWait (tileDone s d u par fs r x) d u
    (r.cycles + (if r.combine then 0 else (r.hi - r.chain.next) * x.p.groupCycles)), (tileDone s d u par fs r x).clock, ?_⟩
  unfold endTile
  dsimp only
  rw [anvParity_mem]
  exact if_neg fun h' => Bool.false_ne_true (h.symm.trans h')

/-- What a tile without overflow leaves (R73, R83). -/
theorem endTile_effect {s : State} {d u : Nat} {par : AnvParity} {fs : List (Nat × Nat)} {r : TileRun} {x : Mma} (hu : u < 40)
    (h : (tileElems s.mem r x).any (·.ovf) = false) : let t := endTile s d u par fs r x
    let g := handOn (anvParity s d u par r x) r.chain.flight x r (tileResult s.mem r x fs)
    (anvilOf t d u).run = none ∧ (anvilOf t d u).chain = g.2.1 ∧ t.eng.mmas = Tbl.set s.eng.mmas r.chain.flight g.2.2.1 ∧
      (∀ e v, v < 40 → ¬(e = d ∧ v = u) → anvilOf t e v = anvilOf s e v) ∧ t.mem = g.1.mem ∧ SameCourse s t := by
  obtain ⟨i, j, he⟩ := endTile_hands (par := par) (fs := fs) (d := d) (u := u) h
  obtain ⟨e, hc, ha, hm⟩ := tileCaptured_frame s d u par fs r x
  have hg := handOn_engines (anvParity s d u par r x) e r.chain.flight x r (tileResult s.mem r x fs)
  rw [← hc] at hg
  obtain ⟨heng, hmem, hcourse⟩ := tileNoted_frame (tileHanded (tileCaptured s d u par fs r x) x r (tileResult s.mem r x fs)) d u
    (r.cycles + (if r.combine then 0 else (r.hi - r.chain.next) * x.p.groupCycles)) r x
    ((Arith.mk ((tileElems s.mem r x).any (·.sat)) false false false).or
      (handOn (tileCaptured s d u par fs r x) r.chain.flight x r (tileResult s.mem r x fs)).2.2.2)
  change (tileDone s d u par fs r x).eng = _ at heng
  change (tileDone s d u par fs r x).mem = _ at hmem
  change SameCourse _ (tileDone s d u par fs r x) at hcourse
  have hcourse0 : SameCourse s (anvParity s d u par r x) := ⟨anvParity_ctxs _ _ _ _ _ _, anvParity_flights _ _ _ _ _ _, anvParity_tmp _ _ _ _ _ _⟩
  dsimp only
  rw [he]
  generalize tileDone s d u par fs r x = w at *
  unfold tileHanded at heng hmem hcourse
  rw [hg] at heng hmem hcourse ⊢
  have hanv : w.eng.anvils = s.eng.anvils := (congrArg Engines.anvils heng).trans ha
  have hmmas : w.eng.mmas = Tbl.set s.eng.mmas r.chain.flight (handOn (anvParity s d u par r x) r.chain.flight x r (tileResult s.mem r x fs)).2.2.1 :=
    (congrArg Engines.mmas heng).trans (by rw [← hm]; rfl)
  have hold (e v : Nat) : anvilOf w e v = anvilOf s e v := by
    unfold anvilOf
    rw [hanv]
  have hout : SameCourse (anvParity s d u par r x) (handOn (anvParity s d u par r x) r.chain.flight x r (tileResult s.mem r x fs)).1 :=
    ⟨handOn_ctxs _ _ _ _ _, handOn_flights _ _ _ _ _, handOn_tmp _ _ _ _ _⟩
  refine ⟨?_, ?_, hmmas, fun e v hv hne => ?_, hmem, hcourse0.trans (hout.trans hcourse)⟩
  · rw [anvilOf_setAnvil_same]
  · rw [anvilOf_setAnvil_same]
  · rw [anvilOf_setAnvil_apart _ _ hu hv hne, hold]

/-- What a tile with an overflow below level 2 leaves (R83). -/
theorem endTile_replay_effect {s : State} {d u : Nat} {par : AnvParity} {fs : List (Nat × Nat)} {r : TileRun} {x : Mma} (hu : u < 40)
    (h : (tileElems s.mem r x).any (·.ovf) = true) : let t := endTile s d u par fs r x
    (∃ n, anvilOf t d u = { anvilOf s d u with run := some { r with level := r.level + 1, cycles := n } }) ∧ t.eng.mmas = s.eng.mmas ∧
      (∀ e v, v < 40 → ¬(e = d ∧ v = u) → anvilOf t e v = anvilOf s e v) ∧ t.mem = s.mem ∧ SameCourse s t := by
  obtain ⟨n, he⟩ := endTile_replays (par := par) (fs := fs) (d := d) (u := u) h
  have hp := anvParity_eng s d u par r x
  have hm := anvParity_mem s d u par r x
  have hc : SameCourse s (anvParity s d u par r x) := ⟨anvParity_ctxs _ _ _ _ _ _, anvParity_flights _ _ _ _ _ _, anvParity_tmp _ _ _ _ _ _⟩
  dsimp only
  rw [he]
  generalize anvParity s d u par r x = v at *
  refine ⟨⟨n, ?_⟩, ?_, fun e w hw hne => ?_, ?_, hc.trans ⟨raise_ctxs _ _ _ _, raise_flights _ _ _ _, raise_tmp _ _ _ _⟩⟩
  · rw [anvilOf_congr (raise_eng _ _ _ _), anvilOf_setAnvil_same, anvilOf_congr hp]
  · rw [raise_eng, ← hp]
    rfl
  · rw [anvilOf_congr (raise_eng _ _ _ _), anvilOf_setAnvil_apart _ _ hu hw hne, anvilOf_congr hp]
  · rw [raise_mem]
    exact hm

theorem completeMma_completes {s : State} {id : Nat} {f : Flight} {x : Mma} (hf : flightOf s id = some f) (hx : mmaOf s id = some x)
    (hw : x.written = x.p.tiles) (ha : f.abandoned = false) :
    completeMma s id = completeFlight { s with eng := { s.eng with mmas := s.eng.mmas.filter (fun e => e.1 != id) } } id f := by
  unfold completeMma
  rw [hf, hx]
  dsimp only
  rw [if_pos ⟨hw, by simp [ha]⟩]

theorem tileEnd_on {s : State} {d u : Nat} (par : AnvParity) (fs : List (Nat × Nat)) {r : TileRun} {x : Mma} (on : s.power.on = true) (hd : d < 8)
    (hu : u < 40) (hh : hearthStalled s d = false) (hr : (anvilOf s d u).run = some r) (hx : mmaOf s r.chain.flight = some x) :
    exec (.anvTileEnd d u par fs) s = .next (endTile s d u par fs r x) := by
  refine (if_pos ⟨hd, hu⟩).trans ((live_on on _).trans ?_)
  rw [if_neg (by simp [hh]), hr]
  dsimp only
  rw [hx]

/-- Settles O23. -/
theorem matrixRecordsRunTileByTile : Obligations.MatrixRecordsRunTileByTile := by
  unfold Obligations.MatrixRecordsRunTileByTile
  intro s on
  refine ⟨fun c r pb bs p hc hr epb ebs ep h64 hin hok hu hres hchk href hp => ?_,
    fun d u id par ch x r hd hu ha hrun hchain hw hst hres hh hq ht htile => ?_, fun d u par fs r x es hd hu hh hr hx hes => ⟨fun ho => ?_, fun ho => ?_⟩,
    fun id f x hf hx hw ha hs hp => ?_⟩
  · have he := mmaRec_starts epb ebs ep h64 hin hok hu hres hchk href
    obtain ⟨hcur, hot, ht, hfl, hm⟩ := releaseCur_after (s := s) (u := { (launch s c r .mma 1 0 0 0 false).2 with
      eng := { s.eng with mmas := s.eng.mmas ++ [(s.nextFlight, { die := homeDie s c, ctx := c, p := p, next := 0, moved := [], parts := [], written := 0 })] } }) c rfl rfl
    have heng := releaseCur_eng { (launch s c r .mma 1 0 0 0 false).2 with
      eng := { s.eng with mmas := s.eng.mmas ++ [(s.nextFlight, { die := homeDie s c, ctx := c, p := p, next := 0, moved := [], parts := [], written := 0 })] } } c
    rw [← he] at hcur hot ht hfl hm heng
    exact ⟨mmaRec s c r, onRec_on on hc hr _, hcur, hot, hm hp, ht, heng, hfl⟩
  · obtain ⟨hanv, hothers, hmmas, harea, hmem, hctxs, hflights, htmp⟩ := startTile_effect (s := s.setMma id x) (d := d) par hu htile
    refine ⟨issueTile s d u par, (loupeSelect (s.setMma id x) d).1, (if_pos ⟨hd, hu⟩).trans (live_on on _), ?_⟩
    rw [issueTile_takes ha hrun hchain hw hst hres hh hq ht]
    exact ⟨hanv, hothers, hmmas, harea, hmem, hctxs, hflights, htmp⟩
  · obtain ⟨⟨n, hanv⟩, hmmas, hothers, hmem, hctxs, hflights, htmp⟩ := endTile_replay_effect (d := d) (par := par) (fs := fs) hu (hes ▸ ho)
    exact ⟨endTile s d u par fs r x, n, tileEnd_on par fs on hd hu hh hr hx, hanv, hmmas, hothers, hmem, hctxs, hflights, htmp⟩
  · subst hes
    obtain ⟨hrun, hchain, hmmas, hothers, hmem, hctxs, hflights, htmp⟩ := endTile_effect (s := s) (d := d) (par := par) (fs := fs) hu ho
    exact ⟨endTile s d u par fs r x, tileEnd_on par fs on hd hu hh hr hx, hrun, hchain, hmmas, hothers, hmem, hctxs, hflights, htmp⟩
  · refine ⟨completeMma s id, live_on on _, ?_⟩
    rw [completeMma_completes hf hx hw ha]
    exact engineCompletes _ id hs hp

end Sys2Proof.Machine

namespace Sys2Proof.Machine

open Sys2Proof

/-! ## Packets that no flow sequences, and copies on every READY plane -/

theorem receivePlain_comes {s : State} {k : Nat} {c : PClass} {p : Packet} (h : Comes s k c p) (act : State → State) :
    receivePlain s k c p act = act s := by
  unfold receivePlain checkPacket versionOf planeOpen
  dsimp only
  rw [if_neg (by simp [h.named, h.linked]), if_neg (not_not_intro h.crc), if_neg (not_not_intro h.version)]
  by_cases hc : c = .TIME
  · rw [if_pos hc]
  · rw [if_neg hc, if_neg (Nat.not_lt.2 h.lifetime), if_neg (by simp [h.slice.1, h.slice.2.symm]), if_pos h.epoch]
    dsimp only
    rw [if_pos h.dest]

theorem receivePlain_time {s : State} {k : Nat} {p : Packet} (ho : planeOpen s k = true) (hcrc : p.crc = packetCrc .TIME p) (hv : p.verMajor = 1)
    (act : State → State) : receivePlain s k .TIME p act = act s := by
  unfold receivePlain checkPacket
  dsimp only
  rw [if_neg (by simp [ho]), if_neg (not_not_intro hcrc), if_neg (not_not_intro hv), if_pos rfl]

theorem foldl_sendPrio_prio_other (pk : State → Packet) (c : PClass) {q : Nat} (l : List Nat) (hq : q ∉ l) : ∀ s : State,
    linkOf (l.foldl (fun s k => sendPrio s k c (pk s)) s) q = linkOf s q := by
  induction l with
  | nil => exact fun _ => rfl
  | cons j l ih =>
    intro s
    obtain ⟨hne, hl⟩ := not_or.1 (fun h => hq (List.mem_cons.2 h))
    exact (ih hl _).trans (linkOf_other (show (sendPrio s j c (pk s)).links = Tbl.set s.links j _ from rfl) hne)

/-- A packet sent on each plane of a list stands at the end of the priority queue of each of them. -/
theorem foldl_sendPrio_prio (pk : State → Packet) (c : PClass) (hpk : ∀ s k p, pk (sendPrio s k c p) = pk s) {q : Nat} (l : List Nat)
    (hl : l.Nodup) (hq : q ∈ l) : ∀ s : State, (linkOf (l.foldl (fun s k => sendPrio s k c (pk s)) s) q).prio = (linkOf s q).prio ++ [(c, pk s)] := by
  induction l with
  | nil => exact absurd hq List.not_mem_nil
  | cons j l ih =>
    intro s
    obtain ⟨hj, hl⟩ := List.nodup_cons.1 hl
    rw [List.foldl_cons]
    by_cases h : q = j
    · subst h
      rw [foldl_sendPrio_prio_other pk c l hj, linkOf_same (show (sendPrio s q c (pk s)).links = Tbl.set s.links q _ from rfl)]
    · rw [ih hl (by simpa [h] using hq), hpk, linkOf_other (show (sendPrio s j c (pk s)).links = Tbl.set s.links j _ from rfl) h]

theorem readyPlanes_nodup (s : State) : (readyPlanes s).Nodup := List.nodup_range.filter _

theorem mem_readyPlanes {s : State} {q : Nat} (hq : q < 32) (h : linkReady s q = true) : q ∈ readyPlanes s :=
  List.mem_filter.2 ⟨List.mem_range.2 hq, h⟩

theorem sendCopies_prio (s : State) (b : Burst) {q : Nat} (hq : q < 32) (h : linkReady s q = true) : (linkOf (sendCopies s b) q).prio =
    (linkOf s q).prio ++ [(b.cls, mkPacket s b.cls s.xp.slc.cur.slice b.dst 0 0 b.idx 0 false b.payload)] :=
  foldl_sendPrio_prio (fun s => mkPacket s b.cls s.xp.slc.cur.slice b.dst 0 0 b.idx 0 false b.payload) b.cls (fun _ _ _ => rfl) _
    (readyPlanes_nodup s) (mem_readyPlanes hq h) s

/-! ## STOP -/

/-- A STOP takes effect on a live attempt, and it keeps what is not of the attempt (Table 10.10). -/
theorem stopApply_live {s : State} (h : attemptLive s = true) : (stopApply s).tmp = { s.tmp with phase := .check } ∧
    (stopApply s).attempt.frozen = true ∧ (stopApply s).attempt.stopSent = s.attempt.stopSent ∧
    (stopApply s).flights = s.flights.map (fun e => if e.2.tagged then (e.1, { e.2 with abandoned := true }) else e) := by
  unfold stopApply
  dsimp only
  rw [if_pos h]
  refine ⟨?_, rfl, ?_, ?_⟩
  · dsimp only
    rw [raise_tmp, stepFault_tmp]
  · dsimp only
    rw [raise_attempt]
    rcases stepFault_attempt_or s .stopReceived with h | h <;> simp only [h]
  · dsimp only
    rw [raise_flights, stepFault_flights]

theorem attemptLive_congr {s t : State} (ht : t.tmp = s.tmp) (ha : t.attempt.vote = s.attempt.vote) : attemptLive t = attemptLive s := by
  unfold attemptLive
  rw [ht, ha]

theorem tagOrder_congr {s t : State} (h : t.tmp = s.tmp) (step att : Nat) : tagOrder t step att = tagOrder s step att := by
  unfold tagOrder
  rw [h]

/-- The state in which a STOP not handled before has its effect. -/
def stopNoted (s : State) (p : Packet) : State := (noteSeen s .STOP p.payload).inc R.SLC_STOP_RX slcI 1

theorem stopNoted_tmp (s : State) (p : Packet) : (stopNoted s p).tmp = s.tmp := rfl

theorem handleStop_new {s : State} {p : Packet} (h : seenBefore s .STOP p.payload = false) :
    handleStop s p = stopByTag (stopNoted s p) (fieldAt p.payload 0 8) (fieldAt p.payload 8 1) (fieldAt p.payload 9 1) := by
  unfold handleStop
  rw [if_neg (by simp [h])]
  rfl

theorem startBurst_xp {s : State} (h : s.xp.slc.cur.slice ≠ 0) (c : PClass) (bs : List Byte) : (startBurst s c bs).xp = { s.xp with
    bursts := s.xp.bursts ++ [⟨c, bs, s.xp.slc.cur.mcast, 1, s.clock + 10000⟩], seen := (c, bs, s.clock) :: s.xp.seen } := by
  unfold startBurst
  rw [if_neg h]
  dsimp only
  rw [sendCopies_xp, clock_of_kept (sendCopies_kept _ _)]

/-- The state in which the copy of its own STOP stops the module that sends it. -/
def stopLeft (s : State) : State :=
  (startBurst ({ s with attempt := { s.attempt with stopSent := true } }.inc R.SLC_STOP_TX slcI 1) .STOP
    (stopPayload s Reason.stopReceived.code)).inc R.SLC_STOP_RX slcI 1

theorem sendStopNow_first {s : State} (h : s.attempt.stopSent = false) (hs : s.xp.slc.cur.slice ≠ 0) : sendStopNow s = stopApply (stopLeft s) := by
  unfold sendStopNow
  dsimp only
  rw [if_neg (by simp [h, hs])]
  rfl

theorem stopLeft_attempt (s : State) : (stopLeft s).attempt = { s.attempt with stopSent := true } := by simp [stopLeft]

theorem stopLeft_frame (s : State) : (stopLeft s).tmp = s.tmp ∧ (stopLeft s).flights = s.flights ∧ (stopLeft s).mem = s.mem ∧
    (stopLeft s).ctxs = s.ctxs := ⟨by simp [stopLeft], by simp [stopLeft], by simp [stopLeft], by simp [stopLeft]⟩

theorem stopLeft_bursts {s : State} (h : s.xp.slc.cur.slice ≠ 0) : (stopLeft s).xp.bursts =
    s.xp.bursts ++ [⟨.STOP, stopPayload s Reason.stopReceived.code, s.xp.slc.cur.mcast, 1, s.clock + 10000⟩] := by
  unfold stopLeft
  rw [State.inc_xp, startBurst_xp (by rw [State.inc_xp]; exact h), State.inc_xp, State.inc_clock]

/-! ## CUT -/

/-- The state in which a CUT not handled before has its effect. -/
def cutNoted (s : State) (p : Packet) : State := (noteSeen s .CUT p.payload).inc R.SLC_CUT_RX slcI 1

theorem handleCut_new {s : State} {p : Packet} (h : seenBefore s .CUT p.payload = false) (ht : s.tmp.tempered < fieldAt p.payload 0 8)
    (hn : s.xp.slc.cutPending = none) : handleCut s p = setCutPending (cutNoted s p) (fieldAt p.payload 0 8) (bits (fieldAt p.payload 8 8) 0 2) := by
  unfold handleCut
  rw [if_neg (by simp [h])]
  dsimp only
  rw [if_pos (show ((noteSeen s .CUT p.payload).inc R.SLC_CUT_RX slcI 1).tmp.tempered < _ from ht)]
  unfold takeCut
  rw [show ((noteSeen s .CUT p.payload).inc R.SLC_CUT_RX slcI 1).xp.slc.cutPending = none from hn]
  rfl

theorem setCutPending_xp (s : State) (step cause : Nat) :
    (setCutPending s step cause).xp = { s.xp with slc := { s.xp.slc with cutPending := some step, cutCause := cause } } := by
  unfold setCutPending
  rw [raise_xp]

/-- The CUT that a module sends, before it takes it itself. -/
theorem cutBurst_frame {s : State} (h : s.xp.slc.cur.slice ≠ 0) (step cause : Nat) : (cutBurst s step cause).xp.slc = s.xp.slc ∧
    (cutBurst s step cause).xp.bursts = s.xp.bursts ++ [⟨.CUT, cutPayload step cause, s.xp.slc.cur.mcast, 1, s.clock + 10000⟩] := by
  unfold cutBurst
  rw [if_neg h, startBurst_xp (by rw [State.inc_xp]; exact h), State.inc_xp, State.inc_clock]
  exact ⟨rfl, rfl⟩

theorem takeCut_first {s : State} (h : s.xp.slc.cutPending = none) (step cause : Nat) : takeCut s step cause = setCutPending s step cause := by
  unfold takeCut
  rw [h]

theorem requestCut_sends {s : State} (h : s.tmp.phase = .idle ∨ s.tmp.phase = .hold ∨ s.tmp.phase = .run ∨ s.tmp.phase = .stopped) (cause : Nat) :
    requestCut s cause = takeCut (cutBurst s s.tmp.step cause) s.tmp.step cause := by
  unfold requestCut
  obtain h | h | h | h := h <;> rw [h]

theorem requestCut_later {s : State} (h : s.tmp.phase = .check ∨ s.tmp.phase = .vote ∨ s.tmp.phase = .flipWait ∨ s.tmp.phase = .inDoubt) (cause : Nat) :
    requestCut s cause = { s with xp := { s.xp with slc := { s.xp.slc with cutDeferred := some cause } } } := by
  unfold requestCut
  obtain h | h | h | h := h <;> rw [h]

/-! ## Repeats -/

theorem repeatBursts_one {s : State} {b : Burst} (h : s.xp.bursts = [b]) (hd : b.due ≤ s.clock) : repeatBursts s =
    { sendCopies s b with xp := { s.xp with bursts := if b.idx < 2 then [{ b with idx := b.idx + 1, due := b.due + 10000 }] else [] } } := by
  unfold repeatBursts
  dsimp only
  rw [h, List.filter_cons_of_pos (by simpa using hd), List.filter_nil, List.foldl_cons, List.foldl_nil, sendCopies_xp, clock_of_kept (sendCopies_kept _ _), h]
  congr 2
  rw [List.filterMap_cons, if_pos hd]
  split
  next e =>
    split at e
    · cases e
    · rw [if_neg ‹_›]; rfl
  next e =>
    split at e
    · rw [if_pos ‹_›, List.filterMap_nil, Option.some.inj e]
    · cases e

/-! ## Fabric time -/

/-- The state in which a master has sent its TIME packet. -/
def timeLeft (s : State) : State := (readyPlanes s).foldl (fun u k => sendPrio u k .TIME (mkPacket s .TIME 0 0xFFFF 0 0 0 0 false (timePayload s))) s

theorem sendTime_master {s : State} (h : isMaster s = true) :
    sendTime s = { timeLeft s with xp := { (timeLeft s).xp with time := { (timeLeft s).xp.time with seq := ((timeLeft s).xp.time.seq + 1) % 2 ^ 32 } } } := by
  unfold sendTime
  rw [if_neg (by simp [h])]
  rfl

theorem timeLeft_keeps {β : Type} (π : State → β) (hπ : ∀ s k c p, π (sendPrio s k c p) = π s) (s : State) : π (timeLeft s) = π s :=
  foldl_keeps π (fun _ u => hπ u _ _ _) _ _

theorem timeLeft_prio (s : State) {q : Nat} (hq : q < 32) (h : linkReady s q = true) : (linkOf (timeLeft s) q).prio =
    (linkOf s q).prio ++ [(.TIME, mkPacket s .TIME 0 0xFFFF 0 0 0 0 false (timePayload s))] :=
  foldl_sendPrio_prio (fun _ => mkPacket s .TIME 0 0xFFFF 0 0 0 0 false (timePayload s)) .TIME (fun _ _ _ => rfl) _
    (readyPlanes_nodup s) (mem_readyPlanes hq h) s

theorem prioOnly_timeLeft (s : State) : PrioOnly s (timeLeft s) :=
  foldl_holds (P := PrioOnly s) (fun t _ ht => ht.trans (prioOnly_sendPrio t _ _ _)) _ s (.of_links rfl)

/-- The time service of `s` as a TIME packet on plane `k` is followed (R283). -/
def timeHeard (s : State) (k : Nat) (p : Packet) : TimeSvc :=
  { s.xp.time with state := .locked, srcPlane := k, master := fieldAt p.payload 0x10 2, offset := timeOffset s k p, lastRx := s.clock, period := fieldAt p.payload 0x18 2 }

theorem timeOffset_inc (s : State) (k n : Nat) (p : Packet) : timeOffset (s.inc R.TIME_RX_RX 0 n) k p = timeOffset s k p := by
  unfold timeOffset
  rw [rd_inc_apart (by decide)]
  rfl

theorem slewFor_frame (s : State) (off : Int) : (slewFor s off).2 = s ∨ (slewFor s off).2 = s.fresh.2 := by
  unfold slewFor
  split
  · exact .inl rfl
  · exact .inr rfl

theorem slewTime_near {s : State} {off : Int} (hl : s.xp.time.state = .locked) (hn : off.natAbs ≤ 20) : slewTime s off =
    (slewFor s off).2.setTime { (slewFor s off).2.xp.time with rate := (slewFor s off).1, count := s.xp.time.count + 1 } := by
  unfold slewTime
  dsimp only
  have hx : (slewFor s off).2.xp = s.xp := by obtain e | e := slewFor_frame s off <;> rw [e]; rfl
  rw [if_neg (by rw [hx, hl]; simp), if_pos (by simpa using hn)]

theorem handleTime_near {s : State} {k : Nat} {p : Packet} (hm : isMaster s = false) (hl : s.xp.time.state = .locked)
    (hp : fieldAt p.payload 0x10 2 = s.xp.time.master) (hk : k = s.xp.time.srcPlane) (hs : bitOf s.xp.suspect k = false)
    (ho : (timeOffset s k p).natAbs ≤ 20) :
    handleTime s k p = slewTime ((s.inc R.TIME_RX_RX 0 1).setTime (timeHeard s k p)) (timeOffset s k p) := by
  have hm' : isMaster (s.inc R.TIME_RX_RX 0 1) = false := (on_inc_apart (by decide) s _ _ _).trans hm
  unfold handleTime
  dsimp only
  rw [hm', if_neg (by simp), State.inc_xp, hp, bne_self_eq_false, Bool.and_false, if_neg Bool.false_ne_true, State.inc_xp,
    if_neg (by simp [hs]), if_neg (by simp [hk])]
  unfold followTime
  dsimp only
  rw [timeOffset_inc, show (s.inc R.TIME_RX_RX 0 1).xp.time.state = .locked from hl]
  dsimp only
  rw [if_neg (by omega)]
  rfl

/-! ## The messages and the time service together -/

/-- Settles O42: a STOP acts by its tag, a cut request by the phase, a burst's repeat goes to every READY plane, and the time
service follows the packets of its master. -/
theorem stopsCutsAndFabricTime : Obligations.StopsCutsAndFabricTime := by
  unfold Obligations.StopsCutsAndFabricTime
  intro s k p on
  refine ⟨fun hc hn ht hl => ?_, fun hc hn ht hh => ?_, fun hc hn ht => ?_, fun h hs hl => ?_, fun hc hn ht hp => ?_, fun h => ?_, fun h hp hs => ?_,
    fun b hb hd => ?_, fun hm => ?_, fun ho hcrc hv hm hl hma hk hsu hoff => ?_, fun hm hl ht => ?_⟩
  · obtain ⟨htmp, hfr, -, hfl⟩ := stopApply_live (s := stopNoted s p) ((attemptLive_congr (stopNoted_tmp s p) rfl).trans hl)
    refine ⟨stopApply (stopNoted s p), ?_, ?_, ?_, ?_, ?_, hfr, hfl, ?_, ?_⟩
    · refine (onUnit_on on hc.named _).trans (congrArg Host.Outcome.next ?_)
      rw [receivePlain_comes hc, handleStop_new hn]
      unfold stopByTag
      rw [tagOrder_congr (stopNoted_tmp s p), ht]
    · rw [htmp]
    · rw [htmp]; rfl
    · rw [htmp]; rfl
    · rw [htmp]; rfl
    · rw [stopApply_mem]; rfl
    · rw [stopApply_ctxs]; rfl
  · refine ⟨{ stopNoted s p with attempt := { s.attempt with heldStop := some (fieldAt p.payload 0 8, fieldAt p.payload 8 1, fieldAt p.payload 9 1) } },
      ?_, rfl, rfl, rfl, rfl, rfl⟩
    refine (onUnit_on on hc.named _).trans (congrArg Host.Outcome.next ?_)
    rw [receivePlain_comes hc, handleStop_new hn]
    unfold stopByTag
    rw [tagOrder_congr (stopNoted_tmp s p), ht]
    dsimp only
    rw [show (stopNoted s p).attempt.heldStop = none from hh]
    rfl
  · refine ⟨(stopNoted s p).inc R.SLC_STALE_STALE slcI 1, ?_, rfl, rfl, rfl, rfl, rfl, ?_⟩
    · refine (onUnit_on on hc.named _).trans (congrArg Host.Outcome.next ?_)
      rw [receivePlain_comes hc, handleStop_new hn]
      unfold stopByTag
      rw [tagOrder_congr (stopNoted_tmp s p), ht]
    · rw [rd_inc_same, stopNoted, rd_inc_apart (by decide)]
      rfl
  · obtain ⟨ltmp, lfl, lmem, lctx⟩ := stopLeft_frame s
    obtain ⟨htmp, hfr, hst, hfl⟩ := stopApply_live (s := stopLeft s) ((attemptLive_congr ltmp (by rw [stopLeft_attempt])).trans hl)
    refine ⟨stopApply (stopLeft s), (live_on on _).trans (congrArg Host.Outcome.next (sendStopNow_first h hs)), ?_, hfr, ?_, ?_, ?_, ?_, ?_, ?_⟩
    · rw [htmp]
    · rw [hst, stopLeft_attempt]
    · rw [htmp, ltmp]
    · rw [stopApply_xp, stopLeft_bursts hs]
    · rw [hfl, lfl]
    · rw [stopApply_mem, lmem]
    · rw [stopApply_ctxs, lctx]
  · refine ⟨setCutPending (cutNoted s p) (fieldAt p.payload 0 8) (bits (fieldAt p.payload 8 8) 0 2), ?_, ?_, ?_, ?_, ?_, ?_, ?_⟩
    · refine (onUnit_on on hc.named _).trans (congrArg Host.Outcome.next ?_)
      rw [receivePlain_comes hc, handleCut_new hn ht hp]
    · rw [setCutPending_xp]
    · rw [setCutPending_xp]
    · rw [setCutPending_xp]; rfl
    · rw [setCutPending_tmp]; rfl
    · rw [setCutPending_mem]; rfl
    · rw [setCutPending_ctxs]; rfl
  · exact (live_on on _).trans (congrArg Host.Outcome.next (requestCut_later h 0))
  · obtain ⟨hslc, hbu⟩ := cutBurst_frame hs s.tmp.step 0
    refine ⟨setCutPending (cutBurst s s.tmp.step 0) s.tmp.step 0, ?_, ?_, ?_, ?_, ?_, ?_, ?_⟩
    · refine (live_on on _).trans (congrArg Host.Outcome.next ?_)
      rw [requestCut_sends h, takeCut_first (by rw [hslc]; exact hp)]
    · rw [setCutPending_xp]
    · rw [setCutPending_xp]
    · rw [setCutPending_xp]; exact hbu
    · rw [setCutPending_tmp, cutBurst_tmp]
    · rw [setCutPending_mem, cutBurst_mem]
    · rw [setCutPending_ctxs, cutBurst_ctxs]
  · exact ⟨_, (live_on on _).trans (congrArg Host.Outcome.next (repeatBursts_one hb hd)), rfl, fun q hq hr => sendCopies_prio s b hq hr,
      prioOnly_sendCopies s b, sendCopies_tmp s b, sendCopies_mem s b, sendCopies_ctxs s b⟩
  · have hx := timeLeft_keeps (·.xp) (fun _ _ _ _ => rfl) s
    refine ⟨_, (live_on on _).trans (congrArg Host.Outcome.next (sendTime_master hm)), ?_, fun q hq hr => timeLeft_prio s hq hr, prioOnly_timeLeft s,
      timeLeft_keeps (·.tmp) (fun _ _ _ _ => rfl) s, timeLeft_keeps (·.mem) (fun _ _ _ _ => rfl) s, timeLeft_keeps (·.ctxs) (fun _ _ _ _ => rfl) s⟩
    dsimp only at hx ⊢
    rw [hx]
  · have hk32 : k < 32 := by
      unfold planeOpen at ho
      simp only [Bool.and_eq_true, decide_eq_true_eq] at ho
      exact ho.1
    refine ⟨_, (onUnit_on on hk32 _).trans (congrArg Host.Outcome.next
      (((receivePlain_time ho hcrc hv _).trans (handleTime_near hm hl hma hk hsu hoff)).trans (slewTime_near rfl hoff))), ?_⟩
    obtain e | e := slewFor_frame ((s.inc R.TIME_RX_RX 0 1).setTime (timeHeard s k p)) (timeOffset s k p)
    all_goals
      rw [e]
      exact ⟨rfl, rfl, rfl, rfl, hma, rfl, rfl, rfl, rfl, rfl, rfl, rfl⟩
  · refine ⟨raise (s.setTime { s.xp.time with state := .holdover }) .TIME 0 5, ?_, ?_, evt_raise _ _ _ (by decide), ?_, ?_, ?_⟩
    · refine (live_on on _).trans (congrArg Host.Outcome.next ?_)
      unfold enterHoldover
      exact if_pos ⟨by simp [hm], hl, ht⟩
    · rw [raise_xp]; rfl
    · rw [raise_now]; rfl
    · rw [raise_mem]; rfl
    · rw [raise_ctxs]; rfl

end Sys2Proof.Machine

namespace Sys2Proof.Machine

open Sys2Proof

/-! ## Flows: what leaves them as they are -/

theorem flowOf_of_flows {s t : State} (h : t.xp.flows = s.xp.flows) (g : Nat) : flowOf t g = flowOf s g :=
  congrArg (fun l => Tbl.get Flow.freed l g) h

theorem noteDrain_flows (s : State) : (noteDrain s).xp.flows = s.xp.flows := by
  unfold noteDrain
  split <;> rfl

theorem startBurst_flows (s : State) (c : PClass) (bs : List Byte) : (startBurst s c bs).xp.flows = s.xp.flows := by
  by_cases h : s.xp.slc.cur.slice = 0
  · unfold startBurst
    rw [if_pos h]
  · rw [startBurst_xp h]

theorem requestCut_flows (s : State) (cause : Nat) : (requestCut s cause).xp.flows = s.xp.flows := by
  have htake : ∀ (u : State) (step : Nat), (takeCut u step cause).xp.flows = u.xp.flows := by
    intro u step
    unfold takeCut
    repeat' split
    · rw [setCutPending_xp]
    all_goals rfl
  have hburst : (cutBurst s s.tmp.step cause).xp.flows = s.xp.flows := by
    unfold cutBurst
    split
    · rfl
    · rw [startBurst_flows, State.inc_xp]
  unfold requestCut
  split
  · rfl
  · rfl
  · rfl
  · rfl
  · rw [htake, hburst]

/-- A health input may ask for a cut, and changes no flow. -/
theorem healthInput_flows (s : State) (n unit : Nat) : (healthInput s n unit).xp.flows = s.xp.flows := by
  have hwarn : ∀ u : State, (warnCut u unit).xp.flows = u.xp.flows := by
    intro u
    unfold warnCut
    dsimp only
    refine iteInduction (motive := fun t : State => t.xp.flows = u.xp.flows) (fun _ => ?_) (fun _ => rfl)
    rw [requestCut_flows, raise_xp, State.inc_xp]
  unfold healthInput updateLevel
  dsimp only
  refine iteInduction (motive := fun t : State => t.xp.flows = s.xp.flows) (fun _ => ?_) (fun _ => rfl)
  unfold levelRise
  dsimp only
  refine iteInduction (motive := fun t : State => t.xp.flows = s.xp.flows) (fun _ => (hwarn _).trans ?_) (fun _ => ?_)
  all_goals
    repeat' split
    all_goals simp

theorem planeTimeout_flows (s : State) (k peer : Nat) : (planeTimeout s k peer).xp.flows = s.xp.flows := by
  unfold planeTimeout
  dsimp only
  refine iteInduction (motive := fun t : State => t.xp.flows = s.xp.flows) (fun _ => ?_) (fun _ => rfl)
  rw [logErr_xp, raise_xp]

theorem serveNeeds_none {s : State} (h : s.xp.needPeers = []) : serveNeeds s = s := by
  unfold serveNeeds
  dsimp only
  rw [h, List.foldl_nil, ← h]

theorem fillAdvance_none {s : State} (h : s.ckp.loads = []) : fillAdvance s = s := by
  unfold fillAdvance
  rw [h]
  rfl

/-! ## Flights -/

theorem flightOf_setFlight (s : State) (id : Nat) (f : Flight) : flightOf (s.setFlight id f) id = some f := by
  unfold flightOf
  show ((Tbl.set s.flights id f).find? _).map _ = _
  induction s.flights with
  | nil => simp [Tbl.set]
  | cons e l ih =>
    unfold Tbl.set
    by_cases h : e.1 = id
    · rw [if_pos h]
      simp
    · rw [if_neg h, List.find?_cons_of_neg (by simpa using h), ih]

theorem find_filter_kept {p : Nat × Flight → Bool} {id : Nat} {f : Flight} (hp : ∀ e, e.2 = f → p e = true) (l : List (Nat × Flight))
    (h : (l.find? (fun e => e.1 == id)).map (·.2) = some f) : ((l.filter p).find? (fun e => e.1 == id)).map (·.2) = some f := by
  induction l with
  | nil => exact absurd h nofun
  | cons e l ih =>
    by_cases he : e.1 = id
    · rw [List.find?_cons_of_pos (by simpa using he)] at h
      rw [List.filter_cons_of_pos (hp e (Option.some.inj h)), List.find?_cons_of_pos (by simpa using he)]
      exact h
    · rw [List.find?_cons_of_neg (by simpa using he)] at h
      rw [List.filter_cons]
      split
      · rw [List.find?_cons_of_neg (by simpa using he), ih h]
      · exact ih h

theorem flightOf_prune {s : State} {id : Nat} {f : Flight} (h : flightOf s id = some f) (ha : f.abandoned = false) : flightOf (prune s) id = some f :=
  find_filter_kept (fun e he => by simp [he, ha]) s.flights h

/-! ## Acknowledgements -/

theorem ackOwner_reply {s : State} {p : OutPkt} (h : p.owner = .reply) : ackOwner s p = s := by
  unfold ackOwner
  rw [h]
  split <;> rfl

theorem ackOwner_write {s : State} {p : OutPkt} {id : Nat} {f : Flight} (ha : p.abandoned = false) (ho : p.owner = .flight id)
    (hf : flightOf s id = some f) (hw : f.work ≠ .signal) (hc : p.cls = .WRITE) : ackOwner s p = s.setFlight id { f with left := f.left - 1 } := by
  unfold ackOwner
  rw [if_neg (by simp [ha]), ho]
  dsimp only
  rw [hf]
  dsimp only
  rw [if_neg hw, if_pos hc]
  unfold countDown
  dsimp only
  rw [hf]

theorem foldl_fixed_mem {α β : Type} {g : β → α → β} (b : β) (l : List α) (h : ∀ x ∈ l, g b x = b) : l.foldl g b = b := by
  induction l with
  | nil => rfl
  | cons x l ih => rw [List.foldl_cons, h x (.head _), ih (fun y hy => h y (.tail _ hy))]

theorem receiveAck_clean {s : State} {p : Packet} (hp : (flowOf s p.flow).peer = p.src) (ho : (flowOf s p.flow).state = .opened)
    (hn : fieldAt p.payload 0x14 4 % 16 = 0) (hl : s.ckp.loads = []) :
    receiveAck s p = releaseAcked s p.flow (fieldAt p.payload 0 4) (fieldAt p.payload 8 8) := by
  unfold receiveAck ackFlow
  dsimp only
  rw [if_pos ⟨hp, .inl ho⟩, hn]
  dsimp only
  rw [if_neg (not_not_intro rfl), if_neg (by rw [ho]; exact nofun), if_pos rfl]
  exact fillAdvance_none (by rw [releaseAcked_ckp, hl])

/-- The state in which the packets that an ACK names have left their flow. -/
def ackedOff (s : State) (f cum sack : Nat) : State :=
  noteDrain (s.setFlow f { flowOf s f with unacked := (flowOf s f).unacked.filter (fun u => !acks cum sack u.seq), lastUse := s.clock })

theorem ackedOff_same (s : State) (f cum sack : Nat) : flowOf (ackedOff s f cum sack) f =
    { flowOf s f with unacked := (flowOf s f).unacked.filter (fun u => !acks cum sack u.seq), lastUse := s.clock } := by
  unfold ackedOff
  rw [flowOf_of_flows (noteDrain_flows _), flowOf_setFlow_same]

theorem ackedOff_other (s : State) {f g : Nat} (cum sack : Nat) (h : g ≠ f) : flowOf (ackedOff s f cum sack) g = flowOf s g := by
  unfold ackedOff
  rw [flowOf_of_flows (noteDrain_flows _), flowOf_setFlow_other _ _ h]

theorem ackedOff_needPeers (s : State) (f cum sack : Nat) : (ackedOff s f cum sack).xp.needPeers = s.xp.needPeers := by
  unfold ackedOff noteDrain
  split <;> rfl

theorem ackedOff_keeps {β : Type} (π : State → β) (h : ∀ (u : State) x, π { u with xp := x } = π u) (s : State) (f cum sack : Nat) :
    π (ackedOff s f cum sack) = π s := by
  unfold ackedOff noteDrain
  dsimp only
  split
  · exact (h _ _).trans (h s _)
  · exact h s _

theorem releaseAcked_hit {s : State} {f cum sack : Nat} {u : Unacked} (h : u ∈ (flowOf s f).unacked) (ha : acks cum sack u.seq = true) :
    releaseAcked s f cum sack = prune (((flowOf s f).unacked.filter (fun u => acks cum sack u.seq)).foldl (fun s u => ackOwner s u.pkt)
      (ackedOff s f cum sack)) := by
  unfold releaseAcked
  dsimp only
  rw [if_neg (by simpa using ⟨u, h, ha⟩)]
  rfl

/-- Packets that answer nobody are released, and nothing else changes. -/
theorem releaseAcked_replies {s : State} {f cum sack : Nat} (hr : ∀ u ∈ (flowOf s f).unacked, u.pkt.owner = .reply) :
    releaseAcked s f cum sack = s ∧ (flowOf s f).unacked.filter (fun u => !acks cum sack u.seq) = (flowOf s f).unacked ∨
      releaseAcked s f cum sack = prune (ackedOff s f cum sack) := by
  by_cases h : ∃ u ∈ (flowOf s f).unacked, acks cum sack u.seq = true
  · obtain ⟨u, hu, ha⟩ := h
    refine .inr ?_
    rw [releaseAcked_hit hu ha, foldl_fixed_mem (g := fun s u => ackOwner s u.pkt) _ _ (fun x hx => ackOwner_reply (hr x (List.mem_filter.1 hx).1))]
  · have hno : ∀ u ∈ (flowOf s f).unacked, acks cum sack u.seq = false := fun u hu => Bool.not_eq_true _ ▸ fun ha => h ⟨u, hu, ha⟩
    refine .inl ⟨?_, List.filter_eq_self.2 (fun u hu => by simp [hno u hu])⟩
    unfold releaseAcked
    dsimp only
    rw [if_pos (by simpa using hno)]

/-! ## Injection and resends -/

theorem mkPacket_congr {s t : State} (ha : t.tmp.att = s.tmp.att) (hx : t.xp.slc = s.xp.slc) (hn : t.now = s.now) (c : PClass)
    (slice dst flow tryNo seq addr : Nat) (tag : Bool) (bs : List Byte) :
    mkPacket t c slice dst flow tryNo seq addr tag bs = mkPacket s c slice dst flow tryNo seq addr tag bs := by
  unfold mkPacket
  rw [ha, hx, hn]

theorem sendTry_flows (s : State) (f k seq att tries : Nat) (p : OutPkt) (bs : List Byte) :
    (sendTry s f k seq att tries p bs).xp.flows = s.xp.flows := rfl

/-- The packet of a try stands at the end of the egress queue of its plane, and no other link changes. -/
theorem sendTry_links (s : State) (f k seq att tries : Nat) (p : OutPkt) (bs : List Byte) : ∃ l, (sendTry s f k seq att tries p bs).links =
    Tbl.set s.links k l ∧ l.egress = (linkOf s k).egress ++ [(p.cls, mkPacket { s with tmp := { s.tmp with att := att } } p.cls s.xp.slc.cur.slice
      (flowOf s f).peer (flowOf s f).peerFlow (tries - 1) seq p.addr p.stepTag bs)] := ⟨_, rfl, rfl⟩

theorem nextPlane_some {ps : List Nat} {last k : Nat} (h : nextPlane ps last = some k) : k ∈ ps := by
  unfold nextPlane at h
  split at h
  next e => exact Option.some.inj h ▸ List.mem_of_find?_eq_some e
  · exact List.mem_of_head? h

/-- The flow as its first waiting packet leaves on plane `q`. -/
def Flow.injected (x : Flow) (s : State) (q : Nat) (o : OutPkt) (rest : List OutPkt) : Flow :=
  { x with txNext := (x.txNext + 1) % 2 ^ 32, waiting := rest, reads := x.reads ++ readOutOf o,
           unacked := x.unacked ++ [⟨x.txNext, s.tmp.att, o, 1, some q, s.clock⟩], lastPlane := q, lastUse := s.clock, throttled := false }

theorem injectNext_sends {s : State} {f q : Nat} {o : OutPkt} {rest : List OutPkt} {bs : List Byte} (hw : (flowOf s f).waiting = o :: rest)
    (hm : mayInject s f o = true) (hs : s.xp.slc.cur.slice ≠ 0) (hf : sourceFails s o = none)
    (hq : nextPlane ((effPlanes s (flowOf s f).peer).filter (fun k => !planeSkipped s k)) (flowOf s f).lastPlane = some q)
    (hp : payloadOf s o = some bs) : injectNext s f =
      sendTry (sourceRead (s.setFlow f ((flowOf s f).injected s q o rest)) o) f q (flowOf s f).txNext s.tmp.att 1 o bs := by
  have hne : (effPlanes s (flowOf s f).peer).isEmpty = false := by
    have := (List.mem_filter.1 (nextPlane_some hq)).1
    cases h : effPlanes s (flowOf s f).peer with
    | nil => rw [h] at this; cases this
    | cons => rfl
  unfold injectNext
  dsimp only
  rw [hw]
  dsimp only
  rw [if_neg (by simp [hm, hs]), hf]
  dsimp only
  rw [hne, if_neg Bool.false_ne_true, hq]
  unfold injectOn
  dsimp only
  rw [hp]
  rfl

theorem effPlanes_congr {s t : State} (hx : t.xp = s.xp) (hl : t.links = s.links) (hr : ∀ d, t.rd R.XPT_SPRAY_MASK d = s.rd R.XPT_SPRAY_MASK d)
    (node : Nat) : effPlanes t node = effPlanes s node := by
  unfold effPlanes
  congr 1
  funext k
  unfold planeUsable rteEntry
  dsimp only
  rw [hx, hr, show linkReady t k = linkReady s k by unfold linkReady; rw [linkOf_congr hl]]

/-- A packet without a source is sent again on the next plane. -/
theorem resend_head {s : State} {f q : Nat} {u : Unacked} (ecc : Ecc) (hs : u.pkt.src = none)
    (hq : nextPlane (effPlanes s (flowOf s f).peer) (u.plane.getD (flowOf s f).lastPlane) = some q) : resend s f u ecc =
      sendTry ((s.inc R.XPT_RESENDS_RESENDS (flowDie f) 1).setUnacked f { u with tries := u.tries + 1, plane := some q, at' := s.clock }) f q
        u.seq u.att (u.tries + 1) u.pkt u.pkt.head := by
  unfold resend payloadOf sourceRead
  dsimp only
  rw [hs]
  dsimp only
  rw [effPlanes_congr (State.inc_xp _ _ _ _) (State.inc_links _ _ _ _) (fun d => rd_inc_apart (by decide) _ _ _ _), hq, if_neg (by simp)]
  rfl

/-- The state after a try has timed out on its plane (R276). -/
def tryEnded (s : State) (d peer : Nat) : Option Nat → State
  | some k => planeTimeout (s.inc R.XPT_TIMEOUTS_TIMEOUTS d 1) k peer
  | none => s.inc R.XPT_TIMEOUTS_TIMEOUTS d 1

theorem tryTimeout_due {s : State} {f q : Nat} {u : Unacked} (ecc : Ecc) (ho : (flowOf s f).state = .opened)
    (hu : (flowOf s f).unacked.find? (fun u => u.seq == q) = some u) (hd : u.at' + resendNs s (flowDie f) ≤ s.clock) :
    tryTimeout s f q ecc = healthInput (retry (tryEnded s (flowDie f) (flowOf s f).peer u.plane) f u ecc) 6 (portId (flowDie f)) := by
  unfold tryTimeout
  dsimp only
  rw [if_neg (by simp [ho]), hu]
  dsimp only
  rw [if_pos hd]
  unfold tryEnded
  cases u.plane <;> rfl

theorem tryEnded_flows (s : State) (d peer : Nat) (o : Option Nat) : (tryEnded s d peer o).xp.flows = s.xp.flows := by
  cases o with
  | some k => exact planeTimeout_flows _ _ _
  | none => rfl

theorem tryEnded_keeps {β : Type} (π : State → β) (hi : ∀ u d, π (State.inc u R.XPT_TIMEOUTS_TIMEOUTS d 1) = π u)
    (ht : ∀ u k n, π (planeTimeout u k n) = π u) (s : State) (d peer : Nat) (o : Option Nat) : π (tryEnded s d peer o) = π s := by
  cases o with
  | some k => exact (ht _ _ _).trans (hi _ _)
  | none => exact hi _ _

theorem rd_planeTimeout_quiet {f : Field} {i : Nat} (h : loud (f.key i) = false) (s : State) (k peer : Nat) : (planeTimeout s k peer).rd f i = s.rd f i := by
  unfold planeTimeout
  dsimp only
  refine iteInduction (motive := fun t : State => t.rd f i = s.rd f i) (fun _ => ?_) (fun _ => rfl)
  rw [rd_logErr_quiet h, rd_raise_quiet h]
  rfl

theorem triesOf_tryEnded (s : State) (d peer : Nat) (o : Option Nat) (e : Nat) : triesOf (tryEnded s d peer o) e = triesOf s e := by
  unfold triesOf
  rw [tryEnded_keeps (fun t : State => t.rd R.XPT_CFG_TRIES e) (fun u d => rd_inc_apart (by decide) u _ _ _)
    (fun u k n => rd_planeTimeout_quiet (quiet_of_still (by decide) e) u k n)]

/-! ## Flows open, send and close -/

/-- Flow `f` of `s` has become `x`, and no other flow, no memory, no context and no field of TMP has changed. -/
def FlowBecomes (s t : State) (f : Nat) (x : Flow) : Prop :=
  flowOf t f = x ∧ (∀ g, g ≠ f → flowOf t g = flowOf s g) ∧ t.mem = s.mem ∧ t.ctxs = s.ctxs ∧ t.tmp = s.tmp

theorem FlowBecomes.setFlow (s : State) (f : Nat) (x : Flow) : FlowBecomes s (s.setFlow f x) f x :=
  ⟨flowOf_setFlow_same _ _ _, fun _ => flowOf_setFlow_other _ _, rfl, rfl, rfl⟩

theorem FlowBecomes.keep {s t u : State} {f : Nat} {x : Flow} (h : FlowBecomes s t f x) (hf : u.xp.flows = t.xp.flows) (hm : u.mem = t.mem)
    (hc : u.ctxs = t.ctxs) (ht : u.tmp = t.tmp) : FlowBecomes s u f x := by
  obtain ⟨hx, ho, m, c, t'⟩ := h
  exact ⟨(flowOf_of_flows hf f).trans hx, fun g hg => (flowOf_of_flows hf g).trans (ho g hg), hm.trans m, hc.trans c, ht.trans t'⟩

theorem FlowBecomes.ackedOff (s : State) (f cum sack : Nat) : FlowBecomes s (ackedOff s f cum sack) f
    { flowOf s f with unacked := (flowOf s f).unacked.filter (fun u => !acks cum sack u.seq), lastUse := s.clock } :=
  ⟨ackedOff_same s f cum sack, fun _ => ackedOff_other s cum sack, ackedOff_keeps (·.mem) (fun _ _ => rfl) s f cum sack,
    ackedOff_keeps (·.ctxs) (fun _ _ => rfl) s f cum sack, ackedOff_keeps (·.tmp) (fun _ _ => rfl) s f cum sack⟩

theorem FlowBecomes.prune {s t : State} {f : Nat} {x : Flow} (h : FlowBecomes s t f x) : FlowBecomes s (prune t) f x := h.keep rfl rfl rfl rfl

theorem resend_becomes (s : State) (f q : Nat) {u v : Unacked} (bs : List Byte) (hv : v.seq = u.seq) : FlowBecomes s
    (sendTry ((s.inc R.XPT_RESENDS_RESENDS (flowDie f) 1).setUnacked f v) f q u.seq u.att (u.tries + 1) u.pkt bs) f
    { flowOf s f with unacked := (flowOf s f).unacked.map (fun w => if w.seq = u.seq then v else w) } := by
  have h := FlowBecomes.setFlow (s.inc R.XPT_RESENDS_RESENDS (flowDie f) 1) f
    { flowOf s f with unacked := (flowOf s f).unacked.map (fun w => if w.seq = u.seq then v else w) }
  rw [← hv] at h ⊢
  exact FlowBecomes.keep h rfl (by simp [State.setUnacked, State.setFlow]) rfl rfl

/-- Settles O40: a flow's entry follows CTRL, injection, acknowledgement and resend, and no other flow moves. -/
theorem flowsOpenSendAndClose : Obligations.FlowsOpenSendAndClose := by
  unfold Obligations.FlowsOpenSendAndClose
  intro s k p on
  refine ⟨fun f hc hk hno hf => ?_, fun hc hk ho hp => ?_, fun hc hk ho hp hu hw hn => ?_, fun f o rest q bs hf hw hm hs hsf hq hpay => ?_,
    fun hc hp ho hn hl hne hr => ?_, fun u id fl hc hp ho hn hl hne hu hcls hab how hfl hsig hfa hack => ?_,
    fun f q u bs ecc hf ho hu hd ht hsrc hhead s1 q1 hs1 hq1 => ?_⟩
  · refine ⟨answerOpen (s.setFlow f { Flow.freed with state := .opened, peer := p.src, peerFlow := ctrlFlow p, lastUse := s.clock })
      p.src (ctrlFlow p) f, ?_, ?_⟩
    · refine (onUnit_on on hc.named _).trans (congrArg Host.Outcome.next ?_)
      rw [if_pos hk, receivePlain_comes hc]
      unfold receiveOpen acceptOpen
      dsimp only
      rw [hno]
      dsimp only
      rw [hf]
    · unfold answerOpen
      exact (FlowBecomes.setFlow s f _).keep (by rw [sendCtrl_xp]) (by simp) (by simp) (by simp)
  · refine ⟨openedWith s p.flow (ctrlFlow p), ?_, flowOf_setFlow_same _ _ _, fun g => flowOf_setFlow_other _ _, rfl, rfl, rfl, rfl⟩
    refine (onUnit_on on hc.named _).trans (congrArg Host.Outcome.next ?_)
    rw [if_pos hk, receivePlain_comes hc]
    exact if_pos ⟨ho, hp⟩
  · refine ⟨s.setFlow p.flow Flow.freed, ?_, flowOf_setFlow_same _ _ _, fun g => flowOf_setFlow_other _ _, rfl, rfl, rfl, rfl⟩
    refine (onUnit_on on hc.named _).trans (congrArg Host.Outcome.next ?_)
    rw [if_pos hk, receivePlain_comes hc]
    unfold receiveClose
    dsimp only
    rw [if_pos ⟨hp, ho, by simp [hu]⟩, hw]
    exact serveNeeds_none hn
  · obtain ⟨l, hlinks, hegress⟩ := sendTry_links (sourceRead (s.setFlow f ((flowOf s f).injected s q o rest)) o) f q (flowOf s f).txNext s.tmp.att 1 o bs
    obtain ⟨hx, ho, hmem, hctx, htmp⟩ := FlowBecomes.keep (FlowBecomes.setFlow s f ((flowOf s f).injected s q o rest))
      (u := sendTry (sourceRead (s.setFlow f ((flowOf s f).injected s q o rest)) o) f q (flowOf s f).txNext s.tmp.att 1 o bs)
      (by rw [sendTry_flows, sourceRead_xp]) (by simp) (by simp) (by simp)
    refine ⟨_, (onUnit_on on hf _).trans (congrArg Host.Outcome.next (injectNext_sends hw hm hs hsf hq hpay)), hx, ?_, ho, ?_, hmem, hctx, htmp⟩
    · rw [linkOf_same hlinks, hegress, linkOf_congr (sourceRead_links _ _),
        mkPacket_congr (s := s) (by simp) (by simp [sourceRead_xp, State.setFlow]) (by simp [sourceRead_now, State.setFlow]),
        flowOf_congr (sourceRead_xp _ _), flowOf_setFlow_same, sourceRead_xp]
      rfl
    · intro j hj
      rw [linkOf_other hlinks hj, linkOf_congr (sourceRead_links _ _)]
      rfl
  · refine ⟨releaseAcked s p.flow (fieldAt p.payload 0 4) (fieldAt p.payload 8 8), ?_, ?_⟩
    · refine (onUnit_on on hc.named _).trans (congrArg Host.Outcome.next ?_)
      rw [receivePlain_comes hc, receiveAck_clean hp ho hn hl]
      refine serveNeeds_none ?_
      rcases releaseAcked_replies (cum := fieldAt p.payload 0 4) (sack := fieldAt p.payload 8 8) hr with ⟨h, -⟩ | h
      · rw [h, hne]
      · rw [h]
        exact (ackedOff_needPeers _ _ _ _).trans hne
    · rcases releaseAcked_replies (cum := fieldAt p.payload 0 4) (sack := fieldAt p.payload 8 8) hr with ⟨h, he⟩ | h
      · rw [h, he]
        exact ⟨rfl, rfl, fun _ _ => rfl, rfl, rfl, rfl, rfl⟩
      · rw [h]
        obtain ⟨hx, hg, hm, hct, htm⟩ := (FlowBecomes.ackedOff s p.flow (fieldAt p.payload 0 4) (fieldAt p.payload 8 8)).prune
        rw [hx]
        exact ⟨rfl, rfl, hg, hm, hct, htm, ackedOff_keeps (·.links) (fun _ _ => rfl) s _ _ _⟩
  · have hacked : flightOf (ackedOff s p.flow (fieldAt p.payload 0 4) (fieldAt p.payload 8 8)) id = some fl :=
      (ackedOff_keeps (flightOf · id) (fun _ _ => rfl) s _ _ _).trans hfl
    have heq : releaseAcked s p.flow (fieldAt p.payload 0 4) (fieldAt p.payload 8 8) = prune
        ((ackedOff s p.flow (fieldAt p.payload 0 4) (fieldAt p.payload 8 8)).setFlight id { fl with left := fl.left - 1 }) := by
      rw [releaseAcked_hit (by rw [hu]; exact .head _) hack, hu, List.filter_cons_of_pos (p := fun u : Unacked => acks (fieldAt p.payload 0 4) (fieldAt p.payload 8 8) u.seq) hack, List.filter_nil, List.foldl_cons, List.foldl_nil,
        ackOwner_write hab how hacked hsig hcls]
    refine ⟨releaseAcked s p.flow (fieldAt p.payload 0 4) (fieldAt p.payload 8 8), ?_, ?_⟩
    · refine (onUnit_on on hc.named _).trans (congrArg Host.Outcome.next ?_)
      rw [receivePlain_comes hc, receiveAck_clean hp ho hn hl]
      refine serveNeeds_none ?_
      rw [heq]
      exact (ackedOff_needPeers _ _ _ _).trans hne
    · rw [heq]
      obtain ⟨hx, -, hm, hct, htm⟩ := FlowBecomes.keep (FlowBecomes.ackedOff s p.flow (fieldAt p.payload 0 4) (fieldAt p.payload 8 8))
        (u := prune ((ackedOff s p.flow (fieldAt p.payload 0 4) (fieldAt p.payload 8 8)).setFlight id { fl with left := fl.left - 1 })) rfl rfl rfl rfl
      refine ⟨?_, flightOf_prune (flightOf_setFlight _ _ _) hfa, hm, hct, htm, ackedOff_keeps (·.links) (fun _ _ => rfl) s _ _ _⟩
      rw [hx, hu]
      simp [hack]
  · have hs1' : s1 = tryEnded s (flowDie f) (flowOf s f).peer u.plane := by
      rw [hs1]
      unfold tryEnded
      cases u.plane <;> rfl
    have hfl1 : ∀ g, flowOf s1 g = flowOf s g := fun g => flowOf_of_flows (hs1' ▸ tryEnded_flows _ _ _ _) g
    have hkeep : s1.mem = s.mem ∧ s1.ctxs = s.ctxs ∧ s1.tmp = s.tmp ∧ s1.clock = s.clock := by
      rw [hs1']
      exact ⟨tryEnded_keeps (·.mem) (by simp) (by simp) _ _ _ _, tryEnded_keeps (·.ctxs) (by simp) (by simp) _ _ _ _,
        tryEnded_keeps (·.tmp) (by simp) (by simp) _ _ _ _, tryEnded_keeps (·.clock) (by simp) (by simp) _ _ _ _⟩
    obtain ⟨hm1, hc1, ht1, hk1⟩ := hkeep
    obtain ⟨hx, hg, hm, hct, htm⟩ := FlowBecomes.keep (resend_becomes s1 f q1 (u := u)
      (v := { u with tries := u.tries + 1, plane := some q1, at' := s1.clock }) u.pkt.head rfl) (u := healthInput _ 6 (portId (flowDie f)))
      (healthInput_flows _ _ _) (by simp) (by simp) (by simp)
    refine ⟨_, (onUnit_on on hf _).trans (congrArg Host.Outcome.next ?_), (congrArg Flow.unacked hx).trans ?_, fun g hgf => (hg g hgf).trans (hfl1 g), hm.trans hm1,
      hct.trans hc1, htm.trans ht1⟩
    · rw [tryTimeout_due ecc ho hu hd, ← hs1']
      unfold retry
      rw [if_neg (by rw [hs1', triesOf_tryEnded]; omega), resend_head ecc hsrc (by rw [hfl1]; exact hq1)]
    · rw [hfl1, hk1]

end Sys2Proof.Machine

namespace Sys2Proof.Machine

open Sys2Proof

/-! ## Register writes -/

/-- The bits of a register of 32 bits that a field of the low half takes. -/
theorem fieldMask_and_word {lo w : Nat} (h : lo + w ≤ 32) : ((2 ^ w - 1) * 2 ^ lo) &&& (2 ^ 32 - 1) = (2 ^ w - 1) * 2 ^ lo := by
  rw [Nat.and_two_pow_sub_one_eq_mod, Nat.mod_eq_of_lt]
  calc (2 ^ w - 1) * 2 ^ lo < 2 ^ w * 2 ^ lo := Nat.mul_lt_mul_of_pos_right (Nat.sub_one_lt (Nat.ne_of_gt (Nat.two_pow_pos w))) (Nat.two_pow_pos lo)
    _ = 2 ^ (w + lo) := (Nat.pow_add _ _ _).symm
    _ ≤ 2 ^ 32 := Nat.pow_le_pow_right (by decide) (by omega)

theorem fieldMask_pos {lo w : Nat} (h : 0 < w) : (2 ^ w - 1) * 2 ^ lo ≠ 0 :=
  Nat.mul_ne_zero (Nat.sub_ne_zero_of_lt (Nat.one_lt_two_pow (by omega))) (Nat.ne_of_gt (Nat.two_pow_pos lo))

/-- A whole write of a field leaves the written bits in it and nothing of the old ones. -/
theorem written_bits {lo w : Nat} (h : lo + w ≤ 32) (v old : Nat) :
    ((v % 2 ^ 32 &&& (2 ^ 32 - 1) &&& ((2 ^ w - 1) * 2 ^ lo)) ||| ((old * 2 ^ lo) &&& ((2 ^ w - 1) * 2 ^ lo) &&&
      ((2 ^ w - 1) * 2 ^ lo - (((2 ^ w - 1) * 2 ^ lo) &&& (2 ^ 32 - 1))))) / 2 ^ lo = v / 2 ^ lo % 2 ^ w := by
  rw [fieldMask_and_word h, Nat.sub_self, Nat.and_zero, Nat.or_zero, Nat.and_two_pow_sub_one_eq_mod, Nat.mod_mod]
  refine Nat.eq_of_testBit_eq fun j => ?_
  rw [Nat.testBit_div_two_pow, Nat.testBit_and, Nat.testBit_mod_two_pow, Nat.testBit_mul_two_pow, Nat.testBit_two_pow_sub_one, Nat.testBit_mod_two_pow,
    Nat.testBit_div_two_pow, Nat.add_sub_cancel]
  by_cases hj : j < w
  · simp [hj, show j + lo < 32 by omega]
  · simp [hj]

theorem pageAt_bound {slot : Nat} {x : Page × Nat} (h : pageAt slot = some x) : slot < 0x200 := by
  refine Decidable.byContradiction fun hn => ?_
  unfold pageAt at h
  rw [if_neg (by omega), if_neg (by omega), if_neg (by omega), if_neg (by omega), if_neg (by omega), if_neg (by omega), if_neg (by omega),
    if_neg (by omega), if_neg (by omega), if_neg (by omega), if_neg (by omega), if_neg (by omega)] at h
  exact absurd h nofun

/-- A full aligned 32-bit write of a page's register goes to that page. -/
theorem regWriteOp_word {s : State} {slot off : Nat} (who : Writer) (v : Nat) (hs : slot < 0x200) (ho : off < 0x1000) (ha : off % 4 = 0) :
    regWriteOp s who (slot * 0x1000 + off) 32 true v = writeSlot s who slot off 32 (v % 2 ^ 32) := by
  unfold regWriteOp
  rw [if_neg (by simp; omega), if_pos (by omega), show (slot * 0x1000 + off) / 0x1000 = slot by omega, show (slot * 0x1000 + off) % 0x1000 = off by omega]

theorem writeHalf_block {s : State} {p : Page} {off : Nat} (who : Writer) (i v : Nat) (hp : p ∉ [.MSX, .PBA, .DIR, .HRT, .LDG, .WLD]) (ho : 0x100 ≤ off)
    (hf : (blockFields p).any (fun f => f.off == off) = true) : writeHalf s who p i off v = writeBlockReg s who p i off (2 ^ 32 - 1) v := by
  simp only [List.mem_cons, List.not_mem_nil, or_false, not_or] at hp
  obtain ⟨hmsx, hpba, hdir, hhrt, hldg, -⟩ := hp
  unfold writeHalf regBaseOf
  rw [if_neg hmsx, if_neg hpba, if_neg (fun h => hdir h.1), if_neg (by omega), if_neg (fun h => hhrt h.1), if_neg (fun h => hldg h.1), if_pos hf]
  dsimp only
  rw [if_pos rfl]

/-- A write of a register that one field has for itself is a write of that field. -/
theorem writeBlockReg_field {s : State} {who : Writer} {p : Page} {i v : Nat} {f : Field} (hw : who = .host → (capsOf p).hostWritable = true ∧ p ≠ .CTX)
    (hf : (blockFields p).filter (fun g => g.off == f.off) = [f]) (hs : strayBits (blockFields p) f.off (2 ^ 32 - 1) v = false)
    (hb : f.cls = .IDLE → busyOf s p i = false) : writeBlockReg s who p i f.off (2 ^ 32 - 1) v = writeField s f i (2 ^ 32 - 1) v := by
  have hdrop : idleDropped s (blockFields p) p i f.off (2 ^ 32 - 1) = false := by
    unfold idleDropped
    rw [Bool.and_eq_false_iff, List.any_eq_false]
    by_cases hi : f.cls = .IDLE
    · exact .inl (hb hi)
    · refine .inr fun g hg => ?_
      by_cases ho : g.off = f.off
      · have hgf : g ∈ (blockFields p).filter (fun g => g.off == f.off) := List.mem_filter.2 ⟨hg, by simpa using ho⟩
        rw [hf, List.mem_singleton] at hgf
        simp [hgf, hi]
      · simp [ho]
  unfold writeBlockReg
  dsimp only
  rw [if_neg (fun h => by simp [(hw h.1).1] at h), if_neg (fun h => (hw h.1).2 h.2.1), hs, hdrop, hf]
  rfl

/-- A whole write of a read-write field, by its class (R48 to R51). -/
theorem writeField_whole {s : State} {f : Field} {i : Nat} (v : Nat) (hw : 0 < f.width) (hlo : f.lo + f.width ≤ 32) (ha : f.acc = .RW)
    (hr : hasRow f = false) (hp : f.page ∉ [.MSX, .PBA, .DIR, .HRT, .LDG, .WLD]) (hb : f.cls = .IDLE → busyOf s f.page i = false) :
    writeField s f i (2 ^ 32 - 1) (v % 2 ^ 32) = if f.cls = .ARMED then { s with shadow := Store.set s.shadow (f.key i) (v / 2 ^ f.lo % 2 ^ f.width) }
      else s.wr f i (v / 2 ^ f.lo % 2 ^ f.width) := by
  simp only [List.mem_cons, List.not_mem_nil, or_false, not_or] at hp
  obtain ⟨-, -, -, hhrt, -, hwld⟩ := hp
  unfold writeField
  dsimp only
  rw [if_neg (by rw [fieldMask_and_word hlo]; simp [fieldMask_pos hw, ha, hr]), if_neg (fun h => hwld h.1), if_neg (fun h => by simp [hb h.1] at h),
    written_bits hlo, ha]
  cases hc : f.cls with
  | ARMED => rfl
  | LIVE => simp [hhrt]
  | IDLE => simp [hhrt]

theorem shadowOf_set_same (s : State) (f : Field) (i v : Nat) : { s with shadow := Store.set s.shadow (f.key i) v }.shadowOf f i = v :=
  store_get_set_same _ _ _ _

/-- Settles O13: a whole write of a register that one field has for itself changes that field, or its shadow, and nothing else. -/
theorem registerWrites : Obligations.RegisterWrites := by
  unfold Obligations.RegisterWrites
  intro s who p i v f on hpage hreset hp hwho hfp hw h100 h1000 h4 hlo hf ha hr hstray hbusy
  subst hfp
  have hmem : f ∈ blockFields f.page := (List.mem_filter.1 (hf ▸ List.mem_singleton_self f : f ∈ (blockFields f.page).filter (fun g => g.off == f.off))).1
  refine ⟨_, (live_on on _).trans (congrArg Host.Outcome.next (?_ : _ = if f.cls = .ARMED then
    { s with shadow := Store.set s.shadow (f.key i) (v / 2 ^ f.lo % 2 ^ f.width) } else s.wr f i (v / 2 ^ f.lo % 2 ^ f.width))), ?_⟩
  · rw [regWriteOp_word who v (pageAt_bound hpage) h1000 h4]
    unfold writeSlot
    rw [hpage]
    dsimp only
    rw [hreset, if_neg (by simp), if_neg (by simp), if_neg (by simp), Nat.mod_mod,
      writeHalf_block who i _ hp h100 (List.any_eq_true.2 ⟨f, hmem, by simp⟩), writeBlockReg_field hwho hf hstray hbusy,
      writeField_whole v hw hlo ha hr hp hbusy]
  · by_cases hc : f.cls = .ARMED
    · rw [if_pos hc]
      exact ⟨fun h => absurd hc h, fun _ => ⟨shadowOf_set_same _ _ _ _, rfl, fun g j hg => store_get_set_other _ _ _ hg⟩, rfl, rfl⟩
    · rw [if_neg hc]
      exact ⟨fun _ => ⟨(rd_wr_same s f i _).trans (Nat.mod_mod _ _), rfl, fun g j hg => rd_wr_other _ _ hg⟩, fun h => absurd h hc, rfl, rfl⟩

end Sys2Proof.Machine

namespace Sys2Proof.Machine

open Sys2Proof

/-! ## Bytes from and to peers -/

theorem flightOf_congr {s t : State} (h : t.flights = s.flights) (id : Nat) : flightOf t id = flightOf s id := by
  unfold flightOf
  rw [h]

theorem sendPrio_prio (s : State) (k : Nat) (c : PClass) (p : Packet) : (linkOf (sendPrio s k c p) k).prio = (linkOf s k).prio ++ [(c, p)] := by
  rw [linkOf_same (show (sendPrio s k c p).links = Tbl.set s.links k _ from rfl)]

theorem writeAny_setFlow_mem (s : State) (f : Nat) (x : Flow) (a : Nat) (bs : List Byte) : (writeAny (s.setFlow f x) a bs).mem = (writeAny s a bs).mem := by
  by_cases h : windowOf s a = .hostw ∨ windowOf s a = .gx
  · rw [writeAny_mem_outside bs h]
    exact writeAny_mem_outside bs h
  · rw [not_or] at h
    rw [writeAny_mem_inside bs h.1 h.2]
    exact writeAny_mem_inside bs h.1 h.2

theorem writeFor_served {s : State} {r : Req} {p : Packet} (ctx : Nat) (ha : accessOk s r true p.addr p.payload.length = true)
    (hb : accessBlocked s p.addr p.payload.length = none) (hh : waitsHearth s p.addr p.payload.length = false)
    (ht : waitsTouch s p.addr p.payload.length = false) : writeFor s r ctx p = (writeAny s p.addr p.payload, .done) := by
  unfold writeFor
  dsimp only
  rw [if_neg (by simp [ha]), if_neg (by simp [hb, hh, ht])]

theorem writeFor_refused {s : State} {r : Req} {p : Packet} (ctx : Nat) (ha : accessOk s r true p.addr p.payload.length = false) :
    writeFor s r ctx p = (refuseEffects s r true ctx p.addr p.payload.length, .nak 1) := by
  unfold writeFor
  dsimp only
  rw [if_pos (by simp [ha])]

/-! What an acknowledged delivery leaves (R272) -/

/-- In `u` the packet that `t` delivered has been acknowledged: CUM of its flow is one higher and the rest is as in `t`. -/
structure Delivered (t u : State) (p : Packet) : Prop where
  mem : u.mem = t.mem
  cum : (flowOf u p.flow).rxCum = (p.seq + 1) % 2 ^ 32
  reads : (flowOf u p.flow).reads = (flowOf t p.flow).reads
  waiting : (flowOf u p.flow).waiting = (flowOf t p.flow).waiting
  others : ∀ g, g ≠ p.flow → flowOf u g = flowOf t g
  flights : u.flights = t.flights
  ctxs : u.ctxs = t.ctxs
  tmp : u.tmp = t.tmp
  links : u.links = t.links

theorem delivered_noteDelivery {t : State} {p : Packet} (hc : (flowOf t p.flow).rxCum = p.seq) (hm : (flowOf t p.flow).rxMarks = []) :
    Delivered t (noteDelivery t p.flow p.seq) p where
  mem := rfl
  cum := by rw [(noteDelivery_flow _ _ _).1, mark_next hc.symm hm]
  reads := by unfold noteDelivery; rw [flowOf_setFlow_same]; rfl
  waiting := by unfold noteDelivery; rw [flowOf_setFlow_same]; rfl
  others := fun _ hg => flowOf_setFlow_other _ _ hg
  flights := rfl
  ctxs := rfl
  tmp := rfl
  links := rfl

/-- A packet in its turn is acknowledged once its delivery is done, or dropped (R271, R272). -/
theorem receiveSeq_delivered {s t : State} {k : Nat} {c : PClass} {p : Packet} {deliver : Delivery} {v : Verdict} (h : Arrives s k c p)
    (hd : deliver s p.flow p = (t, v)) (hv : v = .done ∨ v = .drop) (hc : (flowOf t p.flow).rxCum = (flowOf s p.flow).rxCum)
    (hm : (flowOf t p.flow).rxMarks = (flowOf s p.flow).rxMarks) (hh : (flowOf t p.flow).heldSignals = (flowOf s p.flow).heldSignals) :
    Delivered t (receiveSeq s k c p deliver) p := by
  rw [receiveSeq_arrives h (by rw [hd, hh, h.held]), hd]
  obtain rfl | rfl := hv
  · obtain ⟨m, cu, r, w, o, fl, ct, tm, l⟩ := delivered_noteDelivery (t := t.inc R.XPT_RX_PKTS_RX_PKTS (planeDie k) 1) (hc.trans h.next.symm) (hm.trans h.marks)
    exact ⟨m, cu, r, w, o, fl, ct, tm, l⟩
  · exact delivered_noteDelivery (hc.trans h.next.symm) (hm.trans h.marks)

/-- Bytes of a peer that are served: they stand in memory and the flow goes on by one. -/
theorem written_delivery {s : State} {k : Nat} {c : PClass} {p : Packet} {deliver : Delivery} (h : Arrives s k c p)
    (hd : deliver s p.flow p = (writeAny s p.addr p.payload, .done)) :
    let t := receiveSeq s k c p deliver
    t.mem = (writeAny s p.addr p.payload).mem ∧ (flowOf t p.flow).rxCum = (p.seq + 1) % 2 ^ 32 ∧ (∀ f, f ≠ p.flow → flowOf t f = flowOf s f) ∧
      t.flights = s.flights ∧ t.ctxs = s.ctxs ∧ t.tmp = s.tmp ∧ t.links = s.links := by
  have hx : ∀ g, flowOf (writeAny s p.addr p.payload) g = flowOf s g := flowOf_congr (writeAny_xp _ _ _)
  obtain ⟨m, cu, -, -, o, fl, ct, tm, l⟩ := receiveSeq_delivered h hd (.inl rfl) (by rw [hx]) (by rw [hx]) (by rw [hx])
  exact ⟨m, cu, fun f hf => (o f hf).trans (hx f), fl.trans (writeAny_flights _ _ _), ct.trans (writeAny_ctxs _ _ _), tm.trans (writeAny_tmp _ _ _),
    l.trans (writeAny_links _ _ _)⟩

/-- The flow of a DATA packet with the READ that it answers taken off. -/
def answered (s : State) (p : Packet) (r : ReadOut) : State :=
  s.setFlow p.flow { flowOf s p.flow with reads := (flowOf s p.flow).reads.erase r }

/-- DATA of a READ of a COPY under way, as it is written under the rights of its context (R271). -/
theorem deliverData_read {s : State} {p : Packet} {r : ReadOut} {id : Nat} {f : Flight}
    (hr : (flowOf s p.flow).reads.find? (fun r => r.dst == p.addr) = some r) (ha : r.abandoned = false) (ho : r.owner = .flight id)
    (hf : flightOf s id = some f) (hok : accessOk s (reqOf s f.ctx) true p.addr p.payload.length = true)
    (hb : accessBlocked s p.addr p.payload.length = none) (hh : (touchesHost p.addr p.payload.length && !hostUsable s) = false)
    (hw : waitsHearth s p.addr p.payload.length = false) (ht : waitsTouch s p.addr p.payload.length = false) :
    deliverData s p.flow p = ((writeAny (answered s p r) p.addr p.payload).setFlight id
      { f with left := f.left - 1 }, .done) := by
  have hwf := writeFor_served (s := answered s p r)
    (r := reqOf s f.ctx) f.ctx hok hb hw ht
  have hown : ownerCtx (answered s p r) (.flight id) = f.ctx := by
    unfold ownerCtx
    dsimp only
    rw [show flightOf (answered s p r) id = some f from hf]
  have hdata : dataFor (answered s p r) (.flight id) p =
      ((writeAny (answered s p r) p.addr p.payload).setFlight id
        { f with left := f.left - 1 }, .done) := by
    unfold dataFor
    dsimp only
    rw [show accessBlocked (answered s p r) p.addr p.payload.length = none from hb]
    dsimp only
    rw [if_neg (by rw [show hostUsable (answered s p r) = hostUsable s from rfl, hh]; simp), hown]
    rw [show reqOf (answered s p r) f.ctx = reqOf s f.ctx from rfl, hwf]
    dsimp only
    rw [if_pos rfl]
    unfold countDown
    dsimp only
    rw [show flightOf (writeAny (answered s p r) p.addr p.payload) id = some f by
      unfold flightOf
      rw [writeAny_flights]
      exact hf]
  unfold deliverData
  dsimp only
  rw [hr]
  dsimp only
  unfold answered at hdata ⊢
  rw [ha, if_neg Bool.false_ne_true, ho, hdata]

/-- DATA of an abandoned READ is acknowledged and counted (R490). -/
theorem deliverData_late {s : State} {p : Packet} {r : ReadOut}
    (hr : (flowOf s p.flow).reads.find? (fun r => r.dst == p.addr) = some r) (ha : r.abandoned = true) :
    deliverData s p.flow p = (prune (if ownerCtx s r.owner < 64 then
      (answered s p r).inc R.CTX_LATE_LATE (ownerCtx s r.owner) 1
      else answered s p r), .drop) := by
  unfold deliverData
  dsimp only
  rw [hr]
  dsimp only
  rw [ha, if_pos rfl]
  rfl

theorem deliverData_unasked {s : State} {p : Packet} (hr : (flowOf s p.flow).reads.find? (fun r => r.dst == p.addr) = none) :
    deliverData s p.flow p = writeFor s (.fabric p.src) 0x3F p := by
  unfold deliverData
  dsimp only
  rw [hr]

theorem readOutcome_ok (s : State) (a ctx : Nat) : readOutcome s a ctx .ok = s := by
  unfold readOutcome
  generalize windowOf s a = w
  cases w <;> rfl

/-- The DATA that a READ asks for (R271). -/
def dataOf (s : State) (p : Packet) : OutPkt :=
  ⟨.DATA, fieldAt p.payload 0 6, [], some (direct s p.addr, fieldAt p.payload 8 8), .reply, p.stepTag, false⟩

theorem deliverRead_ok {s : State} {p : Packet} {g : Nat} (ha : accessOk s (.fabric p.src) false p.addr (fieldAt p.payload 8 8) = true)
    (hw : waitsHearth s p.addr (fieldAt p.payload 8 8) = false) (hb : accessBlocked s p.addr (fieldAt p.payload 8 8) = none)
    (hg : flowTo s p.src = some g) : deliverRead .ok s p.flow p =
      (s.setFlow g { flowOf s g with waiting := (flowOf s g).waiting ++ [dataOf s p] }, .done) := by
  unfold deliverRead
  dsimp only
  rw [if_neg (by simp [ha]), if_neg (by simp [hw]), hb]
  dsimp only
  rw [readOutcome_ok, if_neg nofun]
  unfold queuePkt
  rw [hg]
  rfl

theorem sendFlowAck_on {s : State} {f q : Nat} (h : nextPlane (effPlanes s (flowOf s f).peer) (flowOf s f).lastPlane = some q) : sendFlowAck s f =
    (sendPrio s q .ACK (mkPacket s .ACK s.xp.slc.cur.slice (flowOf s f).peer (flowOf s f).peerFlow 0 0 0 false
      (ackPayload (flowOf s f).rxCum (sackOf (flowOf s f)) 0 0))).setFlow f { flowOf s f with ackDue := 0 } := by
  unfold sendFlowAck sendAckTo
  dsimp only
  rw [h]

/-- Settles O39: bytes of peers reach memory under their rights, and the flow that brought them goes on by one. -/
theorem dataReadsAndWritesFromPeers : Obligations.DataReadsAndWritesFromPeers := by
  unfold Obligations.DataReadsAndWritesFromPeers
  intro s k p on
  refine ⟨fun h ha hb hw ht => ?_, fun h ha hact => ?_, fun h hr ha hb hw ht => ?_, fun r id f h hr hab ho hf ha hb hh hw ht => ?_, fun r h hr hab => ?_,
    fun g h ha hw hb hg => ?_, fun f q hf ho hd hq => ?_⟩
  · exact ⟨_, onUnit_on on h.named _, written_delivery h (writeFor_served _ ha hb hw ht)⟩
  · have hx : (refuseEffects s (.fabric p.src) true 0x3F p.addr p.payload.length).xp = s.xp := refuseEffects_xp _ _ _ _ _ _
    have hd := writeFor_refused (s := s) (r := .fabric p.src) 0x3F ha
    refine ⟨_, (onUnit_on on h.named _).trans (congrArg Host.Outcome.next ((receiveSeq_arrives (deliver := deliverWrite) h ?_).trans (?_ : _ =
      sendFlowNak (refuseEffects s (.fabric p.src) true 0x3F p.addr p.payload.length) p.flow p.seq 1))), ?_, fun f => ?_, ?_, ?_, ?_⟩
    · exact (congrArg (fun d => (flowOf (Prod.fst d) p.flow).heldSignals) hd).trans ((congrArg Flow.heldSignals (flowOf_congr hx _)).trans h.held)
    · exact congrArg (fun d : State × Verdict => applyVerdict d.1 k p.flow p.seq d.2) hd
    · simp
    · rw [flowOf_congr (sendFlowNak_xp _ _ _ _), flowOf_congr hx]
    all_goals simp
  · exact ⟨_, onUnit_on on h.named _, written_delivery h ((deliverData_unasked hr).trans (writeFor_served _ ha hb hw ht))⟩
  · have hx : ∀ g, flowOf (writeAny (answered s p r) p.addr p.payload) g = flowOf (answered s p r) g := flowOf_congr (writeAny_xp _ _ _)
    have hsame : flowOf (answered s p r) p.flow = { flowOf s p.flow with reads := (flowOf s p.flow).reads.erase r } := flowOf_setFlow_same _ _ _
    have hrx : flowOf ((writeAny (answered s p r) p.addr p.payload).setFlight id { f with left := f.left - 1 }) p.flow =
      { flowOf s p.flow with reads := (flowOf s p.flow).reads.erase r } := (hx _).trans hsame
    obtain ⟨m, cu, rd, -, o, fl, ct, tm, l⟩ := receiveSeq_delivered h (deliverData_read hr hab ho hf ha hb hh hw ht) (.inl rfl)
      (by rw [hrx]) (by rw [hrx]) (by rw [hrx])
    refine ⟨_, onUnit_on on h.named _, m.trans (writeAny_setFlow_mem _ _ _ _ _), cu, rd.trans (by rw [hrx]), ?_,
      fun g hg => (o g hg).trans ((hx g).trans (flowOf_setFlow_other _ _ hg)), ct.trans (writeAny_ctxs _ _ _), tm.trans (writeAny_tmp _ _ _),
      l.trans (writeAny_links _ _ _)⟩
    rw [flightOf_congr fl, flightOf_setFlight]
  · have hsame : flowOf (answered s p r) p.flow = { flowOf s p.flow with reads := (flowOf s p.flow).reads.erase r } := flowOf_setFlow_same _ _ _
    have hlate : ∀ {β : Type} (π : State → β), (∀ u i, π (State.inc u R.CTX_LATE_LATE i 1) = π u) → (∀ u, π (prune u) = π u) →
        π (deliverData s p.flow p).1 = π (answered s p r) := by
      intro β π hi hp
      rw [deliverData_late hr hab]
      dsimp only
      rw [hp]
      split
      · exact hi _ _
      · rfl
    have hflow : ∀ g, flowOf (deliverData s p.flow p).1 g = flowOf (answered s p r) g := fun g => hlate (flowOf · g) (fun _ _ => rfl) (fun _ => rfl)
    have hdrop : deliverData s p.flow p = ((deliverData s p.flow p).1, .drop) := by rw [deliverData_late hr hab]
    obtain ⟨m, cu, rd, -, o, -, ct, tm, l⟩ := receiveSeq_delivered h hdrop (.inr rfl)
      (by rw [hflow, hsame]) (by rw [hflow, hsame]) (by rw [hflow, hsame])
    exact ⟨_, onUnit_on on h.named _, m.trans (hlate (·.mem) (fun _ _ => rfl) (fun _ => rfl)), cu, rd.trans (by rw [hflow, hsame]),
      fun g hg => (o g hg).trans ((hflow g).trans (flowOf_setFlow_other _ _ hg)), ct.trans (hlate (·.ctxs) (fun _ _ => rfl) (fun _ => rfl)),
      tm.trans (hlate (·.tmp) (fun _ _ => rfl) (fun _ => rfl)), l.trans (hlate (·.links) (fun _ _ => rfl) (fun _ => rfl))⟩
  · have hrx : ∀ {β : Type} (π : Flow → β), (∀ x w, π { x with waiting := w } = π x) →
        π (flowOf (s.setFlow g { flowOf s g with waiting := (flowOf s g).waiting ++ [dataOf s p] }) p.flow) = π (flowOf s p.flow) := by
      intro β π hπ
      by_cases hpg : p.flow = g
      · rw [hpg, flowOf_setFlow_same, hπ]
      · rw [flowOf_setFlow_other _ _ hpg]
    obtain ⟨m, cu, -, w, o, fl, ct, tm, l⟩ := receiveSeq_delivered h (deliverRead_ok ha hw hb hg) (.inl rfl)
      (hrx (·.rxCum) (fun _ _ => rfl)) (hrx (·.rxMarks) (fun _ _ => rfl)) (hrx (·.heldSignals) (fun _ _ => rfl))
    refine ⟨_, onUnit_on on h.named _, ?_, cu, fun j hj hjg => (o j hj).trans (flowOf_setFlow_other _ _ hjg), m, fl, ct, tm, l⟩
    by_cases hpg : g = p.flow
    · subst hpg
      rw [w, flowOf_setFlow_same]
      rfl
    · rw [o g hpg, flowOf_setFlow_same]
      rfl
  · refine ⟨_, (onUnit_on on hf _).trans (congrArg Host.Outcome.next ((if_pos ⟨ho, hd⟩).trans (sendFlowAck_on hq))), flowOf_setFlow_same _ _ _,
      fun g hg => flowOf_setFlow_other _ _ hg, ?_, fun j hj => ?_, rfl, rfl, rfl, rfl⟩
    · exact sendPrio_prio s q _ _
    · exact prioOnly_sendPrio s q _ _ j

end Sys2Proof.Machine

namespace Sys2Proof.Machine

open Sys2Proof

/-! ## Restore -/

theorem ckpSts_quiet : loud (R.CKP_STS_STATE.key 0) = false ∧ loud (R.CKP_STS_LAST_CODE.key 0) = false ∧
    loud (R.CKP_STS_RESTORED.key 0) = false ∧ loud (R.CKP_STS_FILLED.key 0) = false := by decide

theorem ckpSts_apart_flw {f : Field} (h : f.page = .FLW) (d : Nat) : R.CKP_STS_STATE.key 0 ≠ f.key d := by
  intro e
  have hslot : 6 = canonSlot (slotOf f.page d) := congrArg Key.slot e
  rw [h] at hslot
  unfold canonSlot slotOf at hslot
  dsimp only at hslot
  split at hslot <;> omega

/-- A refusal leaves its code and its event, and nothing else of the restore (R409). -/
theorem refuseRestore_refused (s : State) (unit : Nat) {code : Nat} (hc : code < 256) : RestoreRefused s (refuseRestore s unit code) code := by
  obtain ⟨hstate, hcode, -, -⟩ := ckpSts_quiet
  unfold refuseRestore
  refine ⟨?_, evt_raise _ .CKP 0 (by decide), ?_, ?_, ?_, ?_, ?_⟩
  · rw [rd_raise_quiet hcode, rd_logErr_quiet hcode, rd_wr_same]
    exact Nat.mod_eq_of_lt hc
  · rw [rd_raise_quiet hstate, rd_logErr_quiet hstate, rd_wr_apart (by decide)]
  all_goals simp

theorem imageCode_lt (s : State) (h : List Byte) : imageCode s h < 256 := by
  unfold imageCode
  dsimp only
  repeat' split
  all_goals omega

/-- Whether a RESTORE may not run at all (R409 item 8). -/
def restoreBusy (s : State) : Bool :=
  !(liveCtxs s).isEmpty || !(s.tmp.phase == .idle || s.tmp.phase == .stopped) || (!s.on R.CKP_RESTORE_SOURCE 0 && !s.on R.CKP_STS_DRIVE_READY 0)

theorem restoreBusy_free {s : State} (hl : liveCtxs s = []) (hp : s.tmp.phase = .idle ∨ s.tmp.phase = .stopped)
    (hd : s.on R.CKP_RESTORE_SOURCE 0 = true ∨ s.on R.CKP_STS_DRIVE_READY 0 = true) : restoreBusy s = false := by
  unfold restoreBusy
  rw [hl]
  rcases hp with hp | hp <;> rcases hd with hd | hd <;> simp [hp, hd]

theorem restoreBusy_busy {s : State} (h : liveCtxs s ≠ [] ∨ (s.tmp.phase ≠ .idle ∧ s.tmp.phase ≠ .stopped) ∨
    (s.on R.CKP_RESTORE_SOURCE 0 = false ∧ s.on R.CKP_STS_DRIVE_READY 0 = false)) : restoreBusy s = true := by
  unfold restoreBusy
  rcases h with h | ⟨h, h'⟩ | ⟨h, h'⟩
  · simp [h]
  · simp [h, h']
  · simp [h, h']

/-- The image from which a refusal is counted: the host's, or that of the drive. -/
def restoreUnit (s : State) : Nat := if s.on R.CKP_RESTORE_SOURCE 0 then 2 else 0

theorem restoreOp_busy {s : State} (a b h : List Byte) (h0 : s.rd R.CKP_STS_STATE 0 = 0) (hb : restoreBusy s = true) :
    restoreOp s a b h = refuseRestore s (restoreUnit s) 8 := by
  unfold restoreOp
  rw [if_neg (not_not_intro h0)]
  exact if_pos hb

/-- A restore of an image begins (R409). -/
def restoreBegun (s : State) (unit : Nat) (h : List Byte) : State :=
  let u := if s.on R.CKP_RESTORE_SOURCE 0 then s else s.inc R.CKP_RD_BYTES_BYTES 0 12288
  setCkpState { u with ckp := { u.ckp with restoring := some { source := unit, step := fieldAt h 8 8 } } } 3

theorem restoreOp_selects {s : State} (a b h : List Byte) (h0 : s.rd R.CKP_STS_STATE 0 = 0) (hb : restoreBusy s = false) :
    restoreOp s a b h = match selectImage s a b h with
      | none => refuseRestore s (restoreUnit s) 1
      | some (unit, h) => if imageCode s h ≠ 0 then refuseRestore s unit (imageCode s h) else restoreBegun s unit h := by
  unfold restoreOp
  rw [if_neg (not_not_intro h0)]
  exact if_neg (fun h => Bool.false_ne_true (hb.symm.trans h))

/-- The mutable state and the stripe in bank A, with the bytes counted that came from the drive. -/
def restoreStored (s : State) (r : Restoring) (m w : List Byte) : State :=
  let u := (s.store s.map.msA m).store (s.map.wcA + (ownWcPart s).1) w
  if r.source = 2 then u else u.inc R.CKP_RD_BYTES_BYTES 0 (pad4k m.length + pad4k w.length)

theorem restoreStored_mem (s : State) (r : Restoring) (m w : List Byte) :
    (restoreStored s r m w).mem = ((s.store s.map.msA m).store (s.map.wcA + (ownWcPart s).1) w).mem := by
  unfold restoreStored
  dsimp only
  split <;> rfl

theorem restoreStored_ctxs (s : State) (r : Restoring) (m w : List Byte) : (restoreStored s r m w).ctxs = s.ctxs := by
  unfold restoreStored
  dsimp only
  split <;> rfl

/-- The step state that a restore of `u` sets in one act (R410). -/
def restoreSet (u : State) (r : Restoring) : State :=
  { u with
    tmp := { u.tmp with
      activeBank := false, tempered := r.step, step := r.step + 1, att := 0, replayCount := 0, lastReason := .none,
      holdValid := false, wardHoldValid := false, phase := .idle }
    attempt := Attempt.fresh
    ckp := { u.ckp with restoring := none } }

theorem restoreDone_whole {s : State} {r : Restoring} {m w : List Byte} (hr : s.ckp.restoring = some r) (hm : m.length = s.map.msSize)
    (hw : w.length = (ownWcPart s).2) : restoreDone s (some m) (some w) =
      raise (setCkpState (((restoreSet (restoreStored s r m w) r).wr R.CKP_STS_RESTORED 0 1).wr R.CKP_STS_FILLED 0 0) 0) .CKP 0 6 := by
  unfold restoreDone
  rw [hr]
  dsimp only
  rw [if_neg (by simp [hm, hw])]
  rfl

theorem restoreDone_failed {s : State} {r : Restoring} {ms wc : Option (List Byte)} (hr : s.ckp.restoring = some r) (h : ms = none ∨ wc = none) :
    restoreDone s ms wc = restoreFails s r := by
  unfold restoreDone
  rw [hr]
  rcases h with rfl | rfl
  · rfl
  · cases ms <;> rfl

/-- The bytes of a restore whose data cannot be read: bank A alone is undefined. -/
theorem byte_undefine_other (s : State) {lo len x : Nat} (h : x < lo ∨ lo + len ≤ x) : (s.undefine lo len).mem.byte x = s.mem.byte x :=
  byte_blankRange_other _ _ h

/-- The banks that a failed restore leaves undefined. -/
def restoreLost (s : State) : State :=
  ({ s with ckp := { s.ckp with restoring := none } }.undefine s.map.wcA s.map.wcSize).undefine s.map.msA s.map.msSize

/-- The failure of a restore's data read, logged where the drive was its source. -/
def restoreLogged (s : State) (r : Restoring) : State :=
  if r.source = 2 then restoreLost s else logDrive (restoreLost s) r.source 0 0

theorem restoreFails_eq (s : State) (r : Restoring) : restoreFails s r = raise (setCkpState (restoreLogged s r) 0) .CKP 0 7 := rfl

theorem restoreLogged_keeps {β : Type} (π : State → β) (h : ∀ u a b c, π (logDrive u a b c) = π u) (s : State) (r : Restoring) :
    π (restoreLogged s r) = π (restoreLost s) := by
  unfold restoreLogged
  split
  · rfl
  · exact h _ _ _ _

/-! ## Fill -/

/-- A register that no flow's opening writes reads as before after packets are queued. -/
theorem rd_queuePkt {f : Field} {i : Nat} (hq : loud (f.key i) = false) (he : ∀ d, f.key i ≠ R.FLW_EVICT_EVICT.key d)
    (hw : ∀ d, f.key i ≠ R.FLW_ALLOC_WAIT_ALLOC_WAIT.key d) (s : State) (node : Nat) (p : OutPkt) : (queuePkt s node p).rd f i = s.rd f i := by
  have hctrl : ∀ (u : State) (a b c d e : Nat), (sendCtrl u a b c d e).1.rd f i = u.rd f i := by
    intro u a b c d e
    unfold sendCtrl
    split <;> rfl
  unfold queuePkt
  split
  · rfl
  · split
    · exact hctrl _ _ _ _ _ _
    · split
      · exact (hctrl _ _ _ _ _ _).trans ((rd_inc_other _ _ (he _)).trans (hctrl _ _ _ _ _ _))
      · exact (rd_raise_quiet hq _ _ _ _).trans (rd_inc_other _ _ (hw _))

theorem rd_fillAdvance {f : Field} {i : Nat} (hq : loud (f.key i) = false) (he : ∀ d, f.key i ≠ R.FLW_EVICT_EVICT.key d)
    (hw : ∀ d, f.key i ≠ R.FLW_ALLOC_WAIT_ALLOC_WAIT.key d) (s : State) : (fillAdvance s).rd f i = s.rd f i := by
  have hall : ∀ (l : List Load) (u : State), (fillBegin u l).rd f i = u.rd f i := by
    intro l
    induction l with
    | nil => exact fun _ => rfl
    | cons x l ih =>
      intro u
      unfold fillBegin
      split
      · exact (ih _).trans (foldl_keeps (fun t : State => t.rd f i) (fun p t => rd_queuePkt hq he hw t _ p) _ _)
      · rfl
  exact hall _ _

/-- The state in which a fill's reads are over. -/
def fillOver (s : State) : State := abandonPackets { s with ckp := { s.ckp with loads := [] } } (· == .fill)

theorem fillDone_whole {s : State} {m : List Byte} (stripes : List (Nat × List Byte)) (h4 : s.rd R.CKP_STS_STATE 0 = 4)
    (hm : s.rd R.CKP_CFG_WC_MODE 0 ≠ 1) (hl : m.length = s.map.mrSize) : fillDone s (some m) stripes =
      raise (setCkpState (((fillOver s).store s.map.mrA m).wr R.CKP_STS_FILLED 0 1) 0) .CKP 0 8 := by
  unfold fillDone
  rw [if_neg (not_not_intro h4)]
  refine (congrArg (fun u => raise (setCkpState (State.wr u R.CKP_STS_FILLED 0 1) 0) .CKP 0 8) (if_neg hm)).trans ?_
  exact congrArg (fun b => raise (setCkpState (((fillOver s).store s.map.mrA b).wr R.CKP_STS_FILLED 0 1) 0) .CKP 0 8)
    (List.take_of_length_le (i := (fillOver s).map.mrSize) (Nat.le_of_eq hl))

theorem fillDone_failed {s : State} (stripes : List (Nat × List Byte)) (h4 : s.rd R.CKP_STS_STATE 0 = 4) : fillDone s none stripes =
    raise (setCkpState (logErr ((fillOver s).wr R.CKP_STS_LAST_CODE 0 9) .CKP 0 9 .COMMAND 0 0 [0, 0, 0]) 0) .CKP 0 9 := by
  unfold fillDone
  rw [if_neg (not_not_intro h4)]
  rfl

/-- The two stores of a restore, byte by byte, outside Touchmark's table. -/
theorem byte_store_store (s : State) {a b : Nat} {m w : List Byte} {x : Nat} (ht : OffTable (s.rd R.TCH_TABLE_BASE 0) (s.rd R.TCH_LEN_LEN 0) x) :
    (∀ i (hi : i < w.length), x = b + i → ((s.store a m).store b w).mem.byte x = w[i]) ∧
    ((x < b ∨ b + w.length ≤ x) → (∀ i (hi : i < m.length), x = a + i → ((s.store a m).store b w).mem.byte x = m[i]) ∧
      ((x < a ∨ a + m.length ≤ x) → ((s.store a m).store b w).mem.byte x = s.mem.byte x)) := by
  refine ⟨fun i hi hx => ?_, fun hout => ⟨fun i hi hx => ?_, fun hx => ?_⟩⟩
  · subst hx
    exact byte_store_same (s.store a m) ht hi
  · rw [byte_store_other (s.store a m) ht hout]
    subst hx
    exact byte_store_same _ ht hi
  · rw [byte_store_other (s.store a m) ht hout]
    exact byte_store_other _ ht hx

/-- Settles O47: a restore is judged, loads bank A and sets the step state; a fill begins in IDLE and puts the mirror into bank A. -/
theorem restoreAndFill : Obligations.RestoreAndFill := by
  unfold Obligations.RestoreAndFill
  obtain ⟨qstate, qcode, qrest, qfill⟩ := ckpSts_quiet
  intro s on
  refine ⟨fun a b h unit img h0 hl hp hd hsel hc => ?_, fun a b h h0 hl hp hd hsel => ?_, fun a b h unit img h0 hl hp hd hsel hc => ?_,
    fun a b h h0 hb => ?_, fun a b h h0 => ?_, fun r m w hr hm hw => ?_, fun r ms wc hr h => ?_, fun h0 => ?_, fun h0 => ?_,
    fun m stripes h4 hmode hl => ?_, fun stripes h4 => ?_, fun mr stripes h4 => ?_⟩
  · refine ⟨restoreBegun s unit img, (live_on on _).trans (congrArg Host.Outcome.next
      ((restoreOp_selects a b h h0 (restoreBusy_free hl hp hd)).trans ?_)), ?_⟩
    · rw [hsel]
      exact if_neg (not_not_intro hc)
    · unfold restoreBegun
      dsimp only
      split
      · exact ⟨rd_wr_same _ _ _ _, rfl, rfl, rfl, rfl⟩
      · exact ⟨rd_wr_same _ _ _ _, rfl, rfl, rfl, rfl⟩
  · refine ⟨refuseRestore s (restoreUnit s) 1, (live_on on _).trans (congrArg Host.Outcome.next
      ((restoreOp_selects a b h h0 (restoreBusy_free hl hp hd)).trans ?_)), refuseRestore_refused s _ (by decide)⟩
    rw [hsel]
  · refine ⟨refuseRestore s unit (imageCode s img), (live_on on _).trans (congrArg Host.Outcome.next
      ((restoreOp_selects a b h h0 (restoreBusy_free hl hp hd)).trans ?_)), refuseRestore_refused s _ (imageCode_lt s img)⟩
    rw [hsel]
    exact if_pos hc
  · exact ⟨_, (live_on on _).trans (congrArg Host.Outcome.next (restoreOp_busy a b h h0 (restoreBusy_busy hb))), refuseRestore_refused s _ (by decide)⟩
  · exact (live_on on _).trans (congrArg Host.Outcome.next (if_pos h0))
  · refine ⟨_, (live_on on _).trans (congrArg Host.Outcome.next (restoreDone_whole hr hm hw)), ?_, ?_, ?_, ?_, ?_, ?_, ?_, ?_, ?_, ?_,
      evt_raise _ .CKP 0 (by decide), ?_, fun x hx => ?_⟩
    · rw [raise_ckp]; rfl
    · rw [raise_tmp]; rfl
    · rw [raise_tmp]; rfl
    · rw [raise_tmp]; rfl
    · rw [raise_tmp]; rfl
    · rw [raise_tmp]; rfl
    · rw [raise_tmp]; rfl
    · rw [rd_raise_quiet qstate]; exact rd_wr_same _ _ _ _
    · rw [rd_raise_quiet qrest, setCkpState, rd_wr_apart (by decide), rd_wr_apart (by decide)]; exact rd_wr_same _ _ _ _
    · rw [rd_raise_quiet qfill, setCkpState, rd_wr_apart (by decide)]; exact rd_wr_same _ _ _ _
    · rw [raise_ctxs]; exact restoreStored_ctxs s r m w
    · have hmem : (raise (setCkpState (((restoreSet (restoreStored s r m w) r).wr R.CKP_STS_RESTORED 0 1).wr R.CKP_STS_FILLED 0 0) 0) .CKP 0 6).mem =
          ((s.store s.map.msA m).store (s.map.wcA + (ownWcPart s).1) w).mem := (raise_mem _ _ _ _).trans (restoreStored_mem s r m w)
      rw [hmem]
      exact byte_store_store s hx
  · refine ⟨_, (live_on on _).trans (congrArg Host.Outcome.next (restoreDone_failed hr h)), ?_, ?_, evt_raise _ .CKP 0 (by decide), ?_, ?_, fun x hw hm => ?_⟩
    · rw [restoreFails_eq, raise_ckp]
      exact congrArg Ckp.restoring (restoreLogged_keeps (·.ckp) (by simp) s r)
    · rw [restoreFails_eq, rd_raise_quiet qstate]
      exact rd_wr_same _ _ _ _
    · rw [restoreFails_eq, raise_tmp]
      exact restoreLogged_keeps (·.tmp) (by simp) s r
    · rw [restoreFails_eq, raise_ctxs]
      exact restoreLogged_keeps (·.ctxs) (by simp) s r
    · rw [restoreFails_eq, raise_mem]
      refine (congrArg (Memory.byte · x) (restoreLogged_keeps (·.mem) (by simp) s r)).trans ?_
      exact (byte_undefine_other _ hm).trans (byte_undefine_other _ hw)
  · refine ⟨_, (live_on on _).trans (congrArg Host.Outcome.next (if_neg (not_not_intro h0))), ?_, ?_, ?_, ?_⟩
    · rw [rd_fillAdvance qstate (ckpSts_apart_flw rfl) (ckpSts_apart_flw rfl)]
      exact rd_wr_same _ _ _ _
    · rw [fillAdvance_mem]; rfl
    · rw [fillAdvance_ctxs]; rfl
    · rw [fillAdvance_tmp]; rfl
  · exact (live_on on _).trans (congrArg Host.Outcome.next (if_pos h0))
  · refine ⟨_, (live_on on _).trans (congrArg Host.Outcome.next (fillDone_whole stripes h4 hmode hl)), ?_, ?_, evt_raise _ .CKP 0 (by decide),
      fun x hx => ?_, ?_, ?_, ?_⟩
    · rw [rd_raise_quiet qstate]; exact rd_wr_same _ _ _ _
    · rw [rd_raise_quiet qfill, setCkpState, rd_wr_apart (by decide)]; exact rd_wr_same _ _ _ _
    · rw [raise_mem]
      refine ⟨fun i hi hxi => ?_, fun hout => ?_⟩
      · subst hxi
        exact byte_store_same (fillOver s) hx hi
      · exact byte_store_other (fillOver s) hx hout
    · rw [raise_ckp]; rfl
    · rw [raise_ctxs]; rfl
    · rw [raise_tmp]; rfl
  · refine ⟨_, (live_on on _).trans (congrArg Host.Outcome.next (fillDone_failed stripes h4)), ?_, ?_, evt_raise _ .CKP 0 (by decide), ?_, ?_, ?_, ?_⟩
    · rw [rd_raise_quiet qstate]; exact rd_wr_same _ _ _ _
    · rw [rd_raise_quiet qcode, setCkpState, rd_wr_apart (by decide), rd_logErr_quiet qcode]; exact rd_wr_same _ _ _ _
    · rw [raise_ckp, setCkpState, State.wr_ckp, logErr_ckp]; rfl
    · rw [raise_mem, setCkpState, wr_mem, logErr_mem]; rfl
    · rw [raise_ctxs, setCkpState, State.wr_ctxs, logErr_ctxs]; rfl
    · rw [raise_tmp, setCkpState, State.wr_tmp, logErr_tmp]; rfl
  · exact (live_on on _).trans (congrArg Host.Outcome.next (if_pos h4))

end Sys2Proof.Machine

namespace Sys2Proof.Machine

open Sys2Proof

/-! ## Results of the vote tree and the registers of a cut -/

/-- A field of CKP or TMP that no bookkeeping writes. -/
def Field.ofCut (f : Field) : Bool := (f.page == .CKP || f.page == .TMP) && !loud (f.key 0)

theorem Field.ofCut_quiet {f : Field} (h : f.ofCut = true) : loud (f.key 0) = false := by
  unfold Field.ofCut at h
  rw [Bool.and_eq_true, Bool.not_eq_true'] at h
  exact h.2

/-- The registers of the transport and of Weld lie on other pages. -/
theorem Field.ofCut_apart {f g : Field} (h : f.ofCut = true) (hg : g.page = .FLW ∨ g.page = .WLD ∨ g.page = .XPT) (d : Nat) : f.key 0 ≠ g.key d := by
  intro e
  have hslot : canonSlot (slotOf f.page 0) = canonSlot (slotOf g.page d) := congrArg Key.slot e
  unfold Field.ofCut at h
  simp only [Bool.and_eq_true, Bool.or_eq_true, beq_iff_eq] at h
  have hlow : canonSlot (slotOf f.page 0) < 0x100 := by
    rcases h.1 with h | h <;> rw [h] <;> decide
  have hhigh : 0x100 ≤ canonSlot (slotOf g.page d) := by
    unfold canonSlot
    rcases hg with hg | hg | hg <;> rw [hg] <;> unfold slotOf <;> dsimp only <;> split <;> omega
  omega

theorem rd_sendResult {f : Field} (h : f.ofCut = true) (s : State) (tree : Nat) (bs : List Byte) : (sendResult s tree bs).rd f 0 = s.rd f 0 := by
  unfold sendResult
  refine foldl_keeps (fun t : State => t.rd f 0) (fun k t => ?_) _ s
  unfold sendTree
  rw [rd_queuePkt (Field.ofCut_quiet h) (Field.ofCut_apart h (.inl rfl)) (Field.ofCut_apart h (.inl rfl)),
    rd_inc_other _ _ (Field.ofCut_apart h (.inr (.inl rfl)) _)]

theorem queuePkt_slc (s : State) (node : Nat) (p : OutPkt) : (queuePkt s node p).xp.slc = s.xp.slc := by
  have hctrl : ∀ (u : State) (a b c d e : Nat), (sendCtrl u a b c d e).1.xp.slc = u.xp.slc := fun u a b c d e => by rw [sendCtrl_xp]
  unfold queuePkt
  split
  · rfl
  · split
    · exact hctrl _ _ _ _ _ _
    · split
      · exact (hctrl _ _ _ _ _ _).trans (hctrl _ _ _ _ _ _)
      · dsimp only
        rw [raise_xp]
        rfl

theorem sendResult_slc (s : State) (tree : Nat) (bs : List Byte) : (sendResult s tree bs).xp.slc = s.xp.slc :=
  foldl_keeps (fun t : State => t.xp.slc) (fun _ u => queuePkt_slc (State.inc u R.WLD_TX_BYTES_TX_BYTES 0 _) _ _) _ s

/-! ## The end of a cut -/

theorem clearOwnPending_flows (s : State) (step : Nat) : (clearOwnPending s step).xp.flows = s.xp.flows := by
  unfold clearOwnPending clearPending
  dsimp only
  split
  · split
    · rw [setCutPending_xp]
    · rfl
  · rfl

theorem rd_clearOwnPending {f : Field} {i : Nat} (h : loud (f.key i) = false) (s : State) (step : Nat) : (clearOwnPending s step).rd f i = s.rd f i :=
  clearOwnPending_quiet _ _ _ h

/-- The cut taken off, with the pending one that was its own. -/
def cutTaken (s : State) (c : Cut) : State := clearOwnPending { s with ckp := { s.ckp with cut := none } } c.step

/-- The time that the cut took, in microseconds, as CKP_LAST_US shows it. -/
def cutUs (s : State) (c : Cut) : Nat := min (2 ^ 32 - 1) (((cutTaken s c).clock - c.began) / 1000)

theorem endCut_eq {s : State} {c : Cut} (h : s.ckp.cut = some c) (ok : Bool) : endCut s ok =
    raise (setCkpState (((cutTaken s c).wr R.CKP_LAST_US_US 0 (cutUs s c)).inc (if ok then R.CKP_CUTS_DONE else R.CKP_CUTS_FAILED) 0 1) 0)
      .CKP 0 (if ok then 4 else 5) := by
  unfold endCut
  rw [h]
  rfl

/-- The fields that a cut's end leaves as they are. -/
theorem rd_endCut {f : Field} (hq : loud (f.key 0) = false) (h1 : f.apart R.CKP_LAST_US_US = true) (h2 : f.apart R.CKP_CUTS_DONE = true)
    (h3 : f.apart R.CKP_CUTS_FAILED = true) (h4 : f.apart R.CKP_STS_STATE = true) {s : State} {c : Cut} (h : s.ckp.cut = some c) (ok : Bool) :
    (endCut s ok).rd f 0 = s.rd f 0 := by
  rw [endCut_eq h, rd_raise_quiet hq, setCkpState, rd_wr_apart h4, rd_inc_apart (by cases ok <;> assumption), rd_wr_apart h1]
  exact rd_clearOwnPending hq _ _

theorem endCut_ckp {s : State} {c : Cut} (h : s.ckp.cut = some c) (ok : Bool) : (endCut s ok).ckp = { s.ckp with cut := none } := by
  rw [endCut_eq h, raise_ckp]
  exact clearOwnPending_ckp _ _

theorem endCut_flows (s : State) (ok : Bool) : (endCut s ok).xp.flows = s.xp.flows := by
  cases h : s.ckp.cut with
  | none => unfold endCut; rw [h]
  | some c =>
    rw [endCut_eq h, raise_xp]
    exact clearOwnPending_flows _ _

/-- The counter of cuts that ended so. -/
def cutCount (ok : Bool) : Field := if ok then R.CKP_CUTS_DONE else R.CKP_CUTS_FAILED

theorem cutCount_quiet (ok : Bool) : loud ((cutCount ok).key 0) = false ∧ (cutCount ok).apart R.CKP_STS_STATE = true ∧
    (cutCount ok).apart R.CKP_LAST_US_US = true ∧ (cutCount ok).apart R.CKP_STS_LAST_CODE = true ∧ (cutCount ok).ofCut = true ∧ (cutCount ok).width = 32 := by
  cases ok <;> decide

theorem endCut_ends {s : State} {c : Cut} (h : s.ckp.cut = some c) (ok : Bool) : CutEnds s (endCut s ok) c ok := by
  obtain ⟨hstate, -, -, -⟩ := ckpSts_quiet
  obtain ⟨hq, hs, hu, -, -, hw⟩ := cutCount_quiet ok
  refine ⟨by rw [endCut_ckp h], ?_, ?_, ?_, endCut_mem _ _, endCut_ctxs _ _, endCut_tmp _ _⟩
  · rw [endCut_eq h, rd_raise_quiet hstate]
    exact rd_wr_same _ _ _ _
  · show (endCut s ok).rd (cutCount ok) 0 = min (2 ^ 32 - 1) (s.rd (cutCount ok) 0 + 1)
    rw [endCut_eq h, rd_raise_quiet hq, setCkpState, rd_wr_apart hs]
    refine (rd_inc_same _ (cutCount ok) _ _).trans ?_
    rw [hw, rd_wr_apart hu]
    exact congrArg (fun n => min (2 ^ 32 - 1) (n + 1)) (rd_clearOwnPending hq _ _)
  · rw [endCut_eq h]
    exact evt_raise _ .CKP 0 (by cases ok <;> decide)

/-- A cut's end from a state that shows the same counts, memory, contexts and step. -/
theorem CutEnds.from {s u t : State} {c : Cut} {ok : Bool} (h : CutEnds u t c ok) (hr : u.rd (cutCount ok) 0 = s.rd (cutCount ok) 0)
    (hm : u.mem = s.mem) (hc : u.ctxs = s.ctxs) (ht : u.tmp = s.tmp) : CutEnds s t c ok := by
  obtain ⟨n, i, co, e, m, cx, tm⟩ := h
  refine ⟨n, i, ?_, e, m.trans hm, cx.trans hc, tm.trans ht⟩
  exact co.trans (congrArg (fun n => min (2 ^ 32 - 1) (n + 1)) hr)

/-- A packet that ends a cut is acknowledged, and the cut is over. -/
theorem CutEnds.acknowledged {s t : State} {c : Cut} {ok : Bool} (h : CutEnds s t c ok) (f q d1 len d2 : Nat) :
    CutEnds s (noteDelivery ((t.inc R.WLD_RX_BYTES_RX_BYTES d1 len).inc R.XPT_RX_PKTS_RX_PKTS d2 1) f q) c ok := by
  obtain ⟨n, i, co, e, m, cx, tm⟩ := h
  have hrd : ∀ {g : Field}, g.ofCut = true → ((t.inc R.WLD_RX_BYTES_RX_BYTES d1 len).inc R.XPT_RX_PKTS_RX_PKTS d2 1).rd g 0 = t.rd g 0 := fun hg => by
    rw [rd_inc_other _ _ (Field.ofCut_apart hg (.inr (.inr rfl)) _), rd_inc_other _ _ (Field.ofCut_apart hg (.inr (.inl rfl)) _)]
  obtain ⟨-, -, -, -, hcut, -⟩ := cutCount_quiet ok
  have hev : Evt t (slotOf .CKP 0) (if ok then 4 else 5) := e
  exact ⟨n, (hrd (by decide)).trans i, (hrd hcut).trans co, (hev.inc (by decide) _ _).inc (by decide) _ _, m, cx, tm⟩

theorem deliverResult_acts {s : State} {p : Packet} {tree : Nat} (ht : wTree p = tree) (hl : (wData p).length = 64) (f : Nat) :
    deliverResult (· == tree) s f p = (resultActs (sendResult s tree (wData p)) tree (wData p), .done) := by
  unfold deliverResult
  dsimp only
  rw [if_pos (by simp [ht, hl]), ht]

theorem postCutResult_ok {s : State} {c : Cut} {bs : List Byte} (hc : s.ckp.cut = some c) (hp : c.stage = .post) (h1 : fieldAt bs 0x10 8 = 1)
    (h2 : fieldAt bs 0 8 = fieldAt bs 8 8) : postCutResult s bs =
      issueFirst (s.setCut (some { c with stage := .confirm })) (confirmPlan s c.step ++ [.cutDone]) := by
  unfold postCutResult postCutActs
  rw [hc]
  dsimp only
  rw [if_neg (not_not_intro hp), if_pos ⟨h1, h2⟩]
  rfl

theorem postCutResult_bad {s : State} {c : Cut} {bs : List Byte} (hc : s.ckp.cut = some c) (hp : c.stage = .post)
    (h : fieldAt bs 0x10 8 ≠ 1 ∨ fieldAt bs 0 8 ≠ fieldAt bs 8 8) : postCutResult s bs = endCut s false := by
  unfold postCutResult postCutActs
  rw [hc]
  dsimp only
  rw [if_neg (not_not_intro hp), if_neg (fun e => h.elim (· e.1) (· e.2))]
  rfl

theorem preCutResult_bad {s : State} {c : Cut} {bs : List Byte} (hc : s.ckp.cut = some c) (hp : c.stage = .pre)
    (h : fieldAt bs 0 8 ≠ fieldAt bs 8 8) : preCutResult s bs = endCut s false := by
  unfold preCutResult
  rw [hc]
  dsimp only
  rw [if_neg (not_not_intro hp), if_pos h]

/-- The cut as its drive work begins. -/
def Cut.driven (c : Cut) (s : State) (p : Nat) : Cut := { c with slot := (chooseSlot s p).1, stage := .drive }

/-- The plan of a cut whose slice agrees on the last image `p` (R401, R403). -/
def cutPlan (s : State) (c : Cut) (p : Nat) : List DriveOp :=
  (if (chooseSlot s p).2 then confirmPlan s p else []) ++ writePlan s (c.driven s p)

theorem cutPlan_first (s : State) (c : Cut) (p : Nat) : ∃ op rest, cutPlan s c p = op :: rest ∧ op.isCommand = true := by
  unfold cutPlan
  split
  · exact ⟨_, _, rfl, rfl⟩
  · exact ⟨_, _, rfl, rfl⟩

theorem driveRun_command {s : State} {op : DriveOp} (h : op.isCommand = true) (rest : List DriveOp) : driveRun s (op :: rest) = issueFirst s (op :: rest) := by
  rw [driveRun, if_pos h]

/-- `u` shows a cut what `s` shows it: its registers, the map, the slice, the step and the drive's state. -/
structure CutView (s u : State) : Prop where
  rd : ∀ {f : Field}, f.ofCut = true → u.rd f 0 = s.rd f 0
  map : u.map = s.map
  slc : u.xp.slc = s.xp.slc
  tmp : u.tmp = s.tmp
  ckp : u.ckp = s.ckp

theorem cutView_sendResult (s : State) (tree : Nat) (bs : List Byte) : CutView s (sendResult s tree bs) where
  rd := fun h => rd_sendResult h s tree bs
  map := map_of_kept (sendResult_kept _ _ _)
  slc := sendResult_slc _ _ _
  tmp := sendResult_tmp _ _ _
  ckp := sendResult_ckp _ _ _

theorem CutView.ownWcPart {s u : State} (h : CutView s u) : ownWcPart u = ownWcPart s := by
  unfold Machine.ownWcPart ownRank sliceSize
  rw [h.rd (by decide), h.rd (by decide), h.rd (by decide), h.map]

theorem CutView.imageSize {s u : State} (h : CutView s u) : imageSize u = imageSize s := by
  unfold Machine.imageSize
  rw [h.ownWcPart, h.map]

theorem CutView.on {s u : State} (h : CutView s u) {f : Field} (hf : f.ofCut = true) : u.on f 0 = s.on f 0 := congrArg (· == 1) (h.rd hf)

theorem CutView.chooseSlot {s u : State} (h : CutView s u) (p : Nat) : chooseSlot u p = chooseSlot s p := by
  have hh : ∀ k, k < 2 → holds u k p = holds s k p := by
    intro k hk
    unfold holds
    obtain rfl | rfl : k = 0 ∨ k = 1 := by omega
    · rw [h.on (by decide), h.rd (by decide)]
    · rw [h.on (by decide), h.rd (by decide)]
  unfold Machine.chooseSlot
  rw [h.on (by decide), h.on (by decide), h.rd (by decide), h.rd (by decide), h.rd (by decide), hh 0 (by decide), hh 1 (by decide)]

theorem CutView.confirmPlan {s u : State} (h : CutView s u) (p : Nat) : confirmPlan u p = confirmPlan s p := by
  unfold Machine.confirmPlan confirmRecord
  rw [h.ckp, h.slc]

theorem CutView.slotHeader {s u : State} (h : CutView s u) (c : Cut) (sl : Bool) : slotHeader u c sl = slotHeader s c sl := by
  unfold Machine.slotHeader ownRank sliceSize
  rw [h.ownWcPart, h.map, h.slc, h.rd (by decide), h.rd (by decide), h.rd (by decide), h.rd (by decide)]

theorem CutView.writePlan {s u : State} (h : CutView s u) (c : Cut) : writePlan u c = writePlan s c := by
  unfold Machine.writePlan slotBase copyPlan
  rw [h.slotHeader, h.slotHeader, h.ownWcPart, h.map, h.tmp, h.ckp, h.rd (by decide)]

theorem CutView.driven {s u : State} (h : CutView s u) (c : Cut) (p : Nat) : c.driven u p = c.driven s p := by
  unfold Cut.driven
  rw [h.chooseSlot]

theorem CutView.cutPlan {s u : State} (h : CutView s u) (c : Cut) (p : Nat) : cutPlan u c p = cutPlan s c p := by
  unfold Machine.cutPlan
  rw [h.chooseSlot, h.confirmPlan, h.driven, h.writePlan]

/-- A slice that agrees, with a drive and space, begins the cut's plan (R401, R403). -/
theorem preCutResult_good {s : State} {c : Cut} {bs : List Byte} (hc : s.ckp.cut = some c) (hp : c.stage = .pre)
    (h : fieldAt bs 0 8 = fieldAt bs 8 8) (hd : s.rd R.CKP_STS_DRIVE_READY 0 = 1) (hi : imageSize s ≤ s.rd R.CKP_SLOT_SIZE 0) :
    preCutResult s bs = issueFirst (s.setCut (some (c.driven s (fieldAt bs 0x10 8)))) (cutPlan s c (fieldAt bs 0x10 8)) := by
  obtain ⟨op, rest, hplan, hop⟩ := cutPlan_first s c (fieldAt bs 0x10 8)
  have hon : (s.setCut (some (c.driven s (fieldAt bs 0x10 8)))).on R.CKP_STS_DRIVE_READY 0 = true := beq_iff_eq.2 hd
  unfold preCutResult
  rw [hc]
  dsimp only
  rw [if_neg (not_not_intro hp), if_neg (not_not_intro h)]
  refine (if_neg (fun e => ?_)).trans ((if_neg (Nat.not_lt.2 hi)).trans ?_)
  · exact Bool.false_ne_true ((Bool.not_eq_true' _ ▸ e : _ = false).symm.trans hon)
  · show driveRun (s.setCut (some (c.driven s (fieldAt bs 0x10 8)))) (cutPlan s c (fieldAt bs 0x10 8)) = _
    rw [hplan, driveRun_command hop]

/-! ## The drive -/

theorem driveFails_uncut {s : State} (h : s.ckp.cut = none) (status : Nat) : driveFails s status =
    raise (logDrive { s with ckp := { s.ckp with plan := [] } } (cutSlot s) 0 status) .CKP 0 10 := by
  unfold driveFails
  dsimp only
  rw [show (raise (logDrive { s with ckp := { s.ckp with plan := [] } } (cutSlot s) 0 status) .CKP 0 10).ckp.cut = none by rw [raise_ckp, logDrive_ckp]; exact h]

theorem logDrive_code (s : State) (slot addr status : Nat) : (logDrive s slot addr status).rd R.CKP_STS_LAST_CODE 0 = 6 := by
  unfold logDrive
  rw [rd_logErr_quiet ckpSts_quiet.2.1]
  exact rd_wr_same _ _ _ _

/-- A drive that fails without a cut under way stops the plan with DRIVE (R404). -/
theorem driveFails_stops {s : State} (h : s.ckp.cut = none) (status : Nat) :
    let t := driveFails s status
    t.ckp.plan = [] ∧ t.rd R.CKP_STS_LAST_CODE 0 = 6 ∧ bitOf (t.hrd R.EVT_STS 6) 10 = true ∧ t.mem = s.mem ∧ t.ctxs = s.ctxs ∧ t.tmp = s.tmp := by
  dsimp only
  rw [driveFails_uncut h]
  refine ⟨?_, ?_, evt_raise _ .CKP 0 (by decide), ?_, ?_, ?_⟩
  · rw [raise_ckp, logDrive_ckp]
  · rw [rd_raise_quiet ckpSts_quiet.2.1, logDrive_code]
  · rw [raise_mem, logDrive_mem]
  · rw [raise_ctxs, logDrive_ctxs]
  · rw [raise_tmp, logDrive_tmp]

/-- A cut whose record got no result in time, as it is logged (R403). -/
def cutLogged (s : State) (c : Cut) : State := logErr (s.wr R.CKP_STS_LAST_CODE 0 7) .CKP 0 7 .INFO c.slot 0 [0, 0, 0]

/-- The confirm record stands on the drive. -/
def confirmStands (s : State) (step seq copy : Nat) : State :=
  { (s.wr R.CKP_CONFIRMED_STEP 0 step) with ckp := { s.ckp with confirm := some (copy, seq) } }

/-- The last command of a confirm record ends the cut (Table 15.3 step 9). -/
theorem driveCompletes_confirmed {s : State} {step seq copy : Nat} (data : List Byte) (h : s.ckp.plan = [.flush, .confirmed step seq copy, .cutDone]) :
    driveCompletes s 0 data = { endCut (confirmStands s step seq copy) true with
      ckp := { (endCut (confirmStands s step seq copy) true).ckp with plan := [] } } := by
  unfold driveCompletes
  rw [h]
  rfl

/-- The drive's state as its initialisation begins (R407). -/
def driveReset (s : State) : State :=
  let u := (s.wr R.CKP_STS_DRIVE_READY 0 0).wr R.CKP_CONFIRMED_STEP 0 0
  { u with ckp := { u.ckp with confirm := none, xfer := 0x100000 } }

theorem driveInit_first (s : State) : ∃ rest, driveInit s = issueFirst (driveReset s) (.identify 1 :: rest) := ⟨_, rfl⟩

/-- What the plan of a cut leaves as its first command is issued and the result that began it is acknowledged. -/
theorem issueFirst_acknowledged (u : State) (x : Option Cut) (op : DriveOp) (rest : List DriveOp) (f q d1 len d2 : Nat) :
    let t := noteDelivery (((issueFirst (u.setCut x) (op :: rest)).inc R.WLD_RX_BYTES_RX_BYTES d1 len).inc R.XPT_RX_PKTS_RX_PKTS d2 1) f q
    t.ckp.cut = x ∧ t.ckp.plan = op :: rest ∧ op.message ∈ t.out ∧ t.ckp.issued = u.clock ∧ t.mem = u.mem ∧ t.ctxs = u.ctxs ∧ t.tmp = u.tmp :=
  ⟨rfl, rfl, .head _, rfl, rfl, rfl, rfl⟩

/-- Settles O46: the results of the vote tree and the drive's completions carry a cut from its records to its end. -/
theorem cutsRunTheirRecordsAndTheDrive : Obligations.CutsRunTheirRecordsAndTheDrive := by
  unfold Obligations.CutsRunTheirRecordsAndTheDrive
  intro s on
  have hheld : ∀ {k : Nat} {p : Packet} (tree : Nat), Arrives s k .WELD p → (flowOf (sendResult s tree (wData p)) p.flow).heldSignals = [] :=
    fun tree h => sendResult_held _ _ h.held
  have hcut : ∀ (tree : Nat) (bs : List Byte) {c : Cut}, s.ckp.cut = some c → (sendResult s tree bs).ckp.cut = some c := fun tree bs c hc => by
    rw [sendResult_ckp, hc]
  have hends : ∀ (tree : Nat) (bs : List Byte) {c : Cut}, s.ckp.cut = some c → CutEnds s (endCut (sendResult s tree bs) false) c false := fun tree bs c hc =>
    (endCut_ends (hcut tree bs hc) false).from (rd_sendResult (by decide) _ _ _) (sendResult_mem _ _ _) (sendResult_ctxs _ _ _) (sendResult_tmp _ _ _)
  refine ⟨fun k p c h hk ht hw hl hc hp hne => ?_, fun k p c h hk ht hw hl hc hp he hd hi => ?_, fun k p c h hk ht hw hl hc hp h1 he => ?_,
    fun k p c h hk ht hw hl hc hp hbad => ?_, fun c hc hst hdl => ?_, fun off bs op rest data hplan hop => ?_, fun c step seq copy data hplan hc hstep => ?_,
    fun op rest status data hplan hst hc => ?_, fun hplan hdue hc => ?_, fun a n w bs hb => ?_, fun a n w hb => ?_, fun h0 => ?_, fun h0 => ?_⟩
  · have hd : deliverResult (· == 2) s p.flow p = (endCut (sendResult s 2 (wData p)) false, .done) :=
      (deliverResult_acts hw hl _).trans (congrArg (·, Verdict.done) (preCutResult_bad (hcut 2 _ hc) hp hne))
    refine ⟨_, (onUnit_on on h.named _).trans (congrArg Host.Outcome.next ((if_pos hw).trans (receiveWeld_arrives h hk (.inl ht) hd ?_))),
      (hends 2 _ hc).acknowledged _ _ _ _ _⟩
    rw [flowOf_of_flows (endCut_flows _ _), hheld 2 h]
  · have hv := cutView_sendResult s 2 (wData p)
    have hd : deliverResult (· == 2) s p.flow p = (issueFirst ((sendResult s 2 (wData p)).setCut (some (c.driven s (fieldAt (wData p) 0x10 8))))
        (cutPlan s c (fieldAt (wData p) 0x10 8)), .done) := by
      refine (deliverResult_acts hw hl _).trans (congrArg (·, Verdict.done) ((preCutResult_good (hcut 2 _ hc) hp he ?_ ?_).trans ?_))
      · rw [hv.rd (by decide), hd]
      · rw [hv.imageSize, hv.rd (by decide)]
        exact hi
      · rw [hv.driven, hv.cutPlan]
    obtain ⟨op, rest, hplan, hop⟩ := cutPlan_first s c (fieldAt (wData p) 0x10 8)
    rw [hplan] at hd
    obtain ⟨tc, tp, tmsg, ti, tm, tx, tt⟩ := issueFirst_acknowledged (sendResult s 2 (wData p)) (some (c.driven s (fieldAt (wData p) 0x10 8))) op rest
      p.flow p.seq (flowDie p.flow) p.payload.length (planeDie k)
    refine ⟨_, op, rest, (onUnit_on on h.named _).trans (congrArg Host.Outcome.next ((if_pos hw).trans (receiveWeld_arrives h hk (.inl ht) hd (hheld 2 h)))),
      tc, tp, hop, tmsg, ti.trans (clock_of_kept (sendResult_kept _ _ _)), fun hch => ?_, fun hch => ?_, tm.trans (sendResult_mem _ _ _), tx.trans (sendResult_ctxs _ _ _),
      tt.trans (sendResult_tmp _ _ _)⟩
    · rw [← hplan, cutPlan, if_pos hch]
      rfl
    · rw [← hplan, cutPlan, hch, if_neg Bool.false_ne_true]
      rfl
  · have hv := cutView_sendResult s 3 (wData p)
    have hd : deliverResult (· == 3) s p.flow p = (issueFirst ((sendResult s 3 (wData p)).setCut (some { c with stage := .confirm }))
        (confirmPlan s c.step ++ [.cutDone]), .done) := by
      refine (deliverResult_acts hw hl _).trans (congrArg (·, Verdict.done) ((postCutResult_ok (hcut 3 _ hc) hp h1 he).trans ?_))
      rw [hv.confirmPlan]
    obtain ⟨op, rest, hplan⟩ : ∃ op rest, confirmPlan s c.step ++ [.cutDone] = op :: rest := ⟨_, _, rfl⟩
    rw [hplan] at hd ⊢
    obtain ⟨tc, tp, -, ti, tm, tx, tt⟩ := issueFirst_acknowledged (sendResult s 3 (wData p)) (some { c with stage := .confirm }) op rest
      p.flow p.seq (flowDie p.flow) p.payload.length (planeDie k)
    exact ⟨_, (onUnit_on on h.named _).trans (congrArg Host.Outcome.next ((if_pos hw).trans (receiveWeld_arrives h hk (.inl ht) hd (hheld 3 h)))),
      tc, tp, ti.trans (clock_of_kept (sendResult_kept _ _ _)), tm.trans (sendResult_mem _ _ _), tx.trans (sendResult_ctxs _ _ _), tt.trans (sendResult_tmp _ _ _)⟩
  · have hd : deliverResult (· == 3) s p.flow p = (endCut (sendResult s 3 (wData p)) false, .done) :=
      (deliverResult_acts hw hl _).trans (congrArg (·, Verdict.done) (postCutResult_bad (hcut 3 _ hc) hp hbad))
    refine ⟨_, (onUnit_on on h.named _).trans (congrArg Host.Outcome.next ((if_pos hw).trans (receiveWeld_arrives h hk (.inl ht) hd ?_))),
      (hends 3 _ hc).acknowledged _ _ _ _ _⟩
    rw [flowOf_of_flows (endCut_flows _ _), hheld 3 h]
  · obtain ⟨hq, -, -, hl, -, -⟩ := cutCount_quiet false
    have hcl : (cutLogged s c).ckp.cut = some c := by rw [cutLogged, logErr_ckp]; exact hc
    refine ⟨endCut (cutLogged s c) false, ?_, (endCut_ends hcl false).from ?_ ?_ ?_ ?_, ?_⟩
    · refine (live_on on _).trans (congrArg Host.Outcome.next ?_)
      unfold cutTimeout
      rw [hc]
      exact if_pos ⟨hst, hdl⟩
    · rw [cutLogged, rd_logErr_quiet hq, rd_wr_apart hl]
    · rw [cutLogged, logErr_mem]; rfl
    · rw [cutLogged, logErr_ctxs]; rfl
    · rw [cutLogged, logErr_tmp]; rfl
    · rw [rd_endCut ckpSts_quiet.2.1 (by decide) (by decide) (by decide) (by decide) hcl, cutLogged, rd_logErr_quiet ckpSts_quiet.2.1]
      exact rd_wr_same _ _ _ _
  · refine ⟨issueFirst (s.inc R.CKP_WR_BYTES_BYTES 0 bs.length) (op :: rest), (live_on on _).trans (congrArg Host.Outcome.next ?_), rfl, rfl, .head _,
      rd_inc_same _ _ _ _, rfl, rfl, rfl, rfl⟩
    unfold driveCompletes
    rw [hplan]
    exact driveRun_command hop rest
  · have hcs : (confirmStands s step seq copy).ckp.cut = some c := hc
    have hkept := endCut_ckp hcs true
    have he := (endCut_ends hcs true).from (s := s) (rd_wr_apart (by decide) _ _ _ _) rfl rfl rfl
    refine ⟨_, (live_on on _).trans (congrArg Host.Outcome.next (driveCompletes_confirmed data hplan)), ?_, ?_, ?_, rfl⟩
    · obtain ⟨n, i, co, e, m, cx, tm⟩ := he
      exact ⟨n, i, co, e, m, cx, tm⟩
    · refine (rd_endCut (by decide) (by decide) (by decide) (by decide) (by decide) hcs true).trans ?_
      exact (rd_wr_same s R.CKP_CONFIRMED_STEP 0 step).trans (Nat.mod_eq_of_lt hstep)
    · exact congrArg Ckp.confirm hkept
  · refine ⟨_, (live_on on _).trans (congrArg Host.Outcome.next ?_), driveFails_stops hc status⟩
    unfold driveCompletes
    rw [hplan]
    exact if_pos hst
  · refine ⟨_, (live_on on _).trans (congrArg Host.Outcome.next (if_pos ⟨?_, hdue⟩)), driveFails_stops hc 0⟩
    simpa using hplan
  · refine (live_on on _).trans (congrArg Host.Outcome.next ?_)
    unfold driveRequest
    rw [hb]
  · refine ⟨(logDrive s (cutSlot s) a 0).emit (.driveData false []), (live_on on _).trans (congrArg Host.Outcome.next ?_), .head _, logDrive_code _ _ _ _,
      logDrive_ckp _ _ _ _, logDrive_mem _ _ _ _, logDrive_ctxs _ _ _ _, logDrive_tmp _ _ _ _⟩
    unfold driveRequest
    rw [hb]
  · obtain ⟨rest, hinit⟩ := driveInit_first s
    refine ⟨_, (live_on on _).trans (congrArg Host.Outcome.next ((if_pos h0).trans hinit)), ?_, ?_, rfl, rfl, rfl, .head _, rfl, rfl, rfl⟩
    · exact (rd_wr_apart (by decide) (s.wr R.CKP_STS_DRIVE_READY 0 0) 0 0 0).trans (rd_wr_same s _ _ _)
    · exact rd_wr_same (s.wr R.CKP_STS_DRIVE_READY 0 0) _ _ _
  · exact (live_on on _).trans (congrArg Host.Outcome.next (if_neg h0))

end Sys2Proof.Machine
